-- ==== Sys2Proof/Word.lean ====
section
/-!
DEFINITION. The words the Kwaith's registers, addresses and frames are made of (R4, R5, R11).
-/
namespace Sys2Proof

/-- A byte, the unit of every memory and frame. -/
abbrev Byte := BitVec 8

/-- A 16-bit field. -/
abbrev Half := BitVec 16

/-- A 32-bit register or field. -/
abbrev Word32 := BitVec 32

/-- A 64-bit register, address or general register of a thread. -/
abbrev Word64 := BitVec 64

/-- A byte string as the spec writes one: the first byte first. -/
abbrev Bytes := List Byte

end Sys2Proof
end

