-- ==== Sys2Proof/Payload.lean ====
section
/-!
DEFINITION. What the commands carry and what the Kwaith sends: object-access frames (R96 to R100), values (R11), the
numbers of its units, and `Sent`, the record of everything that leaves the block.
-/
namespace Sys2Proof

/-! ### Units (R18, R19) -/

/-- A function instance: the twin of PF p on link l is 4 × l + p (R139), chip-wide VF n is 16 + n. -/
abbrev Fn := Fin 1040
/-- A physical function. -/
abbrev Pf := Fin 4
/-- A chip-wide VF number. -/
abbrev Vf := Fin 1024
/-- A cell. -/
abbrev CellNo := Fin 128
/-- A hardware thread, 8 × cell + thread of the cell. -/
abbrev ThreadNo := Fin 1024
/-- A cell block. -/
abbrev BlockNo := Fin 16
/-- A region. -/
abbrev RegionNo := Fin 4
/-- A network port. -/
abbrev PortNo := Fin 8
/-- A host link. -/
abbrev LinkNo := Fin 4
/-- A downstream root port or slot. -/
abbrev SlotNo := Fin 8

/-! ### Values and frames of the object dictionary -/

/-- A dictionary value: a number, or the bytes of a STR64 or BLOB. -/
inductive Val where
  | num (n : Nat)
  | str (b : Bytes)
  deriving DecidableEq, Repr

/-- R14: the principals. -/
inductive Principal where
  | m | h | v | p | f
  deriving DecidableEq, Repr

/-- R96: the bindings, in the order of its table. -/
inductive Binding where
  | pfMailbox | vfMailbox | mctpI3c | mctpVdm | mgmtEth | uart0 | fabric | fwPort
  deriving DecidableEq, Repr

/-- R96: an association's key. `key` is the function, endpoint ID (on PCIe VDM with the host port that carries it × 256), source address and port,
peer device or block;
`session` names the SPDM session a secured frame belongs to (R111). -/
structure AssocKey where
  binding : Binding
  key     : Nat
  session : Option Nat
  deriving DecidableEq, Repr

/-- R97: the 16-byte header of a request. -/
structure OaHdr where
  version : Nat
  flags   : Nat
  status  : Nat
  tag     : Nat
  /-- declared item count -/
  count   : Nat
  /-- declared payload length in bytes -/
  len     : Nat
  /-- transaction ID, or 0 -/
  txn     : Nat
  deriving DecidableEq, Repr

/-- R98: one item; a read item carries no value. -/
structure OaItem where
  index : Nat
  ty    : Nat
  value : Bytes
  deriving DecidableEq, Repr

/-- R100: the payload of a request, by opcode. -/
inductive OaBody where
  | discover (versions maxFrame : Nat)
  | read (items : List OaItem)
  | write (items : List OaItem)
  | describe (items : List OaItem)
  | enumerate (index : Nat)
  | readBlock (index offset length : Nat)
  | writeBlock (index offset total : Nat) (data : Bytes)
  | txnBegin
  | txnCommit
  | txnAbort
  | subscribe (index mode interval : Nat)
  | unsubscribe (id : Nat)
  /-- an opcode of R100 with a payload its items or fields do not fit; `whole` where the frame's length
  differs from what its header says (R99, R105) -/
  | ragged (op : Nat) (whole : Bool)
  /-- an opcode of R100 whose payload sets a reserved byte (R7) -/
  | reserved (op : Nat)
  /-- an opcode the binding does not have -/
  | other (op : Nat)
  deriving DecidableEq, Repr

/-- A request frame on an association. -/
structure OaReq where
  assoc : AssocKey
  hdr   : OaHdr
  body  : OaBody
  deriving DecidableEq, Repr

/-- R98: one item of an answer. -/
structure OaRItem where
  index  : Nat
  ty     : Nat
  status : Nat
  value  : Bytes
  deriving DecidableEq, Repr

/-- An answer: header fields, items, and the payload of opcodes that carry none; `count` is the count of what that payload
lists. -/
structure OaResp where
  version : Nat
  op      : Nat
  status  : Nat
  tag     : Nat
  txn     : Nat
  count   : Nat
  items   : List OaRItem
  payload : Bytes
  deriving DecidableEq, Repr

/-- What a NOTIFY or a CMD_DONE says, before it gets its sequence number (R114 to R116). -/
inductive Note where
  | notify (items : List (Nat × Val)) (time : Nat)
  | cmdDone (tag index status : Nat) (result : Bytes)
  deriving DecidableEq, Repr

/-- Who issues a dictionary command, from the binding it arrives on (R14, R110). -/
structure Issuer where
  assoc : AssocKey
  tag   : Nat
  deriving DecidableEq, Repr

/-! ### What leaves the block -/

/-- One thing the Kwaith sends or does outside itself, newest first in `State.sent`. -/
inductive Sent where
  /-- a posted write into host memory by a function (R141, R199) -/
  | hostWrite (fn addr : Nat) (bytes : Bytes)
  /-- a read request into host memory; its data arrives with a later command -/
  | hostRead (fn addr len tag : Nat)
  /-- an MSI-X message (R148): data written to an address -/
  | msix (fn vector : Nat) (addr : Word64) (data : Word32)
  /-- an answer of the object-access server -/
  | oaAnswer (assoc : AssocKey) (r : OaResp)
  /-- a NOTIFY or CMD_DONE with its sequence and lost count (R116) -/
  | oaNote (assoc : AssocKey) (seq lost : Nat) (n : Note)
  /-- the result of a dictionary command that has a row of its own -/
  | cmdAnswer (by_ : Issuer) (index status : Nat) (result : Bytes)
  /-- an SPDM response: response code, parameter and body -/
  | spdm (assoc : AssocKey) (code param : Nat) (body : Bytes)
  /-- a frame leaving a network port at a priority -/
  | frame (port prio : Nat) (bytes : Bytes)
  /-- a frame ended with an inverted FCS, for a word of it was uncorrectable (R514) -/
  | badFrame (port prio : Nat) (bytes : Bytes)
  /-- a PFC frame: priority, pause quanta (R221) -/
  | pfc (port prio quanta : Nat)
  /-- a loader frame on UART0 (R87, R88): type, sequence, payload -/
  | loader (ty seq : Nat) (payload : Bytes)
  /-- the xSPI controller ends a program or erase: done, or an error (R70) -/
  | flashDone (ok : Bool)
  /-- a PLDM response (R92) -/
  | pldm (cmd status : Nat) (payload : Bytes)
  /-- an AER report on a link: element of R163, function -/
  | aer (element fn : Nat)
  /-- a PCIe completion towards the host: status 0 successful, 1 UR, 4 CA, 2 successful but poisoned; and data -/
  | completion (fn status : Nat) (data : Bytes)
  /-- a TLP towards a root port: write, address, data or length, poisoned -/
  | downstream (port : Nat) (write : Bool) (addr : Nat) (data : Bytes) (len : Nat) (poisoned : Bool)
  /-- a VOUT_COMMAND to a region regulator (R591) -/
  | vout (region count : Nat)
  /-- a learn message with its records (R296) -/
  | learn (port version : Nat) (bytes : Bytes)
  /-- a membership frame (R540) -/
  | membership (port ty : Nat) (bytes : Bytes)
  /-- a DMA request to a downstream drive or remote back end on behalf of storage -/
  | backend (be : Nat) (write : Bool) (lba blocks : Nat)
  /-- a drive identification read by firmware (R424) -/
  | identifyDrive (port : Nat)
  /-- an error response "crossing reset" returned to an originator (R49) -/
  | crossingReset (crossing originator : Nat)
  /-- a downstream completion with status towards a drive -/
  | driveCompletion (port status : Nat) (data : Bytes)
  /-- an ATS invalidation completion (R142) -/
  | atsCompletion (fn tag : Nat)
  /-- the TDO side of a TAP data register (R573) -/
  | tdo (bits : Nat) (value : Nat)
  /-- the result of a debug command (R579) -/
  | dbgResult (path : Nat) (status : Nat) (bytes : Bytes)
  /-- an RDMA packet of a QP: QPN, lane, opcode, PSN, payload, key, address -/
  | rdma (qpn lane op psn : Nat) (payload : Bytes)
  /-- an interrupt line to a thread (R426) -/
  | threadEvent (thread code unit : Nat)
  /-- data of a line of attached memory to the engine that reads it; none is poison (R504) -/
  | memData (addr : Nat) (data : Option Bytes)
  /-- a write of part of a line refused to the engine that writes it (R501) -/
  | memRefused (addr : Nat)
  deriving DecidableEq, Repr

end Sys2Proof
end

