-- ==== Sys2Proof/Context.lean ====
section
/-!
DEFINITION. What belongs to one function and can move with it in a migration blob (R180): its configuration space, mailbox,
rings, security associations, queue pairs, memory regions and NVMe controller. These are parts of `State`; a blob carries them too.
-/
namespace Sys2Proof.Machine

/-- A byte memory in canonical form: rising addresses, no entry equal to what an unlisted address reads as. -/
abbrev Mem := List Host.Cell

/-- R112: the buffers of one mailbox; its registers are MBOX_STATUS and MBOX_CFG. -/
structure Mbox where
  request  : Mem
  /-- the bytes the Kwaith last wrote into the response buffer (R113) -/
  response : Bytes
  /-- the bytes it last wrote into the notification buffer -/
  notice   : Bytes
  /-- the notification buffer is the host's until ACK -/
  held     : Bool
  deriving DecidableEq, Repr

/-- The configuration space of one function instance, as far as the Kwaith acts on it (R140 to R142, R155). -/
structure FnCfg where
  memEnable : Bool
  mps   : Nat
  mrrs  : Nat
  /-- Completion Timeout Value field -/
  cto   : Nat
  d3hot : Bool
  ats   : Bool
  pri   : Bool
  msix  : Bool
  fmask : Bool
  numVfs : Nat
  vfEnable : Bool
  /-- AER status bits, by element of R163 -/
  aer   : List Nat
  /-- a header is logged and not yet cleared -/
  headerLogged : Bool
  /-- MSI-X vectors the host has unmasked (R148) -/
  unmasked : List Nat
  pending : List Nat
  /-- message address and data of the MSI-X table, by vector; an unlisted one is zero (R55, R148) -/
  messages : List (Nat × Word64 × Word32)
  /-- in FLR: reads fail at once (R154), work is ending -/
  inFlr : Bool
  /-- 10-bit tags enabled -/
  tenBit : Bool
  deriving DecidableEq, Repr

/-- R209: ring states, in the encoding of QUERY_QUEUE. -/
inductive RingState where
  | active | overflow | suspended | error | draining
  deriving DecidableEq, Repr

/-- R200: one completion, before it gets its phase; `extra` is the kind-specific part from byte 0x20. -/
structure Cpl where
  kind     : Nat
  status   : Nat
  held     : Bool
  tag      : Nat
  ring     : Nat
  consumer : Nat
  bytes    : Nat
  detail   : Nat
  time     : Nat
  extra    : Bytes
  deriving DecidableEq, Repr

/-- A fetched entry whose completion is still owed (R194). -/
structure Fetched where
  counter  : Nat
  tag      : Nat
  opcode   : Nat
  suppress : Bool
  started  : Bool
  /-- transmit: frame length; receive: bytes its buffers hold -/
  length   : Nat
  timestamp : Bool
  vlan     : Option Nat
  ipSum    : Bool
  l4Sum    : Bool
  /-- the data elements, address and length -/
  elems    : List (Nat × Nat)
  /-- the entry as read -/
  entry    : Bytes
  /-- the instant its frame left its port, and whether it was dropped after being read (R197) -/
  txTime   : Option Nat
  dropped  : Bool
  /-- its completion, ready but waiting for those of earlier entries (R201); `some none` is a suppressed success -/
  done     : Option (Option Cpl)
  deriving DecidableEq, Repr

/-- R209, R212: an accepted RESET_QUEUE (`start` given) or DELETE_QUEUE, waiting for the ring to drain. -/
structure Drain where
  start : Option Nat
  tag   : Nat
  /-- state the ring was in -/
  from_ : RingState
  deriving DecidableEq, Repr

/-- A descriptor ring (R186 to R189). Fields a submission or completion ring does not use stay at their reset value. -/
structure Ring where
  owner   : Nat
  serial  : Nat
  isCq    : Bool
  admin   : Bool
  fmt     : Nat
  kind    : Nat
  log2n   : Nat
  base    : Word64
  /-- consumer counter of a submission ring, producer counter of a completion ring -/
  counter : Word32
  state   : RingState
  cause   : Nat
  latched : Nat
  sheepdog : Bool
  /-- doorbell page and slot -/
  page    : Nat
  slot    : Nat
  drain   : Option Drain
  cq      : Nat
  weight  : Nat
  doubleRead : Bool
  vport   : Nat
  scan    : Bool
  scanAgain : Bool
  fetched : List Fetched
  ctlblk  : Word64
  /-- the host's consumer counter as last read and found valid (R203) -/
  seen    : Word32
  vector  : Nat
  k       : Nat
  t       : Nat
  autoArm : Bool
  /-- AUTO_ARM as given at creation -/
  autoArm0 : Bool
  armed   : Bool
  since   : Nat
  firstAt : Nat
  quota   : Nat
  /-- the spill area lies in host tile SRAM (R205) -/
  sram    : Bool
  /-- control block reads under way, oldest first; true for one a doorbell asked for (R203, R204) -/
  reads   : List Bool
  /-- completions waiting for a fresh read of the control block -/
  awaiting : List Cpl
  overflow : List Cpl
  spill   : List Cpl
  /-- the eighth overflow slot has been filled (R205 step 2) -/
  stopped : Bool
  /-- entries held since then, for event 0x0604 -/
  heldCount : Nat
  lost    : Nat
  deriving DecidableEq, Repr

/-- R329: replay state of one SA or AN: highest value received, and values marked in its window. -/
structure Replay where
  highest : Nat
  marked  : List Nat
  deriving DecidableEq, Repr

/-- R323 to R326: a security association. `pool` is the owner's pool: a VF's number, 1024 + PF, 1028 the device. -/
structure Sa where
  tag     : Nat
  pool    : Nat
  desc    : Bytes
  counter : Word64
  warned  : Bool
  spent   : Bool
  drops   : Nat
  /-- per AN (R329); key 0 for kind 2 -/
  replay  : List (Nat × Replay)
  deriving DecidableEq, Repr

/-- A work request in the queue of its QP or SRQ (R346, R347). -/
structure Work where
  ring    : Nat
  /-- the post ring's consumer counter at fetch -/
  counter : Nat
  op      : Nat
  tag     : Nat
  suppress : Bool
  fence   : Bool
  sol     : Bool
  value   : Nat
  elems   : List (Nat × Nat)
  /-- bytes 0x10 to 0x3F of the entry -/
  body    : Bytes
  len     : Nat
  /-- message number and receive sequence number, once it starts -/
  msg     : Nat
  rsn     : Nat
  started : Bool
  /-- packets sent -/
  next    : Nat
  /-- every packet sent, or a WAIT satisfied -/
  sent    : Bool
  /-- READ: response bytes placed -/
  got     : Nat
  deriving DecidableEq, Repr

/-- A packet sent and not yet acknowledged (R358). -/
structure RPkt where
  psn    : Nat
  /-- PSNs it covers: for a READ request those of its responses -/
  span   : Nat
  msg    : Nat
  off    : Nat
  rsn    : Nat
  last   : Bool
  sol    : Bool
  /-- it carries RESYNC (R359) -/
  resync : Bool
  op     : Nat
  /-- what follows the BTH and the lane header -/
  body   : Bytes
  tries  : Nat
  sentAt : Nat
  deriving DecidableEq, Repr

/-- One lane of a QP (R356 to R362). States: 0 unused, 1 active, 2 withdrawn. -/
structure RLane where
  state  : Nat
  reason : Nat
  /-- r in Mb/s, h and q of R361 -/
  rate   : Rat
  h      : Rat
  q      : Nat
  /-- its running value in the smooth weighted round robin -/
  turn   : Rat
  psn    : Nat
  expect : Nat
  nakSent : Bool
  unacked : List RPkt
  /-- instants of recent retransmission episodes -/
  episodes : List Nat
  /-- smoothed RTT in nanoseconds; 0 before the first sample -/
  srtt   : Nat
  /-- instant from which it has been an RTT outlier -/
  slowAt : Option Nat
  goneAt : Nat
  resync : Bool
  cutAt  : Option Nat
  /-- start of its recovery period -/
  periodAt : Nat
  /-- packets received and not yet acknowledged, and the instant of the first -/
  owed   : Nat
  owedAt : Nat
  cnpAt  : Option Nat
  deriving DecidableEq, Repr

/-- A message being assembled (R357). -/
structure Asm where
  /-- 0 a SEND, 6 a WRITE -/
  base  : Nat
  rsn   : Nat
  va    : Nat
  len   : Nat
  key   : Nat
  got   : List Nat
  count : Option Nat
  bytes : Nat
  imm   : Option Nat
  sol   : Bool
  deriving DecidableEq, Repr

/-- A queue pair (R340, R343). States: 0 RESET, 1 INIT, 2 RTR, 3 RTS, 4 ERROR. -/
structure Qp where
  /-- function instance, or 2000 for the device -/
  owner   : Nat
  service : Nat
  state   : Nat
  pd      : Nat
  sendCq  : Nat
  recvCq  : Nat
  srq     : Option Nat
  sDepth  : Nat
  rDepth  : Nat
  mtu     : Nat
  peerLanes : Nat
  peerMask : Nat
  retry   : Nat
  rnrRetry : Nat
  ackTime : Nat
  rnrTimer : Nat
  tclass  : Nat
  prio    : Nat
  destQpn : Nat
  qkey    : Nat
  sendPsn : Nat
  recvPsn : Nat
  readsOut : Nat
  readsIn : Nat
  gid     : Nat
  hop     : Nat
  sport   : Nat
  rights  : Nat
  destIp  : Bytes
  destMac : Bytes
  /-- lanes in use, and whether they run the lane protocol -/
  lanesUsed : Nat
  lp      : Bool
  lanes   : List (Nat × RLane)
  sq      : List Work
  rq      : List Work
  msgNext : Nat
  rsnNext : Nat
  /-- responder: cumulative complete number, and messages complete above it -/
  rxMsg   : Nat
  rxDone  : List Nat
  /-- responder on a plain connection: next packet offset, and next RSN -/
  rxOff   : Nat
  rxSeq   : Nat
  /-- receive completions owed next, receives bound up to, receives bound, completions that wait -/
  rxRsn   : Nat
  rxBind  : Nat
  bound   : List (Nat × Work)
  ready   : List (Nat × Cpl)
  asm     : List (Nat × Asm)
  sendCount : Word32
  recvCount : Word32
  /-- the RNR hold: its end, and the message -/
  rnrHold : Option (Nat × Nat)
  rnrUsed : Nat
  /-- earliest instant of the next packet at the paced rate -/
  paceAt  : Nat
  /-- DESTROY_QP accepted -/
  leaving : Option (Issuer × Nat)
  deriving DecidableEq, Repr

/-- A memory region (R344, R365). -/
structure Mr where
  owner  : Nat
  tag    : Nat
  pd     : Nat
  va     : Nat
  host   : Nat
  len    : Nat
  rights : Nat
  closing : Option (Issuer × Nat)
  deriving DecidableEq, Repr

/-- A command in flight (R377). -/
structure NvCmd where
  sq     : Nat
  cid    : Nat
  entry  : Bytes
  /-- firmware thread it has been handed to -/
  thread : Option Nat
  /-- pieces not yet handed to the back-end unit: kind of R402, first block, blocks (R388) -/
  pieces : List (Nat × Nat × Nat)
  /-- records of it in a write intent log -/
  out    : Nat
  /-- host data segments, address and length -/
  segs   : List (Nat × Nat)
  /-- status it ends with, once known: SCT × 256 + SC, and DNR -/
  ended  : Option (Nat × Bool)
  /-- Dwords 0 and 1 of its completion -/
  result : Nat
  /-- its completion is discarded (R372) -/
  discard : Bool
  deriving DecidableEq, Repr

/-- A submission queue. -/
structure NvSq where
  base  : Nat
  size  : Nat
  cq    : Nat
  /-- 0 urgent, 1 high, 2 medium, 3 low -/
  prio  : Nat
  head  : Nat
  tail  : Nat
  suspended : Bool
  /-- its memory failed (R391) -/
  failed : Bool
  /-- command ID of a Delete that waits for its last command (R392) -/
  leaving : Option Nat
  deriving DecidableEq, Repr

/-- A completion as it will be written: Dwords 0 and 1, SQ, command ID, status field without the phase. -/
structure NvCqe where
  result : Nat
  sq     : Nat
  cid    : Nat
  status : Nat
  deriving DecidableEq, Repr

/-- A completion queue (R373, R389, R390). -/
structure NvCq where
  base  : Nat
  size  : Nat
  head  : Nat
  tail  : Nat
  phase : Bool
  vector : Nat
  quota : Nat
  overflow : List NvCqe
  spill : List NvCqe
  /-- the eighth overflow slot has been filled -/
  stopped : Bool
  error : Bool
  deriving DecidableEq, Repr

/-- A controller. `st` is the state code of 0C:0900. -/
structure NvCtl where
  st    : Nat
  /-- CC.EN written 1 and not yet ready, with the instant -/
  rising : Option Nat
  /-- CC.EN written 0 and commands handed to firmware still run -/
  falling : Bool
  shn   : Bool
  sqs   : List (Nat × NvSq)
  cqs   : List (Nat × NvCq)
  cmds  : List NvCmd
  feats : List (Nat × Nat)
  /-- command IDs of outstanding Asynchronous Event Requests -/
  aers  : List Nat
  /-- events not yet reported: Dword 0 -/
  events : List Nat
  /-- event types reported and not yet cleared by Get Log Page -/
  masked : List Nat
  errlog : List Bytes
  errCount : Nat
  changed : List Nat
  completed : Nat
  lost  : Nat
  /-- the round of R376: class served, what is left of its grant, the SQ last served of each class -/
  cls   : Nat
  grant : Nat
  turns : List (Nat × Nat)
  deriving DecidableEq, Repr

end Sys2Proof.Machine
end

