-- ==== Sys2Proof/Operand.lean ====
section
/-!
DEFINITION. Operands of the commands that need a structure of their own: registers, fault reports, TLPs, ring entries
as read, frames.
-/
namespace Sys2Proof

/-! ### Registers -/

/-- The memory-mapped registers, by the name their chapter gives them. -/
inductive RegName where
  -- R112
  | mboxStatus | mboxCfg
  -- R210
  | admSqBase | admCqBase | admCqCtlblk | admCfg | admCtrl | admStatus
  -- R160
  | peerOffset | peerTarget | peerCtrl | peerStatus
  -- R270, R271, R274
  | pipeLoadAddr | pipeLoadLen | pipeLoadStatus | pipeLoadDetail | pipePlateStatus | pipePlateInfo | pipePinMask
  | pipePinStatus
  -- R304
  | tblCmdAddr | tblCmdLen | tblCmdStatus | tblCmdProgress
  -- R317
  | keyWinSlot | keyWinTarget | keyWinCtrl | keyWinKek | keyWinStatus | keyWinCheck | keyWinFill
  -- R370, by CNTLID
  | nvCc | nvAqa | nvAsq | nvAcq | nvCsts
  deriving DecidableEq, Repr

/-- A register: its name and the unit that holds it (a function instance, a window, a port, a channel). -/
structure Reg where
  name : RegName
  unit : Nat
  deriving DecidableEq, Repr

/-- A mailbox: function instance 0 to 1,039, or 2,000 + b for the firmware port of block b (R112). -/
abbrev MboxNo := Fin 2016

/-- R9, R146: a proper host write of registers or of a mailbox's request buffer. -/
inductive RegWrite where
  /-- a whole register -/
  | whole (r : Reg) (v : Word64)
  /-- one 4-byte half of an 8-byte register -/
  | half (r : Reg) (high : Bool) (v : Word32)
  /-- a data word of a key window (R317) -/
  | keyData (fn : Fn) (i : Fin 18) (v : Word32)
  /-- bytes of a request buffer (R112) -/
  | mboxRequest (n : MboxNo) (off : Fin 4096) (bytes : Bytes)
  deriving DecidableEq, Repr

/-! ### Faults and resets -/

/-- The unit a fault is found in, which is its level on the ladder of R33. -/
inductive FaultUnit where
  | cell (c : CellNo)
  | block (b : BlockNo)
  | region (r : RegionNo)
  | chip
  deriving DecidableEq, Repr

/-- A fault as its detector reports it (R33, R40). -/
structure FaultReport where
  unit    : FaultUnit
  /-- cause code of R40 -/
  cause   : Fin 14
  /-- thread of the cell concerned; none for the whole cell (R450) -/
  thread  : Option (Fin 8)
  address : Word64
  /-- R40 bytes 24 to 31: for cause 0x01 the syndrome and bank -/
  detail  : Word64
  /-- SRAM store of R514 whose word is uncorrectable, 1 to 6, or 0 -/
  store   : Fin 7
  /-- QPs whose context fails its check, should the fault isolate a region (R38) -/
  ctxBad  : List Nat
  deriving DecidableEq, Repr

/-- What starts a chip warm reset (R54, 02:0004). -/
inductive WarmCause where
  | containment | commanded | watchdog
  deriving DecidableEq, Repr

/-- What the boot ROM finds as it brings up the flash (R16, R68). -/
structure FlashStart where
  /-- octal mode: 0 works, 1 no SFDP table, 2 the switch failed, 3 a header magic reads differently -/
  octal   : Fin 4
  /-- copies of the parameter area that fail their check, as a mask: bit 0 copy 1, bit 1 copy 2 -/
  damaged : Fin 4
  deriving DecidableEq, Repr

/-- A transaction in a crossing as one of its sides is reset or its clock stops (R47, R49). -/
structure XTransfer where
  /-- towards the second-named domain of R45 -/
  inner   : Bool
  /-- wholly enqueued -/
  whole   : Bool
  /-- it expects a response -/
  request : Bool
  originator : Nat
  deriving DecidableEq, Repr

/-! ### PCIe -/

/-- R154: a completion as it arrives. -/
structure CplTlp where
  tag      : Nat
  /-- 0 successful, 1 UR, 4 CA -/
  status   : Nat
  poisoned : Bool
  /-- Lower Address: bits 6 to 0 of the address of its first byte -/
  lowerAddr : Nat
  /-- data bytes carried -/
  data     : Bytes
  byteCount : Nat
  /-- Routing ID of the completer -/
  completer : Nat
  deriving DecidableEq, Repr

/-- R161, R162: a TLP to BAR2. -/
structure Bar2Tlp where
  write    : Bool
  offset   : Nat
  data     : Bytes
  /-- bytes read, for a read -/
  len      : Nat
  poisoned : Bool
  requester : Nat
  deriving DecidableEq, Repr

/-- R141: a configuration write the Kwaith acts on. VF Enable and NumVFs have rows of their own. -/
inductive CfgWrite where
  | memEnable (v : Bool)
  | mps (bytes : Nat)
  | mrrs (bytes : Nat)
  | completionTimeout (v : Nat)
  | powerState (d3hot : Bool)
  | ats (v : Bool)
  | tenBitTags (v : Bool)
  | pri (v : Bool)
  | msixEnable (v : Bool)
  | functionMask (v : Bool)
  | vectorMask (vector : Nat)
  /-- message address and data of a vector -/
  | vectorMessage (vector : Nat) (addr : Word64) (data : Word32)
  | aerClear (elements : List Nat)
  deriving DecidableEq, Repr

/-! ### Rings -/

/-- One external list segment as read (R196): its address and bytes, or a failed read. -/
structure Segment where
  addr  : Nat
  bytes : Option Bytes
  deriving DecidableEq, Repr

/-- One submission entry as read: the entry, or a failed read; the second read of a DOUBLE_READ ring; the list
segments its elements name. -/
structure EntryRead where
  entry  : Option Bytes
  second : Option Bytes
  segments : List Segment
  /-- translation accepts the addresses its elements name -/
  translated : Bool
  deriving DecidableEq, Repr

/-! ### Migration -/

/-- R180: a state blob as read: its 64-byte header, whether the Body CRC holds, its sections (type, version, flags), and
what its bodies say, whose layout is Varroern's own. -/
structure MigBlob where
  header   : Bytes
  crcOk    : Bool
  sections : List (Nat × Nat × Nat)
  /-- the framing of R180 holds: alignment, lengths, section count -/
  framed   : Bool
  /-- section 0x0001: configuration, MSI-X, mailbox -/
  cfg      : Machine.FnCfg
  mbox     : Machine.Mbox
  /-- registers of the function and of its controller, by name -/
  regs     : List (RegName × Word64)
  /-- vectors in use -/
  vectors  : Nat
  /-- sections 0x0002 and 0x0003, by ring ID -/
  rings    : List (Nat × Machine.Ring)
  /-- section 0x0004 -/
  ctl      : Option Machine.NvCtl
  /-- sections 0x0006 and 0x0007, by QPN and key index -/
  qps      : List (Nat × Machine.Qp)
  regions  : List (Nat × Machine.Mr)
  /-- section 0x0008: key slots referred to, and SAs by index -/
  keySlots : List Nat
  sas      : List (Nat × Machine.Sa)
  /-- section 0x0009: base, granule, length -/
  track    : Option (Nat × Nat × Nat)
  deriving DecidableEq, Repr

/-! ### Classifier -/

/-- Where a command of the load engine or a commit comes from: the registers of PF0 on a link, with the slot written, or
08:0021 or 08:0022 with its argument (R270, R271). -/
inductive PlateSrc where
  | regs (l : LinkNo) (slot : Fin 4)
  | cmd (by_ : Issuer) (arg : Bytes)
  deriving DecidableEq, Repr

/-! ### Tables -/

/-- Where a table-command list comes from: TBL_CMD_GO of PF0 on a link, or 09:0201 with its argument (R304, R305). -/
inductive TblSrc where
  | regs (l : LinkNo) (go : Bool)
  | cmd (by_ : Issuer) (arg : Bytes)
  deriving DecidableEq, Repr

/-! ### Keys -/

/-- Where a key command comes from: the window of a function, or 0A:0110 with its argument (R317, R320). -/
inductive KeySrc where
  | win (fn : Fn)
  | cmd (by_ : Issuer) (arg : Bytes)
  deriving DecidableEq, Repr

/-! ### Reads of host memory by cores and engines -/

/-- What a read of host memory returns: data, or why it failed, in the codes of R490: 1 refused, 3 UR or CA, 4 timeout,
5 poisoned, 6 crossing reset, 7 function reset. -/
inductive HostRead where
  | data (b : Bytes)
  | fail (code : Fin 8)
  deriving DecidableEq, Repr

/-! ### Storage -/

/-- A controller, by CNTLID (R369). -/
abbrev CtlNo := Fin 1028

/-- What ends a command from outside the front end's own checks (R383). -/
inductive NvFault where
  /-- a host access failed or was refused: 0/04h -/
  | hostData
  /-- its firmware thread was reset or isolated: 0/21h -/
  | threadLost
  /-- its key slot is unusable, or a Burin failed: 0/06h -/
  | internal
  /-- the back end reports a write fault: 2/80h -/
  | writeFault
  /-- the back end reports an unrecovered read: 2/81h -/
  | readFault
  deriving DecidableEq, Repr

/-- What the Identify data of a back-end namespace and its controller say (R395, R424). -/
structure BeIdent where
  blocks : Nat
  /-- bytes of an LBA -/
  lba    : Nat
  metadata : Nat
  serial : Bytes
  nguid  : Bytes
  deriving DecidableEq, Repr

/-- What the verifier reads from a back end (R411): a record's data, its chain entry and the one before it; at the end of a
zone its table entry. -/
structure SealRead where
  data  : Option Bytes
  entry : Option Bytes
  prev  : Option Bytes
  table : Option Bytes
  deriving DecidableEq, Repr

/-! ### Drives -/

/-- A TLP from a drive (R416). -/
inductive DriveTlp where
  /-- a memory write at a core physical address -/
  | write (addr : Nat) (data : Bytes) (poisoned : Bool)
  /-- a memory read -/
  | read (addr len : Nat)
  /-- the completion of a request: tag, status, data -/
  | completion (tag status : Nat) (data : Bytes) (poisoned : Bool)
  /-- a request addressed to another drive -/
  | toDrive
  deriving DecidableEq, Repr

/-! ### The object-access server -/

/-- What stands outside the Kwaith and a frame's commands may meet: whether the parameter area takes its writes, VDD_FUSE is
within its programming range, what host memory returns to a debug READ_MEM, what Identify data, the process monitors, a seal
chain and a load list read. -/
structure OaEnv where
  flashOk : Bool
  vddFuse : Bool
  host    : HostRead
  ident   : Option BeIdent
  procs   : List Word32
  chain   : Option Bytes
  list    : Option Bytes
  deriving DecidableEq, Repr

/-! ### Flash and debug -/

/-- R70: who asks the xSPI controller. -/
inductive FlashMaster where
  | steward | cells | security
  deriving DecidableEq, Repr

/-- R577: the path of a debug command: JTAG, or 13:0100 with its issuer and whether a command on the JTAG path comes in the
same cycle. -/
inductive DbgPath where
  | jtag
  | dict (by_ : Issuer) (clash : Bool)
  deriving DecidableEq, Repr


end Sys2Proof
end

