-- ==== Sys2Proof/Syntax.lean ====
section
/-!
DEFINITION. The commands of the Kwaith: one constructor for each row of the operation table, in the table's order, with
the row's operands. The docstring gives the row's mnemonic, its rule and what the operands are.
-/
namespace Sys2Proof

/-- The commands. -/
inductive Instr where
  /-- REGISTER_WRITE (R9): a host write of registers that have no row of their own -/
  | registerWrite (w : RegWrite)
  /-- HARDWARE_FAULT_DETECTED (R33): a unit detects the fault `f` -/
  | hardwareFault (f : FaultReport)
  /-- CE_RATE_EXCEEDED (R33): cell `c` counted `count` corrected errors within 1 s -/
  | ceRateExceeded (c : CellNo) (count : Nat)
  /-- MESH_LINK_FAILED (R33): mesh link `link` is declared failed -/
  | meshLinkFailed (link : Fin 16)
  /-- BW_ACK_TIMEOUT (R34): the oldest unacknowledged record of block `b` has waited 0E:0403 -/
  | bwAckTimeout (b : BlockNo)
  /-- CONT_REGION_RESET (R39): 0E:0420 written with `arg` -/
  | contRegionReset (by_ : Issuer) (arg : Byte)
  /-- REGION_RESET_COPY_DONE (R39): the learn arbiter has copied region `r`'s replicas -/
  | regionResetCopyDone (r : RegionNo)
  /-- REGION_RESET_INCOMPLETE (R39): 200 ms have passed since region `r`'s reset was commanded -/
  | regionResetIncomplete (r : RegionNo)
  /-- CONT_BLOCK_RESET (R41): 0E:0421 written with `arg` -/
  | contBlockReset (by_ : Issuer) (arg : Byte)
  /-- CONT_RELEASE_STAGE0 (R41): 0E:0422 written with `arg` -/
  | contReleaseStage0 (by_ : Issuer) (arg : Byte)
  /-- OPERATING_POINT_SWITCH (R43): the idle PLL of region `r` has locked -/
  | operatingPointSwitch (r : RegionNo)
  /-- CROSSING_RESET (R49): one side of crossing x + 1 enters reset; `inner` names the second domain of R45; what stood in the crossing -/
  | crossingReset (x : Fin 24) (inner : Bool) (traffic : List XTransfer)
  /-- CROSSING_HELD (R51): the clock of one side of crossing x + 1 stops -/
  | crossingHeld (x : Fin 24) (inner : Bool) (traffic : List XTransfer)
  /-- CROSSING_RESYNC (R50): both sides of crossing x + 1 are out of reset with clocks locked -/
  | crossingResync (x : Fin 24)
  /-- REFCLK_SYS_LOSS (R52): no REFCLK_SYS edge for 244 us -/
  | refclkSysLoss
  /-- REFCLK_SYS_RESTORED (R52): REFCLK_SYS present for 10 ms -/
  | refclkSysRestored (flash : FlashStart)
  /-- REFCLK_ETH_LOSS (R52): the SerDes PLL unlocks -/
  | refclkEthLoss
  /-- REFCLK_ETH_RESTORED (R242): CLK_MAC runs again -/
  | refclkEthRestored
  /-- PCIE0_REFCLK_LOSS (R52): the host PHY PLL unlocks -/
  | pcie0RefclkLoss
  /-- PCIE1_REFCLK_LOSS (R52): the port 1 PHY PLL unlocks -/
  | pcie1RefclkLoss
  /-- DRV_REFCLK_LOSS (R52): the drive PHY PLL unlocks -/
  | drvRefclkLoss
  /-- POWER_ON_RESET (R58): PWROK rises; `testmode` is the TESTMODE pin at that edge, `flash` what the ROM finds of the flash -/
  | powerOnReset (testmode : Bool) (flash : FlashStart)
  /-- PWROK_FALL (R593): PWROK has been sampled low for 1 us -/
  | pwrokFall
  /-- VDD_AON_BROWNOUT (R590): VDD_AON falls below 0.65 V -/
  | vddAonBrownout (flash : FlashStart)
  /-- PERST_ASSERT (R54): PERSTn_N recognised asserted -/
  | perstAssert (port : Fin 2)
  /-- PERST_DEASSERT (R605): PERSTn_N recognised deasserted -/
  | perstDeassert (port : Fin 2)
  /-- HOT_RESET (R54): a hot reset received on a host port -/
  | hotReset (port : Fin 2)
  /-- FLR (R54): Function Level Reset written to the twin of PF `pf` on link `l` -/
  | flr (l : LinkNo) (pf : Pf)
  /-- CHIP_WARM_RESET (R55): a chip warm reset, and what the ROM finds of the flash -/
  | chipWarmReset (cause : WarmCause) (flash : FlashStart)
  /-- HOST_LINK_UP (R135): link `l` has trained with a partner that offers this rate code, width and FLIT mode -/
  | hostLinkUp (l : LinkNo) (rate : Fin 7) (width : Fin 17) (flit : Bool)
  /-- LINK_DOWN (R137): link `l` enters DL_Down -/
  | linkDown (l : LinkNo)
  /-- STAGE_1_ENTRY (R78): the candidate slot has verified -/
  | stage1Entry
  /-- STAGE_2_ENTRY (R78): the security core releases the cells and the steward core -/
  | stage2Entry
  /-- MEMORY_TRAINED (R496): training ends with devices of 8 x (density + 1) Gb found in one or two ranks; `failed` lists the subchannels that failed -/
  | memoryTrained (density : Fin 4) (twoRanks : Bool) (failed : List (Fin 8))
  /-- MEMORY_FULLY_WRITTEN (R58): firmware has written every word of attached memory -/
  | memoryFullyWritten
  /-- STAGE_DEADLINE_MISSED (R57): the deadline of R56 for `stage` passes -/
  | stageDeadlineMissed (stage : Fin 4)
  /-- START_WATCHDOG_EXPIRY (R57): the period of 02:0011 passes -/
  | startWatchdogExpiry
  /-- START_HOLD (R66): 02:0010 written with `v` -/
  | startHold (by_ : Issuer) (v : Byte)
  /-- ADOPTION_REQUEST (R64): firmware requests adoption -/
  | adoptionRequest
  /-- ADOPTION_COMPLETE (R64): firmware has loaded the Sheepdog state and resumes -/
  | adoptionComplete
  /-- ADOPTION_TIMEOUT (R64): 1 ms has passed since the request -/
  | adoptionTimeout
  /-- SLOT_COMMIT (R80): 02:0105 written with `arg` -/
  | slotCommit (by_ : Issuer) (arg : Byte)
  /-- SLOT_VERIFY_DONE (R80): the verification of the committed slot ends -/
  | slotVerifyDone
  /-- SLOT_RETIRE (R77): 02:0106 written with `arg`, other than 0x80 -/
  | slotRetire (by_ : Issuer) (arg : Byte)
  /-- ENTER_RECOVERY (R86): 02:0106 written with 0x80 -/
  | enterRecovery (by_ : Issuer)
  /-- ROOT_KEY_REVOKE (R94): 02:0107 written with `arg` -/
  | rootKeyRevoke (by_ : Issuer) (arg : Byte)
  /-- SLOT_RESEQUENCE (R77): 02:0108 written with `arg` -/
  | slotResequence (by_ : Issuer) (arg : Byte)
  /-- EPOCH_ADVANCE (R83): 02:0110 written with `n`; whether VDD_FUSE is within its programming range -/
  | epochAdvance (by_ : Issuer) (n : Half) (vddFuse : Bool)
  /-- FLASH_PROGRAM (R70): master `m` asks to program `data` at `addr`; whether the device does it -/
  | flashProgram (m : FlashMaster) (addr : Nat) (data : Bytes) (ok : Bool)
  /-- FLASH_ERASE (R70): master `m` asks to erase the 64 KiB sector at `addr`; whether the device does it -/
  | flashErase (m : FlashMaster) (addr : Nat) (ok : Bool)
  /-- HELLO_TIMER (R89): 1 s has passed since the loader's last HELLO, or it has just started -/
  | helloTimer
  /-- LOADER_FRAME_DISCARD (R87): a loader frame has a bad check, a length over the maximum, or a reserved flag set -/
  | loaderFrameDiscard
  /-- HELLO_ACK (R89): loader frame HELLO_ACK -/
  | helloAck (seq : Half) (version : Byte)
  /-- BAUD (R88): loader frame BAUD -/
  | loaderBaud (seq : Half) (rate : Word32)
  /-- BAUD_SWITCH (R89): 20 ms have passed since the BAUD acknowledgement -/
  | baudSwitch
  /-- BAUD_TIMEOUT (R89): 2 s have passed at the new rate without an accepted frame -/
  | baudTimeout
  /-- LOADER_IDLE_TIMEOUT (R89): 60 s have passed without an accepted frame -/
  | loaderIdleTimeout
  /-- BEGIN (R90): loader frame BEGIN -/
  | loaderBegin (seq : Half) (slot flags : Byte) (total : Word32)
  /-- LOADER_ERASE_DONE (R90): the erasure that BEGIN started ends -/
  | loaderEraseDone
  /-- DATA (R90): loader frame DATA; the flash address where programming it fails, if it does -/
  | loaderData (seq : Half) (offset : Word32) (data : Bytes) (flashFail : Option Word32)
  /-- END (R90): loader frame END -/
  | loaderEnd (seq : Half)
  /-- COMMIT (R90): loader frame COMMIT; the flash address where programming a record fails, if it does -/
  | loaderCommit (seq : Half) (flashFail : Option Word32)
  /-- STATUS (R88): loader frame STATUS -/
  | loaderStatus (seq : Half)
  /-- BOOT (R88): loader frame BOOT -/
  | loaderBoot (seq : Half)
  /-- OBJECT (R88): loader frame OBJECT with an object-access frame -/
  | loaderObject (seq : Half) (bytes : Bytes) (env : OaEnv)
  /-- REQUEST_UPDATE (R92): PLDM RequestUpdate -/
  | pldmRequestUpdate
  /-- UPDATE_COMPONENT (R92): PLDM UpdateComponent -/
  | pldmUpdateComponent (component : Half) (size : Word32)
  /-- REQUEST_FIRMWARE_DATA (R92): the answer to a PLDM RequestFirmwareData: image bytes from `offset` of the slot -/
  | pldmFirmwareData (offset : Word32) (data : Bytes)
  /-- VERIFY_COMPLETE (R92): every byte has come, and the slot is verified for PLDM VerifyComplete -/
  | pldmVerifyComplete
  /-- ACTIVATE_FIRMWARE (R92): PLDM ActivateFirmware, which may ask for self-contained activation -/
  | pldmActivate (selfContained : Bool)
  /-- CANCEL_UPDATE (R92): PLDM CancelUpdate -/
  | pldmCancel
  /-- SHORT_FRAME_DISCARD (R97): a frame shorter than 16 bytes arrives on association `a` -/
  | shortFrame (a : AssocKey) (bytes : Bytes)
  /-- DISCOVER (R117): object-access DISCOVER -/
  | discover (a : AssocKey) (h : OaHdr) (versions maxFrame : Nat)
  /-- READ (R102): object-access READ -/
  | read (a : AssocKey) (h : OaHdr) (items : List OaItem)
  /-- WRITE (R101): object-access WRITE, with what its commands meet outside -/
  | write (a : AssocKey) (h : OaHdr) (items : List OaItem) (env : OaEnv)
  /-- NOTIFY_PERIODIC (R114): the interval of periodic subscription `id` has passed -/
  | notifyPeriodic (id : Nat)
  /-- DESCRIBE (R104): object-access DESCRIBE -/
  | describe (a : AssocKey) (h : OaHdr) (items : List OaItem)
  /-- ENUMERATE (R100): object-access ENUMERATE -/
  | enumerate (a : AssocKey) (h : OaHdr) (index : Nat)
  /-- READ_BLOCK (R100): object-access READ_BLOCK -/
  | readBlock (a : AssocKey) (h : OaHdr) (index offset length : Nat)
  /-- WRITE_BLOCK (R103): object-access WRITE_BLOCK -/
  | writeBlock (a : AssocKey) (h : OaHdr) (index offset total : Nat) (data : Bytes) (env : OaEnv)
  /-- WRITE_BLOCK_TIMEOUT (R103): 10 s have passed since the last frame of a partial sequence -/
  | writeBlockTimeout (a : AssocKey)
  /-- SNAPSHOT_TIMEOUT (R133): 10 s have passed since the last READ_BLOCK of a snapshot -/
  | snapshotTimeout (a : AssocKey)
  /-- TXN_BEGIN (R107): object-access TXN_BEGIN -/
  | txnBegin (a : AssocKey) (h : OaHdr)
  /-- TXN_COMMIT (R107): object-access TXN_COMMIT -/
  | txnCommit (a : AssocKey) (h : OaHdr) (env : OaEnv)
  /-- TXN_ABORT (R107): object-access TXN_ABORT -/
  | txnAbort (a : AssocKey) (h : OaHdr)
  /-- TXN_TIMEOUT (R109): 10 s have passed without a frame of transaction `id` -/
  | txnTimeout (id : Nat)
  /-- SUBSCRIBE (R114): object-access SUBSCRIBE -/
  | subscribe (a : AssocKey) (h : OaHdr) (index mode interval : Nat)
  /-- UNSUBSCRIBE (R114): object-access UNSUBSCRIBE -/
  | unsubscribe (a : AssocKey) (h : OaHdr) (id : Nat)
  /-- CMD_DONE (R95): the running action of CMD object `index` ends -/
  | cmdDone (index : Nat) (status : Nat) (result : Bytes)
  /-- SECURED (R111): an opcode 0x31 record on management Ethernet; `authentic` is whether its authentication holds -/
  | secured (a : AssocKey) (session : Nat) (authentic : Bool) (inner : OaReq) (env : OaEnv)
  /-- ASSOCIATION_IDLE_TIMEOUT (R96): 300 s have passed without a frame -/
  | assocIdleTimeout (a : AssocKey)
  /-- GET_VERSION (R118): SPDM GET_VERSION -/
  | spdmGetVersion (a : AssocKey)
  /-- GET_CAPABILITIES (R118): SPDM GET_CAPABILITIES with the requester's flags -/
  | spdmGetCapabilities (a : AssocKey) (flags : Nat)
  /-- NEGOTIATE_ALGORITHMS (R118): SPDM NEGOTIATE_ALGORITHMS with the requester's sets -/
  | spdmNegotiateAlgorithms (a : AssocKey) (asym hash dhe aead : Nat)
  /-- GET_DIGESTS (R118): SPDM GET_DIGESTS -/
  | spdmGetDigests (a : AssocKey)
  /-- GET_CERTIFICATE (R118): SPDM GET_CERTIFICATE -/
  | spdmGetCertificate (a : AssocKey) (slot offset length : Nat)
  /-- CHALLENGE (R118): SPDM CHALLENGE -/
  | spdmChallenge (a : AssocKey) (slot : Nat) (nonce : Bytes)
  /-- GET_MEASUREMENTS (R118): SPDM GET_MEASUREMENTS -/
  | spdmGetMeasurements (a : AssocKey) (index : Nat) (sign : Bool) (nonce : Bytes)
  /-- KEY_EXCHANGE (R119): SPDM KEY_EXCHANGE -/
  | spdmKeyExchange (a : AssocKey) (mutualAuth : Bool) (exchange : Bytes)
  /-- FINISH (R119): SPDM FINISH, with the requester chain obtained by encapsulated request -/
  | spdmFinish (session : Nat) (chain finish : Bytes)
  /-- HEARTBEAT (R118): SPDM HEARTBEAT -/
  | spdmHeartbeat (session : Nat)
  /-- KEY_UPDATE (R118): SPDM KEY_UPDATE -/
  | spdmKeyUpdate (session : Nat)
  /-- END_SESSION (R119): SPDM END_SESSION -/
  | spdmEndSession (session : Nat)
  /-- SPDM_HEARTBEAT_TIMEOUT (R119): two heartbeat periods have passed without a frame -/
  | spdmHeartbeatTimeout (session : Nat)
  /-- MBOX_DOORBELL (R113): LEN written to MBOX_DOORBELL -/
  | mboxDoorbell (fn : MboxNo) (len : BitVec 13) (env : OaEnv)
  /-- MBOX_NOTIFY_ACK (R112): MBOX_NOTIFY_ACK written -/
  | mboxNotifyAck (fn : MboxNo) (ack : Bool)
  /-- OA_RESTORE_DEFAULTS (R121): 01:0120 written with `arg` -/
  | oaRestoreDefaults (by_ : Issuer) (arg : Byte)
  /-- DEV_WARM_RESET (R129): 01:0010 written with `arg` -/
  | devWarmReset (by_ : Issuer) (arg : Byte)
  /-- COMPLETION_RECEIVED (R154): a PCIe completion arrives on link `l` -/
  | completionReceived (l : LinkNo) (c : CplTlp)
  /-- COMPLETION_TIMEOUT (R156): the timer of the request with `tag` expires -/
  | completionTimeout (l : LinkNo) (tag : Nat)
  /-- TAG_QUARANTINE_END (R157): the quarantine of `tag` expires -/
  | tagQuarantineEnd (l : LinkNo) (tag : Nat)
  /-- IMPROPER_REGISTER_ACCESS (R146): a misaligned or oversized register access -/
  | improperAccess (fn : Fn) (offset : Nat) (len : Nat) (write : Bool)
  /-- BAR2_TLP (R162): a TLP to the BAR2 of a PF twin -/
  | bar2Tlp (l : LinkNo) (pf : Pf) (t : Bar2Tlp)
  /-- HOST_PEERWIN_COMMIT (R161): HOST_PEERWIN_COMMIT written -/
  | peerwinCommit (l : LinkNo) (pf : Pf) (go : Bool)
  /-- PEERWIN_DRAIN_DONE (R161): the last TLP of earlier generations has finished -/
  | peerwinDrainDone (l : LinkNo) (pf : Pf)
  /-- MSIX_UNMASK (R148): the host unmasks a vector -/
  | msixUnmask (fn : Fn) (vector : Fin 2048)
  /-- ATS_INVALIDATE (R142): an ATS invalidation request for `count` pages from `page`, once the DMAs that used them have completed -/
  | atsInvalidate (fn : Fn) (tag page count : Nat)
  /-- VF_ENABLE_SET (R167): VF Enable of PF `pf` written 1 on its active twin -/
  | vfEnableSet (pf : Pf)
  /-- VF_ENABLE_CLEAR (R167): VF Enable of PF `pf` written 0 on its active twin -/
  | vfEnableClear (pf : Pf)
  /-- NUMVFS_WRITE (R167): NumVFs of PF `pf` written with `n` -/
  | numvfsWrite (pf : Pf) (n : Nat)
  /-- VF_FLR (R172): Function Level Reset written to VF `vf` -/
  | vfFlr (vf : Vf)
  /-- VF_FLR_COMPLETE (R172): step 4 of R172 -/
  | vfFlrComplete (vf : Vf)
  /-- FREEZE (R178): 05:0100 written with `arg`, whose op is FREEZE -/
  | migFreeze (by_ : Issuer) (arg : Bytes)
  /-- DRAIN (R178): 05:0100 written with `arg`, whose op is DRAIN -/
  | migDrain (by_ : Issuer) (arg : Bytes)
  /-- DRAIN_COMPLETE (R178): the VF's work has ended and its writes are flushed -/
  | drainComplete (vf : Vf)
  /-- DRAIN_TIMEOUT (R178): 10 ms have passed since DRAIN was accepted -/
  | drainTimeout (vf : Vf)
  /-- SAVE (R178): 05:0100 written with `arg`, whose op is SAVE -/
  | migSave (by_ : Issuer) (arg : Bytes)
  /-- SAVE_COMPLETE (R178): the mover has come to the valid word; `written` is false where a host write failed -/
  | saveComplete (vf : Vf) (written : Bool)
  /-- RESTORE (R182): 05:0100 written with `arg`, whose op is RESTORE -/
  | migRestore (by_ : Issuer) (arg : Bytes)
  /-- RESTORE_COMPLETE (R182): the mover has read the blob, or its read failed -/
  | restoreComplete (vf : Vf) (blob : Option MigBlob)
  /-- RESUME (R174): 05:0100 written with `arg`, whose op is RESUME -/
  | migResume (by_ : Issuer) (arg : Bytes) (env : OaEnv)
  /-- TRACK_START (R183): 05:0100 written with `arg`, whose op is TRACK_START -/
  | trackStart (by_ : Issuer) (arg : Bytes)
  /-- TRACK_STOP (R183): 05:0100 written with `arg`, whose op is TRACK_STOP -/
  | trackStop (by_ : Issuer) (arg : Bytes)
  /-- HARVEST (R183): 05:0100 written with `arg`, whose op is HARVEST -/
  | migHarvest (by_ : Issuer) (arg : Bytes)
  /-- HARVEST_COMPLETE (R183): the retired bank has been copied, or its write failed -/
  | harvestComplete (vf : Vf) (copied : Bool)
  /-- RING_DOORBELL (R192): a write TLP touches a doorbell -/
  | ringDoorbell (fn : Fn) (page : Nat) (slot : Fin 16)
  /-- FETCH_BATCH_RETURN (R193): the reads of up to eight entries return -/
  | fetchBatchReturn (ring : Nat) (reads : List EntryRead)
  /-- NOP (R195): the NOP fetched at `counter` is carried out -/
  | ringNop (ring : Nat) (counter : Word32)
  /-- TRANSMIT (R197): the frame of a fetched TRANSMIT is read, or its read fails -/
  | ringTransmit (ring : Nat) (counter : Word32) (frame : Option Bytes)
  /-- TRANSMIT_DONE (R197): the frame of a TRANSMIT has been read, or has left its port, or was dropped -/
  | transmitDone (ring : Nat) (counter : Word32)
  /-- RECEIVE_POST (R197): the RECEIVE_POST fetched at `counter` posts its buffer -/
  | receivePost (ring : Nat) (counter : Word32)
  /-- CQ_CTLBLK_READ (R203): a control block read returns consumer counter and ARM, or fails -/
  | cqCtlblkRead (ring : Nat) (read : Option (Word32 × Bool))
  /-- CQ_POLL_TIMER (R203): 06:0003 us have passed while completions are held -/
  | cqPollTimer (ring : Nat)
  /-- COALESCE_TIMER (R204): T us have passed since the first uninterrupted entry -/
  | coalesceTimer (ring : Nat)
  /-- ADM_ENABLE_SET (R211): ENABLE written 1; `translated` is whether translation accepts the addresses -/
  | admEnableSet (fn : Fn) (translated : Bool)
  /-- ADM_ENABLE_CLEAR (R211): ENABLE written 0 -/
  | admEnableClear (fn : Fn)
  /-- ADMIN_RINGS_DELETED (R211): step 4 of R211 -/
  | adminRingsDeleted (fn : Fn) (translated : Bool)
  /-- CREATE_CQ (R212): admin entry 0x81 -/
  | createCq (fn : Fn) (entry : Bytes)
  /-- CREATE_SQ (R212): admin entry 0x82 -/
  | createSq (fn : Fn) (entry : Bytes)
  /-- MODIFY_QUEUE (R212): admin entry 0x83 -/
  | modifyQueue (fn : Fn) (entry : Bytes)
  /-- RESET_QUEUE (R212): admin entry 0x84 -/
  | resetQueue (fn : Fn) (entry : Bytes)
  /-- DELETE_QUEUE (R212): admin entry 0x85 -/
  | deleteQueue (fn : Fn) (entry : Bytes)
  /-- QUERY_QUEUE (R212): admin entry 0x86 -/
  | queryQueue (fn : Fn) (entry : Bytes)
  /-- RING_DRAIN_DONE (R209): the fetched entries of a DRAINING ring have finished -/
  | ringDrainDone (ring : Nat)
  /-- MAC_FRAME_RECEIVED (R219): port `port` receives `frame`, given without FCS; whether no uncorrectable FEC codeword overlaps it and its FCS is right -/
  | macFrameReceived (port : PortNo) (frame : Bytes) (fecOk fcsOk : Bool)
  /-- PFC_FRAME (R221): a PFC frame for priority `prio` -/
  | pfcFrame (port : PortNo) (prio : Fin 8) (quanta : Half)
  /-- PFC_PAUSE_EXPIRY (R221): the pause of priority `prio` ends -/
  | pfcPauseExpiry (port : PortNo) (prio : Fin 8)
  /-- XOFF_REFRESH (R221): half the pause time of an XOFF sent for `prio` has passed -/
  | xoffRefresh (port : PortNo) (prio : Fin 8)
  /-- EGRESS_TRANSMIT (R241): port `port` is free to transmit -/
  | egressTransmit (port : PortNo)
  /-- TIME_FREQ_ADJ (R223): 07:0020 written with the signed trim `v` -/
  | timeFreqAdj (by_ : Issuer) (v : Word32)
  /-- TIME_STEP (R223): 07:0021 written with the signed step `v` -/
  | timeStep (by_ : Issuer) (v : Word64)
  /-- HOLDOVER_EXPIRY (R223): 07:0022 seconds have passed without a trim -/
  | holdoverExpiry
  /-- PPS_OUT_RISE (R224): the time base crosses a whole second -/
  | ppsOutRise
  /-- PPS_OUT_FALL (R224): PPS_OUT has been high for 07:0025 ms -/
  | ppsOutFall
  /-- PPS_IN_EDGE (R224): PPS_IN rises -/
  | ppsInEdge
  /-- DROVER_DEAL (R230): one CLK_MAC cycle of the Drover -/
  | droverDeal
  /-- PIPELINE_PACKET (R245): pipeline `r` takes the next packet dealt to it; `ue` is whether a store read meets an uncorrectable error -/
  | pipelinePacket (r : RegionNo) (ue : Bool)
  /-- DEEP_LANE_RESULT (R259): the deep lane of region `r` finishes its `n`-th packet; `poison` is whether a line it read was poisoned -/
  | deepLaneResult (r : RegionNo) (n : Fin 256) (poison : Bool)
  /-- PIPELINE_RESULT (R235): the oldest result of pipeline `r` reaches the Fold -/
  | pipelineResult (r : RegionNo)
  /-- HOLE_TIMEOUT (R236): the oldest packet of source `src` behind a hole has waited 07:0110 us -/
  | holeTimeout (src : BitVec 24)
  /-- HELD_RELEASE_RESUME (R238): a destination that held source `src` gains room -/
  | heldReleaseResume (src : BitVec 24)
  /-- PORT_LINK_DOWN (R243): the link of port `port` goes down -/
  | portLinkDown (port : PortNo)
  /-- PORT_LINK_UP (R242): port `port` finishes training -/
  | portLinkUp (port : PortNo)
  /-- LOAD (R268): PIPE_LOAD_CMD or 08:0021 with op 1; `list` is the load list as read from host memory, none where a read failed -/
  | plateLoad (src : PlateSrc) (list : Option Bytes)
  /-- PREPARE (R269): PIPE_LOAD_CMD or 08:0021 with op 2 -/
  | platePrepare (src : PlateSrc)
  /-- RELEASE (R266): PIPE_LOAD_CMD or 08:0021 with op 3 -/
  | plateRelease (src : PlateSrc)
  /-- PLATE_OP_DONE (R269): the running operation of the load engine ends -/
  | plateOpDone
  /-- PLATE_COMMIT (R271): PIPE_PLATE_COMMIT or 08:0022 written -/
  | plateCommit (src : PlateSrc)
  /-- PINNED_WRITE (R274): PF0 on link `l` writes `bytes` at offset `off` of pinned slot `slot` -/
  | pinnedWrite (l : LinkNo) (slot : Fin 64) (off : Nat) (bytes : Bytes)
  /-- PINNED_APPLY (R274): the oldest accepted pinned write not yet applied in pipeline `r` applies there -/
  | pinnedApply (r : RegionNo)
  /-- PIN_WRITE (R275): 08:0030 written with `arg` -/
  | pinWrite (by_ : Issuer) (arg : Bytes)
  /-- COUNTER_CLEAR (R278): 08:0101 written with `n` -/
  | counterClear (by_ : Issuer) (n : Half)
  /-- LEARN_ARBITER_EVENT (R292): the learn arbiter takes the oldest event waiting -/
  | learnArbiterEvent
  /-- AGER_SWEEP (R293): the ager's second has passed -/
  | agerSweep
  /-- LEARN_BATCH_SEND (R296): enough records wait, or the oldest has waited 09:0033 us -/
  | learnBatchSend
  /-- LEARN_FRAME_RECEIVED (R300): the learn arbiter takes the oldest learn message the Fold released to it -/
  | learnFrameReceived
  /-- LEARN_REFRESH_TIMER (R301): 09:0034 seconds have passed -/
  | learnRefreshTimer
  /-- TBL_LIST_START (R305): TBL_CMD_GO or 09:0201 written -/
  | tblListStart (src : TblSrc)
  /-- CONN_INSERT (R289): the next record of the running list, a CONN_INSERT; none where its read failed -/
  | connInsert (rec : Option Bytes)
  /-- CONN_MODIFY (R303): the next record of the running list, a CONN_MODIFY -/
  | connModify (rec : Option Bytes)
  /-- CONN_DELETE (R303): the next record of the running list, a CONN_DELETE -/
  | connDelete (rec : Option Bytes)
  /-- BR_INSERT (R303): the next record of the running list, a BR_INSERT -/
  | brInsert (rec : Option Bytes)
  /-- BR_DELETE (R295): the next record of the running list, a BR_DELETE -/
  | brDelete (rec : Option Bytes)
  /-- BR_FLUSH (R303): the next record of the running list, a BR_FLUSH -/
  | brFlush (rec : Option Bytes)
  /-- PROOF_START (R306): 09:0300 written with `arg`, whose op is START -/
  | proofStart (by_ : Issuer) (arg : Bytes)
  /-- PROOF_RESUME (R306): 09:0300 written with `arg`, whose op is RESUME -/
  | proofResume (by_ : Issuer) (arg : Bytes)
  /-- PROOF_ABORT (R309): 09:0300 written with `arg`, whose op is ABORT -/
  | proofAbort (by_ : Issuer) (arg : Bytes)
  /-- PROOF_RING_POLL (R308): the pass, paused on its ring, reads the consumer counter; none where the read failed -/
  | proofRingPoll (consumer : Option Word32)
  /-- PROOF_PASS_END (R309): the pass has finished its last index -/
  | proofPassEnd
  /-- KEY_WRITE (R318): KEY_WIN_CMD or 0A:0110 with op 1 -/
  | keyWrite (src : KeySrc)
  /-- KEY_ERASE (R318): KEY_WIN_CMD or 0A:0110 with op 2 -/
  | keyErase (src : KeySrc)
  /-- KEY_WINDOW_CLEAR_TIMEOUT (R318): 100 ms have passed since the last data write of the window of `fn` -/
  | keyWindowClear (fn : Fn)
  /-- SA_CREATE (R324): 0A:0100 written with `arg`, whose op is CREATE -/
  | saCreate (by_ : Issuer) (arg : Bytes)
  /-- SA_DELETE (R324): 0A:0100 written with `arg`, whose op is DELETE -/
  | saDelete (by_ : Issuer) (arg : Bytes)
  /-- SA_QUERY (R324): 0A:0100 written with `arg`, whose op is QUERY -/
  | saQuery (by_ : Issuer) (arg : Bytes)
  /-- LA_QUEUE_CREATE (R330): 0A:0200 written with `arg`, whose op is 1 -/
  | laQueueCreate (by_ : Issuer) (arg : Bytes)
  /-- LA_QUEUE_DELETE (R330): 0A:0200 written with `arg`, whose op is 2 -/
  | laQueueDelete (by_ : Issuer) (arg : Bytes)
  /-- LA_DOORBELL (R330): the doorbell of job queue `q` of region `r` is written -/
  | laDoorbell (r : RegionNo) (q : Fin 32)
  /-- LA_JOB_COMPLETE (R331): the oldest job of queue `q` of region `r` ends -/
  | laJobComplete (r : RegionNo) (q : Fin 32)
  /-- MASK_STARVE_TIMEOUT (R322): the oldest packet or job of region `r` without mask randomness has waited 0A:0003 us -/
  | maskStarveTimeout (r : RegionNo)
  /-- TRNG_HEALTH_FAIL (R322): the TRNG fails a health test -/
  | trngHealthFail
  /-- TRNG_RETEST (R322): a second has passed since the failure or the last retest; whether the retest passes -/
  | trngRetest (pass : Bool)
  /-- DRBG_RESEED (R322): a second, or 2^20 requests, since the last reseed -/
  | drbgReseed
  /-- CREATE_QP (R340): 0B:0100 written with the 128-byte argument -/
  | createQp (by_ : Issuer) (arg : Bytes)
  /-- MODIFY_QP (R343): 0B:0100 written with the argument -/
  | modifyQp (by_ : Issuer) (arg : Bytes)
  /-- DESTROY_QP (R343): 0B:0100 written with the argument -/
  | destroyQp (by_ : Issuer) (arg : Bytes)
  /-- DESTROY_QP_DONE (R343): no admitted packet of the QP remains -/
  | destroyQpDone (qpn : Nat)
  /-- QUERY_QP (R340): 0B:0100 written with the argument -/
  | queryQp (by_ : Issuer) (arg : Bytes)
  /-- CREATE_SRQ (R341): 0B:0100 written with the argument -/
  | createSrq (by_ : Issuer) (arg : Bytes)
  /-- DESTROY_SRQ (R341): 0B:0100 written with the argument -/
  | destroySrq (by_ : Issuer) (arg : Bytes)
  /-- ARM_SRQ (R341): 0B:0100 written with the argument -/
  | armSrq (by_ : Issuer) (arg : Bytes)
  /-- CREATE_AH (R341): 0B:0100 written with the argument -/
  | createAh (by_ : Issuer) (arg : Bytes)
  /-- DESTROY_AH (R341): 0B:0100 written with the argument -/
  | destroyAh (by_ : Issuer) (arg : Bytes)
  /-- SET_GID (R341): 0B:0100 written with the argument -/
  | setGid (by_ : Issuer) (arg : Bytes)
  /-- REG_MR (R344): 0B:0100 written with the argument -/
  | regMr (by_ : Issuer) (arg : Bytes)
  /-- REVOKE_MR (R365): 0B:0100 written with the argument -/
  | revokeMr (by_ : Issuer) (arg : Bytes)
  /-- REVOKE_MR_DONE (R365): every engine's admitted count of the region is zero -/
  | revokeMrDone (key : Nat)
  /-- QUERY_MR (R341): 0B:0100 written with the argument -/
  | queryMr (by_ : Issuer) (arg : Bytes)
  /-- SEND (R348): the entry fetched at a counter value of a post ring -/
  | rdmaSend (ring : Nat) (counter : Word32)
  /-- SEND_IMM (R348): the entry fetched at a counter value of a post ring -/
  | rdmaSendImm (ring : Nat) (counter : Word32)
  /-- RDMA_WRITE (R348): the entry fetched at a counter value of a post ring -/
  | rdmaWrite (ring : Nat) (counter : Word32)
  /-- RDMA_WRITE_IMM (R348): the entry fetched at a counter value of a post ring -/
  | rdmaWriteImm (ring : Nat) (counter : Word32)
  /-- RDMA_READ (R348): the entry fetched at a counter value of a post ring -/
  | rdmaRead (ring : Nat) (counter : Word32)
  /-- RECV (R348): the entry fetched at a counter value of a post ring -/
  | rdmaRecv (ring : Nat) (counter : Word32)
  /-- WAIT (R366): the entry fetched at a counter value of a post ring -/
  | rdmaWait (ring : Nat) (counter : Word32)
  /-- WAIT_SATISFIED (R366): the WAIT at the head of the QP's send queue is looked at again -/
  | waitSatisfied (qpn : Nat)
  /-- REQUEST_PACKET_SEND (R356): the QP's requester sends its next packet; `mem` is the packet's data as read from host memory -/
  | requestPacketSend (qpn : Nat) (mem : HostRead)
  /-- ROCE_PACKET_RECEIVED (R357): the oldest packet released to engine `r` is taken; `mem` is what its host accesses give: the data of a READ, or whether its placement writes are accepted -/
  | rocePacketReceived (r : RegionNo) (mem : HostRead)
  /-- CONTEXT_FETCH_DONE (R337): the context of the QP arrives -/
  | contextFetchDone (qpn : Nat)
  /-- ACK_RECEIVED (R358): the oldest packet released to engine `r`, an ACK, is taken -/
  | ackReceived (r : RegionNo)
  /-- NAK_RECEIVED (R358): the oldest packet released to engine `r`, a NAK, is taken -/
  | nakReceived (r : RegionNo)
  /-- READ_RESPONSE_RECEIVED (R356): the oldest packet released to engine `r`, a READ response, is taken; `mem` says whether its placement is accepted -/
  | readResponseReceived (r : RegionNo) (mem : HostRead)
  /-- CNP_RECEIVED (R361): the oldest packet released to engine `r`, a CNP, is taken -/
  | cnpReceived (r : RegionNo)
  /-- ACK_SEND_TIMER (R358): 4 µs since the first unacknowledged packet of the lane -/
  | ackSendTimer (qpn : Nat) (lane : Fin 8)
  /-- ACK_TIMEOUT (R358): the lane's oldest unacknowledged packet has waited the ACK timeout -/
  | ackTimeout (qpn : Nat) (lane : Fin 8)
  /-- LANE_READMIT (R359): 0B:0013 has passed since the lane was withdrawn -/
  | laneReadmit (qpn : Nat) (lane : Fin 8)
  /-- RNR_TIMER_EXPIRY (R358): the RNR hold of the QP ends -/
  | rnrTimerExpiry (qpn : Nat)
  /-- RATE_RECOVERY_PERIOD (R361): a recovery period of the lane ends -/
  | rateRecoveryPeriod (qpn : Nat) (lane : Fin 8)
  /-- CC_EN_SET (R372): CC written with EN 1 where it read 0 -/
  | ccEnSet (c : CtlNo) (v : Word32)
  /-- CONTROLLER_READY (R372): the controller becomes ready -/
  | controllerReady (c : CtlNo)
  /-- CC_EN_CLEAR (R372): CC written with EN 0 where it read 1 -/
  | ccEnClear (c : CtlNo) (v : Word32)
  /-- CC_SHN (R372): CC written with SHN 01b or 10b -/
  | ccShn (c : CtlNo) (v : Word32)
  /-- SHUTDOWN_COMPLETE (R372): every acknowledged write is durable -/
  | shutdownComplete (c : CtlNo)
  /-- SQ_TAIL_DOORBELL (R374): the tail doorbell of SQ `q` written -/
  | sqTailDoorbell (c : CtlNo) (q : Nat) (v : Half)
  /-- CQ_HEAD_DOORBELL (R374): the head doorbell of CQ `q` written -/
  | cqHeadDoorbell (c : CtlNo) (q : Nat) (v : Half)
  /-- FETCH_PICK (R375): the fetch engine makes a pick; `entries` is what the SQ entries it reads hold, none for a failed read -/
  | fetchPick (entries : List (Option Bytes))
  /-- NVME_COMMAND_COMPLETE (R383): a command ends, or is ended by a fault -/
  | nvmeCommandComplete (c : CtlNo) (sq cid : Nat) (fault : Option NvFault)
  /-- QUEUE_MEMORY_FAULT (R391): an access to the memory of a queue fails -/
  | queueMemoryFault (c : CtlNo) (isCq : Bool) (q : Nat)
  /-- CREATE_IO_SQ (R373): the fetched admin command `cid` is carried out -/
  | createIoSq (c : CtlNo) (cid : Nat)
  /-- CREATE_IO_CQ (R373): the fetched admin command `cid` is carried out -/
  | createIoCq (c : CtlNo) (cid : Nat)
  /-- DELETE_IO_SQ (R392): the fetched admin command `cid` is carried out -/
  | deleteIoSq (c : CtlNo) (cid : Nat)
  /-- DELETE_IO_CQ (R373): the fetched admin command `cid` is carried out -/
  | deleteIoCq (c : CtlNo) (cid : Nat)
  /-- GET_LOG_PAGE (R380): the fetched admin command `cid` is carried out; `lists` is what its PRP lists or SGL segments hold -/
  | getLogPage (c : CtlNo) (cid : Nat) (lists : List Segment)
  /-- IDENTIFY (R381): the fetched admin command `cid` is carried out; `lists` is what its PRP lists or SGL segments hold -/
  | identify (c : CtlNo) (cid : Nat) (lists : List Segment)
  /-- ABORT (R384): the fetched admin command `cid` is carried out -/
  | nvmAbort (c : CtlNo) (cid : Nat)
  /-- SET_FEATURES (R380): the fetched admin command `cid` is carried out; `mem` is its data -/
  | setFeatures (c : CtlNo) (cid : Nat) (mem : HostRead)
  /-- GET_FEATURES (R380): the fetched admin command `cid` is carried out; `lists` is what its PRP lists or SGL segments hold -/
  | getFeatures (c : CtlNo) (cid : Nat) (lists : List Segment)
  /-- ASYNC_EVENT_REQUEST (R378): the fetched admin command `cid` is carried out -/
  | asyncEventRequest (c : CtlNo) (cid : Nat)
  /-- FLUSH (R379): the fetched command is handed to firmware thread `th` -/
  | nvmFlush (c : CtlNo) (sq cid : Nat) (th : ThreadNo)
  /-- NVM_WRITE (R379): the fetched command is handed to firmware; `lists` is what its PRP lists or SGL segments hold -/
  | nvmWrite (c : CtlNo) (sq cid : Nat) (th : ThreadNo) (lists : List Segment)
  /-- NVM_READ (R379): the fetched command is handed to firmware; `media` is what the back end returns -/
  | nvmRead (c : CtlNo) (sq cid : Nat) (th : ThreadNo) (lists : List Segment) (media : HostRead)
  /-- WRITE_ZEROES (R379): the fetched command is handed to firmware -/
  | nvmWriteZeroes (c : CtlNo) (sq cid : Nat) (th : ThreadNo)
  /-- DATASET_MANAGEMENT (R379): the fetched command is handed to firmware; `ranges` is its range list as read -/
  | datasetManagement (c : CtlNo) (sq cid : Nat) (th : ThreadNo) (ranges : HostRead)
  /-- ZONE_MANAGEMENT_SEND (R379): the fetched command is handed to firmware -/
  | zoneSend (c : CtlNo) (sq cid : Nat) (th : ThreadNo)
  /-- ZONE_MANAGEMENT_RECEIVE (R379): the fetched command is handed to firmware -/
  | zoneReceive (c : CtlNo) (sq cid : Nat) (th : ThreadNo) (lists : List Segment)
  /-- ZONE_APPEND (R409): the fetched command is handed to firmware -/
  | zoneAppend (c : CtlNo) (sq cid : Nat) (th : ThreadNo) (lists : List Segment)
  /-- NS_ATTACH (R385): 0C:0020 written with op 1 -/
  | nsAttach (by_ : Issuer) (arg : Bytes)
  /-- NS_DETACH (R385): 0C:0020 written with op 2 -/
  | nsDetach (by_ : Issuer) (arg : Bytes)
  /-- NS_ATTACH_QUERY (R393): 0C:0020 written with op 3 -/
  | nsAttachQuery (by_ : Issuer) (arg : Bytes)
  /-- BE_DEFINE (R395): 0C:1010 written with op 1; `ident` is what the back-end namespace's Identify data says, none where it cannot be read -/
  | beDefine (by_ : Issuer) (arg : Bytes) (ident : Option BeIdent)
  /-- BE_REMOVE (R395): 0C:1010 written with op 2 -/
  | beRemove (by_ : Issuer) (arg : Bytes)
  /-- BE_QUERY (R395): 0C:1010 written with op 3 -/
  | beQuery (by_ : Issuer) (arg : Bytes)
  /-- NS_CREATE (R396): 0C:1000 written with op 1 -/
  | nsCreate (by_ : Issuer) (arg : Bytes)
  /-- NS_DELETE (R398): 0C:1000 written with op 2 -/
  | nsDelete (by_ : Issuer) (arg : Bytes)
  /-- NS_QUERY (R398): 0C:1000 written with op 3 -/
  | nsQuery (by_ : Issuer) (arg : Bytes)
  /-- NS_RECOVER (R398): 0C:1000 written with op 4 -/
  | nsRecover (by_ : Issuer) (arg : Bytes)
  /-- ATOMIC_PIECE (R403): firmware hands the command's next piece to the back-end unit; `mem` is the piece's data as read from the host -/
  | atomicPiece (c : CtlNo) (sq cid : Nat) (mem : HostRead)
  /-- LOG_WRITE_COMPLETE (R403): the slot write of a record ends -/
  | logWriteComplete (log : Fin 8) (seq : Nat) (ok : Bool)
  /-- HOME_WRITE_COMPLETE (R403): the home writes of a record end -/
  | homeWriteComplete (log : Fin 8) (seq : Nat) (ok : Bool)
  /-- CHECKPOINT_WRITE (R401): the back-end unit writes the next checkpoint -/
  | checkpointWrite (log : Fin 8)
  /-- LOG_REPLAY (R404): the log is replayed; `cps` are its two checkpoint blocks and `slots` the header block and data of each slot, as read -/
  | logReplay (log : Fin 8) (cps : List Bytes) (slots : List (Bytes × Bytes))
  /-- BACKEND_LOST (R405): back end `be_` is lost -/
  | backendLost (be_ : Fin 64)
  /-- BACKEND_RETURN (R405): back end `be_` returns -/
  | backendReturn (be_ : Fin 64)
  /-- RESYNC_COMPLETE (R400): the stale copy of a namespace has been copied -/
  | resyncComplete (ns : Nat)
  /-- BE_WAIT_LIMIT_EXPIRY (R405): a namespace has waited 0C:1003 -/
  | beWaitLimit (ns : Nat)
  /-- ZONE_SEAL (R409): every assigned append of a full zone has completed -/
  | zoneSeal (ns zone : Nat)
  /-- SEAL_VERIFY_START (R411): 0C:1040 written with op 1 -/
  | sealVerifyStart (by_ : Issuer) (arg : Bytes)
  /-- SEAL_VERIFY_RESUME (R411): 0C:1040 written with op 2 -/
  | sealVerifyResume (by_ : Issuer) (arg : Bytes)
  /-- SEAL_VERIFY_ABORT (R411): 0C:1040 written with op 3 -/
  | sealVerifyAbort (by_ : Issuer) (arg : Bytes)
  /-- SEAL_VERIFY_END (R411): the verification reaches its last zone -/
  | sealVerifyEnd
  /-- SEAL_EXPORT (R412): 0C:1050 written; `chain` is the entries and the zone table entry as read, none where they cannot be -/
  | sealExport (by_ : Issuer) (arg : Bytes) (chain : Option Bytes)
  /-- SLOT_PRESENCE_CHANGE (R418): a level of SLOTk_PRSNT_N is accepted -/
  | slotPresence (k : SlotNo) (present : Bool)
  /-- SLOT_POWER_FAULT (R422): SLOTk_PWRFLT_N has been low for 1 µs, or is high again -/
  | slotPowerFault (k : SlotNo) (low : Bool)
  /-- SLOT_ATTENTION_PRESS (R423): a debounced press of SLOTk_ATNBTN_N -/
  | slotAttention (k : SlotNo)
  /-- ATTENTION_WINDOW_EXPIRY (R423): 5 s have passed since a press -/
  | attentionWindow (k : SlotNo)
  /-- SLOT_POWER_ON (R420): Power Controller Control written 0 by firmware, or 0D:0100 op 1 -/
  | slotPowerOn (k : SlotNo) (by_ : Option Issuer)
  /-- SLOT_SETTLE_TIMER (R420): 0D:0012 has passed since PWREN -/
  | slotSettle (k : SlotNo)
  /-- DL_ACTIVE (R420): the root port reaches DL_Active at a rate code and width; `ident` is what the drive's identification says -/
  | dlActive (k : SlotNo) (rate : Fin 6) (width : Fin 17) (ident : Option BeIdent)
  /-- SLOT_TRAINING_TIMEOUT (R420): DL_Active is not reached in time -/
  | slotTrainingTimeout (k : SlotNo)
  /-- SLOT_POWER_OFF (R421): Power Controller Control written 1 by firmware, or 0D:0100 op 2 -/
  | slotPowerOff (k : SlotNo) (by_ : Option Issuer)
  /-- SLOT_PWREN_OFF_TIMER (R421): 1 ms has passed since PERST -/
  | slotPwrenOff (k : SlotNo)
  /-- SLOT_POWER_OFF_WAIT (R421): 0D:0013 has passed since PWREN went off -/
  | slotOffWait (k : SlotNo)
  /-- SLOT_ATN_OFF (R427): 0D:0100 op 3 -/
  | slotAtnOff (k : SlotNo) (by_ : Issuer)
  /-- SLOT_ATN_ON (R427): 0D:0100 op 4 -/
  | slotAtnOn (k : SlotNo) (by_ : Issuer)
  /-- SLOT_ATN_BLINK (R427): 0D:0100 op 5 -/
  | slotAtnBlink (k : SlotNo) (by_ : Issuer)
  /-- SLOT_CONTROL_WRITE (R419): firmware writes Slot Control, and Slot Status bits to clear -/
  | slotControl (k : SlotNo) (v clear : Half)
  /-- DRIVE_LINK_DOWN (R422): the link of root port `k` goes down without presence loss; `ltssm` is the LTSSM state at the loss -/
  | driveLinkDown (k : SlotNo) (ltssm : Byte)
  /-- DRIVE_ERROR_MESSAGE (R422): an error message arrives at root port `k`: 0 ERR_COR, 1 ERR_FATAL, 2 ERR_NONFATAL -/
  | driveError (k : SlotNo) (kind : Fin 3)
  /-- DRIVE_COMPLETION_TIMEOUT (R417): the request of root port `k` under a tag times out -/
  | driveTimeout (k : SlotNo) (tag : Fin 1024)
  /-- DPC_CLEAR (R422): firmware clears DPC Trigger Status of root port `k` -/
  | dpcClear (k : SlotNo)
  /-- RV_INSTRUCTION (R433): thread `t` issues the instruction at its pc in its slot, or takes a pending interrupt -/
  | rvInstruction (t : ThreadNo) (env : OaEnv)
  /-- HOST_WINDOW_READ_RETURN (R441): the read of the outstanding host-window load of thread `t` ends -/
  | hostWindowReadReturn (t : ThreadNo) (r : HostRead)
  /-- MACHINE_TIMER_INTERRUPT (R431): time reaches kwtimecmp of thread `t` -/
  | machineTimerInterrupt (t : ThreadNo)
  /-- KWCMO_CLEAN (R432): thread `t` writes kwcmo with op 1 for the line at `addr` -/
  | kwcmoClean (t : ThreadNo) (addr : Nat)
  /-- KWCMO_INVALIDATE (R432): thread `t` writes kwcmo with op 2 for the line at `addr` -/
  | kwcmoInvalidate (t : ThreadNo) (addr : Nat)
  /-- KWCMO_CLEAN_INVALIDATE (R432): thread `t` writes kwcmo with op 3 for the line at `addr` -/
  | kwcmoCleanInvalidate (t : ThreadNo) (addr : Nat)
  /-- KWICFILL (R437): thread `t` writes kwicfill with `v` -/
  | kwicfill (t : ThreadNo) (v : Word64)
  /-- CELL_START (R442): CELL_START of cell `c` is written with `v` -/
  | cellStart (c : CellNo) (v : Word64)
  /-- CELL_WDOG_KICK (R451): CELL_WDOG_KICK of cell `c` is written -/
  | cellWdogKick (c : CellNo)
  /-- CELL_WATCHDOG_EXPIRY (R451): the watchdog of cell `c` expires -/
  | cellWatchdogExpiry (c : CellNo)
  /-- BW_ACK_NO_ACTION (R449): BW_ACK of block `b` is written with ACTION 1 -/
  | bwAckNoAction (b : BlockNo) (seq : Half)
  /-- BW_ACK_RESET_REQUEST (R449): BW_ACK of block `b` is written with ACTION 2 -/
  | bwAckResetRequest (b : BlockNo) (seq : Half)
  /-- BW_CONSUMER_WRITE (R449): BW_CONSUMER of block `b` is written -/
  | bwConsumerWrite (b : BlockNo) (v : Word32)
  /-- CELL_RESET (R454): 0E:0020 written with `arg` -/
  | cellReset (by_ : Issuer) (arg : Byte)
  /-- PKT_GET (R445): thread `t` issues PKT.GET -/
  | pktGet (t : ThreadNo) (rd rs1 : Fin 32)
  /-- PKT_TRYGET (R445): thread `t` issues PKT.TRYGET -/
  | pktTryget (t : ThreadNo) (rd rs1 : Fin 32)
  /-- PKT_PUT (R446): thread `t` issues PKT.PUT -/
  | pktPut (t : ThreadNo) (rd rs1 rs2 : Fin 32)
  /-- LK_ACQ (R457): thread `t` issues LK.ACQ -/
  | lkAcq (t : ThreadNo) (rd rs1 : Fin 32)
  /-- LK_TRY (R457): thread `t` issues LK.TRY -/
  | lkTry (t : ThreadNo) (rd rs1 : Fin 32)
  /-- LK_REL (R457): thread `t` issues LK.REL -/
  | lkRel (t : ThreadNo) (rd rs1 : Fin 32)
  /-- EV_WAIT (R460): thread `t` issues EV.WAIT -/
  | evWait (t : ThreadNo) (rd rs1 rs2 : Fin 32)
  /-- EV_SIG (R460): thread `t` issues EV.SIG -/
  | evSig (t : ThreadNo) (rd rs1 : Fin 32)
  /-- EV_ADD (R460): thread `t` issues EV.ADD -/
  | evAdd (t : ThreadNo) (rd rs1 rs2 : Fin 32)
  /-- EV_ADD_REGISTER (R461): EV_ADD_`k` of block `b` is written with `v` -/
  | evAddRegister (b : BlockNo) (k : Fin 1024) (v : Word64)
  /-- CH_RES (R464): thread `t` issues CH.RES -/
  | chRes (t : ThreadNo) (rd rs1 : Fin 32)
  /-- CH_PUB (R464): thread `t` issues CH.PUB -/
  | chPub (t : ThreadNo) (rd rs1 : Fin 32)
  /-- CH_READ (R464): thread `t` issues CH.READ -/
  | chRead (t : ThreadNo) (rd rs1 rs2 : Fin 32)
  /-- CHANNEL_OPEN (R462): CH_CFG_`n` of block `b` is written with `v` and ENABLE set -/
  | channelOpen (b : BlockNo) (n : Fin 256) (v : Word32)
  /-- CHANNEL_CLOSE (R462): CH_CFG_`n` of block `b` is written with `v` and ENABLE clear -/
  | channelClose (b : BlockNo) (n : Fin 256) (v : Word32)
  /-- LE_CH_ABORT (R473): LE_CH_ABORT of block `b` is written; whether the debug unit writes it -/
  | leChAbort (b : BlockNo) (n : Fin 256) (debug : Bool)
  /-- WAIT_WATCHDOG_EXPIRY (R470): the wait watchdog of thread `t` expires -/
  | waitWatchdogExpiry (t : ThreadNo)
  /-- BLOCK_STALL (R469): the stall condition of block `b` has held for LE_STALL_HOLD us -/
  | blockStall (b : BlockNo)
  /-- DMA_CHANNEL_ENABLE (R478): DMA_CH_CFG of channel `c` of region `r` written with `v` and ENABLE set -/
  | dmaChannelEnable (r : RegionNo) (c : Fin 32) (v : Word32)
  /-- DMA_CHANNEL_DISABLE (R493): DMA_CH_CFG written with `v` and ENABLE clear -/
  | dmaChannelDisable (r : RegionNo) (c : Fin 32) (v : Word32)
  /-- DMA_CH_KICK (R478): DMA_CH_KICK written -/
  | dmaChKick (r : RegionNo) (c : Fin 32)
  /-- DMA_DESCRIPTOR_READ (R482): the descriptor read of channel `c` that is due returns -/
  | dmaDescriptorRead (r : RegionNo) (c : Fin 32)
  /-- COPY (R481): channel `c` moves the elements its bursts allow; `src` is what reads of host memory return, element by element -/
  | dmaCopy (r : RegionNo) (c : Fin 32) (src : List HostRead)
  /-- FILL (R486): channel `c` fills the elements its bursts allow -/
  | dmaFill (r : RegionNo) (c : Fin 32)
  /-- COMPARE (R486): channel `c` compares the elements its bursts allow; `src` and `dst` are what reads of host memory return -/
  | dmaCompare (r : RegionNo) (c : Fin 32) (src dst : List HostRead)
  /-- DMA_BURST_START (R488): the next waiting channel that names line `line` takes a request of it -/
  | dmaBurstStart (r : RegionNo) (line : Fin 64)
  /-- DMA_DESCRIPTOR_COMPLETE (R489): the descriptor of channel `c` has ended and is written back -/
  | dmaDescriptorComplete (r : RegionNo) (c : Fin 32)
  /-- DMA_BUS_ERROR (R490): an access of the engine fails -/
  | dmaBusError (r : RegionNo) (addr : Word64) (space : Fin 3) (write : Bool) (fn : BitVec 12) (code : Fin 8)
  /-- DMA_DRAINED (R490): no access of the engine is outstanding -/
  | dmaDrained (r : RegionNo)
  /-- DMA_BUS_ERROR_CLEAR (R490): 1 written to BUS_ERROR of DMA_ENG_STATUS -/
  | dmaBusErrorClear (r : RegionNo)
  /-- DMA_STOP (R491): DMA_CH_CTRL written with op 1 -/
  | dmaStop (r : RegionNo) (c : Fin 32)
  /-- DMA_RESUME (R491): DMA_CH_CTRL written with op 2 -/
  | dmaResume (r : RegionNo) (c : Fin 32)
  /-- DMA_RESTART (R491): DMA_CH_CTRL written with op 3 -/
  | dmaRestart (r : RegionNo) (c : Fin 32)
  /-- DMA_SKIP (R491): DMA_CH_CTRL written with op 4 -/
  | dmaSkip (r : RegionNo) (c : Fin 32)
  /-- DMA_REQ_SW (R487): DMA_REQ_SW written -/
  | dmaReqSw (r : RegionNo) (lines : Half)
  /-- DMA_REQ_CLEAR (R493): 1 written to CLEAR of DMA_REQ_PENDING of a line -/
  | dmaReqClear (r : RegionNo) (line : Fin 64)
  /-- DMA_TIMER_PULSE (R487): the time base crosses a multiple of the period of DMA_TIMER_`k` -/
  | dmaTimerPulse (r : RegionNo) (k : Fin 4)
  /-- MEMORY_READ (R500): an engine reads line `line`; `errs` are the symbols the devices return wrong, with the difference -/
  | memoryRead (line : Nat) (errs : List (Fin 80 × Byte))
  /-- MEMORY_WRITE (R501): an engine writes `data` from byte `off` of line `line`, or the whole line with the poison marking -/
  | memoryWrite (line : Nat) (off : Fin 64) (data : Bytes) (poison : Bool)
  /-- MEM_DEVICE_MARK (R502): 10:0032 written with `arg`, whose op is 1 -/
  | memDeviceMark (by_ : Issuer) (arg : Bytes)
  /-- MEM_DEVICE_CLEAR (R502): 10:0032 written with `arg`, whose op is 2 -/
  | memDeviceClear (by_ : Issuer) (arg : Bytes)
  /-- MEM_TRANSLATE (R497): 10:0020 written with `addr` -/
  | memTranslate (by_ : Issuer) (addr : Word64)
  /-- SCRUB_START (R507): 10:0100 written with `arg`, whose op is START -/
  | scrubStart (by_ : Issuer) (arg : Bytes)
  /-- SCRUB_RESUME (R507): 10:0100 written with `arg`, whose op is RESUME -/
  | scrubResume (by_ : Issuer) (arg : Bytes)
  /-- SCRUB_ABORT (R507): 10:0100 written with `arg`, whose op is ABORT -/
  | scrubAbort (by_ : Issuer) (arg : Bytes)
  /-- SCRUB_LINE (R508): the scrubber takes the line at its cursor; `errs` are the symbols the devices return wrong -/
  | scrubLine (errs : List (Fin 80 × Byte))
  /-- ECC_TEST_RAW_WRITE (R512): 10:0110 written with `arg`, whose op is 1 -/
  | eccTestRawWrite (by_ : Issuer) (arg : Bytes)
  /-- ECC_TEST_DATA_WRITE (R512): 10:0110 written with `arg`, whose op is 2 -/
  | eccTestDataWrite (by_ : Issuer) (arg : Bytes)
  /-- ECC_TEST_CHECK_WRITE (R512): 10:0110 written with `arg`, whose op is 3 -/
  | eccTestCheckWrite (by_ : Issuer) (arg : Bytes)
  /-- ECC_TEST_READ (R512): 10:0110 written with `arg`, whose op is 4 -/
  | eccTestRead (by_ : Issuer) (arg : Bytes)
  /-- SRAM_PATROL_READ (R513): a patrol reads a word, clean, corrected or uncorrectable. Store: 0 cell SRAM, 1 instruction cache (of cell `unit`), 2 block SRAM (of block `unit` mod 16), 3 classifier stores, 4 bridge replica, 5 connection cache, 6 firmware scratch of the region table SRAM (of region `unit` mod 4), 7 packet buffer, 8 tile SRAMs. `addr`: core physical address; for 5 the bucket, for 7 the handle of the frame -/
  | sramPatrolRead (store : Fin 9) (unit : Fin 128) (addr : Nat) (outcome : Fin 3)
  /-- SRAM_CORRECTED_WRITEBACK (R513): the oldest corrected word not yet written back is written -/
  | sramCorrectedWriteback
  /-- MONITOR_SAMPLE (R516): monitor `n` of a kind (0 temperature, 1 voltage, 2 process) delivers a signed sample in the units of R516 -/
  | monitorSample (kind : Fin 3) (n : Fin 80) (v : Word32)
  /-- SENSOR_FAILED (R517): sensor `n` has returned no sample for 1 ms -/
  | sensorFailed (n : Fin 48)
  /-- SHEPHERD_CYCLE (R520): one cycle; `occ` is the share of issue slots each region's threads occupied over 10 ms, `u` the memory demand, in thousandths -/
  | shepherdCycle (occ : List (Fin 1001)) (u : Fin 1001)
  /-- EMERGENCY_RETURN (R522): region `r`'s trusted sensors have stayed below 97 °C for 100 ms -/
  | emergencyReturn (r : RegionNo)
  /-- RAIL_SETTLED (R519): the four monitors of region `r`'s rail read within 10 mV of the setpoint -/
  | railSettled (r : RegionNo)
  /-- RAIL_SETTLE_TIMEOUT (R519): 500 µs have passed without that -/
  | railSettleTimeout (r : RegionNo)
  /-- VR_WRITE (R591): the next queued PMBus write is sent; `acked` is whether the regulator acknowledges it -/
  | vrWrite (acked : Bool)
  /-- THERMTRIP (R523): a 115 °C comparator fires -/
  | thermtrip
  /-- THERMTRIP_RELEASE (R523): every sensor has read below 105 °C for 1 s -/
  | thermtripRelease (flash : FlashStart)
  /-- AGEING_UPDATE (R528): the hourly ageing computation -/
  | ageingUpdate
  /-- MON_PROC_MEASURE (R535): 03:0121 written with `arg`; `vals` are the signed degradations the process monitors measure -/
  | monProcMeasure (by_ : Issuer) (arg : Byte) (vals : List Word32)
  /-- SHEPHERD_SILENT (R530): 10 ms have passed without a heartbeat -/
  | shepherdSilent
  /-- MON_TRUST (R535): 03:0120 written with `arg` -/
  | monTrust (by_ : Issuer) (arg : Byte)
  /-- HEARTBEAT_SEND (R540): 10 ms have passed since the last heartbeat -/
  | heartbeatSend
  /-- HEARTBEAT_RECEIVED (R541): the membership unit takes the oldest membership frame that is no OBJECT frame -/
  | heartbeatReceived
  /-- CONFLICT_CLEAR (R545): an ID in conflict has been heard from only one serial for 50 ms -/
  | conflictClear (id : Half)
  /-- MEMBERSHIP_OBJECT (R540): the oldest OBJECT frame of the fabric that waits is taken -/
  | membershipObject (env : OaEnv)
  /-- PEER_SUSPECT (R543): 50 ms have passed without a heartbeat of peer `id` -/
  | peerSuspect (id : Half)
  /-- PEER_UNREACHABLE (R543): 50 ms more have passed -/
  | peerUnreachable (id : Half)
  /-- ROSTER_COMMIT (R538): 11:0011 written with `arg` -/
  | rosterCommit (by_ : Issuer) (arg : Bytes)
  /-- ROSTER_GRACE_EXPIRY (R538): the grace of the previous roster's digest ends -/
  | rosterGraceExpiry
  /-- DOMAIN_START_HOLD_EXPIRY (R547): the 100 ms of R547 end -/
  | domainStartHold
  /-- HEAL_HOLD_EXPIRY (R550): the heal hold ends -/
  | healHold
  /-- DOM_PEER_QUERY (R554): 11:0020 written with `id` -/
  | domPeerQuery (by_ : Issuer) (id : Half)
  /-- JOURNAL_EVENT_TIMER (R568): 100 ms have passed since event 0x1201, or none has been raised -/
  | journalEventTimer
  /-- JOURNAL_CLEAR (R569): 12:0006 written with `arg` -/
  | journalClear (by_ : Issuer) (arg : Byte)
  /-- TAP_RESET (R572): the TAP enters Test-Logic-Reset -/
  | tapReset
  /-- EXTEST (R575): the instruction becomes EXTEST, with `tdi` shifted into the boundary register -/
  | extest (tdi : Bytes)
  /-- IDCODE (R572): the instruction becomes IDCODE, and its register is captured -/
  | tapIdcode
  /-- SAMPLE_PRELOAD (R573): SAMPLE/PRELOAD: the pins are captured and `tdi` is shifted into the boundary register -/
  | samplePreload (tdi : Bytes)
  /-- HIGHZ (R575): the instruction becomes HIGHZ -/
  | tapHighz
  /-- CLAMP (R575): the instruction becomes CLAMP -/
  | tapClamp
  /-- EXTEST_PULSE (R575): the instruction becomes EXTEST_PULSE, with `tdi` shifted in -/
  | extestPulse (tdi : Bytes)
  /-- EXTEST_TRAIN (R575): the instruction becomes EXTEST_TRAIN, with `tdi` shifted in -/
  | extestTrain (tdi : Bytes)
  /-- DBG_STATUS (R583): the instruction becomes DBG_STATUS, and its register is captured -/
  | dbgStatus
  /-- BYPASS (R573): an opcode that selects BYPASS -/
  | tapBypass (opcode : Byte)
  /-- EXTEST_EXIT (R575): the instruction becomes `opcode`, outside the EXTEST class -/
  | extestExit (opcode : Byte)
  /-- DBG_UNLOCK (R577): 13:0010 written with `arg` -/
  | dbgUnlock (by_ : Issuer) (arg : Bytes)
  /-- DBG_UNLOCK_EXPIRY (R577): the duration of the unlock has passed -/
  | dbgUnlockExpiry
  /-- DBG_HALT (R580): a debug command with op HALT -/
  | dbgHalt (p : DbgPath) (arg : Bytes)
  /-- DBG_RESUME (R580): a debug command with op RESUME -/
  | dbgResume (p : DbgPath) (arg : Bytes)
  /-- DBG_STEP (R580): a debug command with op STEP -/
  | dbgStep (p : DbgPath) (arg : Bytes) (env : OaEnv)
  /-- DBG_READ_REG (R580): a debug command with op READ_REG -/
  | dbgReadReg (p : DbgPath) (arg : Bytes)
  /-- DBG_WRITE_REG (R580): a debug command with op WRITE_REG -/
  | dbgWriteReg (p : DbgPath) (arg : Bytes)
  /-- DBG_READ_MEM (R580): a debug command with op READ_MEM; what host memory returns where it names it -/
  | dbgReadMem (p : DbgPath) (arg : Bytes) (host : HostRead)
  /-- DBG_WRITE_MEM (R580): a debug command with op WRITE_MEM -/
  | dbgWriteMem (p : DbgPath) (arg : Bytes) (env : OaEnv)
  /-- DBG_CH_ABORT (R580): a debug command with op CH_ABORT -/
  | dbgChAbort (p : DbgPath) (arg : Bytes)
  /-- TRACE_START (R582): a debug command with op TRACE and control 1 -/
  | traceStart (p : DbgPath) (arg : Bytes)
  /-- TRACE_STOP (R582): a debug command with op TRACE and control 2 -/
  | traceStop (p : DbgPath) (arg : Bytes)
  /-- TRACE_READ (R580): a debug command with op TRACE_READ -/
  | traceRead (p : DbgPath) (arg : Bytes)
  /-- SERDES_TEST_START (R585): 13:0200 written with `arg`, whose op is 1 -/
  | serdesTestStart (by_ : Issuer) (arg : Bytes)
  /-- SERDES_TEST_STOP (R585): 13:0200 written with `arg`, whose op is 2 -/
  | serdesTestStop (by_ : Issuer) (arg : Bytes)
  /-- SERDES_TEST_CLEAR (R586): 13:0200 written with `arg`, whose op is 3 -/
  | serdesTestClear (by_ : Issuer) (arg : Bytes)
  /-- PCIE0_REFCLK_RESTORED (R52): PCIE0_REFCLK returns and the host PHY PLL relocks -/
  | pcie0RefclkRestored
  /-- PCIE1_REFCLK_RESTORED (R52): PCIE1_REFCLK returns -/
  | pcie1RefclkRestored
  /-- DRV_REFCLK_RESTORED (R52): DRV_REFCLK returns and the drive PHY PLL relocks -/
  | drvRefclkRestored
  /-- DOWNSTREAM_TLP (R416): a TLP arrives from the drive -/
  | downstreamTlp (k : SlotNo) (t : DriveTlp)
  /-- CONFIGURATION_WRITE (R141): the host writes a function's configuration space -/
  | configurationWrite (fn : Fn) (w : CfgWrite)
  /-- PAGE_REQUEST_RESPONSE (R142): the host answers the page request `index` for a page -/
  | pageRequestResponse (fn : Fn) (index page : Nat) (granted : Bool)
  /-- ENDPOINT_ID_REASSIGNMENT (R96): the management controller replaces endpoint ID `old` on an MCTP binding -/
  | endpointReassign (b : Binding) (old : Nat)
  /-- ON_CHANGE_INTERVAL_EXPIRY (R114): the spacing of on-change subscription `id` has passed -/
  | onChangeExpiry (id : Nat)
  /-- PROOF_COMPARE (R309): the pass compares the next entry with its shadow entry; none where the shadow read failed -/
  | proofCompare (shadow : Option Bytes)
  /-- SEAL_VERIFY_READ (R411): the verifier reads its next record, or checks a full zone's table -/
  | sealVerifyRead (x : SealRead)
  /-- CHECKER_LOCK (R586): the checker of lane number `lane` + 1 locks -/
  | checkerLock (lane : Fin 56)
  /-- CHECKER_LOCK_LOSS (R586): it loses lock, having compared that many bits and found that many errors since it locked -/
  | checkerLockLoss (lane : Fin 56) (compared errors : Word64)
  deriving DecidableEq, Repr

end Sys2Proof
end

