-- ==== Sys2Proof/Decode.lean ====
section
/-!
DEFINITION. The operation table gives its rows no bits: a command is an event at a pin, a register or a link, and no word
spells one.
-/
namespace Sys2Proof

/-- The command a word of the table spells: none, for no row of the table has bits. -/
def decodeTableWord (_nbits _w : Nat) : Option Instr := none

end Sys2Proof
end

