-- ==== Sys2Proof/Machine/State.lean ====
section
/-!
DEFINITION. The state of the Kwaith: every register, queue, table, counter, mode and pin the spec gives it, as plain
data, and its value right after power is applied. Maps are association lists in ascending key order; an absent key
holds the unit's reset value. `INVENTORY.md` lists each field with its rule.
-/
namespace Sys2Proof.Machine

/-! ### Containment, clocks and start (chapters 02 to 04) -/

/-- One containment reset, for the sliding windows of R33. -/
structure ContReset where
  level : Nat
  unit  : Nat
  time  : Nat
  deriving DecidableEq, Repr

/-- The containment ladder's own state (R33 to R41). -/
structure Cont where
  resets   : List ContReset
  cells    : List Nat
  blocks   : List Nat
  regions  : List Nat
  /-- regions withdrawn from the Drover by the Shepherd, a reset or isolation (R232) -/
  withdrawn : List Nat
  /-- cells (level 1) and blocks (level 2) being reset, with the instant their reset ends (R35, R452) -/
  resetting : List ContReset
  /-- region resets under way: region, start instant, and whether one was commanded (R39) -/
  regionResets : List (Nat × (Nat × Bool))
  /-- held at stage 0 after escalation (R33) -/
  held     : Bool
  deriving DecidableEq, Repr

def Cont.reset : Cont :=
  { resets := [], cells := [], blocks := [], regions := [], withdrawn := [], resetting := [], regionResets := [],
    held := false }

/-- R49: the controller states of a crossing. -/
inductive XState where
  | run | quiesce | reset | resync | held
  deriving DecidableEq, Repr

/-- Clocks and crossings (R42 to R53). -/
structure Clk where
  /-- kHz of the domains of 01:0200; an absent domain is stopped -/
  freq  : List (Nat × Nat)
  refSys : Bool
  refEth : Bool
  refPcie0 : Bool
  refPcie1 : Bool
  refDrv : Bool
  /-- every domain but CLK_AON held in reset: after PWROK low, loss of REFCLK_SYS, a trip or EXTEST -/
  holdAll : Bool
  /-- a frequency the idle PLL of a region's pair is locking to -/
  target : List (Nat × Nat)
  /-- crossings by number of R45 less 1; an absent one is in RUN -/
  crossings : List (Nat × XState)
  deriving DecidableEq, Repr

def Clk.reset : Clk :=
  { freq := [], refSys := true, refEth := true, refPcie0 := true, refPcie1 := true, refDrv := true, holdAll := true,
    target := [], crossings := [] }

/-- R64: adoption of the Sheepdog queue pair. -/
inductive Adoption where
  | idle
  | requested (at_ : Nat)
  deriving DecidableEq, Repr

/-- Staged start (R54 to R66). -/
structure Start where
  stage   : Nat
  reason  : Nat
  held    : Bool
  recovery : Bool
  adopted : Bool
  adoption : Adoption
  /-- admin entries on the Sheepdog pair held during adoption: function, entry -/
  heldAdmin : List (Nat × Bytes)
  /-- PWROK, or the end of the last chip warm reset -/
  origin  : Nat
  /-- instant of stage 2 entry -/
  bringUp : Nat
  memWritten : Bool
  /-- chip warm resets since power-on reset (R63) -/
  count   : Half
  /-- power is good: PWROK has been recognised high -/
  pwrok   : Bool
  deriving DecidableEq, Repr

def Start.reset : Start :=
  { stage := 0, reason := 0, held := false, recovery := false, adopted := false, adoption := .idle,
    heldAdmin := [], origin := 0, bringUp := 0, memWritten := false, count := 0, pwrok := false }

/-! ### Secure start and recovery (chapter 05) -/

/-- R86 to R91: the recovery loader. Phases: 0 idle, 1 erasing, 2 receiving, 3 verified, 4 committed. -/
structure Loader where
  active  : Bool
  /-- version of the accepted HELLO_ACK; 0 while HELLO is sent -/
  version : Nat
  rate    : Nat
  /-- a rate acknowledged, and the instant of the acknowledgement -/
  newRate : Option (Nat × Nat)
  /-- instant of a switch to a rate no frame has come at yet -/
  probeAt : Option Nat
  phase   : Nat
  slot    : Nat
  total   : Nat
  /-- bytes programmed, as disjoint ranges in ascending order: offset, length -/
  got     : List (Nat × Nat)
  /-- the transfer may be resumed: it ran at version 2 -/
  keeps   : Bool
  /-- sequence of the last accepted frame and its answer: type, payload -/
  last    : Option (Nat × (Nat × Bytes))
  /-- instant of the last accepted frame, and at which the next HELLO is due -/
  frameAt : Nat
  helloAt : Nat
  deriving DecidableEq, Repr

def Loader.reset : Loader :=
  { active := false, version := 0, rate := 115200, newRate := none, probeAt := none, phase := 0, slot := 0, total := 0, got := [],
    keeps := false, last := none, frameAt := 0, helloAt := 0 }

/-- R92: the PLDM update. Phases: 0 idle, 1 requested, 2 downloading, 3 verified. -/
structure Pldm where
  phase : Nat
  size  : Nat
  got   : List (Nat × Nat)
  deriving DecidableEq, Repr

def Pldm.reset : Pldm := { phase := 0, size := 0, got := [] }

/-- The security core: flash, fuses, keys, and the updates of the slots (R67 to R94). -/
structure Boot where
  /-- bytes of the flash; an unlisted one reads 0xFF, as an erased NOR flash does -/
  flash   : Mem
  /-- revoked root keys, and blown epoch fuses (R71, R82) -/
  revoked : List Nat
  blown   : List Nat
  /-- the measurement the keys in use were derived from at power-on (R84, R85) -/
  derived : Option Bytes
  /-- the steward core's memory as loaded from the booted image (R72), by load address -/
  steward : Mem
  /-- entry points: of the steward core and of thread 0 of every cell -/
  entries : Nat × Nat
  /-- 02:0105 under verification: its issuer and slot -/
  commit  : Option (Issuer × Nat)
  /-- commands of R93 that wait for it: object, issuer, argument -/
  waiting : List (Nat × (Issuer × Nat))
  /-- the next start enters the recovery loader (R86) -/
  recover : Bool
  loader  : Loader
  pldm    : Pldm
  deriving DecidableEq, Repr

def Boot.reset : Boot :=
  { flash := [], revoked := [], blown := [], derived := none, steward := [], entries := (0, 0), commit := none, waiting := [],
    recover := false, loader := Loader.reset, pldm := Pldm.reset }


/-! ### The object-access server (chapters 06 and 07) -/

/-- R103: a partial WRITE_BLOCK sequence. -/
structure PartialBlock where
  index : Nat
  total : Nat
  data  : Bytes
  /-- instant of its last frame -/
  last  : Nat
  deriving DecidableEq, Repr

/-- R133: a snapshot of a table object, read in pieces. -/
structure Snapshot where
  index : Nat
  data  : Bytes
  last  : Nat
  deriving DecidableEq, Repr

/-- R96, R106, R116, R117: one association. Absent associations are unnegotiated. -/
structure Assoc where
  key      : AssocKey
  /-- 0 while unnegotiated, otherwise 1 or 2 (R117) -/
  version  : Nat
  maxFrame : Nat
  /-- notification sequence of the next NOTIFY or CMD_DONE (R116) -/
  seq      : Half
  /-- notifications lost since the last one delivered (R116) -/
  lost     : Nat
  /-- undelivered notifications, oldest first, at most 64 (R116) -/
  queue    : List Note
  /-- the last 16 requests with their answers, newest first (R106) -/
  recent   : List (OaReq × OaResp)
  part     : Option PartialBlock
  snapshot : Option Snapshot
  /-- transaction IDs ever issued to it (R109) -/
  issued   : List Nat
  /-- instant of its last frame (R96) -/
  last     : Nat
  deriving DecidableEq, Repr

/-- R114: one subscription. -/
structure Sub where
  id       : Nat
  assoc    : AssocKey
  index    : Nat
  /-- 1 on change, 2 periodic -/
  mode     : Nat
  /-- interval in ms -/
  interval : Nat
  /-- instant of the last NOTIFY; of the subscription itself where it is periodic -/
  sentAt   : Option Nat
  /-- value of an object computed as it is read, as last compared -/
  seen     : Bytes
  /-- a change waits for the spacing to pass -/
  waiting  : Bool
  deriving DecidableEq, Repr

/-- R107: one staged item: its index, value and the change count first recorded. -/
structure Staged where
  index : Nat
  value : Val
  count : Nat
  deriving DecidableEq, Repr

/-- R107 to R109: one open transaction. -/
structure Txn where
  id     : Nat
  assoc  : AssocKey
  staged : List Staged
  last   : Nat
  deriving DecidableEq, Repr

/-- R119: one SPDM session. -/
structure Session where
  id       : Nat
  assoc    : AssocKey
  mutualAuth : Bool
  /-- the requester's chain ends at a trust anchor of 01:0102 -/
  trusted  : Bool
  finished : Bool
  /-- KEY_UPDATEs done -/
  keyGen   : Nat
  /-- instant of its last frame -/
  last     : Nat
  deriving DecidableEq, Repr

/-- R118: where an SPDM exchange on an association stands. -/
structure Spdm where
  version    : Bool
  caps       : Bool
  algorithms : Bool
  /-- the exchange and the cipher of a session are agreed too -/
  keys       : Bool
  deriving DecidableEq, Repr

/-- The object-access server. -/
structure Oa where
  assocs   : List Assoc
  subs     : List Sub
  txns     : List Txn
  /-- transaction IDs issued, which are not issued again (R109) -/
  txnIds   : List Nat
  /-- change counts of objects (R107) -/
  changes  : List (Nat × Nat)
  sessions : List Session
  /-- mailboxes by function instance; the firmware port of block b is 2000 + b -/
  mboxes   : List (Nat × Mbox)
  /-- CMD objects whose action still runs (R95, R103): object, issuer -/
  running  : List (Nat × Issuer)
  /-- frames answered per source address in the current second (R111): address, second, count -/
  ethUsed  : List (Nat × (Nat × Nat))
  spdm     : List (AssocKey × Spdm)
  /-- notifications for fabric peers that wait to be sent in OBJECT frames (R110): device ID, frame -/
  fabricOut : List (Nat × Bytes)
  /-- mailbox requests to be read: mailbox, LEN (R174) -/
  due      : List (Nat × Nat)
  deriving DecidableEq, Repr

def Oa.reset : Oa :=
  { assocs := [], subs := [], txns := [], txnIds := [], changes := [], sessions := [],
    mboxes := [], running := [], ethUsed := [], spdm := [], fabricOut := [], due := [] }

/-! ### The host interface (chapter 08) -/

/-- R153 to R156: a read request whose tag is in use. -/
structure HostReq where
  tag   : Nat
  fn    : Nat
  addr  : Nat
  len   : Nat
  /-- bytes placed so far -/
  got   : Nat
  sentAt : Nat
  deriving DecidableEq, Repr

/-- R156 to R158: a quarantined tag. -/
structure Quarantine where
  tag       : Nat
  fn        : Nat
  ends      : Nat
  abandoned : Bool
  deriving DecidableEq, Repr

/-- One host link. -/
structure Link where
  up     : Bool
  flit   : Bool
  /-- rate code of 04:0003 -/
  rate   : Nat
  width  : Nat
  reqs   : List HostReq
  quarantined : List Quarantine
  /-- requests waiting for a free tag, oldest first: function, address, length -/
  waiting : List (Nat × Nat × Nat)
  /-- finished requests: tag and status, 0 done, 1 host error, 2 poisoned, 3 completion timeout (R154, R156) -/
  done   : List (Nat × Nat)
  deriving DecidableEq, Repr

/-- One active peer window (R159, R160). -/
structure PeerWin where
  offset : Nat
  target : Nat
  port   : Nat
  ty     : Nat
  sizeLog2 : Nat
  rd     : Bool
  wr     : Bool
  deriving DecidableEq, Repr

/-- R159 to R161: the active windows of one PF twin. -/
structure Peer where
  active : List (Nat × PeerWin)
  generation : Half
  deriving DecidableEq, Repr

/-- One host port: PERSTn_N and its reference. -/
structure HostPort where
  perst   : Bool
  /-- instant from which the 100 ms of R56 count -/
  released : Nat
  deriving DecidableEq, Repr

/-- The host tile. -/
structure HostIf where
  links : List (Nat × Link)
  fns   : List (Nat × FnCfg)
  peers : List (Nat × Peer)
  ports : List (Nat × HostPort)
  /-- 04:0000, 04:0001, 04:0002 and 04:0051 in force since power-on reset -/
  placement : Nat
  split : List Nat
  pfPort : List Nat
  bar2Log2 : List Nat
  /-- the address translation cache: function and page, most recent first (R142) -/
  atc : List (Nat × Nat)
  /-- DMAs that failed with a translation fault: function, index of the page request (R142) -/
  pageFaults : List (Nat × Nat)
  /-- function map generation (R152) -/
  mapGen : Word32
  deriving DecidableEq, Repr

def Link.reset : Link :=
  { up := false, flit := false, rate := 0, width := 0, reqs := [], quarantined := [], waiting := [], done := [] }

def FnCfg.reset : FnCfg :=
  { memEnable := false, mps := 128, mrrs := 512, cto := 0, d3hot := false, ats := false, pri := false, msix := false,
    fmask := false, numVfs := 0, vfEnable := false, aer := [], headerLogged := false, unmasked := [], pending := [],
    messages := [], inFlr := false, tenBit := false }

def Peer.reset : Peer := { active := [], generation := 0 }

def HostPort.reset : HostPort := { perst := true, released := 0 }

def HostIf.reset : HostIf :=
  { links := [], fns := [], peers := [], ports := [], placement := 1, split := [0, 0], pfPort := [0, 0, 1, 1],
    bar2Log2 := [34, 34, 34, 34], atc := [], pageFaults := [], mapGen := 1 }

/-! ### Virtual functions and migration (chapter 09) -/

/-- R173, R185: migration states, in the encoding of 05:0400. -/
inductive MigState where
  | running | frozen | drained | saving | saved | restoring
  deriving DecidableEq, Repr

/-- R183: dirty-page tracking of a VF. Banks are sets of bit numbers. -/
structure Track where
  base : Nat
  /-- bytes per bit -/
  granule : Nat
  len  : Nat
  live : List Nat
  /-- the bank being copied by a HARVEST -/
  retired : Option (List Nat)
  deriving DecidableEq, Repr

/-- R175: a DRAIN, SAVE, RESTORE or HARVEST that runs, or waits under R177. -/
structure MigOp where
  op   : Nat
  by_  : Issuer
  at_  : Nat
  addr : Nat
  len  : Nat
  waits : Bool
  deriving DecidableEq, Repr

/-- One VF. -/
structure VfState where
  up    : Bool
  state : MigState
  fresh : Bool
  lastOp : Nat
  lastResult : Nat
  /-- the sections a SAVE would write: type and body length (R180), published as Required -/
  sections : List (Nat × Nat)
  drops : Nat
  drainUs : Nat
  track : Option Track
  op    : Option MigOp
  /-- LEN of a mailbox doorbell that came while frozen (R174) -/
  mboxHeld : Option Nat
  /-- in FLR, between its acceptance and step 4 of R172 -/
  inFlr : Bool
  deriving DecidableEq, Repr

def VfState.reset : VfState :=
  { up := false, state := .running, fresh := true, lastOp := 0, lastResult := 0, sections := [], drops := 0, drainUs := 0,
    track := none, op := none, mboxHeld := none, inFlr := false }

/-- All VFs; `total` is 05:0001 in force (R166). -/
structure Vfs where
  vfs   : List (Nat × VfState)
  total : List Nat
  /-- VFs whose SAVE or RESTORE waits, in arrival order (R177) -/
  queue : List Nat
  /-- 05:0030 in force, in MiB -/
  trackPool : Nat
  deriving DecidableEq, Repr

def Vfs.reset : Vfs :=
  { vfs := [], total := [256, 256, 256, 256], queue := [], trackPool := 0 }

/-! ### Descriptor rings and the admin queues (chapter 10) -/

/-- R215: one asynchronous event. `data` follows the source function; a 32-byte record fills the entry. -/
structure Event where
  code     : Nat
  ring     : Nat
  consumer : Nat
  detail   : Nat
  source   : Nat
  data     : Bytes
  deriving DecidableEq, Repr

/-- R210, R211: an admin queue beside its registers. -/
structure Adm where
  sq      : Option Nat
  cq      : Option Nat
  /-- step 3 of R211 taken, step 4 not yet -/
  stopping : Bool
  startHeld : Bool
  /-- events held while READY is 0, oldest first, at most 64 (R215) -/
  events  : List Event
  evLost  : Nat
  deriving DecidableEq, Repr

/-- All rings. -/
structure Rings where
  rings : List (Nat × Ring)
  /-- serial number of the next ring: receive rings are counted in creation order (R260) -/
  serial : Nat
  adm   : List (Nat × Adm)
  /-- 06:0001 in force since stage 3 entry, in MiB -/
  pool  : Nat
  /-- the Sheepdog queue pair is being adopted: it is not fetched from, and frames for it are held (R64) -/
  adopting : Bool
  deriving DecidableEq, Repr

def Adm.reset : Adm := { sq := none, cq := none, stopping := false, startHeld := false, events := [], evLost := 0 }

def Rings.reset : Rings := { rings := [], serial := 0, adm := [], pool := 0, adopting := false }

/-! ### Ports, the Drover and the Fold (chapter 11) -/

/-- A packet on its way, with what the stamp of R227 says of it. -/
structure Pkt where
  frame   : Bytes
  /-- 24-bit source ID (R226) -/
  src     : Nat
  seq     : Nat
  /-- plate slot stamped (R229) -/
  slot    : Nat
  direct  : Bool
  prio    : Nat
  /-- ingress virtual port (R225) -/
  ingress : Nat
  time    : Nat
  mark    : Nat
  dest    : Nat
  /-- region it was dealt to -/
  region  : Nat
  /-- handle of the frame in the packet buffer -/
  handle  : Nat
  /-- the transmit entry it comes from: ring, counter -/
  tx      : Option (Nat × Nat)
  deriving DecidableEq, Repr

/-- Where a released packet goes (R238). -/
inductive Dest where
  | vport (v : Nat)
  | rdma (region : Nat)
  | sheepdog
  | learn
  | steward
  deriving DecidableEq, Repr

/-- One copy of a packet that a result releases. -/
structure Out where
  dest : Dest
  pkt  : Pkt
  /-- receive queue of R260 -/
  rxq  : Nat
  /-- flow hash (R621) -/
  hash : Nat
  mark : Nat
  deriving DecidableEq, Repr

/-- A result on its way to the Fold; no copies for a skip token. -/
structure Result where
  src  : Nat
  seq  : Nat
  outs : List Out
  deriving DecidableEq, Repr

/-- A packet slot of the Fold (R228). -/
structure FoldSlot where
  src    : Nat
  seq    : Nat
  region : Nat
  slot   : Nat
  handle : Nat
  tx     : Option (Nat × Nat)
  /-- its result and the instant it came -/
  result : Option (List Out × Nat)
  deriving DecidableEq, Repr

/-- A packet in a deep lane (R259): its walk, or the lookup of a CONNECTION action, still to do. -/
structure DeepPkt where
  pkt   : Pkt
  /-- the move epoch when it entered (R288) -/
  epoch : Nat
  conn  : Bool
  /-- the CONNECTION action and the copies its mirror took -/
  act   : Bytes
  outs  : List Out
  deriving DecidableEq, Repr

/-- The queues of one region's pipeline. -/
structure PipeQ where
  queue  : List Pkt
  deep   : List DeepPkt
  outbox : List Result
  deriving DecidableEq, Repr

/-- One network port. -/
structure PortSt where
  up       : Bool
  training : Bool
  /-- priorities the partner has paused, with the instant the pause ends (R221) -/
  paused   : List (Nat × Nat)
  /-- priorities for which XOFF holds, with the instant it was last sent (R221, R241) -/
  xoff     : List (Nat × Nat)
  /-- headroom in use by lossless priority, in units (R241) -/
  head     : List (Nat × Nat)
  /-- frames admitted and not yet dealt, oldest first -/
  inQ      : List Pkt
  /-- egress queues by priority, oldest first -/
  egress   : List (Nat × List Pkt)
  deriving DecidableEq, Repr

/-- Ports, Drover, Fold and packet buffer. -/
structure Net where
  /-- port mode in force (R218) -/
  mode    : Nat
  ports   : List (Nat × PortSt)
  hostQ   : List Pkt
  threadQ : List (Nat × List Pkt)
  engineQ : List (Nat × List Pkt)
  /-- the last port, thread and engine served, the class being served and what is left of its visit (R230) -/
  lastPort   : Nat
  lastThread : Nat
  lastEngine : Nat
  cls     : Nat
  credit  : Nat
  /-- the region that took the last packet (R231) -/
  lastRegion : Nat
  /-- next sequence of each source (R226) -/
  seqs    : List (Nat × Nat)
  /-- next expected sequence of each source (R235) -/
  next    : List (Nat × Nat)
  fold    : List FoldSlot
  /-- sequences declared lost: source, sequence, region (R236) -/
  lost    : List (Nat × Nat × Nat)
  /-- sources whose release is held (R238) -/
  held    : List Nat
  /-- in-flight count per plate slot (R229) -/
  inFlight : List (Nat × Nat)
  pipes   : List (Nat × PipeQ)
  /-- packets punted to a thread and not yet got, oldest first (R233) -/
  punts   : List (Nat × List Pkt)
  /-- packets a thread has got and not put, by handle: thread, packet -/
  got     : List (Nat × (Nat × Pkt))
  /-- packets released to RDMA engine r, to the learn arbiter, to the steward core -/
  rdmaQ   : List (Nat × List Pkt)
  learnRx : List Pkt
  stewardRx : List Pkt
  /-- frames held for the Sheepdog receive ring during adoption (R64) -/
  adoptHeld : List Out
  /-- handles of frames in the packet buffer with an uncorrectable word (R514) -/
  damaged : List Nat
  /-- CLK_MAC is stopped -/
  frozen  : Bool
  ppsOut  : Bool
  /-- instant PPS_OUT rose -/
  ppsAt   : Nat
  /-- instant of the last write of 07:0020 -/
  trimAt  : Nat
  deriving DecidableEq, Repr

def PortSt.reset : PortSt := { up := false, training := false, paused := [], xoff := [], head := [], inQ := [], egress := [] }

def PipeQ.reset : PipeQ := { queue := [], deep := [], outbox := [] }

def Net.reset : Net :=
  { mode := 3, ports := [], hostQ := [], threadQ := [], engineQ := [], lastPort := 7, lastThread := 1023,
    lastEngine := 5, cls := 0, credit := 0, lastRegion := 3, seqs := [], next := [], fold := [], lost := [], held := [],
    inFlight := [], pipes := [], punts := [], got := [], rdmaQ := [], learnRx := [], stewardRx := [], adoptHeld := [], damaged := [],
    frozen := false, ppsOut := false, ppsAt := 0, trimAt := 0 }

/-! ### Classifier and plates (chapter 12) -/

/-- How an operation of the load engine ended: cause, store, level and index (R269). -/
structure LoadRes where
  cause : Nat
  store : Nat
  level : Nat
  index : Nat
  deriving DecidableEq, Repr

/-- An operation of the load engine (R270): LOAD 1, PREPARE 2, RELEASE 3. -/
structure LoadOp where
  /-- 0 the registers of PF0, 1 principal M, 2 principal F -/
  origin : Nat
  op     : Nat
  slot   : Nat
  /-- the list, once it has been read -/
  list   : Option Bytes
  /-- instance of PF0 whose registers gave it -/
  fn     : Nat
  res    : LoadRes
  deriving DecidableEq, Repr

/-- A pinned slot of one pipeline (R273): its first 120 bytes and VALID. -/
structure Pin where
  body  : Bytes
  valid : Bool
  deriving DecidableEq, Repr

/-- An accepted pinned write not yet applied: pipelines, slot, byte offset, bytes. -/
structure PinWrite where
  mask  : Nat
  slot  : Nat
  off   : Nat
  bytes : Bytes
  /-- VALID as the write leaves it; none for a body write -/
  valid : Option Bool
  deriving DecidableEq, Repr

/-- A meter's buckets in one region (R263): bytes × 96,000,000 in each, and the instant they were last filled. -/
structure Bucket where
  c    : Nat
  p    : Nat
  last : Nat
  deriving DecidableEq, Repr

/-- The classifier: one image of the stores, which every region in service holds alike (R253, R268). -/
structure Pipe where
  headers   : List (Nat × Bytes)
  /-- state code of each slot (R266) -/
  states    : List Nat
  liveGen   : Half
  live      : Nat
  /-- nodes by deep × 2^20 + level × 2^16 + index -/
  nodes     : List (Nat × Bytes)
  /-- rule entries by deep × 2^20 + index -/
  rules     : List (Nat × Bytes)
  actions   : List (Nat × Bytes)
  templates : List (Nat × Bytes)
  /-- slots marked on an entry (R267), by store × 2^24 + key -/
  marks     : List (Nat × List Nat)
  /-- counters by region × 8192 + number: packets, bytes -/
  counters  : List (Nat × (Nat × Nat))
  /-- meter buckets by region × 2048 + number; an absent one is full -/
  buckets   : List (Nat × Bucket)
  /-- pinned slots as each pipeline holds them, by region × 64 + slot -/
  pins      : List (Nat × Pin)
  /-- and as last accepted for it -/
  pinsAcc   : List (Nat × Pin)
  pinQ      : List PinWrite
  ops       : List LoadOp
  /-- 08:0004 and 08:0005 in force -/
  deepRules : Nat
  deepNodes : Nat
  deriving DecidableEq, Repr

def Pipe.reset : Pipe :=
  { headers := [], states := [5, 0, 0, 0], liveGen := 0, live := 0, nodes := [], rules := [],
    actions := [], templates := [], marks := [], counters := [], buckets := [], pins := [], pinsAcc := [], pinQ := [],
    ops := [], deepRules := 0, deepNodes := 0 }

/-! ### Forwarding tables, learning, the proof pass (chapter 13) -/

/-- A valid bridge entry (R280) with its side record; `hit` lists the regions whose replica has HIT set. -/
structure BrEntry where
  mac    : Bytes
  bd     : Nat
  dest   : Nat
  owner  : Nat
  static : Bool
  remote : Bool
  hit    : List Nat
  time   : Nat
  idle   : Nat
  /-- marked stale by a merge (R551) -/
  stale  : Bool
  deriving DecidableEq, Repr

/-- What waits for the learn arbiter (R291, R292). -/
structure LearnEv where
  mac    : Bytes
  bd     : Nat
  dest   : Nat
  owner  : Nat
  time   : Nat
  remote : Bool
  /-- true for a WITHDRAW record -/
  withdraw : Bool
  /-- local kind NEW, checked against the port's limit -/
  isNew  : Bool
  /-- region that raised it; 4 for a received record -/
  region : Nat
  deriving DecidableEq, Repr

/-- A learn record waiting to be sent: 1 LEARN, 2 WITHDRAW (R297). -/
structure LearnRec where
  op   : Nat
  bd   : Nat
  mac  : Bytes
  time : Nat
  refresh : Bool
  /-- instant it was queued -/
  at_  : Nat
  deriving DecidableEq, Repr

/-- A list of table commands (R304, R305). -/
structure TblList where
  /-- 0 the registers of PF0, 1 principal M, 2 principal F -/
  origin : Nat
  fn     : Nat
  addr   : Nat
  records : Nat
  done   : Nat
  deriving DecidableEq, Repr

/-- R306 to R309: the proof pass. -/
structure Proof where
  /-- 0 idle, 1 running, 2 paused on ring, 3 done, 4 aborted, 5 ended by reset, 6 failed -/
  state  : Nat
  table  : Nat
  staticOnly : Bool
  first  : Nat
  last   : Nat
  cursor : Nat
  shadow : Nat
  ring   : Nat
  log2n  : Nat
  ctlblk : Nat
  counter : Word32
  seen   : Word32
  compared : Nat
  mismatches : Nat
  firstMis : Nat
  lastMis : Nat
  began  : Nat
  ended  : Nat
  /-- a mismatch waiting for a free slot: index and record bytes -/
  waiting : List (Nat × Bytes)
  deriving DecidableEq, Repr

/-- The tables. -/
structure Tabs where
  br      : List (Nat × BrEntry)
  /-- connection entries by index, 64 bytes each -/
  conn    : List (Nat × Bytes)
  /-- buckets cached per region, most recently used first -/
  cache   : List (Nat × List Nat)
  epoch   : Word32
  /-- instant an entry was last relocated to this index -/
  moved   : List (Nat × Nat)
  /-- recent events per region: MAC and BD, newest first, at most 256 -/
  filters : List (Nat × List (Bytes × Nat))
  arb     : List LearnEv
  outbox  : List LearnRec
  /-- a second re-announcement waits for the one in progress (R551) -/
  sweepQueued : Bool
  /-- start of the last refresh (R301) -/
  refreshAt : Nat
  txSeq   : Word32
  rxSeq   : List (Nat × Nat)
  lists   : List TblList
  proof   : Proof
  deriving DecidableEq, Repr

def Proof.reset : Proof :=
  { state := 0, table := 0, staticOnly := false, first := 0, last := 0, cursor := 0, shadow := 0, ring := 0, log2n := 0,
    ctlblk := 0, counter := 0, seen := 0, compared := 0, mismatches := 0, firstMis := 0, lastMis := 0, began := 0,
    ended := 0, waiting := [] }

def Tabs.reset : Tabs :=
  { br := [], conn := [], cache := [], epoch := 0, moved := [], filters := [], arb := [], outbox := [], sweepQueued := false, refreshAt := 0, txSeq := 0,
    rxSeq := [], lists := [], proof := Proof.reset }

/-! ### The Burins and the key store (chapter 14) -/

/-- R315: state of a key slot. -/
inductive KeyState where
  | empty | keyed | damaged
  deriving DecidableEq, Repr

/-- A key slot. -/
structure KeySlot where
  state : KeyState
  usage : Nat
  key   : Bytes
  refs  : Nat
  used  : Bool
  deriving DecidableEq, Repr

def KeySlot.reset : KeySlot := { state := .empty, usage := 0, key := [], refs := 0, used := false }

/-- A lookaside job taken from its queue: slot address, entry, and the instant it was taken. -/
structure LaJob where
  addr  : Nat
  entry : Bytes
  at_   : Nat
  deriving DecidableEq, Repr

/-- R330: a lookaside job queue of a region. -/
structure LaQueue where
  log2n   : Nat
  base    : Nat
  counter : Word32
  /-- jobs taken, oldest first -/
  jobs    : List LaJob
  deriving DecidableEq, Repr

/-- The data words of a key window (R317, R318). -/
structure KeyWin where
  words : List (Nat × Nat)
  /-- instant of the last data write -/
  last  : Nat
  deriving DecidableEq, Repr

/-- A packet that waits for mask randomness at step 5 of R262: its region, frame and action, and the copies its mirror
took (R322). -/
structure Starved where
  pkt  : Pkt
  /-- its frame as received -/
  first : Bytes
  act  : Bytes
  outs : List Out
  /-- instant it began to wait -/
  at_  : Nat
  deriving DecidableEq, Repr

/-- Burins, key store and random numbers. -/
structure Burin where
  /-- by pool × 2^18 + slot -/
  slots    : List (Nat × KeySlot)
  /-- slots resident on chip, by region × 2^32 + slot, most recently used first (R316) -/
  resident : List Nat
  sas      : List (Nat × Sa)
  /-- tag of the next SA at an index -/
  tags     : List (Nat × Nat)
  /-- by region × 32 + queue -/
  queues   : List (Nat × LaQueue)
  wins     : List (Nat × KeyWin)
  /-- 0A:0004 -/
  rng      : Nat
  /-- consecutive retest passes -/
  passes   : Nat
  /-- instant of the TRNG failure or of the last retest -/
  testAt   : Nat
  starved  : List Starved
  deriving DecidableEq, Repr

def Burin.reset : Burin :=
  { slots := [], resident := [], sas := [], tags := [], queues := [], wins := [], rng := 0, passes := 0, testAt := 0, starved := [] }

/-! ### RDMA (chapter 15) -/

def RLane.reset : RLane :=
  { state := 0, reason := 0, rate := 0, h := 0, q := 0, turn := 0, psn := 0, expect := 0, nakSent := false, unacked := [],
    episodes := [], srtt := 0, slowAt := none, goneAt := 0, resync := false, cutAt := none, periodAt := 0, owed := 0,
    owedAt := 0, cnpAt := none }

/-- A shared receive queue (R341). -/
structure Srq where
  owner : Nat
  pd    : Nat
  depth : Nat
  limit : Nat
  armed : Bool
  rq    : List Work
  deriving DecidableEq, Repr

/-- An address handle (R341): owner and the fields of CREATE_AH. -/
structure Ah where
  owner : Nat
  arg   : Bytes
  deriving DecidableEq, Repr

/-- The RDMA engines. -/
structure Rdma where
  qps   : List (Nat × Qp)
  srqs  : List (Nat × Srq)
  ahs   : List (Nat × Ah)
  /-- by owner × 16 + GID index -/
  gids  : List (Nat × Bytes)
  mrs   : List (Nat × Mr)
  /-- tag each key index last carried -/
  tags  : List (Nat × Nat)
  /-- resident contexts by region, most recently used first (R337) -/
  resident : List (Nat × List Nat)
  /-- packets waiting for a context, oldest first -/
  parked : List (Nat × Pkt)
  /-- 0B:0002 and 0B:0003 in force since stage 3 entry, in MiB -/
  wqPool : Nat
  asmPool : Nat
  deriving DecidableEq, Repr

def Rdma.reset : Rdma :=
  { qps := [], srqs := [], ahs := [], gids := [], mrs := [], tags := [], resident := [], parked := [], wqPool := 0, asmPool := 0 }


/-! ### NVMe controllers (chapter 16) -/

def NvCtl.reset : NvCtl :=
  { st := 1, rising := none, falling := false, shn := false, sqs := [], cqs := [], cmds := [], feats := [], aers := [],
    events := [], masked := [], errlog := [], errCount := 0, changed := [], completed := 0, lost := 0, cls := 1, grant := 0, turns := [] }

/-- The storage front end. -/
structure Nvme where
  ctls  : List (Nat × NvCtl)
  /-- 0C:0000 in force since power-on reset -/
  hosts : Nat
  /-- R375: controllers last picked for admin, urgent and weighted work, urgent picks in a row, picks left of a visit -/
  lastAdmin : Nat
  lastUrgent : Nat
  lastWeighted : Nat
  urgentRun : Nat
  credit : Nat
  /-- instant of the last pick -/
  pickAt : Nat
  deriving DecidableEq, Repr

def Nvme.reset : Nvme :=
  { ctls := [], hosts := 10, lastAdmin := 1027, lastUrgent := 1027, lastWeighted := 1027, urgentRun := 0, credit := 0, pickAt := 0 }


/-! ### Back ends, namespaces, logs (chapter 17) -/

/-- A back end (R394, R395). States: 1 present, 2 absent, 3 lost. -/
structure Be where
  /-- 1 local, 2 remote -/
  kind  : Nat
  plp   : Bool
  port  : Nat
  nsid  : Nat
  qpn   : Nat
  blocks : Nat
  /-- 0 for 512 bytes, 1 for 4,096 bytes -/
  fmt   : Nat
  st    : Nat
  /-- controller serial number and NGUID recorded at DEFINE (R424) -/
  serial : Bytes
  nguid : Bytes
  deriving DecidableEq, Repr

/-- A zone (R406). States: 1 empty, 2 closed, 3 full; on chip only, 4 implicitly open, 5 explicitly open. -/
structure Zone where
  st    : Nat
  /-- next block to assign, from the zone start -/
  wp    : Nat
  /-- records assigned, links computed, appends completed -/
  count : Nat
  linked : Nat
  done  : Nat
  /-- the link last computed -/
  link  : Bytes
  /-- headers H_k assigned and not yet linked -/
  heads : List (Nat × Bytes)
  /-- 07:0023 as it read at the last record -/
  steps : Nat
  /-- a record carries flag bit 1 -/
  stepped : Bool
  /-- the seal record is assigned, or written -/
  sealing : Bool
  sealed : Bool
  /-- the Zone Finish that waits for the seal: controller, SQ, command ID -/
  finisher : Option (Nat × Nat × Nat)
  /-- write pointer, records and link as the zone table on the back end holds them -/
  tab   : Nat × Nat × Bytes
  deriving DecidableEq, Repr

def Zone.reset : Zone :=
  { st := 1, wp := 0, count := 0, linked := 0, done := 0, link := [], heads := [], steps := 0, stepped := false,
    sealing := false, sealed := false, finisher := none, tab := (0, 0, []) }

/-- A namespace (R396). `state` is the code of R386. -/
structure Ns where
  kind  : Nat
  fmt   : Nat
  copies : Nat
  size  : Nat
  nguid : Bytes
  beA   : Nat
  beB   : Nat
  log   : Nat
  xts   : Nat
  baseA : Nat
  baseB : Nat
  zoneSize : Nat
  chainKey : Nat
  active : Nat
  state : Nat
  curA  : Bool
  curB  : Bool
  /-- a stale copy is being written again (R400) -/
  resync : Bool
  /-- instant it entered BACKEND_WAIT -/
  waitAt : Option Nat
  replayed : Nat
  zones : List (Nat × Zone)
  /-- controllers it is attached to -/
  attached : List Nat
  deriving DecidableEq, Repr

/-- A record of a write intent log (R402, R403). Stages: 0 waiting for its slot, 1 log write issued, 2 log write
complete, 3 home writes issued, 4 retired. -/
structure LogRec where
  seq   : Nat
  kind  : Nat
  ns    : Nat
  lba   : Nat
  blocks : Nat
  /-- as stored on the back end -/
  data  : Bytes
  time  : Nat
  /-- chain entry and seal record -/
  entry : Bytes
  sealRec : Bytes
  stage : Nat
  /-- the command it belongs to: controller, SQ, command ID -/
  cmd   : Option (Nat × Nat × Nat)
  deriving DecidableEq, Repr

/-- A write intent log (R401). -/
structure Wil where
  w     : Nat
  next  : Nat
  recs  : List LogRec
  /-- generation of the newer checkpoint, and its W -/
  gen   : Nat
  cpW   : Nat
  /-- instant of the first advance of W since -/
  dueAt : Option Nat
  replayed : Nat
  deriving DecidableEq, Repr

def Wil.reset : Wil := { w := 0, next := 1, recs := [], gen := 0, cpW := 0, dueAt := none, replayed := 0 }

/-- R411: the verification, as 0C:1041 reports it, and its range. -/
structure SealVer where
  st    : Nat
  ns    : Nat
  /-- first zone after the last of the range -/
  stop  : Nat
  zone  : Nat
  rec_  : Nat
  zones : Nat
  records : Nat
  fails : Nat
  failZone : Nat
  failRec : Nat
  failKind : Nat
  /-- instant of the next read at the rate of 0C:1042 -/
  paceAt : Nat
  deriving DecidableEq, Repr

def SealVer.reset : SealVer :=
  { st := 0, ns := 0, stop := 0, zone := 0, rec_ := 0, zones := 0, records := 0, fails := 0, failZone := 0, failRec := 0,
    failKind := 0, paceAt := 0 }

/-- Back ends, namespaces, logs, verification. -/
structure Store where
  bes   : List (Nat × Be)
  nss   : List (Nat × Ns)
  logs  : List (Nat × Wil)
  ver   : SealVer
  deriving DecidableEq, Repr

def Store.reset : Store := { bes := [], nss := [], logs := [], ver := SealVer.reset }


/-! ### Drive slots (chapter 18) -/

/-- A slot and its root port (R418 to R425). Phases: 0 no sequence, 1 PWREN on and settling, 2 training, 3 PERST asserted
and PWREN still on, 4 PWREN off and waiting. -/
structure Slot where
  /-- the state code reported in 0D:0020 while not contained -/
  st    : Nat
  present : Bool
  fault : Bool
  pwren : Bool
  /-- SLOTk_PERST_N is asserted (low) -/
  perst : Bool
  /-- indicators: 0 Off, 1 On, 2 Blink -/
  pwrLed : Nat
  atnLed : Nat
  phase : Nat
  /-- instant the phase began -/
  at_   : Nat
  /-- start of the 5 s window of R423 -/
  window : Option Nat
  link  : Bool
  rate  : Nat
  width : Nat
  contained : Bool
  /-- element of R422 of the containment -/
  cause : Nat
  /-- Slot Status: Attention Button Pressed, Power Fault Detected, Presence Detect Changed, Command Completed, Data Link
  Layer State Changed -/
  abp   : Bool
  pfd   : Bool
  pdc   : Bool
  cc    : Bool
  dllsc : Bool
  /-- Slot Control as last written -/
  control : Nat
  /-- outstanding non-posted requests: tag, and for a TLP forwarded from a peer window the PF twin and the generation it matched -/
  reqs  : List (Nat × Option (Nat × Nat))
  deriving DecidableEq, Repr

def Slot.reset : Slot :=
  { st := 0, present := false, fault := false, pwren := false, perst := true, pwrLed := 0, atnLed := 0, phase := 0, at_ := 0,
    window := none, link := false, rate := 0, width := 0, contained := false, cause := 0, abp := false, pfd := false, pdc := false,
    cc := false, dllsc := false, control := 0x7C0, reqs := [] }

/-- The drive tile. -/
structure Drives where
  slots : List (Nat × Slot)
  /-- 0D:0000 in force since the last chip warm reset -/
  split : Nat
  deriving DecidableEq, Repr

def Drives.reset : Drives := { slots := [], split := 2 }


/-! ### Attached memory and the SRAMs (chapter 22) -/

/-- A line of a block cache (R441): its 64 bytes, the words of it that are poisoned, and whether it is newer than memory. -/
structure CLine where
  data  : Bytes
  bad   : List Nat
  dirty : Bool
  deriving DecidableEq, Repr

/-- R507 to R511: the scrub and its summary. States: 0 idle, 1 running, 3 done, 4 aborted, 5 ended by reset. -/
structure Scrub where
  state  : Nat
  flags  : Nat
  passes : Nat
  first  : Nat
  length : Nat
  cursor : Nat
  lines  : Nat
  corrected : Nat
  symbols : Nat
  uncorrectable : Nat
  poison : Nat
  /-- uncorrectable and poisoned lines of the pass under way -/
  passBad : Nat
  firstErr : Option Nat
  lastErr : Nat
  began  : Nat
  ended  : Nat
  /-- by 80 × rank + 10 × subchannel + device -/
  hist   : List (Nat × Nat)
  deriving DecidableEq, Repr

def Scrub.reset : Scrub :=
  { state := 0, flags := 0, passes := 0, first := 0, length := 0, cursor := 0, lines := 0, corrected := 0, symbols := 0,
    uncorrectable := 0, poison := 0, passBad := 0, firstErr := none, lastErr := 0, began := 0, ended := 0, hist := [] }

/-- The memory tile, the block caches and the SRAMs threads reach. -/
structure MemTile where
  /-- density in Gb and ranks, as training found them; 0 before -/
  density : Nat
  ranks  : Nat
  /-- firmware has written every word since training: a line not listed holds zeros (R56, R501) -/
  filled : Bool
  /-- the 80 stored symbols of each line written since training (R498, R499) -/
  lines  : List (Nat × Bytes)
  /-- per device: the lines in which it held a corrected error, with the last instant (R502) -/
  fails  : List (Nat × List (Nat × Nat))
  scrub  : Scrub
  /-- last event 0x1001 (R506) -/
  evAt   : Option Nat
  /-- cell SRAM, block SRAM scratch and region firmware scratch, by core physical address in the block and region windows -/
  sram   : Mem
  /-- addresses of the 64-bit words of those SRAMs that are poisoned (R513) -/
  bad    : List Nat
  /-- block caches: line number of attached memory and line, most recently used first -/
  caches : List (Nat × List (Nat × CLine))
  /-- cache size of each block in force, in units of 512 KiB (0E:0012) -/
  sizes  : List (Nat × Nat)
  /-- corrected words not yet written back: store of R514 and address (R513) -/
  fixing : List (Nat × Nat)
  deriving DecidableEq, Repr

def MemTile.reset : MemTile :=
  { density := 0, ranks := 0, filled := false, lines := [], fails := [], scrub := Scrub.reset, evAt := none, sram := [], bad := [],
    caches := [], sizes := [], fixing := [] }

/-! ### Cells and threads (chapter 19) -/

/-- What a thread in state 2 waits for (R456, R445, R446). -/
inductive WaitOn where
  | lock (l : Nat)
  | event (k target : Nat)
  | chanFull (n : Nat)
  /-- channel and destination address -/
  | chanEmpty (n dest : Nat)
  | packet (area : Nat)
  /-- PKT.PUT on back-pressure: area and control value -/
  | put (area ctl : Nat)
  deriving DecidableEq, Repr

/-- A wait: what for, the destination register, and the instant it began. -/
structure Waiting where
  on_   : WaitOn
  rd    : Nat
  since : Nat
  deriving DecidableEq, Repr

/-- A host-window load not yet answered (R441). -/
structure HostLoad where
  rd     : Nat
  bytes  : Nat
  signed : Bool
  addr   : Nat
  /-- length of its instruction -/
  len    : Nat
  deriving DecidableEq, Repr

/-- A hardware thread (R428 to R432). States: 0 halted, not started; 1 running; 2 waiting; 3 halted by the debugger;
4 halted on a double trap. -/
structure Thread where
  st      : Nat
  /-- x1 to x31; an absent register holds zero -/
  regs    : List (Nat × Word64)
  pc      : Word64
  /-- M mode; U mode where false -/
  m       : Bool
  mstatus : Word64
  mie     : Word64
  mtvec   : Word64
  mscratch : Word64
  mepc    : Word64
  mcause  : Word64
  mtval   : Word64
  mcounteren : Word64
  /-- what mcycle reads more than the cycles the cell has counted -/
  mcycle  : Word64
  minstret : Word64
  /-- the 16 PMP configuration bytes and addresses (R429) -/
  pmpcfg  : List (Nat × Byte)
  pmpaddr : List (Nat × Word64)
  kwhostfn : Word64
  kwxen   : Bool
  kwtimecmp : Word64
  kwtrapinfo : Nat
  trapping : Bool
  /-- R430: the 64-byte granule reserved by LR -/
  reserve : Option Nat
  wait    : Option Waiting
  load    : Option HostLoad
  deriving DecidableEq, Repr

def Thread.reset : Thread :=
  { st := 0, regs := [], pc := 0, m := true, mstatus := 0, mie := 0, mtvec := 0, mscratch := 0, mepc := 0, mcause := 0,
    mtval := 0, mcounteren := 0, mcycle := 0, minstret := 0, pmpcfg := [], pmpaddr := [], kwhostfn := 0xFFF,
    kwxen := false, kwtimecmp := 0xFFFFFFFFFFFFFFFF, kwtrapinfo := 0, trapping := false, reserve := none, wait := none,
    load := none }

/-- A cell beside its threads and SRAM. -/
structure Cell where
  /-- START_REFUSED of CELL_STATUS -/
  refused : Bool
  /-- instant the watchdog was last reloaded -/
  wdogAt  : Nat
  /-- instant of its last cell reset -/
  resetAt : Option Nat
  /-- kwiclock: ways locked -/
  locked  : Nat
  /-- instruction cache by 4 × set + way: line number and its 64 bytes (R437) -/
  icache  : List (Nat × (Nat × Bytes))
  deriving DecidableEq, Repr

def Cell.reset : Cell := { refused := false, wdogAt := 0, resetAt := none, locked := 0, icache := [] }

/-- A fault notification record before it gets its sequence (R450), and the instant it was raised. -/
structure BwRec where
  time   : Nat
  kind   : Nat
  flags  : Nat
  thread : Nat
  cell   : Nat
  count  : Nat
  addr   : Nat
  detail : Bytes
  raised : Nat
  deriving DecidableEq, Repr

/-- The Bellwether queue of a block (R449). -/
structure Bw where
  producer : Word32
  consumer : Word32
  /-- records by slot, 0 to 63 -/
  slots    : List (Nat × Bytes)
  /-- records that found the queue full, oldest first -/
  waiting  : List BwRec
  /-- written records that need an acknowledgement: sequence and record -/
  unacked  : List (Nat × BwRec)
  deriving DecidableEq, Repr

def Bw.reset : Bw := { producer := 0, consumer := 0, slots := [], waiting := [], unacked := [] }

/-- Cells, threads and Bellwethers. -/
structure Cpu where
  threads : List (Nat × Thread)
  cells   : List (Nat × Cell)
  bws     : List (Nat × Bw)
  /-- per region: CLK_CELL cycles counted up to an instant, and that instant (R431) -/
  cycles  : List (Nat × (Nat × Nat))
  /-- the cells are held in reset: stages 0 and 1 (R59) -/
  held    : Bool
  deriving DecidableEq, Repr

def Cpu.reset : Cpu := { threads := [], cells := [], bws := [], cycles := [], held := true }

/-! ### Lock-and-event units (chapter 20) -/

/-- A lock (R457, R458); threads by block index. -/
structure Lock where
  holder    : Option Nat
  queue     : List Nat
  abandoned : Bool
  deriving DecidableEq, Repr

def Lock.reset : Lock := { holder := none, queue := [], abandoned := false }

/-- R462: states of a channel, in the encoding of CH_STATE. -/
inductive ChState where
  | closed | open | broken
  deriving DecidableEq, Repr

/-- A channel (R462 to R466). -/
structure Chan where
  state  : ChState
  writer : Nat
  reader : Nat
  /-- scratch offset in 1 KiB units -/
  base   : Nat
  head   : Nat
  pub    : Nat
  /-- the writer holds a reservation, of slot (head + pub) mod 16 -/
  reserved : Bool
  /-- its reservation was aborted by the debugger and it has not published since (R472) -/
  aborted : Bool
  writerLost : Bool
  readerLost : Bool
  deriving DecidableEq, Repr

def Chan.reset : Chan :=
  { state := .closed, writer := 0, reader := 0, base := 0, head := 0, pub := 0, reserved := false, aborted := false,
    writerLost := false, readerLost := false }

/-- One edge of a reported cycle (R468): waiting thread, kind, index. -/
structure CycleEdge where
  thread : Nat
  kind   : Nat
  index  : Nat
  deriving DecidableEq, Repr

/-- The lock-and-event unit of a block. -/
structure LeUnit where
  locks    : List (Nat × Lock)
  events   : List (Nat × Word64)
  external : List (Nat × Word64)
  chans    : List (Nat × Chan)
  wdog     : List (Nat × Nat)
  stallHold : Nat
  cfgRefused : Bool
  abortRefused : Bool
  /-- the reported cycles that still stand, newest first (R468) -/
  cycles   : List (List CycleEdge)
  /-- BLOCK_STALL has been raised and no thread has returned to state 1 since -/
  stalled  : Bool
  /-- last instant a thread of the block changed state -/
  quiet    : Nat
  /-- holder-halted records written in this halt: object kind (1 lock, 5 reservation) and index (R471) -/
  haltSeen : List (Nat × Nat)
  deriving DecidableEq, Repr

def LeUnit.reset : LeUnit :=
  { locks := [], events := [], external := [], chans := [], wdog := [], stallHold := 10, cfgRefused := false,
    abortRefused := false, cycles := [], stalled := false, quiet := 0, haltSeen := [] }

/-! ### Region DMA engines (chapter 21) -/

/-- R477: states of a channel, in the encoding of CH_STATUS. -/
inductive DmaState where
  | disabled | idle | running | waiting | stopped
  deriving DecidableEq, Repr

/-- A channel (R477 to R493). -/
structure DmaCh where
  base   : Word64
  enable : Bool
  weight : Nat
  log2n  : Nat
  state  : DmaState
  cause  : Nat
  index  : Nat
  refused : Bool
  /-- a kick came while a descriptor was under way -/
  kicked : Bool
  progress : Nat
  /-- the descriptor being carried out, as read -/
  desc   : Option Bytes
  /-- elements the bursts taken so far allow -/
  allowed : Nat
  /-- the status and result it ends with, once its data is complete; `refusal` where R482 refuses it -/
  ending : Option (Nat × Nat)
  refusal : Bool
  /-- a descriptor read is due -/
  reading : Bool
  deriving DecidableEq, Repr

def DmaCh.reset : DmaCh :=
  { base := 0, enable := false, weight := 4, log2n := 0, state := .disabled, cause := 0, index := 0, refused := false,
    kicked := false, progress := 0, desc := none, allowed := 0, ending := none, refusal := false, reading := false }

/-- A request line (R487). -/
structure DmaLine where
  count    : Nat
  overflow : Bool
  deriving DecidableEq, Repr

def DmaLine.reset : DmaLine := { count := 0, overflow := false }

/-- The engine of one region. -/
structure DmaEng where
  chans    : List (Nat × DmaCh)
  busError : Bool
  drained  : Bool
  multiple : Bool
  errAddr  : Nat
  errInfo  : Nat
  lines    : List (Nat × DmaLine)
  timers   : List (Nat × Nat)
  watches  : List (Nat × Nat)
  /-- the channel that last took a request of a line (R488) -/
  taken    : List (Nat × Nat)
  deriving DecidableEq, Repr

def DmaEng.reset : DmaEng :=
  { chans := [], busError := false, drained := true, multiple := false, errAddr := 0, errInfo := 0, lines := [], timers := [],
    watches := [], taken := [] }

/-! ### Monitors and the Shepherd (chapter 23) -/

/-- What the Shepherd holds of a region (R519 to R526). -/
structure ShepR where
  /-- operating point decided -/
  point  : Nat
  /-- rail setpoint in mV as last commanded -/
  rail   : Nat
  /-- a change under way: true towards a faster point, the point it leaves, and the instant it began -/
  change : Option (Bool × Nat × Nat)
  /-- no faster point until: a droop, a rail that did not settle (R519, R527) -/
  droopBar : Nat
  settleBar : Nat
  /-- instants of the last faster step and of the last slower step at 10 ms -/
  lastFast : Option Nat
  lastSlow : Option Nat
  /-- a monitor of its rail has drooped -/
  droop  : Bool
  /-- the emergency path has acted, and the instant since which every trusted sensor has read below 97 °C -/
  emergency : Bool
  coolAt : Option Nat
  /-- reason of a decision to be recorded once: 0x0A, 0x0B or 0x0C, else 0 -/
  note   : Nat
  deriving DecidableEq, Repr

def ShepR.reset : ShepR :=
  { point := 7, rail := 620, change := none, droopBar := 0, settleBar := 0, lastFast := none, lastSlow := none, droop := false,
    emergency := false, coolAt := none, note := 0 }

/-- Monitors, aggregator and Shepherd. Readings are in 03:0000 to 03:0004. -/
structure Mon where
  /-- sensors that have failed (R517) -/
  failed : List Nat
  /-- consecutive samples of a rail monitor more than 30 mV low -/
  low    : List (Nat × Nat)
  /-- fixed-rail monitors outside 5% -/
  excursion : List Nat
  regions : List (Nat × ShepR)
  /-- 03:0010: stage per region, and of the tile under 4 -/
  stages : List (Nat × Nat)
  /-- held pairs of R524: hotter, cooler -/
  holds  : List (Nat × Nat)
  /-- instant of the last heartbeat -/
  beatAt : Nat
  silent : Bool
  /-- THERMTRIP_N is asserted, and the instant since which every sensor has read below 105 °C -/
  trip   : Bool
  tripCool : Option Nat
  /-- PMBus writes waiting, oldest first: region, count -/
  vrQ    : List (Nat × Nat)
  /-- counts last accepted by the regulators -/
  vrSet  : List (Nat × Nat)
  deriving DecidableEq, Repr

def Mon.reset : Mon :=
  { failed := [], low := [], excursion := [], regions := [], stages := [], holds := [], beatAt := 0, silent := false, trip := false,
    tripCool := none, vrQ := [], vrSet := [] }


/-! ### The fabric domain (chapter 24) -/

/-- R541 to R545: one peer. States: 0 ABSENT, 1 MEMBER, 2 SUSPECT, 3 UNREACHABLE, 4 REFUSED. -/
structure DomPeer where
  state  : Nat
  /-- instant of its last accepted heartbeat -/
  heard  : Nat
  heardTime : Nat
  port   : Nat
  mac    : Bytes
  serial : Option Nat
  /-- its learn-version mask -/
  learn  : Nat
  /-- its advertised state -/
  peerState : Nat
  seqHb  : Option Nat
  seqObj : Option Nat
  /-- causes of event 0x1102 raised since its last admission -/
  raised : List Nat
  /-- counted in 00:0104.05 -/
  counted : Bool
  /-- serials heard under its ID while in conflict, with the instant of each (R545) -/
  rivals : List (Nat × Nat)
  deriving DecidableEq, Repr

def DomPeer.reset : DomPeer :=
  { state := 0, heard := 0, heardTime := 0, port := 0, mac := [], serial := none, learn := 0, peerState := 0, seqHb := none,
    seqObj := none, raised := [], counted := false, rivals := [] }

/-- The domain. Its roster is 11:0013. -/
structure Dom where
  /-- 11:0000 and 11:0001 in force since the last chip warm reset -/
  id     : Nat
  domain : Nat
  /-- digest of the previous active roster, and the end of its grace (R538) -/
  prev   : Option (Nat × Nat)
  peers  : List (Nat × DomPeer)
  seqHb  : Nat
  seqObj : Nat
  /-- 0 STANDALONE, 1 PRIMARY, 2 ISOLATED -/
  state  : Nat
  reason : Nat
  /-- start of the 100 ms of R547, and of the heal hold of R550 -/
  startAt : Option Nat
  healAt : Option Nat
  /-- this device lost its ID to a lower serial (R545) -/
  conflict : Bool
  /-- instant of the last heartbeats sent -/
  sentAt : Nat
  deriving DecidableEq, Repr

def Dom.reset : Dom :=
  { id := 0, domain := 0, prev := none, peers := [], seqHb := 0, seqObj := 0, state := 0, reason := 0, startAt := none,
    healAt := none, conflict := false, sentAt := 0 }

/-! ### The journal (chapter 26) -/

/-- R562: a journal entry. -/
structure JEntry where
  time    : Nat
  code    : Nat
  flags   : Nat
  count   : Nat
  partner : Bytes
  detail  : Bytes
  deriving DecidableEq, Repr

/-- R565 to R569: the journal. -/
structure Journal where
  newest  : Nat
  oldest  : Nat
  /-- entries by sequence -/
  entries : List (Nat × JEntry)
  /-- instants of new entries in the rolling second -/
  recent  : List Nat
  gap     : Bool
  /-- flash violations held before step 4 of R58, oldest first, at most 16 -/
  early   : List JEntry
  live    : Bool
  /-- last event 0x1201: instant, and newest sequence it reported -/
  evAt    : Option Nat
  evSeq   : Nat
  deriving DecidableEq, Repr

def Journal.reset : Journal :=
  { newest := 0, oldest := 0, entries := [], recent := [], gap := false, early := [], live := false, evAt := none,
    evSeq := 0 }

/-! ### Debug and test (chapter 27) -/

/-- R582: the trace of a cell. Entries are numbered from the first recorded. -/
structure Trace where
  thread  : Nat
  on_     : Bool
  wrap    : Bool
  entries : List (Nat × Bytes)
  /-- entries recorded since the start -/
  count   : Nat
  deriving DecidableEq, Repr

/-- R584 to R586: the test of a lane. States are the modes: 0 none, 1 generate, 2 check, 3 both. -/
structure SerTest where
  st       : Nat
  lock     : Bool
  pattern  : Nat
  loopback : Nat
  rate     : Nat
  compared : Nat
  errors   : Nat
  deriving DecidableEq, Repr

def SerTest.reset : SerTest :=
  { st := 0, lock := false, pattern := 0, loopback := 0, rate := 0, compared := 0, errors := 0 }

/-- The TAP, the debug unit, the traces and the pattern testers. -/
structure Dbg where
  /-- TAP instruction -/
  ir      : Nat
  /-- boundary register as last shifted in -/
  boundary : Bytes
  /-- TESTMODE was high as PWROK rose (R576) -/
  testmode : Bool
  /-- unlocked paths: bit 0 JTAG, bit 1 dictionary; and when the unlock ends, on the time base and on CLK_AON -/
  mask    : Nat
  expiry  : Nat
  ends    : Nat
  /-- status and result of the last DBG_CMD -/
  last    : Nat
  result  : Bytes
  /-- threads that STEP has left in state 2, to halt when their wait ends -/
  stepping : List Nat
  traces  : List (Nat × Trace)
  serdes  : List (Nat × SerTest)
  deriving DecidableEq, Repr

def Dbg.reset : Dbg :=
  { ir := 1, boundary := [], testmode := false, mask := 0, expiry := 0, ends := 0, last := 0, result := List.replicate 64 0,
    stepping := [], traces := [], serdes := [] }


/-! ### The whole machine -/

/-- Why a command stops with a fault: for no reason. Every command of the Kwaith is answered, refused by a status, or
without effect, and leaves a next state; operands cannot name a unit that does not exist. -/
inductive Fault where
  deriving DecidableEq, Repr

/-- Why a command is refused. -/
inductive Refusal where
  /-- raised by the dispatcher for a command that has no meaning yet; safe: nothing can be proved of it -/
  | notModelled (mnemonic : String)
  deriving DecidableEq, Repr

/-- The side every unit reports through: time, dictionary, registers, rings, links, mailboxes, the journal, and what
has left the block. -/
structure Io where
  /-- nanoseconds since power was applied, on CLK_AON; every timer is read against it -/
  now     : Nat
  /-- the time base (R223), TIME64 -/
  timeBase : Word64
  /-- parts per trillion owed to the time base by the trim of 07:0020 (R223) -/
  trimAcc : Int
  /-- the model's own: number of free values used so far -/
  free    : Nat
  /-- everything that has left the block, newest first -/
  sent    : List Sent
  /-- dictionary values by 32-bit index (R11, R98); an absent one reads its default -/
  dic     : List (Nat × Val)
  /-- the flash parameter area: values of Stored objects (R15, R16) -/
  params  : List (Nat × Val)
  /-- neither copy of the parameter area is intact (R59, R127) -/
  paramsLost : Bool
  /-- memory-mapped registers, by name and unit; an absent one holds its reset value -/
  regs    : List (Nat × Word64)
  oa      : Oa
  rings   : Rings
  host    : HostIf
  vf      : Vfs
  journal : Journal
  /-- additions of engines to event counters still on their way: block, counter (R461) -/
  evAdds  : List (Nat × Nat)
  /-- bytes of the pool 06:0001 that NVMe completion queues reserve (R389) -/
  nvSpill : Nat
  deriving DecidableEq, Repr

def Io.reset : Io :=
  { now := 0, timeBase := 0, trimAcc := 0, free := 0, sent := [], dic := [], params := [], paramsLost := false,
    regs := [], oa := Oa.reset, rings := Rings.reset, host := HostIf.reset, vf := Vfs.reset, journal := Journal.reset,
    evAdds := [], nvSpill := 0 }

/-- The state of the block. -/
structure State where
  /-- commands waiting, first in, first out -/
  pending : List Instr
  io      : Io
  cont    : Cont
  clk     : Clk
  start   : Start
  net     : Net
  pipe    : Pipe
  tabs    : Tabs
  burin   : Burin
  dom     : Dom
  mem     : MemTile
  cpu     : Cpu
  /-- lock-and-event units by block -/
  le      : List (Nat × LeUnit)
  /-- DMA engines by region -/
  dma     : List (Nat × DmaEng)
  rdma    : Rdma
  nvme    : Nvme
  store   : Store
  drives  : Drives
  mon     : Mon
  boot    : Boot
  dbg     : Dbg

  deriving DecidableEq, Repr

/-- The machine right after power is applied, before PWROK rises: every unit at its reset value, memory empty. -/
def State.reset : State :=
  { pending := [], io := Io.reset, cont := Cont.reset, clk := Clk.reset, start := Start.reset,
    net := Net.reset, pipe := Pipe.reset, tabs := Tabs.reset, burin := Burin.reset,
    dom := Dom.reset, mem := MemTile.reset, cpu := Cpu.reset, le := [], dma := [], rdma := Rdma.reset, nvme := Nvme.reset, store := Store.reset,
    drives := Drives.reset,
    mon := Mon.reset, boot := Boot.reset, dbg := Dbg.reset

  }

end Sys2Proof.Machine
end

