-- ==== Sys2Proof/Machine/Base.lean ====
section
/-!
DEFINITION. Containers and byte helpers every unit uses: maps kept in ascending key order, byte memories in canonical
form, little-endian and big-endian fields (R4), CRC-32C, and saturating counters.
Choices of the model coded here, by entry of the assumption log: DESIGN CHOICE 10, 88; PRESUMED 13.
-/
namespace Sys2Proof.Machine

/-! ### Maps: association lists in ascending key order. An absent key holds the unit's reset value. -/

/-- The value held under key `k`, if any. -/
def mget {α : Type} : List (Nat × α) → Nat → Option α
  | [], _ => none
  | (j, v) :: r, k => if j = k then some v else mget r k

/-- `m` with `v` under key `k`. -/
def mput {α : Type} : List (Nat × α) → Nat → α → List (Nat × α)
  | [], k, v => [(k, v)]
  | (j, w) :: r, k, v =>
    if k < j then (k, v) :: (j, w) :: r else if j = k then (k, v) :: r else (j, w) :: mput r k v

/-- `m` without key `k`. -/
def mdel {α : Type} (m : List (Nat × α)) (k : Nat) : List (Nat × α) :=
  m.filter (fun p => p.1 != k)

/-- The value under `k`, or the reset value `d`. -/
def mgetD {α : Type} (m : List (Nat × α)) (k : Nat) (d : α) : α := (mget m k).getD d

/-- `m` with `f` applied to the value under `k` (to `d` where the key is absent). -/
def mupd {α : Type} (m : List (Nat × α)) (k : Nat) (d : α) (f : α → α) : List (Nat × α) :=
  mput m k (f (mgetD m k d))

/-- Keys of a map. -/
def mkeys {α : Type} (m : List (Nat × α)) : List Nat := m.map (·.1)

/-- `m` with `f` applied to every value. -/
def mmap {α : Type} (m : List (Nat × α)) (f : Nat → α → α) : List (Nat × α) :=
  m.map (fun p => (p.1, f p.1 p.2))

/-- The part of a map whose entries satisfy `p`. -/
def mfilter {α : Type} (m : List (Nat × α)) (p : Nat → α → Bool) : List (Nat × α) :=
  m.filter (fun e => p e.1 e.2)

/-- The lowest number at least `lo` and below `hi` that is no key of the map. -/
def lowestFree {α : Type} (m : List (Nat × α)) (lo hi : Nat) : Option Nat :=
  ((List.range (hi - lo)).map (· + lo)).find? (fun k => (mget m k).isNone)

/-! ### Sorting -/

/-- `x` into a list in order, before what it does not follow. -/
def sortInto {α : Type} (le : α → α → Bool) (x : α) : List α → List α
  | [] => [x]
  | y :: r => if le x y then x :: y :: r else y :: sortInto le x r

/-- A list in order; elements that tie keep their places. -/
def sortBy {α : Type} (le : α → α → Bool) (l : List α) : List α := l.foldr (sortInto le) []

/-! ### Sets of unit numbers, kept in ascending order without repeats -/

/-- `s` with `k` in it. -/
def sadd : List Nat → Nat → List Nat
  | [], k => [k]
  | j :: r, k => if k < j then k :: j :: r else if j = k then j :: r else j :: sadd r k

/-- `s` without `k`. -/
def sdel (s : List Nat) (k : Nat) : List Nat := s.filter (· != k)

/-- The numbers lo, lo + 1, …, lo + n - 1. -/
def span (lo n : Nat) : List Nat := (List.range n).map (· + lo)

/-- A set of numbers as a bit mask. -/
def maskOf (s : List Nat) : Nat := s.foldl (fun m k => m ||| (1 <<< k)) 0

/-- The bit numbers below `n` set in a mask. -/
def bitsOf (n m : Nat) : List Nat := (List.range n).filter (fun k => m.testBit k)

/-! ### Byte memories: rising addresses, no entry equal to what an unlisted address reads as -/

/-- The byte at an address; an unlisted address reads as `d`. -/
def memGet (d : Byte) : Mem → Nat → Byte
  | [], _ => d
  | (a, b) :: r, k => if a = k then b else memGet d r k

/-- Writing one byte; writing what an unlisted address reads as removes the entry. -/
def memPut (d : Byte) : Mem → Nat → Byte → Mem
  | [], k, v => if v = d then [] else [(k, v)]
  | (a, b) :: r, k, v =>
    if k < a then (if v = d then (a, b) :: r else (k, v) :: (a, b) :: r)
    else if a = k then (if v = d then r else (k, v) :: r)
    else (a, b) :: memPut d r k v

/-- Writing a byte string at ascending addresses. -/
def memPuts (d : Byte) (m : Mem) (a : Nat) : Bytes → Mem
  | [] => m
  | b :: bs => memPuts d (memPut d m a b) (a + 1) bs

/-- Reading `n` bytes at ascending addresses. -/
def memGets (d : Byte) (m : Mem) (a n : Nat) : Bytes := (span a n).map (memGet d m)

/-- Removing every entry from `lo` up to, not including, `hi`: those bytes read `d` again. -/
def memClear (m : Mem) (lo hi : Nat) : Mem := m.filter (fun c => decide (c.1 < lo) || decide (hi ≤ c.1))

/-- The canonical form from address `lo` on. -/
def memWfFrom (d : Byte) : Nat → Mem → Bool
  | _, [] => true
  | lo, (a, b) :: r => decide (lo ≤ a) && (b != d) && memWfFrom d (a + 1) r

/-- The canonical form: addresses strictly rising, no entry equal to `d`. -/
def Memory.wf (d : Byte) (m : Mem) : Bool := memWfFrom d 0 m

/-! ### Byte order -/

/-- `n` bytes of `v`, least significant first (R4). -/
def le : Nat → Nat → Bytes
  | 0, _ => []
  | n + 1, v => BitVec.ofNat 8 v :: le n (v / 256)

/-- `n` bytes of `v`, most significant first, as network headers carry them. -/
def be (n v : Nat) : Bytes := (le n v).reverse

/-- The number little-endian bytes spell. -/
def leVal : Bytes → Nat
  | [] => 0
  | b :: bs => b.toNat + 256 * leVal bs

/-- The number big-endian bytes spell. -/
def beVal (bs : Bytes) : Nat := leVal bs.reverse

/-- `n` bytes of a string from offset `o`; bytes beyond its end read zero. -/
def slice (bs : Bytes) (o n : Nat) : Bytes :=
  let t := (bs.drop o).take n
  t ++ List.replicate (n - t.length) 0

/-- Little-endian field of a structure. -/
def field (bs : Bytes) (o n : Nat) : Nat := leVal (slice bs o n)

/-- Big-endian field of a packet header. -/
def beField (bs : Bytes) (o n : Nat) : Nat := beVal (slice bs o n)

/-- Bytes all zero. -/
def allZero (bs : Bytes) : Bool := bs.all (· == 0)

/-- A string padded with zeros to `n` bytes, or cut there. -/
def padTo (n : Nat) (bs : Bytes) : Bytes := slice bs 0 n

/-- `bs` with the bytes from offset `o` replaced. -/
def splice (bs : Bytes) (o : Nat) (x : Bytes) : Bytes :=
  slice bs 0 o ++ x ++ bs.drop (o + x.length)

/-- Bits hi to lo of a number. -/
def bits (v hi lo : Nat) : Nat := (v / 2 ^ lo) % 2 ^ (hi + 1 - lo)

/-- A Boolean as a bit. -/
def b2n (b : Bool) : Nat := if b then 1 else 0

/-- Two's complement reading of an `n`-bit number. -/
def toSigned (n v : Nat) : Int := if v % 2 ^ n < 2 ^ (n - 1) then (v % 2 ^ n : Nat) else (v % 2 ^ n : Nat) - (2 ^ n : Nat)

/-- Two's complement encoding in `n` bits. -/
def ofSigned (n : Nat) (v : Int) : Nat := (v % (2 ^ n : Nat)).toNat

/-- A counter of `n` bits that saturates at its maximum. -/
def satAdd (n a b : Nat) : Nat := min (a + b) (2 ^ n - 1)

/-- Sequence order: `a` is later than `b` modulo 2^32 within a window of 2^31. -/
def laterSeq (a b : Nat) : Bool :=
  let d := (a + 2 ^ 32 - b % 2 ^ 32) % 2 ^ 32
  decide (0 < d) && decide (d < 2 ^ 31)

/-- Division rounded up. -/
def ceilDiv (a b : Nat) : Nat := (a + b - 1) / b

/-! ### CRC-32C (polynomial 0x1EDC6F41, reflected, initial and final value all ones) -/

/-- One bit of the reflected CRC. -/
def crcBit (poly c : Nat) : Nat := if c % 2 = 1 then (c / 2) ^^^ poly else c / 2

/-- `n` bits of the reflected CRC. -/
def crcBits (poly : Nat) : Nat → Nat → Nat
  | 0, c => c
  | n + 1, c => crcBits poly n (crcBit poly c)

/-- The reflected CRC of a byte string from a starting remainder. -/
def crcFrom (poly : Nat) (c : Nat) (bs : Bytes) : Nat :=
  bs.foldl (fun c b => crcBits poly 8 (c ^^^ b.toNat)) c

/-- CRC-32C of a byte string. -/
def crc32c (bs : Bytes) : Nat := (crcFrom 0x82F63B78 0xFFFFFFFF bs) ^^^ 0xFFFFFFFF

/-- The CRC-32 of IEEE 802.3, used as a frame check sequence and by RoCEv2 as its invariant CRC. -/
def crc32 (bs : Bytes) : Nat := (crcFrom 0xEDB88320 0xFFFFFFFF bs) ^^^ 0xFFFFFFFF

end Sys2Proof.Machine
end

