-- ==== Sys2Proof/Machine/Crypto.lean ====
section
/-!
DEFINITION. The published algorithms the spec names without writing them out: SHA-256 and SHA-384 (FIPS 180-4), HMAC (RFC
2104), AES (FIPS 197), GCM (SP 800-38D), XTS (IEEE 1619), AES-KW (RFC 3394), ChaCha20-Poly1305 (RFC 8439) and ECDSA P-384
(FIPS 186-4). Each is PRESUMED from its own standard.
Choices of the model coded here, by entry of the assumption log: PRESUMED 13.
-/
namespace Sys2Proof.Machine

/-! ### SHA-2 -/

/-- The first eighty primes. -/
def shaPrimes : List Nat :=
  (List.range 410).filter (fun p => decide (2 ≤ p) && (List.range p).all (fun d => decide (d < 2) || p % d != 0))

/-- The integer part of the k-th root of `n`, below 2^70. -/
def natRoot (k n : Nat) : Nat := (List.range 70).reverse.foldl (fun r b => if (r + 2 ^ b) ^ k ≤ n then r + 2 ^ b else r) 0

/-- The first `w` bits of the fraction of the k-th root of a prime. -/
def rootFrac (w k p : Nat) : BitVec w := BitVec.ofNat w (natRoot k (p * 2 ^ (k * w)))

/-- The shift amounts by which SHA-256 and SHA-384 differ: Σ0, Σ1, σ0, σ1, the last of each σ a plain shift. -/
structure ShaShifts where
  big0 : Nat × Nat × Nat
  big1 : Nat × Nat × Nat
  low0 : Nat × Nat × Nat
  low1 : Nat × Nat × Nat

def sha256Shifts : ShaShifts := { big0 := (2, 13, 22), big1 := (6, 11, 25), low0 := (7, 18, 3), low1 := (17, 19, 10) }
def sha384Shifts : ShaShifts := { big0 := (28, 34, 39), big1 := (14, 18, 41), low0 := (1, 8, 7), low1 := (19, 61, 6) }

/-- Σ. -/
def shaBig {w : Nat} (r : Nat × Nat × Nat) (x : BitVec w) : BitVec w := x.rotateRight r.1 ^^^ x.rotateRight r.2.1 ^^^ x.rotateRight r.2.2

/-- σ. -/
def shaLow {w : Nat} (r : Nat × Nat × Nat) (x : BitVec w) : BitVec w := x.rotateRight r.1 ^^^ x.rotateRight r.2.1 ^^^ (x >>> r.2.2)

/-- The message schedule, newest word first. -/
def shaSchedule {w : Nat} (c : ShaShifts) : Nat → List (BitVec w) → List (BitVec w)
  | 0, l => l
  | n + 1, l => shaSchedule c n ((shaLow c.low1 (l.getD 1 0) + l.getD 6 0 + shaLow c.low0 (l.getD 14 0) + l.getD 15 0) :: l)

/-- One round on the working variables a to h. -/
def shaRound {w : Nat} (c : ShaShifts) (v : List (BitVec w)) (kw : BitVec w × BitVec w) : List (BitVec w) :=
  match v with
  | [a, b, cc, d, e, f, g, h] =>
    let t1 := h + shaBig c.big1 e + ((e &&& f) ^^^ (~~~e &&& g)) + kw.1 + kw.2
    let t2 := shaBig c.big0 a + ((a &&& b) ^^^ (a &&& cc) ^^^ (b &&& cc))
    [t1 + t2, a, b, cc, d + t1, e, f, g]
  | l => l

/-- The words of a block. -/
def shaWords (w : Nat) (b : Bytes) : List (BitVec w) := (List.range 16).map (fun k => BitVec.ofNat w (beField b (w / 8 * k) (w / 8)))

/-- The hash over whole blocks; `fuel` bounds their number. -/
def shaBlocks {w : Nat} (c : ShaShifts) (ks : List (BitVec w)) : Nat → List (BitVec w) → Bytes → List (BitVec w)
  | 0, h, _ => h
  | fuel + 1, h, b =>
    if b.isEmpty then h
    else
      let ws := (shaSchedule c (ks.length - 16) (shaWords w b).reverse).reverse
      shaBlocks c ks fuel (List.zipWith (· + ·) h ((ks.zip ws).foldl (shaRound c) h)) (b.drop (2 * w))

/-- A message with its padding and length. -/
def shaPad (w : Nat) (m : Bytes) : Bytes :=
  let n := m.length + 1 + w / 4
  m ++ [0x80] ++ List.replicate ((2 * w - n % (2 * w)) % (2 * w)) 0 ++ be (w / 4) (8 * m.length)

/-- A SHA-2 hash from its initial value. -/
def sha2 {w : Nat} (c : ShaShifts) (ks iv : List (BitVec w)) (m : Bytes) : Bytes :=
  let p := shaPad w m
  (shaBlocks c ks p.length iv p).flatMap (fun x => be (w / 8) x.toNat)

def sha256Keys : List Word32 := (shaPrimes.take 64).map (rootFrac 32 3)
def sha256Start : List Word32 := (shaPrimes.take 8).map (rootFrac 32 2)
def sha384Keys : List Word64 := shaPrimes.map (rootFrac 64 3)
def sha384Start : List Word64 := ((shaPrimes.drop 8).take 8).map (rootFrac 64 2)

/-- SHA-256: 32 bytes. -/
def sha256 (m : Bytes) : Bytes := sha2 sha256Shifts sha256Keys sha256Start m

/-- SHA-384: 48 bytes. -/
def sha384 (m : Bytes) : Bytes := (sha2 sha384Shifts sha384Keys sha384Start m).take 48

/-- HMAC-SHA-256: key and message, 32 bytes. -/
def hmac (key m : Bytes) : Bytes :=
  let k := padTo 64 (if 64 < key.length then sha256 key else key)
  sha256 (k.map (· ^^^ 0x5C) ++ sha256 (k.map (· ^^^ 0x36) ++ m))

/-! ### AES -/

/-- Multiplication by x in GF(2^8). -/
def aesDouble (b : Byte) : Byte := (b <<< 1) ^^^ (if b.msb then 0x1B else 0)

/-- Multiplication in GF(2^8). -/
def aesMul (a b : Byte) : Byte :=
  ((List.range 8).foldl (fun (r : Byte × Byte) k => (if b.getLsbD k then r.1 ^^^ r.2 else r.1, aesDouble r.2)) (0, a)).1

/-- The S-box of one byte: the inverse, a^254, and the affine map. -/
def sboxOf (a : Byte) : Byte :=
  let sq (x : Byte) : Byte := aesMul x x
  let a3 := aesMul (sq a) a
  let a15 := aesMul (sq (sq a3)) a3
  let a63 := aesMul (sq (sq a15)) a3
  let i := sq (aesMul (sq a63) a)
  i ^^^ i.rotateLeft 1 ^^^ i.rotateLeft 2 ^^^ i.rotateLeft 3 ^^^ i.rotateLeft 4 ^^^ 0x63

/-- The S-box, and its inverse. -/
def sbox : List Byte := (List.range 256).map (fun k => sboxOf (BitVec.ofNat 8 k))
def sboxInv : List Byte := (List.range 256).map (fun k => BitVec.ofNat 8 (sbox.idxOf (BitVec.ofNat 8 k)))

/-- Bytes substituted. -/
def subBytes (t : List Byte) (b : Bytes) : Bytes := b.map (fun x => t.getD x.toNat 0)

/-- Two byte strings added. -/
def xorBytes (a b : Bytes) : Bytes := List.zipWith (· ^^^ ·) a b

/-- The key schedule, newest word first: `n` words are added to a key of `nk` words. -/
def aesExpand (nk : Nat) : Nat → List Bytes → List Bytes
  | 0, l => l
  | n + 1, l =>
    let t := l.headD []
    let i := l.length
    let u :=
      if i % nk = 0 then xorBytes (subBytes sbox (t.drop 1 ++ t.take 1)) [(List.range (i / nk - 1)).foldl (fun x _ => aesDouble x) 1, 0, 0, 0]
      else if 6 < nk ∧ i % nk = 4 then subBytes sbox t else t
    aesExpand nk n (xorBytes (l.getD (nk - 1) []) u :: l)

/-- The round keys, first to last. -/
def aesKeys (key : Bytes) : List Bytes :=
  let nk := key.length / 4
  let ws := (aesExpand nk (4 * (nk + 7) - nk) ((List.range nk).map (fun k => slice key (4 * k) 4)).reverse).reverse
  (List.range (nk + 7)).map (fun r => (ws.drop (4 * r)).take 4 |>.flatten)

/-- The rows of a block shifted left by `k` columns per row. -/
def shiftRows (k : Nat) (b : Bytes) : Bytes := (List.range 16).map (fun i => b.getD ((i + 4 * k * (i % 4)) % 16) 0)

/-- The columns of a block multiplied by a polynomial. -/
def mixColumns (p : List Byte) (b : Bytes) : Bytes :=
  (List.range 16).map (fun i =>
    (List.range 4).foldl (fun x j => x ^^^ aesMul (p.getD ((j + 4 - i % 4) % 4) 0) (b.getD (i / 4 * 4 + j) 0)) 0)

/-- AES encryption of one block. -/
def aesEnc (key b : Bytes) : Bytes :=
  match aesKeys key with
  | [] => b
  | k0 :: ks =>
    let s := (ks.dropLast).foldl (fun s k => xorBytes (mixColumns [2, 3, 1, 1] (shiftRows 1 (subBytes sbox s))) k) (xorBytes b k0)
    xorBytes (shiftRows 1 (subBytes sbox s)) (ks.getLastD [])

/-- AES decryption of one block. -/
def aesDec (key b : Bytes) : Bytes :=
  match (aesKeys key).reverse with
  | [] => b
  | k0 :: ks =>
    let s := (ks.dropLast).foldl (fun s k => mixColumns [14, 11, 13, 9] (xorBytes (subBytes sboxInv (shiftRows 3 s)) k)) (xorBytes b k0)
    xorBytes (subBytes sboxInv (shiftRows 3 s)) (ks.getLastD [])

/-- A string in blocks of `n` bytes, the last perhaps short; `fuel` bounds their number. -/
def blocksOf (n : Nat) : Nat → Bytes → List Bytes
  | 0, _ => []
  | fuel + 1, b => if b.isEmpty then [] else b.take n :: blocksOf n fuel (b.drop n)

/-- The AES encryption of the all-zero block under a key (R317). -/
def aesZero (key : Bytes) : Bytes := aesEnc key (List.replicate 16 0)

/-! ### XTS -/

/-- A tweak multiplied by x. -/
def xtsDouble (t : Bytes) : Bytes :=
  let n := 2 * leVal t
  le 16 (if n < 2 ^ 128 then n else (n % 2 ^ 128) ^^^ 0x87)

/-- Whole blocks of a unit under a running tweak. -/
def xtsBlocks (enc : Bool) (k1 : Bytes) : Bytes → List Bytes → Bytes
  | _, [] => []
  | t, b :: bs =>
    let x := xorBytes b t
    xorBytes (if enc then aesEnc k1 x else aesDec k1 x) t ++ xtsBlocks enc k1 (xtsDouble t) bs

/-- XTS-AES over one unit of whole blocks: whether it encrypts, key 1 then key 2, the unit's number. -/
def xts (enc : Bool) (key : Bytes) (unit : Nat) (b : Bytes) : Bytes :=
  let n := key.length / 2
  xtsBlocks enc (key.take n) (aesEnc (key.drop n) (le 16 unit)) (blocksOf 16 b.length b)

/-! ### AES-KW -/

/-- One step of unwrapping: A, the register to take and its number, t. -/
def kwStep (kek : Bytes) (x : Bytes × List Bytes) (ti : Nat × Nat) : Bytes × List Bytes :=
  let b := aesDec kek (xorBytes x.1 (be 8 ti.1) ++ x.2.getD ti.2 [])
  (b.take 8, x.2.set ti.2 (b.drop 8))

/-- The key a wrapped key holds; none where its integrity value is wrong (R319). -/
def aesUnwrap (kek c : Bytes) : Option Bytes :=
  let n := c.length / 8 - 1
  let rs := (List.range n).map (fun i => slice c (8 * (i + 1)) 8)
  let steps := (List.range (6 * n)).reverse.map (fun k => (k + 1, k % n))
  let e := steps.foldl (kwStep kek) (slice c 0 8, rs)
  if e.1 = List.replicate 8 0xA6 then some e.2.flatten else none

/-! ### GCM -/

/-- Multiplication in GF(2^128) with bit 0 the most significant. -/
def ghashMul (x y : BitVec 128) : BitVec 128 :=
  ((List.range 128).foldl (fun (r : BitVec 128 × BitVec 128) k =>
    (if x.getMsbD k then r.1 ^^^ r.2 else r.1, if r.2.getLsbD 0 then (r.2 >>> 1) ^^^ (0xE1#128 <<< 120) else r.2 >>> 1)) (0, y)).1

/-- GHASH of whole and short blocks, each padded with zeros. -/
def ghash (h : BitVec 128) (bs : List Bytes) : BitVec 128 :=
  bs.foldl (fun y b => ghashMul (y ^^^ BitVec.ofNat 128 (beVal (padTo 16 b))) h) 0

/-- Counter-mode encryption from counter `c` on. -/
def gcmStream (key nonce : Bytes) (c : Nat) (b : Bytes) : Bytes :=
  ((blocksOf 16 b.length b).mapIdx (fun i x => xorBytes x (aesEnc key (nonce ++ be 4 (c + i))))).flatten

/-- The tag of AES-GCM with a 12-byte nonce. -/
def gcmTag (key nonce aad ct : Bytes) : Bytes :=
  let h := BitVec.ofNat 128 (beVal (aesZero key))
  let s := ghash h (blocksOf 16 aad.length aad ++ blocksOf 16 ct.length ct ++ [be 8 (8 * aad.length) ++ be 8 (8 * ct.length)])
  xorBytes (be 16 s.toNat) (aesEnc key (nonce ++ be 4 1))

/-! ### ChaCha20-Poly1305 -/

/-- A quarter round on four words of the state. -/
def chachaQuarter (s : List Word32) (q : Nat × Nat × Nat × Nat) : List Word32 :=
  let a := s.getD q.1 0 + s.getD q.2.1 0
  let d := (s.getD q.2.2.2 0 ^^^ a).rotateLeft 16
  let c := s.getD q.2.2.1 0 + d
  let b := (s.getD q.2.1 0 ^^^ c).rotateLeft 12
  let a1 := a + b
  let d1 := (d ^^^ a1).rotateLeft 8
  let c1 := c + d1
  let b1 := (b ^^^ c1).rotateLeft 7
  (((s.set q.1 a1).set q.2.1 b1).set q.2.2.1 c1).set q.2.2.2 d1

/-- A column round and a diagonal round. -/
def chachaDouble (s : List Word32) : List Word32 :=
  [(0, 4, 8, 12), (1, 5, 9, 13), (2, 6, 10, 14), (3, 7, 11, 15), (0, 5, 10, 15), (1, 6, 11, 12), (2, 7, 8, 13), (3, 4, 9, 14)].foldl
    chachaQuarter s

/-- Block `n` of the key stream. -/
def chachaBlock (key nonce : Bytes) (n : Nat) : Bytes :=
  let s : List Word32 := [0x61707865, 0x3320646E, 0x79622D32, 0x6B206574] ++
    (List.range 8).map (fun k => BitVec.ofNat 32 (field key (4 * k) 4)) ++ [BitVec.ofNat 32 n] ++
    (List.range 3).map (fun k => BitVec.ofNat 32 (field nonce (4 * k) 4))
  (List.zipWith (· + ·) s ((List.range 10).foldl (fun x _ => chachaDouble x) s)).flatMap (fun x => le 4 x.toNat)

/-- A string under the key stream from block 1 on. -/
def chachaStream (key nonce b : Bytes) : Bytes :=
  ((blocksOf 64 b.length b).mapIdx (fun i x => xorBytes x (chachaBlock key nonce (i + 1)))).flatten

/-- Zeros up to a multiple of 16 bytes. -/
def pad16 (b : Bytes) : Bytes := b ++ List.replicate ((16 - b.length % 16) % 16) 0

/-- Poly1305 under a 32-byte one-time key. -/
def poly1305 (key m : Bytes) : Bytes :=
  let r := leVal (slice key 0 16) &&& 0x0FFFFFFC0FFFFFFC0FFFFFFC0FFFFFFF
  let a := (blocksOf 16 m.length m).foldl (fun a b => (a + leVal (b ++ [1])) * r % (2 ^ 130 - 5)) 0
  le 16 (a + leVal (slice key 16 16))

/-- The tag of ChaCha20-Poly1305. -/
def chachaTag (key nonce aad ct : Bytes) : Bytes :=
  poly1305 ((chachaBlock key nonce 0).take 32) (pad16 aad ++ pad16 ct ++ le 8 aad.length ++ le 8 ct.length)

/-- ChaCha20 block 0 under an all-zero nonce (R317). -/
def chachaZero (key : Bytes) : Bytes := chachaBlock key (List.replicate 12 0) 0

/-! ### AEADs of R312: AES-GCM (1) and ChaCha20-Poly1305 (3) -/

/-- Key, nonce, additional data, plaintext: ciphertext followed by the 16-byte tag. -/
def aeadSeal (alg : Nat) (key nonce aad pt : Bytes) : Bytes :=
  if alg = 3 then
    let ct := chachaStream key nonce pt
    ct ++ chachaTag key nonce aad ct
  else
    let ct := gcmStream key nonce 2 pt
    ct ++ gcmTag key nonce aad ct

/-- Its inverse: none where the tag is wrong. -/
def aeadOpen (alg : Nat) (key nonce aad b : Bytes) : Option Bytes :=
  let ct := b.take (b.length - 16)
  let tag := b.drop (b.length - 16)
  if alg = 3 then (if chachaTag key nonce aad ct = tag then some (chachaStream key nonce ct) else none)
  else if gcmTag key nonce aad ct = tag then some (gcmStream key nonce 2 ct) else none

/-! ### ECDSA P-384 -/

/-- The field, the group order, b and the base point of P-384. -/
def p384 : Nat := 2 ^ 384 - 2 ^ 128 - 2 ^ 96 + 2 ^ 32 - 1
def p384n : Nat := 0xFFFFFFFFFFFFFFFFFFFFFFFFFFFFFFFFFFFFFFFFFFFFFFFFC7634D81F4372DDF581A0DB248B0A77AECEC196ACCC52973
def p384b : Nat := 0xB3312FA7E23EE7E4988E056BE3F82D19181D9C6EFE8141120314088F5013875AC656398D8A2ED19D2A85C8EDD3EC2AEF
def p384g : Nat × Nat :=
  (0xAA87CA22BE8B05378EB1C71EF320AD746E1D3B628BA79B9859F741E082542A385502F25DBF55296C3A545E3872760AB7,
   0x3617DE4A96262C6F5D9E98BF9292DC29F8F41DBD289A147CE9DA3113B5F0B8C00A60B1CE1D7E819D7A431D7C90EA0E5F)

/-- a^e modulo m, for e below 2^384. -/
def powMod (m a e : Nat) : Nat :=
  ((List.range 384).foldl (fun (r : Nat × Nat) k => (if e.testBit k then r.1 * r.2 % m else r.1, r.2 * r.2 % m)) (1 % m, a % m)).1

/-- The inverse modulo a prime. -/
def invMod (m a : Nat) : Nat := powMod m a (m - 2)

/-- The sum of two points of P-384; none is the point at infinity. -/
def p384Add : Option (Nat × Nat) → Option (Nat × Nat) → Option (Nat × Nat)
  | none, q => q
  | p, none => p
  | some (x1, y1), some (x2, y2) =>
    if x1 = x2 ∧ (y1 + y2) % p384 = 0 then none
    else
      let l :=
        if x1 = x2 then (3 * x1 * x1 + (p384 - 3)) * invMod p384 (2 * y1) % p384
        else (y2 + (p384 - y1)) * invMod p384 (x2 + (p384 - x1)) % p384
      let x3 := (l * l + (p384 - x1) + (p384 - x2)) % p384
      some (x3, (l * (x1 + (p384 - x3)) + (p384 - y1)) % p384)

/-- A multiple of a point. -/
def p384Mul (k : Nat) (p : Nat × Nat) : Option (Nat × Nat) :=
  ((List.range 384).foldl (fun (r : Option (Nat × Nat) × Option (Nat × Nat)) b =>
    (if k.testBit b then p384Add r.1 r.2 else r.1, p384Add r.2 r.2)) (none, some p)).1

/-- Whether a public key is a point of the curve. -/
def p384On (x y : Nat) : Bool :=
  decide (x < p384) && decide (y < p384) && y * y % p384 == (x * x * x + (p384 - 3) * x + p384b) % p384

/-- R71: an ECDSA P-384 signature over SHA-384 verifies; key and signature are pairs of little-endian 384-bit integers. -/
def ecdsaVerify (key msg sig : Bytes) : Bool :=
  let x := field key 0 48
  let y := field key 48 48
  let r := field sig 0 48
  let s := field sig 48 48
  let w := invMod p384n s
  let z := beVal (sha384 msg)
  p384On x y && decide (0 < r) && decide (r < p384n) && decide (0 < s) && decide (s < p384n) &&
  (match p384Add (p384Mul (z * w % p384n) p384g) (p384Mul (r * w % p384n) (x, y)) with
    | none => false
    | some q => q.1 % p384n == r)

end Sys2Proof.Machine
end

