-- ==== Sys2Proof/Config.lean ====
section
/-!
DEFINITION. What the model leaves uninterpreted: the free values of points the spec leaves open, what is fused into a device,
and what of a published standard the spec names but does not lay out. None has a body, so no proof can know a value of one.
Choices of the model coded here, by entry of the assumption log: DESIGN CHOICE 5, 12, 14, 38, 58, 66, 72; PRESUMED 59, 67.
-/
namespace Sys2Proof.Config

/-- The n-th free value of a run: a number the spec leaves open where it says that some value results. -/
opaque freeValue : Nat → BitVec 64

/-- The serial number fuse (00:0007). -/
opaque serialFuse : BitVec 64

/-- The base MAC fuse (00:0008), first byte most significant. -/
opaque macFuse : BitVec 48

/-- The grade fuse (00:0002): true for extended. -/
opaque gradeFuse : Bool

/-- A root key hash fuse, 0 to 3 (R71), 48 bytes. -/
opaque rootKeyHash : Nat → List (BitVec 8)

/-- The time of final test (00:000A). -/
opaque mfgTimeFuse : BitVec 64

/-- ECDSA P-384 signing by the attestation identity (R118). -/
opaque ecdsaSign : List (BitVec 8) → List (BitVec 8)

/-- Verification of an X.509 chain to one of the given anchor digests (R119). -/
opaque chainTrusted : List (BitVec 8) → List (List (BitVec 8)) → Bool

/-- The certificate chain of the attestation identity (R118, slot 0). -/
opaque attestChain : List (BitVec 8)

/-- The boot ROM's image, whose digest is measurement 3 (R118). -/
opaque bootRom : List (BitVec 8)

/-- What an SPDM response carries beyond what R118 gives it, as DSP0274 lays it out: response code, and the request it answers. -/
opaque spdmBody : Nat → List (BitVec 8) → List (BitVec 8)

/-- Verification of an SPDM FINISH message of a session (R119). -/
opaque finishVerified : Nat → List (BitVec 8) → Bool

/-- The source MAC address of RDMA packets of a function instance (2000: the device), which no object gives. -/
opaque fnMac : Nat → BitVec 48

/-- The smoothed RTT of a lane (R359) from the one before it and a new sample, whose smoothing the spec does not state. -/
opaque smoothRtt : Nat → Nat → Nat

/-- The zone tag key (R410), which no core can read. -/
opaque zoneTagKey : List (BitVec 8)

/-- The Routing ID firmware has given the drive of a root port (R563). -/
opaque driveId : Nat → BitVec 16

/-- The version of a section of a version 2 blob, by type (R180), which the spec does not number. -/
opaque sectionVersion : Nat → Nat

/-- The body of a section of a blob, whose layout is Varroern's own (R180): a free number, type. -/
opaque sectionBody : Nat → Nat → List (BitVec 8)

/-- Packets the Drover's thread input takes before re-injection is back-pressured (R241), which the spec does not give. -/
opaque reinjectRoom : Nat

/-- What mtval holds after a trap, from its cause and the address or instruction concerned: the privileged specification
leaves it open. -/
opaque mtval : Nat → BitVec 64 → BitVec 64

/-- CSRs the privileged specification leaves to the implementation: mvendorid, marchid, mimpid, mconfigptr, by number. -/
opaque machineId : Nat → BitVec 64

end Sys2Proof.Config
end

