-- ==== Sys2Proof/Machine/Catalogue.lean ====
section
/-!
DEFINITION. The object catalogue: one row for every object of the dictionary (R11 to R15, R122 to R133), taken from the
object tables of the chapters. A row covers `span` consecutive objects; an array's elements are its sub-indices.
Ranges, element counts and writable bits are those its Meaning column or owning rule states.
-/
namespace Sys2Proof.Machine

/-- R11, R98: the element type of an object. -/
inductive Ty where
  | bool | u8 | u16 | u32 | u64 | i8 | i16 | i32 | i64 | bits32 | enum8 | time64 | str64 | blob
  deriving DecidableEq, Repr

/-- R12: the access code of an object. -/
inductive Acc where
  | ro | rw | wo | rc | cmd
  deriving DecidableEq, Repr

/-- R15: the persistence class of an object. -/
inductive Pers where
  | volatile | kept | stored
  deriving DecidableEq, Repr

/-- One row of the catalogue. -/
structure Obj where
  name     : String
  /-- area and object, AAOOOO -/
  index    : Nat
  /-- number of consecutive objects the row stands for -/
  span     : Nat
  ty       : Ty
  /-- largest element count of an array; 0 for a scalar -/
  elems    : Nat
  /-- smallest element count; below `elems` the count is writable (R98) -/
  minElems : Nat
  /-- largest length of a value, in bytes -/
  len      : Nat
  acc      : Acc
  /-- R104 bytes 8 and 9: pairs of bits for M, H, V, P, F; the low bit of a pair reads, the high bit writes -/
  rights   : Nat
  pers     : Pers
  /-- default values of the elements; the last one repeats -/
  dflt     : List Nat
  /-- whether the table gives a default value -/
  hasDflt  : Bool
  /-- smallest accepted value; for STR64 and BLOB the shortest non-empty length -/
  lo       : Int
  /-- largest accepted value; for ENUM8 the bitmap of accepted values, for BITS32 the mask of writable bits -/
  hi       : Int
  /-- whether 0 (or the empty value) is accepted beside the range -/
  zeroOk   : Bool
  /-- R110: 0 no session needed, 1 session only, 2 session only for principal M -/
  session  : Nat
  /-- R104 attribute bit 1, R115: built-in notification to M -/
  builtin  : Bool
  deriving DecidableEq, Repr

/-- Objects of area 00. -/
def objsArea00 : List Obj := [
  ⟨"ID_VENDOR", 0x000000, 1, .str64, 0, 0, 64, .ro, 0x155, .volatile, [], true, 0, 64, false, 0, false⟩,
  ⟨"ID_PART", 0x000001, 1, .str64, 0, 0, 64, .ro, 0x155, .volatile, [], true, 0, 64, false, 0, false⟩,
  ⟨"ID_GRADE", 0x000002, 1, .enum8, 0, 0, 1, .ro, 0x155, .volatile, [0], true, 0, 0, false, 0, false⟩,
  ⟨"ID_STEPPING", 0x000003, 1, .u8, 0, 0, 1, .ro, 0x155, .volatile, [176], true, 0, 255, false, 0, false⟩,
  ⟨"ID_IDCODE", 0x000004, 1, .u32, 0, 0, 4, .ro, 0x155, .volatile, [423714995], true, 0, 4294967295, false, 0, false⟩,
  ⟨"ID_PCI_VENDOR", 0x000005, 1, .u16, 0, 0, 2, .ro, 0x155, .volatile, [7467], true, 0, 65535, false, 0, false⟩,
  ⟨"ID_PCI_DEVICE", 0x000006, 1, .u16, 2, 2, 2, .ro, 0x155, .volatile, [37910, 37911], true, 0, 65535, false, 0, false⟩,
  ⟨"ID_SERIAL", 0x000007, 1, .u64, 0, 0, 8, .ro, 0x155, .volatile, [0], true, 0, 18446744073709551615, false, 0, false⟩,
  ⟨"ID_BASE_MAC", 0x000008, 1, .blob, 0, 0, 6, .ro, 0x155, .volatile, [], true, 6, 6, false, 0, false⟩,
  ⟨"ID_MAC_COUNT", 0x000009, 1, .u16, 0, 0, 2, .ro, 0x155, .volatile, [16], true, 0, 65535, false, 0, false⟩,
  ⟨"ID_MFG_TIME", 0x00000A, 1, .time64, 0, 0, 8, .ro, 0x155, .volatile, [0], true, 0, 18446744073709551615, false, 0, false⟩,
  ⟨"ID_ROM_VERSION", 0x00000B, 1, .u32, 0, 0, 4, .ro, 0x155, .volatile, [131072], true, 0, 4294967295, false, 0, false⟩,
  ⟨"VER_SUPPORTED", 0x000100, 1, .bits32, 8, 8, 4, .ro, 0x155, .volatile, [3, 3, 3, 3, 1, 1, 3, 3], true, 0, 4294967295, false, 0, false⟩,
  ⟨"VER_PERMITTED", 0x000101, 1, .bits32, 8, 8, 4, .rw, 0x147, .stored, [3, 3, 3, 3, 1, 1, 3, 3], true, 0, 3, false, 0, false⟩,
  ⟨"VER_USERS_V1", 0x000102, 1, .u32, 8, 8, 4, .ro, 0x145, .volatile, [0], true, 0, 4294967295, false, 0, false⟩,
  ⟨"VER_USERS_V2", 0x000103, 1, .u32, 8, 8, 4, .ro, 0x145, .volatile, [0], true, 0, 4294967295, false, 0, false⟩,
  ⟨"VER_REFUSED", 0x000104, 1, .u32, 8, 8, 4, .rc, 0x145, .kept, [0], true, 0, 4294967295, false, 0, false⟩]

/-- Objects of area 01. -/
def objsArea01 : List Obj := [
  ⟨"DEV_LABEL", 0x010000, 1, .str64, 0, 0, 64, .rw, 0x147, .stored, [], true, 0, 64, false, 0, false⟩,
  ⟨"DEV_ASSET_TAG", 0x010001, 1, .str64, 0, 0, 64, .rw, 0x147, .stored, [], true, 0, 64, false, 0, false⟩,
  ⟨"DEV_TIME", 0x010002, 1, .time64, 0, 0, 8, .ro, 0x155, .volatile, [], false, 0, 18446744073709551615, false, 0, false⟩,
  ⟨"DEV_TIME_STATE", 0x010003, 1, .enum8, 0, 0, 1, .ro, 0x155, .kept, [0], true, 0, 0, false, 0, false⟩,
  ⟨"DEV_WARM_RESET", 0x010010, 1, .u8, 0, 0, 1, .cmd, 0x002, .volatile, [], false, 1, 1, false, 0, false⟩,
  ⟨"OA_UDP_PORT", 0x010100, 1, .u16, 0, 0, 2, .rw, 0x107, .stored, [4416], true, 1024, 65535, false, 0, false⟩,
  ⟨"OA_ETH_ENABLE", 0x010101, 1, .bool, 0, 0, 1, .rw, 0x107, .stored, [1], true, 0, 1, false, 0, false⟩,
  ⟨"OA_TRUST_ANCHOR", 0x010102, 1, .blob, 4, 4, 48, .rw, 0x107, .stored, [], true, 48, 48, true, 1, false⟩,
  ⟨"OA_SPDM_HEARTBEAT", 0x010103, 1, .u32, 0, 0, 4, .rw, 0x107, .stored, [60], true, 5, 3600, false, 0, false⟩,
  ⟨"OA_ETH_RATE", 0x010104, 1, .u32, 0, 0, 4, .rw, 0x107, .stored, [1000], true, 10, 100000, false, 0, false⟩,
  ⟨"OA_ASSOCIATIONS", 0x010110, 1, .u16, 8, 8, 2, .ro, 0x145, .volatile, [0], true, 0, 65535, false, 0, false⟩,
  ⟨"OA_DISCARDS", 0x010111, 1, .u32, 8, 8, 4, .rc, 0x145, .kept, [0], true, 0, 4294967295, false, 0, false⟩,
  ⟨"OA_SESSIONS", 0x010112, 1, .u8, 0, 0, 1, .ro, 0x145, .volatile, [0], true, 0, 255, false, 0, false⟩,
  ⟨"OA_NOTIFY_LOST", 0x010113, 1, .u32, 0, 0, 4, .rc, 0x145, .kept, [0], true, 0, 4294967295, false, 0, false⟩,
  ⟨"OA_TXN_OPEN", 0x010114, 1, .u8, 0, 0, 1, .ro, 0x145, .volatile, [0], true, 0, 255, false, 0, false⟩,
  ⟨"OA_RESTORE_DEFAULTS", 0x010120, 1, .u8, 0, 0, 1, .cmd, 0x002, .volatile, [], false, 1, 1, false, 1, false⟩,
  ⟨"CLK_DOMAIN_FREQ", 0x010200, 1, .u32, 14, 14, 4, .ro, 0x145, .volatile, [], false, 0, 4294967295, false, 0, false⟩,
  ⟨"CLK_PLL_LOCK", 0x010201, 1, .bits32, 0, 0, 4, .ro, 0x145, .volatile, [], false, 0, 4294967295, false, 0, false⟩,
  ⟨"XING_STATE", 0x010210, 1, .enum8, 24, 24, 1, .ro, 0x145, .volatile, [0], true, 0, 0, false, 0, false⟩,
  ⟨"XING_DISCARDS", 0x010211, 1, .u32, 24, 24, 4, .rc, 0x145, .kept, [0], true, 0, 4294967295, false, 0, false⟩,
  ⟨"XING_RESYNC_COUNT", 0x010212, 1, .u32, 24, 24, 4, .ro, 0x145, .kept, [0], true, 0, 4294967295, false, 0, false⟩]

/-- Objects of area 02. -/
def objsArea02 : List Obj := [
  ⟨"START_STAGE", 0x020000, 1, .enum8, 0, 0, 1, .ro, 0x155, .volatile, [0], true, 0, 0, false, 0, true⟩,
  ⟨"START_REASON", 0x020001, 1, .enum8, 0, 0, 1, .ro, 0x155, .volatile, [0], true, 0, 0, false, 0, false⟩,
  ⟨"START_STAGE_TIME", 0x020002, 1, .u32, 4, 4, 4, .ro, 0x145, .volatile, [0], true, 0, 4294967295, false, 0, false⟩,
  ⟨"START_PF0_READY", 0x020003, 1, .u32, 2, 2, 4, .ro, 0x145, .volatile, [0], true, 0, 4294967295, false, 0, false⟩,
  ⟨"RESET_CAUSE", 0x020004, 1, .enum8, 0, 0, 1, .ro, 0x145, .kept, [1], true, 0, 0, false, 0, false⟩,
  ⟨"START_COUNT", 0x020005, 1, .u16, 0, 0, 2, .ro, 0x145, .kept, [0], true, 0, 65535, false, 0, false⟩,
  ⟨"START_HOLD", 0x020010, 1, .enum8, 0, 0, 1, .rw, 0x107, .kept, [0], true, 0, 15, false, 0, false⟩,
  ⟨"START_WATCHDOG", 0x020011, 1, .u32, 0, 0, 4, .rw, 0x107, .stored, [30], true, 10, 600, true, 0, false⟩,
  ⟨"SD_DROPS", 0x020020, 1, .u64, 0, 0, 8, .rc, 0x145, .volatile, [0], true, 0, 18446744073709551615, false, 0, false⟩,
  ⟨"SLOT_STATE", 0x020100, 1, .enum8, 2, 2, 1, .ro, 0x145, .volatile, [], false, 0, 0, false, 0, false⟩,
  ⟨"SLOT_SEQ", 0x020101, 1, .u32, 2, 2, 4, .ro, 0x145, .volatile, [], false, 0, 4294967295, false, 0, false⟩,
  ⟨"EPOCH_FUSED", 0x020102, 1, .u16, 0, 0, 2, .ro, 0x145, .volatile, [], false, 0, 65535, false, 0, false⟩,
  ⟨"BOOT_SLOT", 0x020103, 1, .enum8, 0, 0, 1, .ro, 0x155, .volatile, [255], true, 0, 0, false, 0, false⟩,
  ⟨"BOOT_SELECT", 0x020104, 1, .enum8, 0, 0, 1, .ro, 0x145, .volatile, [], false, 0, 0, false, 0, false⟩,
  ⟨"SLOT_COMMIT", 0x020105, 1, .u8, 0, 0, 1, .cmd, 0x202, .volatile, [], false, 0, 1, false, 0, false⟩,
  ⟨"SLOT_RETIRE_RECOVER", 0x020106, 1, .u8, 0, 0, 1, .cmd, 0x202, .volatile, [], false, 0, 128, false, 0, false⟩,
  ⟨"ROOT_KEY_REVOKE", 0x020107, 1, .u8, 0, 0, 1, .cmd, 0x002, .volatile, [], false, 0, 3, false, 1, false⟩,
  ⟨"SLOT_RESEQUENCE", 0x020108, 1, .u8, 0, 0, 1, .cmd, 0x202, .volatile, [], false, 0, 1, false, 0, false⟩,
  ⟨"KEY_LOCKED", 0x020109, 1, .bool, 0, 0, 1, .ro, 0x145, .volatile, [0], true, 0, 1, false, 0, false⟩,
  ⟨"MEASURE_STALE", 0x02010A, 1, .bool, 0, 0, 1, .ro, 0x145, .kept, [0], true, 0, 1, false, 0, false⟩,
  ⟨"MEASUREMENT", 0x02010B, 1, .blob, 0, 0, 48, .ro, 0x155, .volatile, [], false, 48, 48, false, 0, false⟩,
  ⟨"EPOCH_ADVANCE", 0x020110, 1, .u16, 0, 0, 2, .cmd, 0x002, .volatile, [], false, 1, 256, false, 1, false⟩,
  ⟨"FLASH_MODE", 0x020111, 1, .enum8, 0, 0, 1, .ro, 0x145, .volatile, [0], true, 0, 0, false, 0, false⟩,
  ⟨"FLASH_REFUSED", 0x020112, 1, .u32, 0, 0, 4, .rc, 0x145, .kept, [0], true, 0, 4294967295, false, 0, false⟩,
  ⟨"IMAGE_VERSION", 0x020113, 1, .u32, 0, 0, 4, .ro, 0x155, .volatile, [0], true, 0, 4294967295, false, 0, false⟩,
  ⟨"RECOVERY_BAUD", 0x020114, 1, .u32, 0, 0, 4, .rw, 0x107, .stored, [115200], true, 115200, 3000000, false, 0, false⟩,
  ⟨"RECOVERY_DISCARDS", 0x020115, 1, .u32, 0, 0, 4, .rc, 0x145, .volatile, [0], true, 0, 4294967295, false, 0, false⟩]

/-- Objects of area 03. -/
def objsArea03 : List Obj := [
  ⟨"MON_TEMP", 0x030000, 1, .i16, 48, 48, 2, .ro, 0x155, .volatile, [], false, (-32768), 32767, false, 0, false⟩,
  ⟨"MON_TEMP_PEAK", 0x030001, 1, .i16, 48, 48, 2, .rc, 0x145, .kept, [], false, (-32768), 32767, false, 0, false⟩,
  ⟨"MON_VOLT", 0x030002, 1, .u16, 32, 32, 2, .ro, 0x145, .volatile, [], false, 0, 65535, false, 0, false⟩,
  ⟨"MON_PROC", 0x030003, 1, .u32, 80, 80, 4, .ro, 0x145, .volatile, [0], true, 0, 4294967295, false, 0, false⟩,
  ⟨"MON_DISTRUSTED", 0x030004, 1, .bits32, 2, 2, 4, .ro, 0x145, .kept, [0], true, 0, 4294967295, false, 0, false⟩,
  ⟨"REGION_TEMP", 0x030005, 1, .i16, 5, 5, 2, .ro, 0x145, .volatile, [], false, (-32768), 32767, false, 0, false⟩,
  ⟨"THERM_STAGE", 0x030010, 1, .enum8, 5, 5, 1, .ro, 0x145, .volatile, [0], true, 0, 0, false, 0, false⟩,
  ⟨"THERM_COUNTS", 0x030011, 1, .u32, 3, 3, 4, .rc, 0x145, .kept, [0], true, 0, 4294967295, false, 0, false⟩,
  ⟨"SHEP_PT_FAST", 0x030100, 1, .u8, 4, 4, 1, .rw, 0x347, .stored, [0], true, 0, 7, false, 0, false⟩,
  ⟨"SHEP_PT_SLOW", 0x030101, 1, .u8, 4, 4, 1, .rw, 0x347, .stored, [7], true, 0, 7, false, 0, false⟩,
  ⟨"SHEP_POLICY", 0x030102, 1, .enum8, 0, 0, 1, .rw, 0x347, .stored, [0], true, 0, 7, false, 0, false⟩,
  ⟨"SHEP_TEMP_TARGET", 0x030103, 1, .u8, 0, 0, 1, .rw, 0x347, .stored, [90], true, 60, 97, false, 0, false⟩,
  ⟨"SHEP_NEIGHBOUR_LIMIT", 0x030104, 1, .u8, 0, 0, 1, .rw, 0x347, .stored, [25], true, 10, 25, false, 0, false⟩,
  ⟨"SHEP_AGEING_ENABLE", 0x030110, 1, .bool, 0, 0, 1, .rw, 0x147, .stored, [1], true, 0, 1, false, 1, false⟩,
  ⟨"SHEP_AGEING_OFFSET", 0x030111, 1, .u8, 4, 4, 1, .ro, 0x145, .stored, [0], true, 0, 255, false, 0, false⟩,
  ⟨"SHEP_PT_BARRED", 0x030112, 1, .u8, 4, 4, 1, .ro, 0x145, .stored, [0], true, 0, 255, false, 0, false⟩,
  ⟨"MON_TRUST", 0x030120, 1, .u8, 0, 0, 1, .cmd, 0x202, .volatile, [], false, 0, 47, false, 2, false⟩,
  ⟨"MON_PROC_MEASURE", 0x030121, 1, .u8, 0, 0, 1, .cmd, 0x202, .volatile, [], false, 1, 1, false, 0, false⟩,
  ⟨"SHEP_DECISION", 0x030200, 1, .blob, 4, 4, 16, .ro, 0x145, .volatile, [], false, 16, 16, false, 0, false⟩,
  ⟨"SHEP_DECISION_COUNTS", 0x030201, 1, .u64, 18, 18, 8, .rc, 0x145, .kept, [0], true, 0, 18446744073709551615, false, 0, false⟩,
  ⟨"SHEP_SILENCES", 0x030202, 1, .u32, 0, 0, 4, .rc, 0x145, .kept, [0], true, 0, 4294967295, false, 0, false⟩,
  ⟨"SHEP_SCRUB_DECISION", 0x030203, 1, .blob, 0, 0, 16, .ro, 0x145, .volatile, [], false, 16, 16, false, 0, false⟩,
  ⟨"SHEP_LAST_EVENT", 0x030204, 1, .blob, 0, 0, 16, .ro, 0x145, .volatile, [], false, 16, 16, false, 0, true⟩]

/-- Objects of area 04. -/
def objsArea04 : List Obj := [
  ⟨"HOST_PLACEMENT", 0x040000, 1, .enum8, 0, 0, 1, .rw, 0x147, .stored, [1], true, 0, 7, false, 0, false⟩,
  ⟨"HOST_PORT_SPLIT", 0x040001, 1, .enum8, 2, 2, 1, .rw, 0x147, .stored, [0, 0], true, 0, 3, false, 0, false⟩,
  ⟨"HOST_PF_PORT", 0x040002, 1, .enum8, 4, 4, 1, .rw, 0x147, .stored, [0, 0, 1, 1], true, 0, 3, false, 0, false⟩,
  ⟨"HOST_RATE_CEILING", 0x040003, 1, .enum8, 2, 2, 1, .rw, 0x147, .stored, [6, 6], true, 0, 126, false, 0, false⟩,
  ⟨"HOST_REFCLK_MODE", 0x040004, 1, .enum8, 2, 2, 1, .rw, 0x147, .stored, [0, 0], true, 0, 3, false, 0, false⟩,
  ⟨"HOST_LINK_STATE", 0x040010, 1, .bits32, 4, 4, 4, .ro, 0x145, .volatile, [0], true, 0, 4294967295, false, 0, false⟩,
  ⟨"HOST_LINK_RETRAINS", 0x040011, 1, .u32, 4, 4, 4, .rc, 0x145, .kept, [0], true, 0, 4294967295, false, 0, false⟩,
  ⟨"HOST_CPL_TIMEOUTS", 0x040020, 1, .u32, 4, 4, 4, .rc, 0x145, .kept, [0], true, 0, 4294967295, false, 0, false⟩,
  ⟨"HOST_UNEXPECTED_CPL", 0x040021, 1, .u32, 4, 4, 4, .rc, 0x145, .kept, [0], true, 0, 4294967295, false, 0, false⟩,
  ⟨"HOST_TAGS_QUARANTINED", 0x040022, 1, .u16, 4, 4, 2, .ro, 0x145, .volatile, [0], true, 0, 65535, false, 0, false⟩,
  ⟨"HOST_TAG_WAITS", 0x040023, 1, .u32, 4, 4, 4, .rc, 0x145, .kept, [0], true, 0, 4294967295, false, 0, false⟩,
  ⟨"HOST_PEERWIN_MEM_BASE", 0x040030, 1, .u64, 4, 4, 8, .rw, 0x107, .stored, [0], true, 0, 18446744073709551615, false, 0, false⟩,
  ⟨"HOST_PEERWIN_MEM_SIZE", 0x040031, 1, .u64, 4, 4, 8, .rw, 0x107, .stored, [0], true, 0, 18446744073709551615, false, 0, false⟩,
  ⟨"HOST_PEERWIN_PORTS", 0x040032, 1, .bits32, 4, 4, 4, .rw, 0x107, .stored, [0], true, 0, 255, false, 0, false⟩,
  ⟨"HOST_PEERWIN_REFUSED", 0x040033, 1, .u32, 4, 4, 4, .rc, 0x145, .kept, [0], true, 0, 4294967295, false, 0, false⟩,
  ⟨"HOST_ERRORS", 0x040040, 1, .u32, 10, 10, 4, .rc, 0x145, .kept, [0], true, 0, 4294967295, false, 0, false⟩,
  ⟨"HOST_MAP_GENERATION", 0x040050, 1, .u32, 0, 0, 4, .ro, 0x155, .volatile, [1], true, 0, 4294967295, false, 0, false⟩,
  ⟨"HOST_BAR2_LOG2", 0x040051, 1, .u8, 4, 4, 1, .rw, 0x147, .stored, [34, 34, 34, 34], true, 30, 36, true, 0, false⟩]

/-- Objects of area 05. -/
def objsArea05 : List Obj := [
  ⟨"VF_TOTAL", 0x050001, 1, .u16, 4, 4, 2, .rw, 0x147, .stored, [256, 256, 256, 256], true, 0, 65535, false, 0, false⟩,
  ⟨"VF_ENABLED", 0x050002, 1, .u16, 4, 4, 2, .ro, 0x145, .volatile, [0], true, 0, 65535, false, 0, false⟩,
  ⟨"VF_TYPE_RUNS", 0x050010, 1, .blob, 32, 0, 24, .rw, 0x147, .stored, [], true, 24, 24, false, 0, false⟩,
  ⟨"VF_POOL_USED", 0x050020, 1, .u32, 5, 5, 4, .ro, 0x145, .volatile, [], false, 0, 4294967295, false, 0, false⟩,
  ⟨"VF_TRACK_POOL", 0x050030, 1, .u32, 0, 0, 4, .rw, 0x107, .stored, [256], true, 0, 4096, false, 0, false⟩,
  ⟨"VF_MIG_CMD", 0x050100, 1, .blob, 0, 0, 32, .cmd, 0x00A, .volatile, [], false, 32, 32, false, 0, false⟩,
  ⟨"VF_MIG_ACTIVE", 0x050101, 1, .u8, 0, 0, 1, .ro, 0x145, .volatile, [0], true, 0, 255, false, 0, false⟩,
  ⟨"VF_FROZEN_DROPS", 0x050102, 1, .u64, 0, 0, 8, .rc, 0x145, .kept, [0], true, 0, 18446744073709551615, false, 0, false⟩,
  ⟨"VF_STATE", 0x050400, 1024, .blob, 0, 0, 16, .ro, 0x145, .volatile, [], false, 16, 16, false, 0, false⟩]

/-- Objects of area 06. -/
def objsArea06 : List Obj := [
  ⟨"RING_COUNT", 0x060000, 1, .u32, 0, 0, 4, .ro, 0x145, .volatile, [0], true, 0, 4294967295, false, 0, false⟩,
  ⟨"RING_SPILL_POOL", 0x060001, 1, .u32, 0, 0, 4, .rw, 0x107, .stored, [512], true, 16, 8192, false, 0, false⟩,
  ⟨"RING_SPILL_USED", 0x060002, 1, .u32, 0, 0, 4, .ro, 0x145, .volatile, [0], true, 0, 4294967295, false, 0, false⟩,
  ⟨"RING_CQ_POLL", 0x060003, 1, .u16, 0, 0, 2, .rw, 0x107, .stored, [100], true, 10, 10000, false, 0, false⟩,
  ⟨"RING_FAULTS", 0x060010, 1, .u32, 5, 5, 4, .rc, 0x145, .kept, [0], true, 0, 4294967295, false, 0, false⟩,
  ⟨"RING_DB_STRAY", 0x060011, 1, .u32, 0, 0, 4, .rc, 0x145, .kept, [0], true, 0, 4294967295, false, 0, false⟩,
  ⟨"RING_CPL_LOST", 0x060012, 1, .u64, 0, 0, 8, .rc, 0x145, .kept, [0], true, 0, 18446744073709551615, false, 0, false⟩,
  ⟨"RING_DOUBLE_READ_STOPS", 0x060013, 1, .u32, 0, 0, 4, .rc, 0x145, .kept, [0], true, 0, 4294967295, false, 0, false⟩,
  ⟨"RING_CTLBLK_INVALID", 0x060014, 1, .u32, 0, 0, 4, .rc, 0x145, .kept, [0], true, 0, 4294967295, false, 0, false⟩,
  ⟨"RING_EVENTS_LOST", 0x060015, 1, .u32, 0, 0, 4, .rc, 0x145, .kept, [0], true, 0, 4294967295, false, 0, false⟩]

/-- Objects of area 07. -/
def objsArea07 : List Obj := [
  ⟨"PORT_MODE", 0x070000, 1, .enum8, 0, 0, 1, .rw, 0x147, .stored, [3], true, 0, 31, false, 0, false⟩,
  ⟨"PORT_ENABLE", 0x070001, 1, .bits32, 0, 0, 4, .rw, 0x347, .stored, [255], true, 0, 255, false, 0, false⟩,
  ⟨"PORT_MAX_FRAME", 0x070002, 1, .u16, 8, 8, 2, .rw, 0x347, .stored, [9622], true, 1518, 9622, false, 0, false⟩,
  ⟨"PORT_STATE", 0x070003, 1, .bits32, 8, 8, 4, .ro, 0x155, .volatile, [0], true, 0, 4294967295, false, 0, false⟩,
  ⟨"PORT_FEC_UNCORR", 0x070005, 1, .u64, 8, 8, 8, .rc, 0x145, .kept, [0], true, 0, 18446744073709551615, false, 0, false⟩,
  ⟨"PORT_RX_BAD", 0x070006, 1, .u64, 8, 8, 8, .rc, 0x145, .kept, [0], true, 0, 18446744073709551615, false, 0, false⟩,
  ⟨"PORT_RX_DROPS", 0x070007, 1, .u64, 8, 8, 8, .rc, 0x145, .kept, [0], true, 0, 18446744073709551615, false, 0, false⟩,
  ⟨"PORT_HEADROOM_OVERRUN", 0x070008, 1, .u64, 8, 8, 8, .rc, 0x145, .kept, [0], true, 0, 18446744073709551615, false, 0, false⟩,
  ⟨"PFC_LOSSLESS", 0x070010, 1, .bits32, 8, 8, 4, .rw, 0x347, .stored, [0], true, 0, 255, false, 0, false⟩,
  ⟨"PFC_DEFAULT_PRIO", 0x070011, 1, .u8, 8, 8, 1, .rw, 0x347, .stored, [0], true, 0, 7, false, 0, false⟩,
  ⟨"PFC_HEADROOM", 0x070012, 1, .u32, 8, 8, 4, .rw, 0x347, .stored, [512], true, 64, 8192, false, 0, false⟩,
  ⟨"BUF_GUARANTEED", 0x070013, 1, .u32, 8, 8, 4, .rw, 0x347, .stored, [128], true, 0, 4096, false, 0, false⟩,
  ⟨"BUF_ALPHA", 0x070014, 1, .u8, 0, 0, 1, .rw, 0x347, .stored, [16], true, 1, 64, false, 0, false⟩,
  ⟨"PORT_PAUSE_DISCARDS", 0x070015, 1, .u32, 8, 8, 4, .rc, 0x145, .kept, [0], true, 0, 4294967295, false, 0, false⟩,
  ⟨"TIME_FREQ_ADJ", 0x070020, 1, .i32, 0, 0, 4, .rw, 0x307, .kept, [0], true, (-500000000), 500000000, false, 0, false⟩,
  ⟨"TIME_STEP", 0x070021, 1, .i64, 0, 0, 8, .cmd, 0x202, .volatile, [], false, (-9223372036854775808), 9223372036854775807, false, 0, false⟩,
  ⟨"TIME_HOLDOVER", 0x070022, 1, .u8, 0, 0, 1, .rw, 0x307, .stored, [4], true, 1, 60, false, 0, false⟩,
  ⟨"TIME_STEPS", 0x070023, 1, .u32, 0, 0, 4, .ro, 0x145, .kept, [0], true, 0, 4294967295, false, 0, false⟩,
  ⟨"PPS_IN_TIME", 0x070024, 1, .time64, 0, 0, 8, .ro, 0x145, .volatile, [0], true, 0, 18446744073709551615, false, 0, false⟩,
  ⟨"PPS_OUT_WIDTH", 0x070025, 1, .u16, 0, 0, 2, .rw, 0x307, .stored, [100], true, 0, 900, false, 0, false⟩,
  ⟨"PORT_TS_CORRECTION", 0x070026, 1, .i32, 8, 8, 4, .rw, 0x307, .stored, [0], true, (-1000), 1000, false, 0, false⟩,
  ⟨"DROVER_CLASS_WEIGHT", 0x070100, 1, .u8, 3, 3, 1, .rw, 0x107, .stored, [4, 2, 2], true, 1, 15, false, 0, false⟩,
  ⟨"DROVER_REGION_MASK", 0x070101, 1, .bits32, 0, 0, 4, .rw, 0x147, .volatile, [15], true, 0, 15, false, 0, false⟩,
  ⟨"DROVER_ELIGIBLE", 0x070102, 1, .bits32, 0, 0, 4, .ro, 0x145, .volatile, [], false, 0, 4294967295, false, 0, false⟩,
  ⟨"DROVER_DEALT", 0x070103, 1, .u64, 4, 4, 8, .ro, 0x145, .volatile, [0], true, 0, 18446744073709551615, false, 0, false⟩,
  ⟨"FOLD_HOLE_TIMEOUT", 0x070110, 1, .u16, 0, 0, 2, .rw, 0x107, .stored, [50], true, 5, 500, false, 0, false⟩,
  ⟨"FOLD_HOLE_LOSSES", 0x070111, 1, .u64, 4, 4, 8, .rc, 0x145, .kept, [0], true, 0, 18446744073709551615, false, 0, false⟩,
  ⟨"FOLD_LATE_RESULTS", 0x070112, 1, .u64, 4, 4, 8, .rc, 0x145, .kept, [0], true, 0, 18446744073709551615, false, 0, false⟩,
  ⟨"FOLD_REGION_LOSSES", 0x070113, 1, .u64, 4, 4, 8, .rc, 0x145, .kept, [0], true, 0, 18446744073709551615, false, 0, false⟩,
  ⟨"FOLD_PUNT_LOSSES", 0x070114, 1, .u64, 2, 2, 8, .rc, 0x145, .kept, [0], true, 0, 18446744073709551615, false, 0, false⟩,
  ⟨"FOLD_IN_FLIGHT", 0x070115, 1, .u16, 0, 0, 2, .ro, 0x145, .volatile, [0], true, 0, 65535, false, 0, false⟩,
  ⟨"FOLD_RX_NO_BUFFER", 0x070116, 1, .u64, 9, 9, 8, .rc, 0x145, .kept, [0], true, 0, 18446744073709551615, false, 0, false⟩,
  ⟨"FOLD_EGRESS_DROPS", 0x070117, 1, .u64, 8, 8, 8, .rc, 0x145, .kept, [0], true, 0, 18446744073709551615, false, 0, false⟩,
  ⟨"NET_REFCLK_LOSSES", 0x070118, 1, .u64, 0, 0, 8, .rc, 0x145, .kept, [0], true, 0, 18446744073709551615, false, 0, false⟩,
  ⟨"BUF_HOST_STAGING", 0x070121, 1, .u32, 0, 0, 4, .rw, 0x107, .stored, [8192], true, 1024, 16384, false, 0, false⟩,
  ⟨"BUF_PUNT_ALLOWANCE", 0x070122, 1, .u32, 0, 0, 4, .rw, 0x107, .stored, [4096], true, 256, 16384, false, 0, false⟩]

/-- Objects of area 08. -/
def objsArea08 : List Obj := [
  ⟨"PLATE_LIVE_SLOT", 0x080000, 1, .u8, 0, 0, 1, .ro, 0x145, .volatile, [0], true, 0, 255, false, 0, false⟩,
  ⟨"PLATE_GENERATION", 0x080001, 1, .u16, 0, 0, 2, .ro, 0x145, .volatile, [0], true, 0, 65535, false, 0, false⟩,
  ⟨"PLATE_SLOT_STATE", 0x080002, 1, .enum8, 4, 4, 1, .ro, 0x145, .volatile, [5, 0, 0, 0], true, 0, 0, false, 0, false⟩,
  ⟨"PLATE_IN_FLIGHT", 0x080003, 1, .u32, 4, 4, 4, .ro, 0x145, .volatile, [0], true, 0, 4294967295, false, 0, false⟩,
  ⟨"PLATE_DEEP_RULES", 0x080004, 1, .u32, 0, 0, 4, .rw, 0x107, .stored, [0], true, 0, 1048576, false, 0, false⟩,
  ⟨"PLATE_DEEP_NODES", 0x080005, 1, .u32, 0, 0, 4, .rw, 0x107, .stored, [0], true, 0, 65536, false, 0, false⟩,
  ⟨"PLATE_COMMITS", 0x080010, 1, .u32, 0, 0, 4, .ro, 0x145, .kept, [0], true, 0, 4294967295, false, 0, false⟩,
  ⟨"PLATE_REFUSALS", 0x080011, 1, .u32, 2, 2, 4, .rc, 0x145, .kept, [0], true, 0, 4294967295, false, 0, false⟩,
  ⟨"PLATE_MISSES", 0x080012, 1, .u64, 4, 4, 8, .rc, 0x145, .kept, [0], true, 0, 18446744073709551615, false, 0, false⟩,
  ⟨"PLATE_DEEP_PACKETS", 0x080013, 1, .u64, 4, 4, 8, .rc, 0x145, .kept, [0], true, 0, 18446744073709551615, false, 0, false⟩,
  ⟨"PARSE_ERRORS", 0x080015, 1, .u64, 4, 4, 8, .rc, 0x145, .kept, [0], true, 0, 18446744073709551615, false, 0, false⟩,
  ⟨"PIPE_ACTION_DROPS", 0x080016, 1, .u64, 3, 3, 8, .rc, 0x145, .kept, [0], true, 0, 18446744073709551615, false, 0, false⟩,
  ⟨"PLATE_LIST_M", 0x080020, 1, .blob, 0, 0, 1048576, .rw, 0x003, .volatile, [], true, 0, 1048576, false, 0, false⟩,
  ⟨"PLATE_OP", 0x080021, 1, .blob, 0, 0, 4, .cmd, 0x202, .volatile, [], false, 4, 4, false, 0, false⟩,
  ⟨"PLATE_COMMIT", 0x080022, 1, .u8, 0, 0, 1, .cmd, 0x202, .volatile, [], false, 0, 3, false, 0, false⟩,
  ⟨"PLATE_OP_DETAIL", 0x080023, 1, .blob, 0, 0, 16, .ro, 0x145, .volatile, [], false, 16, 16, false, 0, false⟩,
  ⟨"PLATE_LIST_F", 0x080024, 1, .blob, 0, 0, 1048576, .rw, 0x301, .volatile, [], true, 0, 1048576, false, 0, false⟩,
  ⟨"PIN_WRITE", 0x080030, 1, .blob, 0, 0, 132, .cmd, 0x202, .volatile, [], false, 132, 132, false, 0, false⟩,
  ⟨"PIN_VALID", 0x080031, 1, .u64, 4, 4, 8, .ro, 0x145, .volatile, [0], true, 0, 18446744073709551615, false, 0, false⟩,
  ⟨"PIN_HITS", 0x080032, 1, .u64, 64, 64, 8, .rc, 0x145, .kept, [0], true, 0, 18446744073709551615, false, 0, false⟩,
  ⟨"COUNTERS", 0x080100, 1, .blob, 0, 0, 131072, .ro, 0x145, .volatile, [], false, 131072, 131072, false, 0, false⟩,
  ⟨"COUNTER_CLEAR", 0x080101, 1, .u16, 0, 0, 2, .cmd, 0x202, .volatile, [], false, 0, 8191, false, 0, false⟩,
  ⟨"METER", 0x080800, 2048, .blob, 0, 0, 16, .rw, 0x307, .volatile, [], true, 16, 16, true, 0, false⟩]

/-- Objects of area 09. -/
def objsArea09 : List Obj := [
  ⟨"BR_AGE_TIME", 0x090000, 1, .u32, 0, 0, 4, .rw, 0x347, .stored, [300], true, 10, 1000000, true, 0, false⟩,
  ⟨"BR_ENTRIES", 0x090001, 1, .u32, 0, 0, 4, .ro, 0x145, .volatile, [0], true, 0, 4294967295, false, 0, false⟩,
  ⟨"BR_OVERFLOW_USED", 0x090002, 1, .u16, 0, 0, 2, .ro, 0x145, .volatile, [0], true, 0, 65535, false, 0, false⟩,
  ⟨"BR_COUNTS", 0x090003, 1, .u64, 9, 9, 8, .rc, 0x145, .kept, [0], true, 0, 18446744073709551615, false, 0, false⟩,
  ⟨"CONN_ENTRIES", 0x090010, 1, .u32, 0, 0, 4, .ro, 0x145, .volatile, [0], true, 0, 4294967295, false, 0, false⟩,
  ⟨"CONN_EPOCH", 0x090011, 1, .u32, 0, 0, 4, .ro, 0x145, .volatile, [0], true, 0, 4294967295, false, 0, false⟩,
  ⟨"CONN_RELOCATIONS", 0x090012, 1, .u64, 0, 0, 8, .rc, 0x145, .kept, [0], true, 0, 18446744073709551615, false, 0, false⟩,
  ⟨"CONN_RETRIES", 0x090013, 1, .u64, 4, 4, 8, .rc, 0x145, .kept, [0], true, 0, 18446744073709551615, false, 0, false⟩,
  ⟨"CONN_CACHE_MISSES", 0x090014, 1, .u64, 4, 4, 8, .rc, 0x145, .kept, [0], true, 0, 18446744073709551615, false, 0, false⟩,
  ⟨"CONN_LOOKUP_MISSES", 0x090015, 1, .u64, 4, 4, 8, .rc, 0x145, .kept, [0], true, 0, 18446744073709551615, false, 0, false⟩,
  ⟨"CONN_BAD_ACTION", 0x090016, 1, .u64, 4, 4, 8, .rc, 0x145, .kept, [0], true, 0, 18446744073709551615, false, 0, false⟩,
  ⟨"LEARN_COUNTS", 0x090020, 1, .u64, 5, 5, 8, .rc, 0x145, .kept, [0], true, 0, 18446744073709551615, false, 0, false⟩,
  ⟨"LEARN_ETHERTYPE", 0x090030, 1, .u16, 0, 0, 2, .rw, 0x147, .stored, [34997], true, 1536, 65535, false, 0, false⟩,
  ⟨"LEARN_PORTS", 0x090031, 1, .bits32, 0, 0, 4, .rw, 0x147, .stored, [255], true, 0, 255, false, 0, false⟩,
  ⟨"LEARN_GROUP_MAC", 0x090032, 1, .blob, 0, 0, 6, .rw, 0x147, .stored, [], true, 6, 6, true, 0, false⟩,
  ⟨"LEARN_BATCH_TIME", 0x090033, 1, .u16, 0, 0, 2, .rw, 0x147, .stored, [100], true, 10, 10000, false, 0, false⟩,
  ⟨"LEARN_REFRESH", 0x090034, 1, .u16, 0, 0, 2, .rw, 0x147, .stored, [300], true, 30, 3600, true, 0, false⟩,
  ⟨"LEARN_MSG_COUNTS", 0x090035, 1, .u64, 8, 8, 8, .rc, 0x145, .kept, [0], true, 0, 18446744073709551615, false, 0, false⟩,
  ⟨"TBL_LIST_M", 0x090200, 1, .blob, 0, 0, 1048576, .rw, 0x003, .volatile, [], true, 0, 1048576, false, 0, false⟩,
  ⟨"TBL_OP", 0x090201, 1, .blob, 0, 0, 4, .cmd, 0x202, .volatile, [], false, 4, 4, false, 0, false⟩,
  ⟨"TBL_LIST_F", 0x090202, 1, .blob, 0, 0, 1048576, .rw, 0x301, .volatile, [], true, 0, 1048576, false, 0, false⟩,
  ⟨"PROOF_CMD", 0x090300, 1, .blob, 0, 0, 48, .cmd, 0x20A, .volatile, [], false, 48, 48, false, 0, false⟩,
  ⟨"PROOF_STATE", 0x090301, 1, .blob, 0, 0, 40, .ro, 0x145, .kept, [], false, 40, 40, false, 0, false⟩,
  ⟨"PROOF_RATE", 0x090302, 1, .u32, 0, 0, 4, .rw, 0x347, .stored, [1000000], true, 1000, 100000000, false, 0, false⟩,
  ⟨"LEARN_PORT_CFG", 0x090400, 1036, .blob, 0, 0, 8, .rw, 0x347, .stored, [], true, 8, 8, true, 0, false⟩,
  ⟨"LEARN_PORT_STAT", 0x090900, 1036, .blob, 0, 0, 16, .ro, 0x145, .volatile, [], false, 16, 16, false, 0, false⟩]

/-- Objects of area 0A. -/
def objsArea0A : List Obj := [
  ⟨"KEY_SLOTS_KEYED", 0x0A0000, 1, .u32, 6, 6, 4, .ro, 0x145, .volatile, [0], true, 0, 4294967295, false, 0, false⟩,
  ⟨"KEY_RESIDENT_MISSES", 0x0A0001, 1, .u64, 4, 4, 8, .rc, 0x145, .kept, [0], true, 0, 18446744073709551615, false, 0, false⟩,
  ⟨"MASK_STARVE_LIMIT", 0x0A0003, 1, .u16, 0, 0, 2, .rw, 0x107, .stored, [100], true, 10, 10000, false, 0, false⟩,
  ⟨"RNG_STATE", 0x0A0004, 1, .enum8, 0, 0, 1, .ro, 0x145, .volatile, [0], true, 0, 0, false, 0, false⟩,
  ⟨"BURIN_INLINE_DROPS", 0x0A0010, 1, .u64, 12, 12, 8, .rc, 0x145, .kept, [0], true, 0, 18446744073709551615, false, 0, false⟩,
  ⟨"BURIN_LOOKASIDE_FAILS", 0x0A0011, 1, .u64, 12, 12, 8, .rc, 0x145, .kept, [0], true, 0, 18446744073709551615, false, 0, false⟩,
  ⟨"KEY_WIN_REFUSALS", 0x0A0012, 1, .u32, 10, 10, 4, .rc, 0x145, .kept, [0], true, 0, 4294967295, false, 0, false⟩,
  ⟨"SA_DEVICE_EVENT", 0x0A0020, 1, .blob, 0, 0, 16, .ro, 0x141, .volatile, [], false, 16, 16, false, 0, true⟩,
  ⟨"SA_CMD", 0x0A0100, 1, .blob, 0, 0, 128, .cmd, 0x20A, .volatile, [], false, 128, 128, false, 0, false⟩,
  ⟨"SA_COUNT", 0x0A0101, 1, .u32, 0, 0, 4, .ro, 0x145, .volatile, [0], true, 0, 4294967295, false, 0, false⟩,
  ⟨"KEY_CMD", 0x0A0110, 1, .blob, 0, 0, 88, .cmd, 0x202, .volatile, [], false, 88, 88, false, 2, false⟩,
  ⟨"LA_QUEUE_CMD", 0x0A0200, 1, .blob, 0, 0, 24, .cmd, 0x200, .volatile, [], false, 24, 24, false, 0, false⟩]

/-- Objects of area 0B. -/
def objsArea0B : List Obj := [
  ⟨"RDMA_QP_COUNT", 0x0B0000, 1, .u32, 4, 4, 4, .ro, 0x145, .volatile, [0], true, 0, 4294967295, false, 0, false⟩,
  ⟨"RDMA_RESIDENT", 0x0B0001, 1, .u16, 4, 4, 2, .ro, 0x145, .volatile, [0], true, 0, 65535, false, 0, false⟩,
  ⟨"RDMA_WQ_POOL", 0x0B0002, 1, .u32, 0, 0, 4, .rw, 0x107, .stored, [2048], true, 256, 32768, false, 0, false⟩,
  ⟨"RDMA_ASSEMBLY_POOL", 0x0B0003, 1, .u32, 0, 0, 4, .rw, 0x107, .stored, [512], true, 64, 4096, false, 0, false⟩,
  ⟨"LANE_OFFER", 0x0B0010, 1, .blob, 0, 0, 4, .ro, 0x155, .volatile, [], false, 4, 4, false, 0, false⟩,
  ⟨"LANE_MAX", 0x0B0011, 1, .u8, 0, 0, 1, .rw, 0x147, .stored, [8], true, 1, 8, false, 0, false⟩,
  ⟨"LANE_EPISODES", 0x0B0012, 1, .u8, 0, 0, 1, .rw, 0x347, .stored, [4], true, 2, 64, false, 0, false⟩,
  ⟨"LANE_READMIT", 0x0B0013, 1, .u16, 0, 0, 2, .rw, 0x347, .stored, [10], true, 1, 10000, false, 0, false⟩,
  ⟨"LANE_RTT_FACTOR", 0x0B0014, 1, .u8, 0, 0, 1, .rw, 0x347, .stored, [4], true, 2, 16, false, 0, false⟩,
  ⟨"RDMA_RX_DROPS", 0x0B0020, 1, .u64, 8, 8, 8, .rc, 0x145, .kept, [0], true, 0, 18446744073709551615, false, 0, false⟩,
  ⟨"RDMA_VIOLATIONS", 0x0B0021, 1, .u64, 7, 7, 8, .rc, 0x145, .kept, [0], true, 0, 18446744073709551615, false, 0, false⟩,
  ⟨"RDMA_DECISIONS", 0x0B0022, 1, .u64, 8, 8, 8, .rc, 0x145, .kept, [0], true, 0, 18446744073709551615, false, 0, false⟩,
  ⟨"RDMA_RETRANSMITS", 0x0B0023, 1, .u64, 4, 4, 8, .rc, 0x145, .kept, [0], true, 0, 18446744073709551615, false, 0, false⟩,
  ⟨"RDMA_CMD", 0x0B0100, 1, .blob, 0, 0, 128, .cmd, 0x22A, .volatile, [], false, 128, 128, false, 0, false⟩,
  ⟨"RATE_MIN", 0x0B0200, 1, .u32, 0, 0, 4, .rw, 0x347, .stored, [100], true, 10, 10000, false, 0, false⟩,
  ⟨"RATE_MAX", 0x0B0201, 1, .u32, 0, 0, 4, .rw, 0x347, .stored, [1600000], true, 1000, 1600000, false, 0, false⟩,
  ⟨"RTT_CEILING", 0x0B0202, 1, .u32, 0, 0, 4, .rw, 0x347, .stored, [50], true, 5, 10000, false, 0, false⟩,
  ⟨"RATE_GAIN_LOG2", 0x0B0203, 1, .u8, 0, 0, 1, .rw, 0x347, .stored, [8], true, 4, 12, false, 0, false⟩,
  ⟨"RATE_STEP", 0x0B0204, 1, .u32, 0, 0, 4, .rw, 0x347, .stored, [5000], true, 100, 100000, false, 0, false⟩,
  ⟨"CNP_INTERVAL", 0x0B0205, 1, .u16, 0, 0, 2, .rw, 0x347, .stored, [50], true, 1, 1000, false, 0, false⟩,
  ⟨"RATE_RECOVERY_PERIOD", 0x0B0206, 1, .u16, 0, 0, 2, .rw, 0x347, .stored, [40], true, 10, 1000, false, 0, false⟩]

/-- Objects of area 0C. -/
def objsArea0C : List Obj := [
  ⟨"NVME_PF_HOSTS", 0x0C0000, 1, .bits32, 0, 0, 4, .rw, 0x147, .stored, [10], true, 0, 15, false, 0, false⟩,
  ⟨"NVME_CTRL_READY", 0x0C0001, 1, .u16, 0, 0, 2, .ro, 0x145, .volatile, [0], true, 0, 65535, false, 0, false⟩,
  ⟨"NVME_IN_FLIGHT", 0x0C0002, 1, .u16, 0, 0, 2, .ro, 0x145, .volatile, [0], true, 0, 65535, false, 0, false⟩,
  ⟨"NVME_STATUS_COUNTS", 0x0C0010, 1, .u64, 7, 7, 8, .rc, 0x145, .kept, [0], true, 0, 18446744073709551615, false, 0, false⟩,
  ⟨"NVME_CPL_LOST", 0x0C0011, 1, .u64, 0, 0, 8, .rc, 0x145, .kept, [0], true, 0, 18446744073709551615, false, 0, false⟩,
  ⟨"NVME_DOORBELL_FAULTS", 0x0C0012, 1, .u32, 2, 2, 4, .rc, 0x145, .kept, [0], true, 0, 4294967295, false, 0, false⟩,
  ⟨"NVME_QUEUE_FAULTS", 0x0C0013, 1, .u32, 6, 6, 4, .rc, 0x145, .kept, [0], true, 0, 4294967295, false, 0, false⟩,
  ⟨"NS_ATTACH", 0x0C0020, 1, .blob, 0, 0, 16, .cmd, 0x20A, .volatile, [], false, 16, 16, false, 0, false⟩,
  ⟨"CTRL_CFG", 0x0C0400, 1028, .blob, 0, 0, 8, .rw, 0x347, .stored, [], true, 8, 8, true, 0, false⟩,
  ⟨"CTRL_STATE", 0x0C0900, 1028, .blob, 0, 0, 32, .ro, 0x145, .volatile, [], false, 32, 32, false, 0, false⟩,
  ⟨"NS_CMD", 0x0C1000, 1, .blob, 0, 0, 80, .cmd, 0x202, .volatile, [], false, 80, 80, false, 0, false⟩,
  ⟨"NS_COUNT", 0x0C1001, 1, .u16, 0, 0, 2, .ro, 0x145, .volatile, [0], true, 0, 65535, false, 0, false⟩,
  ⟨"STAGING_POOL", 0x0C1002, 1, .u32, 0, 0, 4, .rw, 0x107, .stored, [1024], true, 256, 16384, false, 0, false⟩,
  ⟨"BE_WAIT_LIMIT", 0x0C1003, 1, .u32, 0, 0, 4, .rw, 0x307, .stored, [30], true, 1, 3600, false, 0, false⟩,
  ⟨"BE_CMD", 0x0C1010, 1, .blob, 0, 0, 32, .cmd, 0x202, .volatile, [], false, 32, 32, false, 0, false⟩,
  ⟨"WIL_CFG", 0x0C1020, 1, .blob, 8, 8, 16, .rw, 0x307, .stored, [], true, 16, 16, true, 0, false⟩,
  ⟨"WIL_STATE", 0x0C1021, 1, .blob, 8, 8, 32, .ro, 0x145, .volatile, [], false, 32, 32, false, 0, false⟩,
  ⟨"STORE_COUNTS", 0x0C1030, 1, .u64, 6, 6, 8, .rc, 0x145, .kept, [0], true, 0, 18446744073709551615, false, 0, false⟩,
  ⟨"SEAL_VERIFY", 0x0C1040, 1, .blob, 0, 0, 16, .cmd, 0x20A, .volatile, [], false, 16, 16, false, 0, false⟩,
  ⟨"SEAL_VERIFY_STATE", 0x0C1041, 1, .blob, 0, 0, 48, .ro, 0x145, .kept, [], false, 48, 48, false, 0, false⟩,
  ⟨"SEAL_VERIFY_RATE", 0x0C1042, 1, .u32, 0, 0, 4, .rw, 0x347, .stored, [200], true, 10, 10000, false, 0, false⟩,
  ⟨"SEAL_EXPORT", 0x0C1050, 1, .blob, 0, 0, 16, .cmd, 0x20A, .volatile, [], false, 16, 16, false, 0, false⟩,
  ⟨"SEAL_EXPORT_DATA", 0x0C1051, 1, .blob, 0, 0, 1048736, .ro, 0x145, .volatile, [], true, 0, 1048736, false, 0, false⟩]

/-- Objects of area 0D. -/
def objsArea0D : List Obj := [
  ⟨"DS_SPLIT", 0x0D0000, 1, .enum8, 0, 0, 1, .rw, 0x147, .stored, [2], true, 0, 15, false, 0, false⟩,
  ⟨"DS_RATE_CEILING", 0x0D0001, 1, .enum8, 8, 8, 1, .rw, 0x347, .stored, [5], true, 0, 62, false, 0, false⟩,
  ⟨"DS_REFCLK_MODE", 0x0D0002, 1, .enum8, 8, 8, 1, .rw, 0x347, .stored, [0], true, 0, 3, false, 0, false⟩,
  ⟨"DS_CPL_TIMEOUT", 0x0D0003, 1, .u16, 0, 0, 2, .rw, 0x347, .stored, [50], true, 1, 1000, false, 0, false⟩,
  ⟨"SLOT_POWER_LIMIT", 0x0D0010, 1, .u8, 8, 8, 1, .rw, 0x347, .stored, [25], true, 0, 75, false, 0, false⟩,
  ⟨"SLOT_IRQ_THREAD", 0x0D0011, 1, .u16, 8, 8, 2, .rw, 0x301, .volatile, [0], true, 0, 1023, false, 0, false⟩,
  ⟨"SLOT_PWR_SETTLE", 0x0D0012, 1, .u16, 0, 0, 2, .rw, 0x347, .stored, [100], true, 100, 1000, false, 0, false⟩,
  ⟨"SLOT_PWR_OFF_WAIT", 0x0D0013, 1, .u16, 0, 0, 2, .rw, 0x347, .stored, [1000], true, 100, 5000, false, 0, false⟩,
  ⟨"SLOT_BUTTON_ENABLE", 0x0D0014, 1, .bits32, 0, 0, 4, .rw, 0x347, .stored, [255], true, 0, 255, false, 0, false⟩,
  ⟨"SLOT_AUTO_POWER", 0x0D0015, 1, .bits32, 0, 0, 4, .rw, 0x347, .stored, [255], true, 0, 255, false, 0, false⟩,
  ⟨"SLOT_STATE", 0x0D0020, 1, .blob, 8, 8, 8, .ro, 0x145, .volatile, [], false, 8, 8, false, 0, false⟩,
  ⟨"SLOT_COUNTS", 0x0D0030, 1, .u64, 7, 7, 8, .rc, 0x145, .kept, [0], true, 0, 18446744073709551615, false, 0, false⟩,
  ⟨"SLOT_CMD", 0x0D0100, 1, .blob, 0, 0, 4, .cmd, 0x202, .volatile, [], false, 4, 4, false, 0, false⟩]

/-- Objects of area 0E. -/
def objsArea0E : List Obj := [
  ⟨"CELL_THREAD_STATES", 0x0E0000, 1, .bits32, 128, 128, 4, .ro, 0x145, .volatile, [], false, 0, 4294967295, false, 0, false⟩,
  ⟨"CELL_CE_COUNTS", 0x0E0001, 1, .u32, 128, 128, 4, .rc, 0x145, .kept, [0], true, 0, 4294967295, false, 0, false⟩,
  ⟨"CELL_PUNT_FREED", 0x0E0002, 1, .u64, 0, 0, 8, .rc, 0x145, .kept, [0], true, 0, 18446744073709551615, false, 0, false⟩,
  ⟨"BW_RECORD_COUNTS", 0x0E0003, 1, .u32, 5, 5, 4, .rc, 0x145, .kept, [0], true, 0, 4294967295, false, 0, false⟩,
  ⟨"CELL_WDOG_PERIOD", 0x0E0010, 1, .u32, 0, 0, 4, .rw, 0x307, .stored, [100000], true, 1000, 1000000, true, 0, false⟩,
  ⟨"CELL_RESET_VECTOR", 0x0E0011, 1, .u64, 0, 0, 8, .rw, 0x301, .volatile, [], true, 0, 18446744073709551615, false, 0, false⟩,
  ⟨"BLOCK_CACHE_SIZE", 0x0E0012, 1, .enum8, 16, 16, 1, .rw, 0x347, .stored, [2], true, 0, 31, false, 0, false⟩,
  ⟨"CELL_RESET", 0x0E0020, 1, .u8, 0, 0, 1, .cmd, 0x202, .volatile, [], false, 0, 127, false, 0, false⟩,
  ⟨"LE_RECORD_COUNTS", 0x0E0100, 1, .u32, 5, 5, 4, .rc, 0x145, .kept, [0], true, 0, 4294967295, false, 0, false⟩,
  ⟨"LE_ABANDONED", 0x0E0101, 1, .u32, 16, 16, 4, .rc, 0x145, .kept, [0], true, 0, 4294967295, false, 0, false⟩,
  ⟨"LE_CH_BROKEN", 0x0E0102, 1, .u32, 16, 16, 4, .rc, 0x145, .kept, [0], true, 0, 4294967295, false, 0, false⟩,
  ⟨"LE_WAIT_TIMEOUTS", 0x0E0103, 1, .u32, 16, 16, 4, .rc, 0x145, .kept, [0], true, 0, 4294967295, false, 0, false⟩,
  ⟨"ARB_ROUTER_WEIGHT", 0x0E0300, 1, .u8, 9, 9, 1, .rw, 0x107, .stored, [4, 4, 4, 4, 4, 6, 2, 4, 6], true, 1, 15, false, 0, false⟩,
  ⟨"ARB_MESH_WEIGHT", 0x0E0301, 1, .u8, 2, 2, 1, .rw, 0x107, .stored, [3, 1], true, 1, 15, false, 0, false⟩,
  ⟨"CONT_CELL_CE_LIMIT", 0x0E0400, 1, .u16, 0, 0, 2, .rw, 0x107, .stored, [64], true, 1, 65535, false, 0, false⟩,
  ⟨"CONT_RESET_LIMIT", 0x0E0401, 1, .u8, 4, 4, 1, .rw, 0x107, .stored, [3, 3, 3, 3], true, 1, 15, false, 0, false⟩,
  ⟨"CONT_RESET_WINDOW", 0x0E0402, 1, .u32, 4, 4, 4, .rw, 0x107, .stored, [10, 60, 600, 3600], true, 1, 86400, false, 0, false⟩,
  ⟨"CONT_BW_ACK_TIMEOUT", 0x0E0403, 1, .u32, 0, 0, 4, .rw, 0x107, .stored, [1000], true, 100, 100000, false, 0, false⟩,
  ⟨"CONT_RECORDS", 0x0E0410, 1, .blob, 64, 64, 32, .ro, 0x145, .kept, [], true, 32, 32, true, 0, true⟩,
  ⟨"CONT_STATE_CELL", 0x0E0411, 1, .bits32, 4, 4, 4, .ro, 0x145, .volatile, [0], true, 0, 4294967295, false, 0, false⟩,
  ⟨"CONT_STATE_BLOCK", 0x0E0412, 1, .bits32, 0, 0, 4, .ro, 0x145, .volatile, [0], true, 0, 4294967295, false, 0, false⟩,
  ⟨"CONT_STATE_REGION", 0x0E0413, 1, .bits32, 0, 0, 4, .ro, 0x145, .volatile, [0], true, 0, 4294967295, false, 0, false⟩,
  ⟨"CONT_REGION_RESET", 0x0E0420, 1, .u8, 0, 0, 1, .cmd, 0x002, .volatile, [], false, 0, 3, false, 0, false⟩,
  ⟨"CONT_BLOCK_RESET", 0x0E0421, 1, .u8, 0, 0, 1, .cmd, 0x002, .volatile, [], false, 0, 15, false, 0, false⟩,
  ⟨"CONT_RELEASE_STAGE0", 0x0E0422, 1, .u8, 0, 0, 1, .cmd, 0x002, .volatile, [], false, 1, 1, false, 0, false⟩]

/-- Objects of area 0F. -/
def objsArea0F : List Obj := [
  ⟨"DMA_BUS_ERRORS", 0x0F0000, 1, .u32, 4, 4, 4, .rc, 0x145, .kept, [0], true, 0, 4294967295, false, 0, false⟩,
  ⟨"DMA_DESCRIPTORS", 0x0F0001, 1, .u64, 4, 4, 8, .rc, 0x145, .kept, [0], true, 0, 18446744073709551615, false, 0, false⟩,
  ⟨"DMA_REQ_OVERFLOWS", 0x0F0002, 1, .u32, 4, 4, 4, .rc, 0x145, .kept, [0], true, 0, 4294967295, false, 0, false⟩,
  ⟨"DMA_LAST_ERROR", 0x0F0003, 1, .blob, 4, 4, 24, .ro, 0x145, .kept, [], false, 24, 24, false, 0, false⟩]

/-- Objects of area 10. -/
def objsArea10 : List Obj := [
  ⟨"MEM_CONFIG", 0x100000, 1, .blob, 0, 0, 16, .ro, 0x145, .volatile, [], false, 16, 16, false, 0, false⟩,
  ⟨"MEM_RATE", 0x100001, 1, .enum8, 0, 0, 1, .rw, 0x147, .stored, [0], true, 0, 7, false, 0, false⟩,
  ⟨"MEM_STATE", 0x100002, 1, .enum8, 0, 0, 1, .ro, 0x145, .volatile, [0], true, 0, 0, false, 0, false⟩,
  ⟨"MEM_ERR_COUNTS", 0x100010, 1, .u64, 7, 7, 8, .rc, 0x145, .kept, [0], true, 0, 18446744073709551615, false, 0, false⟩,
  ⟨"MEM_DEVICE_CE", 0x100011, 1, .u32, 160, 160, 4, .rc, 0x145, .kept, [0], true, 0, 4294967295, false, 0, false⟩,
  ⟨"MEM_TRANSLATE", 0x100020, 1, .u64, 0, 0, 8, .cmd, 0x202, .volatile, [], false, 0, 18446744073709551615, false, 0, false⟩,
  ⟨"MEM_FAIL_THRESHOLD", 0x100030, 1, .u32, 0, 0, 4, .rw, 0x347, .stored, [4096], true, 16, 1000000, true, 0, false⟩,
  ⟨"MEM_FAILED_DEVICES", 0x100031, 1, .u8, 16, 16, 1, .ro, 0x145, .stored, [255], true, 0, 255, false, 0, false⟩,
  ⟨"MEM_DEVICE_CMD", 0x100032, 1, .blob, 0, 0, 4, .cmd, 0x202, .volatile, [], false, 4, 4, false, 2, false⟩,
  ⟨"MEM_ERR_LOG", 0x100040, 1, .blob, 64, 64, 32, .ro, 0x145, .kept, [], true, 32, 32, true, 0, false⟩,
  ⟨"MEM_LAST_EVENT", 0x100041, 1, .blob, 0, 0, 40, .ro, 0x145, .volatile, [], false, 40, 40, false, 0, true⟩,
  ⟨"SRAM_CE_COUNTS", 0x100050, 1, .u64, 6, 6, 8, .rc, 0x145, .kept, [0], true, 0, 18446744073709551615, false, 0, false⟩,
  ⟨"SRAM_UE_COUNTS", 0x100051, 1, .u64, 6, 6, 8, .rc, 0x145, .kept, [0], true, 0, 18446744073709551615, false, 0, false⟩,
  ⟨"PKTBUF_UE_DROPS", 0x100052, 1, .u64, 0, 0, 8, .rc, 0x145, .kept, [0], true, 0, 18446744073709551615, false, 0, false⟩,
  ⟨"SRAM_PATROL_PERIOD", 0x100053, 1, .u8, 0, 0, 1, .rw, 0x347, .stored, [24], true, 1, 168, false, 0, false⟩,
  ⟨"SCRUB_CMD", 0x100100, 1, .blob, 0, 0, 32, .cmd, 0x202, .volatile, [], false, 32, 32, false, 0, false⟩,
  ⟨"SCRUB_SUMMARY", 0x100101, 1, .blob, 0, 0, 736, .ro, 0x145, .kept, [], false, 736, 736, false, 0, false⟩,
  ⟨"SCRUB_RATE_MIN", 0x100102, 1, .u32, 0, 0, 4, .rw, 0x347, .stored, [100], true, 10, 10000, false, 0, false⟩,
  ⟨"SCRUB_RATE_MAX", 0x100103, 1, .u32, 0, 0, 4, .rw, 0x347, .stored, [2000], true, 10, 10000, false, 0, false⟩,
  ⟨"SCRUB_RATE_NOW", 0x100104, 1, .u32, 0, 0, 4, .ro, 0x145, .volatile, [], false, 0, 4294967295, false, 0, false⟩,
  ⟨"ECC_TEST_CMD", 0x100110, 1, .blob, 0, 0, 96, .cmd, 0x202, .volatile, [], false, 96, 96, false, 2, false⟩,
  ⟨"ECC_TEST_ENABLE", 0x100111, 1, .bool, 0, 0, 1, .rw, 0x147, .volatile, [0], true, 0, 1, false, 1, false⟩]

/-- Objects of area 11. -/
def objsArea11 : List Obj := [
  ⟨"DOM_DEVICE_ID", 0x110000, 1, .u16, 0, 0, 2, .rw, 0x147, .stored, [0], true, 1, 65534, true, 0, false⟩,
  ⟨"DOM_ID", 0x110001, 1, .u32, 0, 0, 4, .rw, 0x147, .stored, [0], true, 0, 4294967295, false, 0, false⟩,
  ⟨"DOM_STATE", 0x110002, 1, .enum8, 0, 0, 1, .ro, 0x155, .volatile, [0], true, 0, 0, false, 0, false⟩,
  ⟨"DOM_DECISION", 0x110003, 1, .blob, 0, 0, 24, .ro, 0x145, .volatile, [], false, 24, 24, false, 0, false⟩,
  ⟨"DOM_HEAL_HOLD", 0x110004, 1, .u16, 0, 0, 2, .rw, 0x347, .stored, [100], true, 10, 10000, false, 0, false⟩,
  ⟨"DOM_LAST_EVENT", 0x110005, 1, .blob, 0, 0, 24, .ro, 0x145, .volatile, [], false, 24, 24, false, 0, true⟩,
  ⟨"DOM_PORTS", 0x110006, 1, .bits32, 0, 0, 4, .rw, 0x147, .stored, [255], true, 0, 255, false, 0, false⟩,
  ⟨"DOM_ETHERTYPE", 0x110007, 1, .u16, 0, 0, 2, .rw, 0x147, .stored, [34998], true, 1536, 65535, false, 0, false⟩,
  ⟨"DOM_GROUP_MAC", 0x110008, 1, .blob, 0, 0, 6, .rw, 0x147, .stored, [], true, 6, 6, true, 0, false⟩,
  ⟨"DOM_ROSTER_GRACE", 0x110009, 1, .u16, 0, 0, 2, .rw, 0x147, .stored, [60], true, 10, 3600, false, 0, false⟩,
  ⟨"DOM_ROSTER_STAGE", 0x110010, 1, .blob, 0, 0, 262136, .rw, 0x303, .volatile, [], true, 0, 262136, false, 2, false⟩,
  ⟨"DOM_ROSTER_COMMIT", 0x110011, 1, .blob, 0, 0, 8, .cmd, 0x202, .volatile, [], false, 8, 8, false, 2, false⟩,
  ⟨"DOM_ROSTER_INFO", 0x110012, 1, .blob, 0, 0, 16, .ro, 0x145, .stored, [], false, 16, 16, false, 0, false⟩,
  ⟨"DOM_ROSTER", 0x110013, 1, .blob, 0, 0, 262136, .ro, 0x145, .stored, [], true, 0, 262136, false, 0, false⟩,
  ⟨"DOM_PEER_QUERY", 0x110020, 1, .u16, 0, 0, 2, .cmd, 0x20A, .volatile, [], false, 1, 65534, false, 0, false⟩,
  ⟨"DOM_PEER_COUNTS", 0x110021, 1, .u32, 4, 4, 4, .ro, 0x145, .volatile, [0], true, 0, 4294967295, false, 0, false⟩,
  ⟨"DOM_COUNTS", 0x110030, 1, .u64, 10, 10, 8, .rc, 0x145, .kept, [0], true, 0, 18446744073709551615, false, 0, false⟩]

/-- Objects of area 12. -/
def objsArea12 : List Obj := [
  ⟨"JOURNAL", 0x120000, 1, .blob, 0, 0, 131088, .ro, 0x145, .kept, [], false, 131088, 131088, false, 0, false⟩,
  ⟨"JOURNAL_NEWEST", 0x120001, 1, .u64, 0, 0, 8, .ro, 0x145, .kept, [0], true, 0, 18446744073709551615, false, 0, false⟩,
  ⟨"JOURNAL_OVERWRITTEN", 0x120002, 1, .u64, 0, 0, 8, .rc, 0x145, .kept, [0], true, 0, 18446744073709551615, false, 0, false⟩,
  ⟨"JOURNAL_RATE", 0x120003, 1, .u32, 0, 0, 4, .rw, 0x347, .stored, [1000], true, 10, 100000, false, 0, false⟩,
  ⟨"JOURNAL_LAST", 0x120004, 1, .blob, 0, 0, 40, .ro, 0x145, .volatile, [], false, 40, 40, false, 0, true⟩,
  ⟨"JOURNAL_SUPPRESSED", 0x120005, 1, .u64, 0, 0, 8, .rc, 0x145, .kept, [0], true, 0, 18446744073709551615, false, 0, false⟩,
  ⟨"JOURNAL_CLEAR", 0x120006, 1, .u8, 0, 0, 1, .cmd, 0x202, .volatile, [], false, 1, 1, false, 2, false⟩,
  ⟨"VIOL_COUNT", 0x120101, 7, .u64, 7, 7, 8, .rc, 0x145, .kept, [0], true, 0, 18446744073709551615, false, 0, false⟩]

/-- Objects of area 13. -/
def objsArea13 : List Obj := [
  ⟨"DBG_STATE", 0x130000, 1, .blob, 0, 0, 16, .ro, 0x155, .kept, [], false, 16, 16, false, 0, false⟩,
  ⟨"DBG_UNLOCK", 0x130010, 1, .blob, 0, 0, 8, .cmd, 0x002, .volatile, [], false, 8, 8, false, 1, false⟩,
  ⟨"DBG_COMMAND", 0x130100, 1, .blob, 0, 0, 64, .cmd, 0x002, .volatile, [], false, 64, 64, false, 1, false⟩,
  ⟨"DBG_COUNTS", 0x130101, 1, .u32, 2, 2, 4, .rc, 0x145, .kept, [0], true, 0, 4294967295, false, 0, false⟩,
  ⟨"SERDES_TEST", 0x130200, 1, .blob, 0, 0, 8, .cmd, 0x202, .volatile, [], false, 8, 8, false, 0, false⟩,
  ⟨"SERDES_TEST_STATE", 0x130201, 1, .blob, 56, 56, 24, .ro, 0x145, .volatile, [], false, 24, 24, false, 0, false⟩]

/-- Objects of area 14. -/
def objsArea14 : List Obj := [
  ⟨"MODE_SNAPSHOT", 0x140000, 1, .blob, 0, 0, 32, .ro, 0x145, .volatile, [], false, 32, 32, false, 0, false⟩,
  ⟨"MODE_CHANGES", 0x140001, 1, .u32, 0, 0, 4, .rc, 0x145, .kept, [0], true, 0, 4294967295, false, 0, false⟩]

/-- Objects of area FF. -/
def objsAreaFF : List Obj := [
  ⟨"SD_LAYOUT", 0xFF0000, 1, .u16, 0, 0, 2, .ro, 0x155, .volatile, [1], true, 0, 65535, false, 0, false⟩,
  ⟨"SD_COUNT", 0xFF0001, 1, .u32, 0, 0, 4, .ro, 0x155, .volatile, [], false, 0, 4294967295, false, 0, false⟩,
  ⟨"SD_GENERATION", 0xFF0002, 1, .u32, 0, 0, 4, .ro, 0x155, .volatile, [1], true, 0, 4294967295, false, 0, false⟩,
  ⟨"SD_TABLE", 0xFF0010, 1, .blob, 0, 0, 33554448, .ro, 0x155, .volatile, [], false, 33554448, 33554448, false, 0, false⟩]

/-- The whole catalogue, in ascending index order. -/
def catalogue : List Obj :=
  objsArea00 ++ objsArea01 ++ objsArea02 ++ objsArea03 ++ objsArea04 ++ objsArea05 ++ objsArea06 ++ objsArea07 ++ objsArea08 ++ objsArea09 ++ objsArea0A ++ objsArea0B ++ objsArea0C ++ objsArea0D ++ objsArea0E ++ objsArea0F ++ objsArea10 ++ objsArea11 ++ objsArea12 ++ objsArea13 ++ objsArea14 ++ objsAreaFF

end Sys2Proof.Machine
end

