-- ==== Sys2Proof/Machine/Operands.lean ====
section
/-!
DEFINITION. The register file's operand side: which bits of each memory-mapped register are writable (RW), which are
cleared by writing one (W1C), and the reset values other than zero (R8, R9). Bits in neither mask discard what is
written (R7).
Choices of the model coded here, by entry of the assumption log: DESIGN CHOICE 8.
-/
namespace Sys2Proof.Machine

/-- Bits hi to lo set. -/
def mask (hi lo : Nat) : Word64 := BitVec.ofNat 64 ((2 ^ (hi + 1 - lo) - 1) * 2 ^ lo)

/-- The RW bits of a register. -/
def rwMask : RegName → Word64
  | .mboxStatus => 0
  | .mboxCfg => mask 26 16 ||| mask 0 0
  | .admSqBase => mask 63 12
  | .admCqBase => mask 63 12
  | .admCqCtlblk => mask 63 6
  | .admCfg => mask 26 16 ||| mask 11 8 ||| mask 3 0
  | .admCtrl => mask 1 1
  | .admStatus => 0
  | .peerOffset => mask 35 12
  | .peerTarget => mask 47 12
  | .peerCtrl => mask 23 20 ||| mask 13 8 ||| mask 5 4 ||| mask 2 0
  | .peerStatus => 0
  | .pipeLoadAddr => mask 63 6
  | .pipeLoadLen => mask 26 0
  | .pipeLoadStatus => 0
  | .pipeLoadDetail => 0
  | .pipePlateStatus => 0
  | .pipePlateInfo => 0
  | .pipePinMask => mask 3 0
  | .pipePinStatus => 0
  | .tblCmdAddr => mask 63 7
  | .tblCmdLen => mask 24 0
  | .tblCmdStatus => 0
  | .tblCmdProgress => 0
  | .keyWinSlot => mask 17 0
  | .keyWinTarget => mask 15 0
  | .keyWinCtrl => mask 15 12 ||| mask 9 8
  | .keyWinKek => mask 17 0
  | .keyWinStatus => 0
  | .keyWinCheck => 0
  | .keyWinFill => 0
  | .nvCc => mask 23 4 ||| mask 0 0
  | .nvAqa => mask 27 16 ||| mask 11 0
  | .nvAsq => mask 63 12
  | .nvAcq => mask 63 12
  | .nvCsts => 0

/-- The W1C bits of a register. -/
def w1cMask : RegName → Word64
  | .mboxStatus => mask 3 1
  | .peerStatus => mask 2 2
  | .pipeLoadStatus => mask 3 1
  | .pipePlateInfo => mask 3 3
  | .pipePinStatus => mask 1 1
  | .tblCmdStatus => mask 3 1
  | .keyWinStatus => mask 3 1
  | _ => 0

/-- The reset value of a register, zero unless its chapter says otherwise. -/
def regInit : RegName → Word64
  | .pipePlateStatus => 5
  | .pipePinMask => 15
  | .keyWinTarget => 0xFFFF
  | _ => 0

/-- The key of a register in the register file. -/
def regKey (n : RegName) (u : Nat) : Nat := n.ctorIdx * 2 ^ 32 + u

/-- The value of a register. -/
def regGet (n : RegName) (u : Nat) (io : Io) : Word64 := mgetD io.regs (regKey n u) (regInit n)

/-- The register file with a new value in one register. -/
def regSet (n : RegName) (u : Nat) (v : Word64) (io : Io) : Io :=
  { io with regs := mput io.regs (regKey n u) v }

/-- A field of a register as a number. -/
def regField (n : RegName) (u hi lo : Nat) (io : Io) : Nat := bits (regGet n u io).toNat hi lo

/-- Writing a field of a register from inside the Kwaith. -/
def regPut (n : RegName) (u hi lo v : Nat) (io : Io) : Io :=
  regSet n u ((regGet n u io &&& ~~~(mask hi lo)) ||| (BitVec.ofNat 64 (v % 2 ^ (hi + 1 - lo)) <<< lo)) io

end Sys2Proof.Machine
end

