-- ==== Sys2Proof/Machine/Flags.lean ====
section
/-!
DEFINITION. Status bits of registers: setting and clearing one from inside, and what a write from outside does to a
register (R9, R10).
Choices of the model coded here, by entry of the assumption log: DEDUCED 87.
-/
namespace Sys2Proof.Machine

/-- Bit `k` of a register. -/
def regBit (n : RegName) (u k : Nat) (io : Io) : Bool := (regGet n u io).getLsbD k

/-- Setting bit `k` of a register. -/
def regOn (n : RegName) (u k : Nat) (io : Io) : Io := regSet n u (regGet n u io ||| mask k k) io

/-- Clearing bit `k` of a register. -/
def regOff (n : RegName) (u k : Nat) (io : Io) : Io := regSet n u (regGet n u io &&& ~~~(mask k k)) io

/-- R9: what a write of `v` leaves in a register that held `old`: RW bits take the written bits, W1C bits written as
one clear, every other bit keeps its value. -/
def written (n : RegName) (old v : Word64) : Word64 :=
  ((old &&& ~~~(rwMask n)) ||| (v &&& (rwMask n))) &&& ~~~(v &&& (w1cMask n))

/-- A write of a register from outside. -/
def regWrite (n : RegName) (u : Nat) (v : Word64) (io : Io) : Io := regSet n u (written n (regGet n u io) v) io

/-- Registers of a unit back at their reset values. -/
def regReset (ns : List RegName) (u : Nat) (io : Io) : Io :=
  { io with regs := io.regs.filter (fun p => !(ns.any (fun n => p.1 == regKey n u))) }

/-- Registers of every unit back at their reset values. -/
def regResetAll (ns : List RegName) (io : Io) : Io :=
  { io with regs := io.regs.filter (fun p => !(ns.any (fun n => p.1 / 2 ^ 32 == n.ctorIdx))) }

end Sys2Proof.Machine
end

