-- ==== Sys2Proof/Machine/Ops.lean ====
section
/-!
DEFINITION. The operations every unit shares: sending, free values, dictionary values and counters with their
notifications (R114 to R116), MSI-X (R148), completion rings and interrupts (R199 to R206), asynchronous events (R215),
the journal (R561 to R568), and time.
Choices of the model coded here, by entry of the assumption log: DESIGN CHOICE 2, 5, 8, 10, 16, 31, 34, 35, 46, 85, 88, 90;
DEDUCED 21, 29, 30, 32, 37, 81, 83, 84; PRESUMED 91.
-/
namespace Sys2Proof.Machine

/-- A change of the reporting side of the machine. -/
def on (f : Io → Io) (s : State) : State := { s with io := f s.io }

/-- Something leaves the block. -/
def emit (x : Sent) (io : Io) : Io := { io with sent := x :: io.sent }

/-- The next free value, as a number below 2^64, and the state that has used it. -/
def freeNat (io : Io) : Nat × Io := ((Config.freeValue io.free).toNat, { io with free := io.free + 1 })

/-- The base MAC address (00:0008) in transmission order. -/
def baseMac : Bytes := be 6 Config.macFuse.toNat

/-- The serial number (00:0007). -/
def serialNo : Nat := Config.serialFuse.toNat

/-! ### Time -/

/-- Microseconds, milliseconds and seconds in nanoseconds. -/
def us (n : Nat) : Nat := n * 1000
def ms (n : Nat) : Nat := n * 1000000
def sec (n : Nat) : Nat := n * 1000000000

/-- TIME64 of now (R11). -/
def time64 (io : Io) : Nat := io.timeBase.toNat

/-- R223: `d` nanoseconds pass; the time base gains what the trim of 07:0020, in parts per trillion, adds. -/
def advance (d : Nat) (io : Io) : Io :=
  let trim := toSigned 32 (match mget io.dic (0x070020 * 256) with | some (.num n) => n | _ => 0)
  let acc := io.trimAcc + trim * d
  { io with
    now := io.now + d, trimAcc := acc % 1000000000000,
    timeBase := io.timeBase + BitVec.ofNat 64 d + BitVec.ofInt 64 (acc / 1000000000000) }

/-- The instant `t` is reached: a command that is the expiry of a timer carries the clock there if nothing else has. -/
def reach (t : Nat) (io : Io) : Io := advance (t - io.now) io

/-- A timer started at `t0` with period `d` has expired. -/
def due (t0 d : Nat) (io : Io) : Bool := decide (t0 + d ≤ io.now)

/-! ### The catalogue -/

/-- The object at a 24-bit area and object number. -/
def objAt (k : Nat) : Option Obj := catalogue.find? (fun o => decide (o.index ≤ k) && decide (k < o.index + o.span))

/-- The object a 32-bit index names (R98). -/
def objOf (i : Nat) : Option Obj := objAt (i / 256)

/-- The 32-bit index of sub-index `sub` of an object. -/
def idx (obj sub : Nat) : Nat := obj * 256 + sub

/-- The default value of an element (R126 onward). -/
def dfltNat (o : Obj) (sub : Nat) : Nat :=
  match o.dflt with
  | [] => 0
  | d :: ds => ((d :: ds)[sub - 1]?).getD ((d :: ds).getLast (by simp))

/-- Whether values of a type are byte strings. -/
def Ty.isBytes : Ty → Bool
  | .str64 => true
  | .blob => true
  | _ => false

/-- Whether a type is signed. -/
def Ty.signed : Ty → Bool
  | .i8 => true
  | .i16 => true
  | .i32 => true
  | .i64 => true
  | _ => false

/-- R98: type codes. -/
def Ty.code : Ty → Nat
  | .bool => 1 | .u8 => 2 | .u16 => 3 | .u32 => 4 | .u64 => 5 | .i8 => 6 | .i16 => 7 | .i32 => 8 | .i64 => 9
  | .bits32 => 10 | .enum8 => 11 | .time64 => 12 | .str64 => 13 | .blob => 14

/-! ### Dictionary values -/

/-- A numeric dictionary value; `d` where none is held. -/
def dget (io : Io) (i d : Nat) : Nat :=
  match mget io.dic i with
  | some (.num n) => n
  | _ => d

/-- A byte-string dictionary value; empty where none is held. -/
def dgetB (io : Io) (i : Nat) : Bytes :=
  match mget io.dic i with
  | some (.str b) => b
  | _ => []

/-- R96: the principal a binding speaks for (R14). -/
def principalOf : Binding → Principal
  | .pfMailbox => .h
  | .vfMailbox => .v
  | .mctpI3c => .m
  | .mctpVdm => .m
  | .mgmtEth => .m
  | .uart0 => .m
  | .fabric => .p
  | .fwPort => .f

/-- R96 order of the bindings, from 1. -/
def bindingNo : Binding → Nat
  | .pfMailbox => 1
  | .vfMailbox => 2
  | .mctpI3c => 3
  | .mctpVdm => 4
  | .mgmtEth => 5
  | .uart0 => 6
  | .fabric => 7
  | .fwPort => 8

/-! ### VFs (R172 to R174, R183) -/

/-- VF `n`. -/
def vfAt (io : Io) (n : Nat) : VfState := mgetD io.vf.vfs n VfState.reset

/-- Storing a VF. -/
def vfPut (n : Nat) (v : VfState) (io : Io) : Io := { io with vf := { io.vf with vfs := mput io.vf.vfs n v } }

/-- R172, R174: whether a function is a VF that takes no work: in a migration state other than RUNNING, or in FLR. -/
def frozen (io : Io) (fn : Nat) : Bool :=
  decide (16 ≤ fn) && ((vfAt io (fn - 16)).state != .running || (vfAt io (fn - 16)).inFlr)

/-- A VF has created a queue, QP or region, or used its mailbox (R172). -/
def notFresh (fn : Nat) (io : Io) : Io :=
  if 16 ≤ fn then vfPut (fn - 16) { vfAt io (fn - 16) with fresh := false } io else io

/-- R183: the bits of a tracked range that a write of `n` bytes at `a` sets. -/
def dirtyBits (t : Track) (a n : Nat) : List Nat :=
  let lo := max a t.base
  let hi := min (a + n) (t.base + t.len)
  if lo < hi then span ((lo - t.base) / t.granule) ((hi - 1 - t.base) / t.granule + 1 - (lo - t.base) / t.granule) else []

/-- A posted write into host memory by a function, recorded where the function is a tracked VF. -/
def hostWrite (fn a : Nat) (bs : Bytes) (io : Io) : Io :=
  let io1 := emit (.hostWrite fn a bs) io
  if fn < 16 then io1
  else
    match (vfAt io1 (fn - 16)).track with
    | none => io1
    | some t =>
      let t' := { t with live := (dirtyBits t a bs.length).foldl sadd t.live }
      vfPut (fn - 16) { vfAt io1 (fn - 16) with track := some t' } io1

/-! ### MSI-X (R148, R174) -/

/-- Configuration of a function instance. -/
def fnCfg (io : Io) (fn : Nat) : FnCfg := mgetD io.host.fns fn FnCfg.reset

/-- Storing the configuration of a function instance. -/
def fnPut (fn : Nat) (c : FnCfg) (io : Io) : Io := { io with host := { io.host with fns := mput io.host.fns fn c } }

/-- Message address and data of a vector. -/
def messageOf (c : FnCfg) (v : Nat) : Word64 × Word32 := mgetD c.messages v (0, 0)

/-- The message of vector `v` leaves. -/
def msixSend (fn v : Nat) (io : Io) : Io :=
  let m := messageOf (fnCfg io fn) v
  emit (.msix fn v m.1 m.2) io

/-- A message of vector `v` of a function is raised: sent where MSI-X is enabled and unmasked, pending where masked or
where the function is a frozen VF. -/
def msix (fn v : Nat) (io : Io) : Io :=
  let c := fnCfg io fn
  if c.msix && !c.fmask && c.unmasked.contains v && !frozen io fn then msixSend fn v io
  else fnPut fn { c with pending := sadd c.pending v } io

/-! ### Notifications (R114 to R116) -/

/-- The mailbox number of an association that has a notification buffer: mailboxes and firmware ports. -/
def mboxOf (k : AssocKey) : Option Nat :=
  match k.binding with
  | .pfMailbox => some k.key
  | .vfMailbox => some k.key
  | .fwPort => some (2000 + k.key)
  | _ => none

/-- The empty mailbox. -/
def Mbox.reset : Mbox := { request := [], response := [], notice := [], held := false }

/-- Bytes of a value of a type (R11, R98). -/
def Ty.width : Ty → Nat
  | .bool => 1 | .u8 => 1 | .u16 => 2 | .u32 => 4 | .u64 => 8 | .i8 => 1 | .i16 => 2 | .i32 => 4 | .i64 => 8
  | .bits32 => 4 | .enum8 => 1 | .time64 => 8 | .str64 => 64 | .blob => 0

/-- R98: the type of an index: of a scalar, an element, or the U8 count of an array. -/
def typeAt (i : Nat) : Ty :=
  match objOf i with
  | none => .blob
  | some o => if o.elems ≠ 0 && i % 256 = 0 then .u8 else o.ty

/-- R11: a value as it is encoded. -/
def valBytes (i : Nat) : Val → Bytes
  | .num n => le (typeAt i).width n
  | .str b => if typeAt i = .str64 then padTo 64 b else b

/-- R98: an item, its value padded to a multiple of 4 bytes. -/
def itemBytes (x : OaRItem) : Bytes :=
  le 4 x.index ++ le 1 x.ty ++ le 1 x.status ++ le 2 x.value.length ++ padTo ((x.value.length + 3) / 4 * 4) x.value

/-- R97, R100: a NOTIFY or CMD_DONE frame with its sequence number and lost count. -/
def noteBytes (version seq lost : Nat) (n : Note) : Bytes :=
  let frame (op items : Nat) (body : Bytes) : Bytes :=
    le 1 version ++ le 1 op ++ le 1 2 ++ le 1 0 ++ le 2 seq ++ le 2 items ++ le 4 body.length ++ le 4 0 ++ body
  match n with
  | .notify l t =>
    frame 0x22 l.length (le 4 lost ++ le 8 t ++ l.flatMap (fun x =>
      itemBytes { index := x.1, ty := (typeAt x.1).code, status := 0, value := valBytes x.1 x.2 }))
  | .cmdDone tag i st res =>
    frame 0x23 1 (le 2 tag ++ le 2 0 ++ itemBytes { index := i, ty := (typeAt i).code, status := st, value := res })

/-- The mailbox raises its vector on DONE or NOTIFY where IRQ_EN is set (R112); a firmware port adds 1 to the event counter
its vector names (R439), which arrives later (R461). -/
def mboxIrq (n : Nat) (io : Io) : Io :=
  if !regBit .mboxCfg n 0 io then io
  else if n < 2000 then msix n (regField .mboxCfg n 26 16 io) io
  else { io with evAdds := io.evAdds ++ [(n - 2000, regField .mboxCfg n 26 16 io)] }

/-- R96, R111: the key of the association a request belongs to: over MCTP a session stays within its endpoint ID's. -/
def assocId (k : AssocKey) : AssocKey :=
  if k.binding = .mctpI3c ∨ k.binding = .mctpVdm then { k with session := none } else k

/-- A NOTIFY or CMD_DONE leaves on an association: it takes the sequence number and the lost count (R116). -/
def noteOut (a : Assoc) (n : Note) (io : Io) : Io :=
  let a' := { a with seq := a.seq + 1, lost := 0 }
  let io1 := { io with oa := { io.oa with assocs := io.oa.assocs.map (fun x => if x.key = a.key then a' else x) } }
  match mboxOf a.key with
  | none =>
    let io2 := if a.key.binding = .fabric then
        { io1 with oa := { io1.oa with fabricOut := io1.oa.fabricOut ++ [(a.key.key, noteBytes a.version a.seq.toNat a.lost n)] } }
      else io1
    emit (.oaNote a.key a.seq.toNat a.lost n) io2
  | some m =>
    let b := mgetD io1.oa.mboxes m Mbox.reset
    let x : Mbox := { b with notice := noteBytes a.version a.seq.toNat a.lost n, held := true }
    let io2 := { io1 with oa := { io1.oa with mboxes := mput io1.oa.mboxes m x } }
    mboxIrq m (regOn .mboxStatus m 3 (emit (.oaNote a.key a.seq.toNat a.lost n) io2))

/-- The association under a key. -/
def assocOf (io : Io) (k : AssocKey) : Option Assoc := io.oa.assocs.find? (fun a => a.key = assocId k)

/-- R116: a notification for an association. A mailbox or firmware port whose buffer holds one queues it, at most 64,
the oldest discarded and counted in 01:0113. -/
def sendNote (k : AssocKey) (n : Note) (io : Io) : Io :=
  match assocOf io k with
  | none => io
  | some a =>
    let full := match mboxOf k with
      | none => false
      | some m => (mgetD io.oa.mboxes m Mbox.reset).held || !a.queue.isEmpty
    if !full then noteOut a n io
    else if a.queue.length < 64 then
      { io with oa := { io.oa with assocs := io.oa.assocs.map (fun x =>
          if x.key = a.key then { x with queue := x.queue ++ [n] } else x) } }
    else
      { io with
        oa := { io.oa with assocs := io.oa.assocs.map (fun x =>
          if x.key = a.key then { x with queue := x.queue.drop 1 ++ [n], lost := x.lost + 1 } else x) }
        dic := mput io.dic (idx 0x010113 0) (.num (satAdd 32 (dget io (idx 0x010113 0) 0) 1)) }

/-- Elements an array has now: its count where it is writable, else its fixed count (R98). -/
def countOf (io : Io) (o : Obj) (obj : Nat) : Nat := if o.minElems < o.elems then dget io (idx obj 0) o.minElems else o.elems

/-- The value an index holds in the dictionary or by default; none where it has none yet (NOT_READY). -/
def heldVal (io : Io) (o : Obj) (i : Nat) : Option Val :=
  if o.elems ≠ 0 && i % 256 = 0 then some (.num (countOf io o (i / 256)))
  else
    match mget io.dic i with
    | some v => some v
    | none => if !o.hasDflt then none else if o.ty.isBytes then some (.str []) else some (.num (dfltNat o (i % 256)))

/-- What a notification of index `i` carries (R114): its value, or an array's count and elements; `v` stands for the value of
index `j`. -/
def noteItems (i j : Nat) (v : Val) (io : Io) : List (Nat × Val) :=
  match objOf i with
  | none => []
  | some o =>
    if o.elems ≠ 0 && i % 256 = 0 then
      (span i (countOf io o (i / 256) + 1)).filterMap (fun k => (if k = j then some v else heldVal io o k).map (fun x => (k, x)))
    else [(i, v)]

/-- A subscription's object has changed and now reads as `l` (R114): it is notified, or waits until its spacing has passed. -/
def subNotify (l : List (Nat × Val)) (x : Sub) (io : Io) : Io :=
  let put (f : Sub → Sub) : Io := { io with oa := { io.oa with subs := io.oa.subs.map (fun y => if y.id = x.id then f y else y) } }
  let wait := match x.sentAt with
    | some t => decide (io.now < t + ms x.interval)
    | none => false
  if wait then put (fun y => { y with waiting := true })
  else sendNote x.assoc (.notify l (time64 io)) (put (fun y => { y with sentAt := some io.now, waiting := false }))

/-- One subscription meets a change of index `j` to `v`. -/
def subChange (j : Nat) (v : Val) (x : Sub) (io : Io) : Io := subNotify (noteItems x.index j v io) x io

/-- R115: every negotiated M association receives the built-in NOTIFY of a change. -/
def builtinNote (i : Nat) (v : Val) (io : Io) : Io :=
  (io.oa.assocs.filter (fun a => decide (a.version ≠ 0) && (principalOf a.key.binding == .m))).foldl
    (fun io a => sendNote a.key (.notify [(i, v)] (time64 io)) io) io

/-- Object `i` has changed to `v`: on-change subscriptions are notified (R114). -/
def changed (i : Nat) (v : Val) (io : Io) : Io :=
  (io.oa.subs.filter (fun x => x.mode == 1 && (x.index == i || x.index == i / 256 * 256))).foldl
    (fun io x => subChange i v x io) io

/-- Whether index `i` already holds `v`. -/
def holdsVal (io : Io) (i : Nat) (v : Val) : Bool :=
  match objOf i with
  | none => false
  | some o => heldVal io o i == some v

/-- Setting a value from inside; a change of it is notified. -/
def dsetV (i : Nat) (v : Val) (io : Io) : Io :=
  let io1 : Io := { io with dic := mput io.dic i v }
  if !io.oa.subs.isEmpty && holdsVal io i v then io1 else changed i v io1

/-- Setting a numeric value from inside. -/
def dset (i n : Nat) (io : Io) : Io := dsetV i (.num n) io

/-- Setting a byte-string value from inside. -/
def dsetB (i : Nat) (b : Bytes) (io : Io) : Io := dsetV i (.str b) io

/-- Setting an object that carries the built-in notification to M (R115). -/
def dsetM (i : Nat) (b : Bytes) (io : Io) : Io := builtinNote i (.str b) (dsetB i b io)

/-- Adding `k` to a counter of `w` bits, which saturates. -/
def bumpBy (w i k : Nat) (io : Io) : Io := dset i (satAdd w (dget io i 0) k) io

/-- Adding one to a 64-bit counter object: element `sub` of `obj`. -/
def bump64 (obj sub : Nat) (io : Io) : Io := bumpBy 64 (idx obj sub) 1 io

/-- Adding one to a 32-bit counter object. -/
def bump32 (obj sub : Nat) (io : Io) : Io := bumpBy 32 (idx obj sub) 1 io

/-! ### Mode changes (R560) -/

/-- 14:0001 counts a change of a byte of the mode snapshot. -/
def modeBump (old new : Nat) (io : Io) : Io := if old = new then io else bump32 0x140001 0 io

/-- Byte 0x01 of the snapshot: regions isolated and withdrawn. -/
def contBits (c : Cont) : Nat := maskOf c.regions + 16 * maskOf c.withdrawn

/-- Byte 0x00: the stage, HELD and RECOVERY. -/
def startBits (x : Start) : Nat := x.stage + 64 * b2n x.held + 128 * b2n x.recovery

/-- The containment state becomes `c`. -/
def contPut (c : Cont) (s : State) : State := on (modeBump (contBits s.cont) (contBits c)) { s with cont := c }

/-- The start state becomes `x`. -/
def startPut (x : Start) (s : State) : State := on (modeBump (startBits s.start) (startBits x)) { s with start := x }

/-! ### Errors the host sees (R163) -/

/-- A host-side error: counted in its element of 04:0040, and reported in the function's AER registers unless
`aer` is false. A second logged error before the host clears the first is a Header Log Overflow (element 3). -/
def hostError (element fn : Nat) (aer : Bool) (io : Io) : Io :=
  let io1 := bump32 0x040040 element io
  if !aer then io1
  else
    let c := fnCfg io1 fn
    let c' := { c with aer := sadd c.aer element, headerLogged := true }
    let io2 := { io1 with host := { io1.host with fns := mput io1.host.fns fn c' } }
    let io3 := emit (.aer element fn) io2
    if c.headerLogged then bump32 0x040040 3 io3 else io3

/-! ### Functions and links (R134 to R139) -/

/-- R166: TotalVFs of PF `p`; the VFs of a PF follow those of the PFs before it. -/
def vfTotal (io : Io) (p : Nat) : Nat := (io.vf.total[p]?).getD 0

/-- The PF of chip-wide VF `n`. -/
def pfOfVf (io : Io) (n : Nat) : Nat :=
  if n < vfTotal io 0 then 0
  else if n < vfTotal io 0 + vfTotal io 1 then 1
  else if n < vfTotal io 0 + vfTotal io 1 + vfTotal io 2 then 2 else 3

/-- The elements of 05:0010 that hold a run. A write that would change the runs of a PF whose VF Enable is 1 is refused
(R171), so these are the runs in force. -/
def vfRunList (io : Io) : List Bytes := ((span 1 32).map (fun k => dgetB io (idx 0x050010 k))).filter (fun b => !b.isEmpty)

/-- The runs of PF `p`. -/
def vfRuns (io : Io) (p : Nat) : List Bytes := (vfRunList io).filter (fun b => field b 0 1 == p)

/-- R169, R170: the run that covers VF `n`, if any. -/
def vfRun (io : Io) (n : Nat) : Option Bytes :=
  let p := pfOfVf io n
  let i := n - ((List.range p).map (vfTotal io)).sum + 1
  (vfRuns io p).find? (fun r => decide (field r 2 2 ≤ i) && decide (i < field r 2 2 + field r 4 2))

/-- Links PF `p` is presented on (R134, R138). -/
def pfLinks (io : Io) (p : Nat) : List Nat :=
  let onPort (n : Nat) : List Nat := if (io.host.split[n]?).getD 0 = 1 then [n, n + 2] else [n]
  match io.host.placement with
  | 0 => onPort 0
  | 1 => (List.range 4).filter (onPort 0 ++ onPort 1).contains
  | _ => if p = 0 then onPort 0 else onPort ((io.host.pfPort[p]?).getD 0)

/-- The active twin of PF `p`: the one on its lowest-numbered link, which alone has SR-IOV (R139). -/
def activeTwin (io : Io) (p : Nat) : Nat := 4 * ((pfLinks io p).headD 0) + p

/-- The PF number of a function instance. -/
def pfOf (io : Io) (fn : Nat) : Nat := if fn < 16 then fn % 4 else pfOfVf io (fn - 16)

/-- The link a function instance is on. -/
def linkOf (io : Io) (fn : Nat) : Nat := if fn < 16 then fn / 4 else activeTwin io (pfOfVf io (fn - 16)) / 4

/-! ### Reads of host memory (R141, R153, R154, R158) -/

/-- The first number from lo + v mod n on, cyclically, that is not in use; `fuel` bounds the search. -/
def pickFrom (used : Nat → Bool) (lo n v : Nat) : Nat → Option Nat
  | 0 => none
  | fuel + 1 => if used (lo + v % n) then pickFrom used lo n (v + 1) fuel else some (lo + v % n)

/-- A value the spec leaves open, chosen among the numbers lo to lo + n - 1 that are not in use: the first such number
at or after a free value, cyclically. -/
def pickFree (used : Nat → Bool) (lo n : Nat) (io : Io) : Option Nat × Io :=
  (pickFrom used lo n (freeNat io).1 n, (freeNat io).2)

/-- Link `l`. -/
def linkAt (io : Io) (l : Nat) : Link := mgetD io.host.links l Link.reset

/-- Storing a link. -/
def linkPut (l : Nat) (k : Link) (io : Io) : Io :=
  { io with host := { io.host with links := mput io.host.links l k } }

/-- R141: outstanding non-posted requests a link may carry for a function. -/
def tagLimit (io : Io) (l fn : Nat) : Nat :=
  if (linkAt io l).flit then (if (io.host.split[l % 2]?).getD 0 = 0 then 4096 else 2048)
  else if (fnCfg io fn).tenBit then 768 else 256

/-- R153: a read cut at every multiple of `b`; `fuel` bounds the number of pieces. -/
def cutRead (b : Nat) : Nat → Nat → Nat → List (Nat × Nat)
  | 0, _, _ => []
  | fuel + 1, addr, len =>
    if len = 0 then []
    else
      let n := min len (b - addr % b)
      (addr, n) :: cutRead b fuel (addr + n) (len - n)

/-- Whether a tag of a link is in use or quarantined. -/
def tagUsed (k : Link) (t : Nat) : Bool := k.reqs.any (·.tag == t) || k.quarantined.any (·.tag == t)

/-- One request: sent under a free tag, or waiting for one and counted (R158). -/
def sendReq (l fn addr len : Nat) (io : Io) : Io :=
  let k := linkAt io l
  let wait := bump32 0x040023 (l + 1) (linkPut l { k with waiting := k.waiting ++ [(fn, addr, len)] } io)
  if tagLimit io l fn ≤ k.reqs.length + k.quarantined.length then wait
  else
    match pickFree (tagUsed k) 0 (tagLimit io l fn) io with
    | (none, _) => wait
    | (some t, io1) =>
      let q : HostReq := { tag := t, fn := fn, addr := addr, len := len, got := 0, sentAt := io1.now }
      emit (.hostRead fn addr len t) (linkPut l { k with reqs := k.reqs ++ [q] } io1)

/-- A read of host memory for a function. One its link cannot carry is not sent and fails at once (R154). -/
def hostRead (fn addr len : Nat) (io : Io) : Io :=
  let l := linkOf io fn
  if !(linkAt io l).up || (fnCfg io fn).inFlr then io
  else
    let b := max 1 (min (fnCfg io fn).mrrs 4096)
    (cutRead b (len / b + 2) addr len).foldl (fun io c => sendReq l fn c.1 c.2 io) io

/-! ### Completion rings (R199 to R206) -/

/-- The ring under an ID. -/
def ringOf (io : Io) (id : Nat) : Option Ring := mget io.rings.rings id

/-- Storing a ring. -/
def ringPut (id : Nat) (r : Ring) (io : Io) : Io :=
  { io with rings := { io.rings with rings := mput io.rings.rings id r } }

/-- The PHASE bit of counter value `c` on a ring of 2^n entries (R188). -/
def phaseAt (n : Nat) (c : Word32) : Bool := c.getLsbD n

/-- A completion as bytes 0x08 onward (format v2) and its phase word (R200). -/
def cplBodyV2 (e : Cpl) : Bytes :=
  le 4 (e.ring % 2 ^ 20) ++ le 4 e.consumer ++ le 4 e.bytes ++ le 4 e.detail ++ le 8 e.time ++ padTo 32 e.extra

/-- The phase word of a format v2 completion. -/
def cplPhaseV2 (phase : Bool) (e : Cpl) : Bytes :=
  le 1 (b2n phase + 32) ++ le 1 e.kind ++ le 1 e.status ++ le 1 (b2n e.held) ++ le 4 e.tag

/-- A format v1 completion: its first 0x38 bytes, and the phase word that ends it (R200). -/
def cplV1 (phase : Bool) (e : Cpl) : Bytes × Bytes :=
  (le 4 e.tag ++ le 2 e.bytes ++ le 1 e.status ++ le 1 e.kind ++ le 8 e.time ++ slice e.extra 0 4 ++ slice e.extra 4 2 ++
     le 2 0 ++ le 4 e.consumer ++ le 4 e.ring ++ le 24 0,
   le 7 0 ++ le 1 (1 + 128 * b2n phase))

/-- The two posted writes of a completion entry, body first, phase word last (R199). -/
def cplWrites (r : Ring) (e : Cpl) (io : Io) : Io :=
  let a := r.base.toNat + 64 * (r.counter.toNat % 2 ^ r.log2n)
  let ph := phaseAt r.log2n r.counter
  if r.fmt = 1 then
    let w := cplV1 ph e
    hostWrite r.owner (a + 0x38) w.2 (hostWrite r.owner a w.1 io)
  else
    hostWrite r.owner a (cplPhaseV2 ph e) (hostWrite r.owner (a + 8) (cplBodyV2 e) io)

/-- R204: the ring's interrupt is sent; the count restarts and the ring disarms unless AUTO_ARM is set. -/
def ringIrq (id : Nat) (r : Ring) (io : Io) : Io :=
  msix r.owner r.vector (ringPut id { r with since := 0, armed := r.autoArm } io)

/-- R204: an interrupt is sent where the armed ring has reached its coalesce count. -/
def ringCoalesce (id : Nat) (r : Ring) (io : Io) : Io :=
  if r.armed && decide (0 < r.k) && decide (r.k ≤ r.since) then ringIrq id r io else ringPut id r io

/-- Writing one completion into a free slot of the ring. -/
def cplWrite (id : Nat) (r : Ring) (e : Cpl) (io : Io) : Io :=
  ringCoalesce id { r with counter := r.counter + 1, since := r.since + 1, firstAt := if r.since = 0 then io.now else r.firstAt }
    (cplWrites r e io)

/-- Free slots of a completion ring against a consumer counter (R187). -/
def cqFree (r : Ring) (c : Word32) : Nat := 2 ^ r.log2n - (r.counter - c).toNat

/-- The completion a ring event becomes. -/
def eventCpl (ev : Event) (lost : Nat) : Cpl :=
  { kind := 4, status := 0, held := false, tag := 0, ring := ev.ring, consumer := ev.consumer,
    bytes := ev.code % 65536 + 65536 * (lost % 65536), detail := ev.detail, time := 0,
    extra := if ev.data.length = 32 then ev.data else le 2 ev.source ++ ev.data }

/-- A completion for a ring that is not in ERROR: written where a slot is known to be free and nothing is held, else
it waits for a fresh read of the control block, which is issued (R203, R205). -/
def cplOffer (id : Nat) (r : Ring) (e : Cpl) (io : Io) : Io :=
  if r.awaiting.isEmpty && r.overflow.isEmpty && r.spill.isEmpty && decide (0 < cqFree r r.seen) then cplWrite id r e io
  else hostRead r.owner r.ctlblk.toNat 8 (ringPut id { r with awaiting := r.awaiting ++ [e], reads := r.reads ++ [false] } io)

/-- R206: a completion that cannot be stored. -/
def cplLost (id : Nat) (r : Ring) (io : Io) : Io := bump64 0x060012 0 (ringPut id { r with lost := r.lost + 1 } io)

/-- A completion for ring `id` (R199, R205, R206). -/
def complete (id : Nat) (e : Cpl) (io : Io) : Io :=
  match ringOf io id with
  | none => io
  | some r => if r.state = .error then cplLost id r io else cplOffer id r e io

/-! ### Asynchronous events (R215) -/

/-- The admin queue of a function instance. -/
def admOf (io : Io) (fn : Nat) : Adm := mgetD io.rings.adm fn Adm.reset

/-- Storing an admin queue. -/
def admPut (fn : Nat) (a : Adm) (io : Io) : Io :=
  { io with rings := { io.rings with adm := mput io.rings.adm fn a } }

/-- READY of ADM_STATUS. -/
def admReady (io : Io) (fn : Nat) : Bool := regBit .admStatus fn 0 io

/-- R215: an event of a function: delivered on its admin completion ring, or held while READY is 0, at most 64. -/
def raiseEvent (fn : Nat) (ev : Event) (io : Io) : Io :=
  let a := admOf io fn
  if admReady io fn then
    match a.cq with
    | none => io
    | some q => complete q (eventCpl ev a.evLost) (admPut fn { a with evLost := 0 } io)
  else if a.events.length < 64 then admPut fn { a with events := a.events ++ [ev] } io
  else bump32 0x060015 0 (admPut fn { a with events := a.events.drop 1 ++ [ev], evLost := a.evLost + 1 } io)

/-- An event of a function for itself. -/
def event (fn code ring consumer detail : Nat) (data : Bytes) (io : Io) : Io :=
  raiseEvent fn { code := code, ring := ring, consumer := consumer, detail := detail, source := 0xFFFF, data := data } io

/-- An event to PF0 (the twin on its lowest-numbered link). -/
def eventPf0 (code ring consumer detail : Nat) (data : Bytes) (io : Io) : Io := event 0 code ring consumer detail data io

/-- An event of a function, and a copy to its PF where the function is a VF (R206, R333). -/
def eventAndPf (fn code ring consumer detail : Nat) (data : Bytes) (io : Io) : Io :=
  let io1 := event fn code ring consumer detail data io
  if fn < 16 then io1
  else
    raiseEvent (activeTwin io1 (pfOf io1 fn))
      { code := code, ring := ring, consumer := consumer, detail := detail, source := fn - 16, data := data } io1

/-- kwhostfn encoding of a function (R432): a VF is its chip-wide number, PF p is 0x400 + p. -/
def hostFnCode (fn : Nat) : Nat := if fn < 16 then 0x400 + fn % 4 else fn - 16

/-! ### The journal (R561 to R568) -/

/-- Entries a violation may coalesce with: the 16 newest. -/
def jRecent (j : Journal) : List (Nat × JEntry) :=
  j.entries.filter (fun e => decide (j.newest < e.1 + 16) && decide (j.oldest ≤ e.1))

/-- R565: the entry a violation coalesces with, if any. -/
def jMatch (j : Journal) (now code : Nat) (partner : Bytes) : Option (Nat × JEntry) :=
  ((jRecent j).filter (fun e => e.2.code == code && decide (e.2.partner = partner) &&
    decide (now < e.2.time + 1000000000))).getLast?

/-- A journal entry as its 32 bytes (R562). -/
def jBytes (e : JEntry) : Bytes :=
  le 8 e.time ++ le 2 e.code ++ le 1 (e.code / 256) ++ le 1 e.flags ++ le 4 e.count ++ padTo 8 e.partner ++ padTo 8 e.detail

/-- Writing a new entry: it overwrites the entry 4,096 before it (R566), sets GAP where entries were suppressed, and
updates 12:0001 and 12:0004 (R568). -/
def jWrite (e : JEntry) (io : Io) : Io :=
  let j := io.journal
  let q := j.newest + 1
  let e' := { e with flags := e.flags ||| (if j.gap then 2 else 0) }
  let old := (mget j.entries (q - 4096)).isSome && decide (4096 < q)
  let j' :=
    { j with
      newest := q, oldest := if j.oldest = 0 then q else max j.oldest (q - 4095),
      entries := mput (mdel j.entries (q - 4096)) q e', gap := false, recent := io.now :: j.recent }
  let io1 := dset (idx 0x120001 0) q { io with journal := j' }
  let io2 := if old then bump64 0x120002 0 io1 else io1
  dsetM (idx 0x120004 0) (le 8 q ++ jBytes e') io2

/-- R568: event 0x1201 to PF0, at most once per 100 ms. -/
def jEvent (io : Io) : Io :=
  let j := io.journal
  let ok := match j.evAt with
    | none => true
    | some t => decide (t + 100000000 ≤ io.now)
  if ok && decide (j.evSeq < j.newest) then
    eventPf0 0x1201 0 (j.newest % 2 ^ 32) (j.newest - j.evSeq) []
      { io with journal := { j with evAt := some io.now, evSeq := j.newest } }
  else io

/-- R561: a partner violation: counted, and journalled under the limits of R565. Before step 4 of R58 flash violations
are held, at most 16 (R567). -/
def violate (code : Nat) (partner detail : Bytes) (io : Io) : Io :=
  let io1 := bump64 (0x120100 + code / 256) (code % 256) io
  let j := io1.journal
  let e : JEntry := { time := time64 io1, code := code, flags := 0, count := 1, partner := padTo 8 partner, detail := padTo 8 detail }
  if !j.live then
    let e4 := { e with flags := 4 }
    if j.early.length < 16 then { io1 with journal := { j with early := j.early ++ [e4] } }
    else { io1 with journal := { j with gap := true } }
  else
    match jMatch j (time64 io1) code (padTo 8 partner) with
    | some (q, o) =>
      let o' := { o with count := satAdd 32 o.count 1, flags := o.flags ||| 1 }
      { io1 with journal := { j with entries := mput j.entries q o' } }
    | none =>
      let used := (j.recent.filter (fun t => decide (io1.now < t + 1000000000))).length
      if used < dget io1 (idx 0x120003 0) 1000 then
        jEvent (jWrite e { io1 with journal := { j with recent := j.recent.filter (fun t => decide (io1.now < t + 1000000000)) } })
      else bump64 0x120005 0 { io1 with journal := { j with gap := true } }

/-- R563, class 1: a host violation's partner field. -/
def hostPartner (io : Io) (fn requester : Nat) : Bytes :=
  le 1 (linkOf io fn) ++ le 1 0 ++ le 2 requester ++ le 2 (hostFnCode fn) ++ le 2 0

/-! ### Containment records (R40) -/

/-- The 32 bytes of a containment record. -/
def contBytes (time level cause unit action count addr detail : Nat) : Bytes :=
  le 8 time ++ le 1 level ++ le 1 cause ++ le 2 unit ++ le 1 action ++ le 1 count ++ le 2 0 ++ le 8 addr ++ le 8 detail

/-- R35: how many of the newest records stay ahead of record `r`: those of its instant and level whose unit has a greater
number. -/
def contAhead (r : Bytes) (io : Io) : Nat :=
  ((List.range 63).takeWhile (fun k =>
    let x := dgetB io (idx 0x0E0410 (k + 1))
    slice x 0 9 == slice r 0 9 && decide (field r 10 2 < field x 10 2))).length

/-- R40: a containment record enters 0E:0410 as element 1, or behind those of R35, goes to PF0 as event 0x0E01 and as a
Corrected Internal Error (R163), and to M as the built-in notification. -/
def contRecord (level cause unit action count addr detail : Nat) (io : Io) : Io :=
  let r := contBytes (time64 io) level cause unit action count addr detail
  let n := contAhead r io
  let moved := (span (n + 1) (63 - n)).foldr (fun k io =>
    match mget io.dic (idx 0x0E0410 k) with
    | some v => { io with dic := mput io.dic (idx 0x0E0410 (k + 1)) v }
    | none => io) io
  hostError 2 0 true (eventPf0 0x0E01 0 0 0 r (dsetM (idx 0x0E0410 (n + 1)) r moved))

/-! ### Dictionary commands that have a row of their own -/

/-- The answer of a dictionary command: its status (R105) and result. -/
def answer (by_ : Issuer) (i status : Nat) (result : Bytes) (io : Io) : Io := emit (.cmdAnswer by_ i status result) io

/-- Whether the issuer's association runs inside an authenticated session (R119). -/
def inSession (io : Io) (k : AssocKey) : Bool :=
  match k.session with
  | none => false
  | some n => io.oa.sessions.any (fun x => x.id == n && x.mutualAuth && x.trusted && x.finished)

/-- Position of a principal's pair of bits in Rights (R104). -/
def principalBit : Principal → Nat
  | .m => 0
  | .h => 2
  | .v => 4
  | .p => 6
  | .f => 8

/-- R13: the principal may read. -/
def mayRead (o : Obj) (w : Principal) : Bool := o.rights.testBit (principalBit w)

/-- R13: the principal may write or trigger. -/
def mayWrite (o : Obj) (w : Principal) : Bool := o.rights.testBit (principalBit w + 1)

/-- R62: the objects that take writes before stage 3. -/
def earlyWrite (obj : Nat) : Bool :=
  [0x020010, 0x0E0422, 0x080030, 0x020105, 0x020106, 0x020114].contains obj

/-- R110: whether a write of the object needs a session the association does not have. R120 lets the trust anchors be
written without one over MCTP while all are empty. -/
def needsSession (io : Io) (o : Obj) (k : AssocKey) : Bool :=
  let r120 := o.index == 0x010102 && (k.binding == .mctpI3c || k.binding == .mctpVdm) &&
    [1, 2, 3, 4].all (fun n => (dgetB io (idx 0x010102 n)).isEmpty)
  match o.session with
  | 0 => false
  | 1 => !(inSession io k) && !r120
  | _ => principalOf k.binding == .m && !(inSession io k)

/-- The checks before a dictionary command acts: rights (R13), stage (R62), session (R110). None where it may act. -/
def gate (stage : Nat) (by_ : Issuer) (obj : Nat) (io : Io) : Option Nat :=
  match objAt obj with
  | none => some 0x02
  | some o =>
    if !(mayWrite o (principalOf by_.assoc.binding)) then some 0x03
    else if stage < 3 && !(earlyWrite obj) then some 0x01
    else if needsSession io o by_.assoc then some 0x07
    else none

/-- The same for a command object whose argument is `n` bytes that begin with an operation code (R95, R105). -/
def cmdGate (stage : Nat) (by_ : Issuer) (obj : Nat) (arg : Bytes) (n op : Nat) (io : Io) : Option Nat :=
  match gate stage by_ obj io with
  | some e => some e
  | none => if arg.length ≠ n || field arg 0 1 ≠ op then some 0x05 else none

/-- R95, R103: an action that runs on: the write is answered IN_PROGRESS and CMD_DONE follows. -/
def beginCmd (by_ : Issuer) (obj : Nat) (io : Io) : Io :=
  answer by_ (idx obj 0) 0x09 [] { io with oa := { io.oa with running := mput io.oa.running obj by_ } }

/-- The running action of a CMD object ends: CMD_DONE to its issuer, if the association still stands. -/
def endCmd (obj status : Nat) (result : Bytes) (io : Io) : Io :=
  match mget io.oa.running obj with
  | none => io
  | some b => sendNote b.assoc (.cmdDone b.tag (idx obj 0) status result)
      { io with oa := { io.oa with running := mdel io.oa.running obj } }

/-- Whether a CMD object's action runs. -/
def cmdRuns (io : Io) (obj : Nat) : Bool := (mget io.oa.running obj).isSome

/-! ### Lanes (R584, R585) -/

/-- Kind of a lane number: 0 Ethernet, 1 host, 2 drive; none where it names no lane. -/
def laneKind (l : Nat) : Option Nat :=
  if 1 ≤ l ∧ l ≤ 8 then some 0 else if 9 ≤ l ∧ l ≤ 0x28 then some 1 else if 0x29 ≤ l ∧ l ≤ 0x38 then some 2 else none

/-- The host link a lane serves (R134). -/
def laneLink (io : Io) (l : Nat) : Nat :=
  let n := (l - 9) / 16
  if (io.host.split[n]?).getD 0 = 1 && 8 ≤ (l - 9) % 16 then n + 2 else n

/-- The root port a drive lane serves (R415). -/
def laneRoot (s : State) (l : Nat) : Nat := (l - 0x29) / (16 / 2 ^ s.drives.split)

/-- Whether a pattern test holds a lane that satisfies `f`, which is then out of service. -/
def lanesTested (d : Dbg) (f : Nat → Bool) : Bool := d.serdes.any (fun p => p.2.st != 0 && f p.1)

end Sys2Proof.Machine
end

