-- ==== Sys2Proof/Machine/MemOps.lean ====
section
/-!
DEFINITION. The memory tile (chapter 22): the placement of a line (R497), the Reed-Solomon code RS(80,64) that protects
it (R498 to R500), reads and writes of lines with their counts, log records, events and device marks (R501 to R506), and
the scrubber (R507 to R511).
Choices of the model coded here, by entry of the assumption log: DESIGN CHOICE 10; DEDUCED 76; PRESUMED 89.
-/
namespace Sys2Proof.Machine

/-! ### GF(2^8) with polynomial 0x11D (R499) -/

/-- Multiplication by α = 2. -/
def gfX (a : Nat) : Nat := if 128 ≤ a then (2 * a) ^^^ 0x11D else 2 * a

/-- Multiplication, over `n` bits of the second factor. -/
def gfMulN : Nat → Nat → Nat → Nat
  | 0, _, _ => 0
  | n + 1, a, b => (if b % 2 = 1 then a else 0) ^^^ gfMulN n (gfX a) (b / 2)

/-- Multiplication. -/
def gfMul (a b : Nat) : Nat := gfMulN 8 a b

/-- Powers. -/
def gfPow (a : Nat) : Nat → Nat
  | 0 => 1
  | n + 1 => gfMul a (gfPow a n)

/-- The inverse, a^254; of zero, zero. -/
def gfInv (a : Nat) : Nat :=
  let a2 := gfMul a a
  let a4 := gfMul a2 a2
  let a8 := gfMul a4 a4
  let a16 := gfMul a8 a8
  let a32 := gfMul a16 a16
  let a64 := gfMul a32 a32
  gfMul a2 (gfMul a4 (gfMul a8 (gfMul a16 (gfMul a32 (gfMul a64 (gfMul a64 a64))))))

/-- α^n. -/
def alpha (n : Nat) : Nat := gfPow 2 (n % 255)

/-- The locator of symbol k, which is the coefficient at x^(79 - k): α^(79 - k), and its inverse. -/
def rsX (k : Nat) : Nat := alpha (79 - k)
def rsXInv (k : Nat) : Nat := alpha (255 - (79 - k))

/-! Polynomials are lists of coefficients, the lowest power first. -/

/-- Sum. -/
def polyAdd : List Nat → List Nat → List Nat
  | [], q => q
  | p, [] => p
  | a :: p, b :: q => (a ^^^ b) :: polyAdd p q

/-- Product with a constant. -/
def polyScale (c : Nat) (p : List Nat) : List Nat := p.map (gfMul c)

/-- Product. -/
def polyMul : List Nat → List Nat → List Nat
  | [], _ => []
  | a :: p, q => polyAdd (polyScale a q) (0 :: polyMul p q)

/-- Value at a point. -/
def polyAt (p : List Nat) (x : Nat) : Nat := p.foldr (fun a v => a ^^^ gfMul x v) 0

/-- The formal derivative. -/
def polyDeriv (p : List Nat) : List Nat :=
  ((p.drop 1).zip (List.range (p.length - 1))).map (fun a => if a.2 % 2 = 0 then a.1 else 0)

/-- Degree plus one, leading zeros apart. -/
def polyLen (p : List Nat) : Nat := (p.reverse.dropWhile (· == 0)).length

/-! ### The code -/

/-- The generator polynomial, coefficient of x^16 first (R499). -/
def rsGen : List Nat := ((List.range 16).foldl (fun g i => polyMul [alpha i, 1] g) [1]).reverse

/-- One step of the division by the generator. -/
def rsShift (g reg : List Nat) (d : Nat) : List Nat :=
  let fb := reg.headD 0 ^^^ d
  ((reg.drop 1 ++ [0]).zip g).map (fun (a : Nat × Nat) => a.1 ^^^ gfMul fb a.2)

/-- The sixteen check symbols of 64 data symbols (R499). -/
def rsCheck (data : List Nat) : List Nat :=
  let g := rsGen.drop 1
  data.foldl (rsShift g) (List.replicate 16 0)

/-- The sixteen syndromes of a word of 80 symbols. -/
def rsSyn (w : List Nat) : List Nat := (List.range 16).map (fun i => w.foldl (fun v a => gfMul v (alpha i) ^^^ a) 0)

/-- One step of the Berlekamp-Massey recursion with `v` erasures: locator, auxiliary polynomial, length. -/
def bmStep (syn : List Nat) (v : Nat) (st : List Nat × List Nat × Nat) (r : Nat) : List Nat × List Nat × Nat :=
  let lam := st.1
  let d := ((lam.zip (List.range lam.length)).map (fun a => if a.2 < r then gfMul a.1 ((syn[r - 1 - a.2]?).getD 0) else 0)).foldl
    (· ^^^ ·) 0
  if d = 0 then (lam, 0 :: st.2.1, st.2.2)
  else
    let t := polyAdd lam (polyScale d (0 :: st.2.1))
    if 2 * st.2.2 ≤ r + v - 1 then (t, polyScale (gfInv d) lam, r + v - st.2.2) else (t, 0 :: st.2.1, st.2.2)

/-- The nearest codeword of a word, its `erased` symbols aside, with at most `most` further symbol errors; and the
positions outside `erased` that were in error. -/
def rsDecode (erased : List Nat) (most : Nat) (w : List Nat) : Option (List Nat × List Nat) :=
  let syn := rsSyn w
  if syn.all (· == 0) then some (w, [])
  else
    let v := erased.length
    let gamma := erased.foldl (fun p k => polyMul [1, rsX k] p) [1]
    let bm := ((List.range (16 - v)).map (· + v + 1)).foldl (bmStep syn v) (gamma, gamma, v)
    let lam := bm.1
    let roots := (List.range 80).filter (fun k => polyAt lam (rsXInv k) == 0)
    if roots.length + 1 ≠ polyLen lam then none
    else
      let omega := (polyMul syn lam).take 16
      let deriv := polyDeriv lam
      let fix (k : Nat) : Nat :=
        gfMul (rsX k) (gfMul (polyAt omega (rsXInv k)) (gfInv (polyAt deriv (rsXInv k))))
      let y := (w.zip (List.range 80)).map (fun a => if roots.contains a.2 then a.1 ^^^ fix a.2 else a.1)
      let wrong := (List.range 80).filter (fun k => !erased.contains k && (w[k]? != y[k]?))
      if (rsSyn y).all (· == 0) && decide (wrong.length ≤ most) then some (y, wrong) else none

/-- R499: the offset a check symbol is stored with. -/
def ordOffset : Nat := 0xA5
def poisonOffset : Nat := 0x5A

/-- The symbols of a stored line with an offset taken off its check symbols. -/
def lineWord (off : Nat) (stored : Bytes) : List Nat :=
  (stored.zip (List.range 80)).map (fun a => if a.2 < 64 then a.1.toNat else a.1.toNat ^^^ off)

/-- The stored symbols of a line of 64 data bytes. -/
def codeLine (poison : Bool) (data : Bytes) : Bytes :=
  data ++ (rsCheck (data.map (·.toNat))).map (fun c => BitVec.ofNat 8 (c ^^^ (if poison then poisonOffset else ordOffset)))

/-- R500: what decoding a line answers. -/
inductive Decoded where
  /-- data, the positions of corrected symbols outside a marked device, and whether anything was corrected -/
  | ok (data : Bytes) (errs : List Nat) (corrected : Bool)
  | poison
  | uncorrectable
  deriving DecidableEq, Repr

/-- R500: decoding of a stored line, with the device marked failed, if any. -/
def decodeLine (marked : Option Nat) (stored : Bytes) : Decoded :=
  let erased := match marked with
    | none => []
    | some d => span (8 * d) 8
  let w := lineWord ordOffset stored
  match rsDecode erased (if marked.isSome then 4 else 8) w with
  | some (c, errs) => .ok ((c.take 64).map (BitVec.ofNat 8)) errs (decide (c ≠ w))
  | none =>
    match rsDecode erased 0 (lineWord poisonOffset stored) with
    | some _ => .poison
    | none => .uncorrectable

/-! ### Placement (R495, R497) -/

/-- Capacity in bytes (R495); densities of 8 to 32 Gb are codes 1 to 4. -/
def memCapacity (m : MemTile) : Nat := 8 * m.ranks * m.density * 2 ^ 30

/-- Where an address lands. -/
structure Place where
  sub    : Nat
  rank   : Nat
  group  : Nat
  bank   : Nat
  row    : Nat
  column : Nat
  deriving DecidableEq, Repr

/-- R497. -/
def placeOf (m : MemTile) (a : Nat) : Place :=
  let line := a / 64
  let l := line / 8
  let b := if m.density = 8 then 2 else 4
  { sub := (line % 8) ^^^ (line / 512 % 8), rank := l / (1024 * b) % (if m.ranks = 0 then 1 else m.ranks), group := l % 8, bank := l / 1024 % b,
    row := l / (1024 * b * (if m.ranks = 0 then 1 else m.ranks)), column := l / 8 % 128 * 16 }

/-- The device marked failed in a rank of a subchannel (10:0031). -/
def markOf (io : Io) (sub rank : Nat) : Option Nat :=
  let d := dget io (idx 0x100031 (2 * sub + rank + 1)) 255
  if d < 10 then some d else none

/-- Number of a device in the arrays of R510. -/
def deviceNo (p : Place) (d : Nat) : Nat := 80 * p.rank + 10 * p.sub + d

/-! ### The memory side of the machine -/

/-- The memory tile with the reporting side. -/
structure MemIo where
  io  : Io
  mem : MemTile

/-- Lifting a change of the memory tile. -/
def onMem (f : MemIo → MemIo) (s : State) : State :=
  let w := f { io := s.io, mem := s.mem }
  { s with io := w.io, mem := w.mem }

/-- A change of the reporting side. -/
def MemIo.on (f : Io → Io) (w : MemIo) : MemIo := { w with io := f w.io }

/-- A record enters an array of `n` elements as element 1, the others moving up. -/
def pushArr (obj n : Nat) (b : Bytes) (io : Io) : Io :=
  let moved := (List.range (n - 1)).foldr (fun k io =>
    match mget io.dic (idx obj (k + 1)) with
    | some v => { io with dic := mput io.dic (idx obj (k + 2)) v }
    | none => io) io
  dsetB (idx obj 1) b moved

/-- A log record of R505: kinds 1 uncorrectable, 2 poison, 3 marked, 4 cleared, 5 partial write refused; sources 1 demand,
2 scrub, 3 read-modify-write, 4 command. -/
def memRecord (io : Io) (kind source : Nat) (p : Place) (symbols device devMask line : Nat) : Bytes :=
  le 8 (time64 io) ++ le 1 kind ++ le 1 source ++ le 1 p.sub ++ le 1 p.rank ++ le 1 symbols ++ le 1 device ++
  le 2 devMask ++ le 8 (64 * line) ++ le 8 0

/-- R506: an event of the memory tile, and its copy in 10:0041. -/
def memEvent (code detail : Nat) (data : Bytes) (io : Io) : Io :=
  dsetM (idx 0x100041 0) (le 2 code ++ le 2 detail ++ le 4 0 ++ padTo 32 data) (eventPf0 code 0 0 detail data io)

/-- R505, R506: an uncorrectable or poison read. -/
def memBadRead (kind source line : Nat) (w : MemIo) : MemIo :=
  let p := placeOf w.mem (64 * line)
  let r := memRecord w.io kind source p 0xFF 0xFF 0 line
  let w1 := w.on (fun io => pushArr 0x100040 64 r (bump64 0x100010 (if kind = 1 then 3 else 4) io))
  let ok := match w1.mem.evAt with
    | none => true
    | some t => decide (t + ms 10 ≤ w1.io.now)
  if ok then { io := memEvent 0x1001 kind r w1.io, mem := { w1.mem with evAt := some w1.io.now } } else w1

/-- R502, R505: the mark of a rank and subchannel changes: detail 1 by the tile, 3 by command, 4 cleared. -/
def markSet (sub rank : Nat) (dev : Option Nat) (d detail : Nat) (w : MemIo) : MemIo :=
  let p : Place := { sub := sub, rank := rank, group := 0, bank := 0, row := 0, column := 0 }
  let r := memRecord w.io (if dev.isSome then 3 else 4) (if detail = 1 then 1 else 4) p 0xFF d 0 0
  let i := idx 0x100031 (2 * sub + rank + 1)
  let io1 := dset i (dev.getD 0xFF) w.io
  { w with io := memEvent 0x1002 detail (le 1 sub ++ le 1 rank ++ le 1 d) (pushArr 0x100040 64 r
      { io1 with params := mput io1.params i (.num (dev.getD 0xFF)) }) }

/-- R502: one more line in which a device held a corrected error; at the threshold of 10:0030 within 24 hours the device
is marked, or a second one of its rank and subchannel refused. -/
def deviceError (p : Place) (line d : Nat) (w : MemIo) : MemIo :=
  let n := deviceNo p d
  let day : Nat := 86400 * 1000000000
  let old := (mgetD w.mem.fails n []).filter (fun e => e.1 != line && decide (w.io.now < e.2 + day))
  let now := (line, w.io.now) :: old
  let w1 : MemIo := { io := bump32 0x100011 (n + 1) w.io, mem := { w.mem with fails := mput w.mem.fails n now } }
  let limit := dget w1.io (idx 0x100030 0) 4096
  let fresh := !((mgetD w.mem.fails n []).any (·.1 == line))
  if limit = 0 || now.length < limit then w1
  else
    match markOf w1.io p.sub p.rank with
    | none => markSet p.sub p.rank (some d) d 1 w1
    | some _ =>
      if fresh && now.length == limit then w1.on (memEvent 0x1002 2 (le 1 p.sub ++ le 1 p.rank ++ le 1 d)) else w1

/-- Devices of a set of symbol positions. -/
def devicesOf (errs : List Nat) : List Nat := (errs.map (· / 8)).foldl sadd []

/-- The stored symbols of a line since training, if any have been written. -/
def lineOf (m : MemTile) (line : Nat) : Option Bytes :=
  match mget m.lines line with
  | some b => some b
  | none => if m.filled then some (codeLine false (List.replicate 64 0)) else none

/-- The stored symbols of a line, as its devices answer: `errs` are the symbols they return wrong, with the difference. -/
def storedLine (m : MemTile) (line : Nat) (errs : List (Fin 80 × Byte)) : Option Bytes :=
  (lineOf m line).map (fun b =>
    errs.foldl (fun b e => b.set e.1.val ((b[e.1.val]?).getD 0 ^^^ e.2)) b)

/-- R500, R501: decoding of a line as stored; one not written since training is uncorrectable. -/
def readStored (m : MemTile) (io : Io) (line : Nat) (errs : List (Fin 80 × Byte)) : Decoded :=
  match storedLine m line errs with
  | none => .uncorrectable
  | some b =>
    let p := placeOf m (64 * line)
    decodeLine (markOf io p.sub p.rank) b

/-- R500, R502, R505: a demand read of a line, with its counts and log; none where the reader receives poison. -/
def memRead (line : Nat) (errs : List (Fin 80 × Byte)) (w : MemIo) : Option Bytes × MemIo :=
  let p := placeOf w.mem (64 * line)
  match readStored w.mem w.io line errs with
  | .ok data bad corrected =>
    if corrected then
      let w1 := w.on (fun io =>
        let io1 := bumpBy 64 (idx 0x100010 2) bad.length (bump64 0x100010 1 io)
        if (markOf io p.sub p.rank).isSome then bump64 0x100010 6 io1 else io1)
      (some data, (devicesOf bad).foldl (fun w d => deviceError p line d w) w1)
    else (some data, w)
  | .poison => (none, memBadRead 2 1 line w)
  | .uncorrectable => (none, memBadRead 1 1 line w)

/-- A line is written whole, as an ordinary line or with the poison marking (R499). -/
def memWriteLine (line : Nat) (poison : Bool) (data : Bytes) (w : MemIo) : MemIo :=
  let w1 : MemIo := { w with mem := { w.mem with lines := mput w.mem.lines line (codeLine poison (padTo 64 data)) } }
  if poison then w1.on (bump64 0x100010 5) else w1

/-- R501: a write of part of a line: read, merged and written, or refused where the line is uncorrectable or poisoned.
False where it is refused. -/
def memWritePart (line off : Nat) (data : Bytes) (w : MemIo) : Bool × MemIo :=
  match readStored w.mem w.io line [] with
  | .ok old _ _ => (true, memWriteLine line false (splice old off data) w)
  | _ =>
    let p := placeOf w.mem (64 * line)
    (false, w.on (fun io => pushArr 0x100040 64 (memRecord io 5 3 p 0xFF 0xFF 0 line) (bump64 0x100010 7 io)))

/-- A write of bytes within one line: whole where it covers the line, else part of it. -/
def memWrite (line off : Nat) (data : Bytes) (w : MemIo) : Bool × MemIo :=
  if off = 0 ∧ data.length = 64 then (true, memWriteLine line false data w) else memWritePart line off data w

/-! ### The scrubber (R507 to R511) -/

/-- R510: the summary, 736 bytes. -/
def scrubBytes (c : Scrub) : Bytes :=
  le 1 c.state ++ le 1 c.flags ++ le 2 c.passes ++ le 4 0 ++ le 8 c.first ++ le 8 c.length ++ le 8 c.cursor ++ le 8 c.lines ++
  le 4 c.corrected ++ le 4 c.symbols ++ le 4 c.uncorrectable ++ le 4 c.poison ++ le 8 (c.firstErr.getD 0) ++ le 8 c.lastErr ++
  le 8 c.began ++ le 8 c.ended ++ le 8 0 ++ (List.range 160).flatMap (fun i => le 4 (mgetD c.hist i 0))

/-- 10:0101 follows the scrub. -/
def scrubReport (w : MemIo) : MemIo := w.on (dsetB (idx 0x100101 0) (scrubBytes w.mem.scrub))

/-- A new state of the scrub. -/
def scrubPut (c : Scrub) (w : MemIo) : MemIo := scrubReport { w with mem := { w.mem with scrub := c } }

/-- A scrub ends: state 3 done, 4 aborted, 5 ended by reset (R510). -/
def scrubEnd (state : Nat) (w : MemIo) : MemIo :=
  scrubPut { w.mem.scrub with state := state, ended := time64 w.io } w

/-- A line of the scrub was corrected, uncorrectable or poisoned. -/
def scrubErr (line : Nat) (c : Scrub) : Scrub :=
  { c with firstErr := some (c.firstErr.getD (64 * line)), lastErr := 64 * line }

/-- R508: one line read, decoded and, where corrected, written back. -/
def scrubOne (line : Nat) (errs : List (Fin 80 × Byte)) (w : MemIo) : MemIo :=
  let c := w.mem.scrub
  let p := placeOf w.mem (64 * line)
  match readStored w.mem w.io line errs with
  | .ok data bad corrected =>
    if corrected then
      let devs := devicesOf bad
      let c1 := scrubErr line { c with
        corrected := satAdd 32 c.corrected 1, symbols := satAdd 32 c.symbols bad.length,
        hist := devs.foldl (fun h d => mupd h (deviceNo p d) 0 (fun n => satAdd 32 n 1)) c.hist }
      let m1 := { w.mem with scrub := c1 }
      let m2 := if c.flags.testBit 1 then m1 else { m1 with lines := mput m1.lines line (codeLine false data) }
      let io1 := bumpBy 64 (idx 0x100010 2) bad.length w.io
      let io2 := if (markOf io1 p.sub p.rank).isSome then bump64 0x100010 6 io1 else io1
      devs.foldl (fun w d => deviceError p line d w) { io := io2, mem := m2 }
    else w
  | .poison =>
    memBadRead 2 2 line { w with mem := { w.mem with scrub := scrubErr line { c with
      poison := satAdd 32 c.poison 1 } } }
  | .uncorrectable =>
    memBadRead 1 2 line { w with mem := { w.mem with scrub := scrubErr line { c with
      uncorrectable := satAdd 32 c.uncorrectable 1, passBad := c.passBad + 1 } } }

/-- The cursor moves on. At the end of the range event 0x1003 is raised and the scrub starts again or ends (R506, R507). -/
def scrubAdvance (w : MemIo) : MemIo :=
  let c := { w.mem.scrub with cursor := w.mem.scrub.cursor + 64, lines := satAdd 64 w.mem.scrub.lines 1 }
  if c.cursor < c.first + c.length then scrubPut c w
  else
    let w1 := w.on (memEvent 0x1003 c.passBad [])
    let c1 := { c with passes := (c.passes + 1) % 65536, passBad := 0 }
    if c.flags.testBit 0 then scrubPut { c1 with cursor := c.first } w1
    else (scrubEnd 3 (scrubPut c1 w1)).on (endCmd 0x100100 0 [])

/-- A line that no read or write has been given symbols for holds what the devices happen to hold: free values, which a
raw access makes definite (R501, R512). -/
def rawLine (line : Nat) (w : MemIo) : Bytes × MemIo :=
  match lineOf w.mem line with
  | some b => (b, w)
  | none =>
    let (b, io1) := (List.range 10).foldl (fun (x : Bytes × Io) _ =>
      (x.1 ++ le 8 (freeNat x.2).1, (freeNat x.2).2)) ([], w.io)
    (b, { io := io1, mem := { w.mem with lines := mput w.mem.lines line b } })

end Sys2Proof.Machine
end

