-- ==== Sys2Proof/Machine/CoreMem.lean ====
section
/-!
DEFINITION. Threads and the memories of the core address map (R438 to R440): registers of a thread, SRAM with its
poisoned words (R513), the block caches of attached memory (R441), and the store rule of reservations (R430).
Choices of the model coded here, by entry of the assumption log: DESIGN CHOICE 10, 68, 69; DEDUCED 15, 70.
-/
namespace Sys2Proof.Machine

/-! ### Threads -/

/-- Thread `t`. -/
def threadAt (s : State) (t : Nat) : Thread := mgetD s.cpu.threads t Thread.reset

/-- The lock-and-event unit of block `b`. -/
def leAt (s : State) (b : Nat) : LeUnit := mgetD s.le b LeUnit.reset

/-- Storing it. -/
def lePut (b : Nat) (u : LeUnit) (s : State) : State := { s with le := mput s.le b u }

/-- Storing a thread. A change of its state is seen by the stall watch of its block (R469). -/
def threadPut (t : Nat) (x : Thread) (s : State) : State :=
  let s1 := { s with cpu := { s.cpu with threads := mput s.cpu.threads t x } }
  if x.st = (threadAt s t).st then s1
  else
    let u := leAt s (t / 64)
    lePut (t / 64) { u with quiet := s.io.now, stalled := u.stalled && x.st != 1 } s1

/-- Cell `c`. -/
def cellAt (s : State) (c : Nat) : Cell := mgetD s.cpu.cells c Cell.reset

/-- Storing it. -/
def cellPut (c : Nat) (x : Cell) (s : State) : State := { s with cpu := { s.cpu with cells := mput s.cpu.cells c x } }

/-- Register x`r`; x0 reads zero. -/
def xreg (th : Thread) (r : Nat) : Word64 := if r = 0 then 0 else mgetD th.regs r 0

/-- Writing register x`r`; a write to x0 is discarded. -/
def setX (r : Nat) (v : Word64) (th : Thread) : Thread :=
  if r = 0 then th else { th with regs := if v = 0 then mdel th.regs r else mput th.regs r v }

/-- The threads of a cell and of a block. -/
def cellThreads (c : Nat) : List Nat := span (8 * c) 8
def blockThreads (b : Nat) : List Nat := span (64 * b) 64

/-- R35, R452: a cell (level 1) or a block (level 2) is being reset. -/
def unitResetting (c : Cont) (now level unit : Nat) : Bool :=
  c.resetting.any (fun x => x.level == level && x.unit == unit && decide (now < x.time))

/-- A cell or its block is isolated or in reset: its threads do not run (R36, R37, R452). -/
def cellOff (s : State) (c : Nat) : Bool :=
  s.cont.cells.contains c || s.cont.blocks.contains (c / 8) || s.cont.regions.contains (c / 32) ||
  s.cont.regionResets.any (fun x => x.1 == c / 32) || unitResetting s.cont s.io.now 1 c || unitResetting s.cont s.io.now 2 (c / 8)

/-! ### Clocks of the cells, traces, halts -/

/-- kHz of element `e` of 01:0200. -/
def clkFreq (s : State) (e : Nat) : Nat := mgetD s.clk.freq e 0

/-- CLK_CELL cycles region `r` has counted. -/
def cyclesNow (s : State) (r : Nat) : Nat :=
  let b := mgetD s.cpu.cycles r (0, 0)
  b.1 + (s.io.now - b.2) * clkFreq s (r + 1) / 1000000

/-- R582: an entry of the trace of a thread: kind 1 branch or jump, 2 trap, 3 MRET, 4 halt. Without WRAP recording stops when
the buffer is full. -/
def traceAdd (t kind : Nat) (src dst : Word64) (s : State) : State :=
  match mget s.dbg.traces (t / 8) with
  | none => s
  | some x =>
    if x.thread ≠ t || !x.on_ || (!x.wrap && 512 ≤ x.count) then s
    else
      let m := (threadAt s t).mcycle.toNat + cyclesNow s (t / 256)
      let e := le 6 src.toNat ++ le 1 kind ++ le 1 0 ++ le 6 dst.toNat ++ le 2 m
      let y := { x with entries := mput x.entries (x.count % 512) e, count := x.count + 1 }
      { s with dbg := { s.dbg with traces := mput s.dbg.traces (t / 8) y } }

/-- A thread enters state 3: its LR reservation is cleared (R430) and the halt is traced. -/
def debugHalt (t : Nat) (s : State) : State :=
  let x := threadAt s t
  threadPut t { x with st := 3, reserve := none }
    (traceAdd t 4 x.pc x.pc { s with dbg := { s.dbg with stepping := s.dbg.stepping.filter (· != t) } })

/-- An instruction of a thread has issued: a STEP is over unless the thread waits or its load is outstanding. -/
def stepOver (t : Nat) (s : State) : State :=
  let x := threadAt s t
  if s.dbg.stepping.contains t && x.st == 1 && x.load.isNone then debugHalt t s else s

/-! ### The core address map (R438 to R441) -/

/-- Bases of the block and region windows. -/
def blockBase (b : Nat) : Nat := 0x010000000000 + 0x1000000 * b
def regionBase (r : Nat) : Nat := 0x020000000000 + 0x4000000 * r

/-- An address of a thread with the ranges of its own cell, block and region put at their place in the windows. -/
def canonAddr (t a : Nat) : Nat :=
  if a < 0x40000 then blockBase (t / 64) + 0x800000 + 0x40000 * (t / 8 % 8) + a
  else if 0x100000 ≤ a ∧ a < 0x101000 then blockBase (t / 64) + 0xB00000 + 0x1000 * (t / 8 % 8) + (a - 0x100000)
  else if 0x1000000 ≤ a ∧ a < 0x2000000 then blockBase (t / 64) + (a - 0x1000000)
  else if 0x4000000 ≤ a ∧ a < 0x8000000 then regionBase (t / 256) + (a - 0x4000000)
  else a

/-- Whether an address names own cell SRAM: the cell-local range, or the window of the own cell. -/
def ownSram (t a : Nat) : Bool :=
  let k := canonAddr t a
  let lo := blockBase (t / 64) + 0x800000 + 0x40000 * (t / 8 % 8)
  decide (lo ≤ k) && decide (k < lo + 0x40000)

/-- What the map holds at an address. -/
inductive Spot where
  /-- SRAM that threads read and write, by canonical address -/
  | sram (a : Nat)
  /-- classifier and table stores of a region, read-only -/
  | table (r off : Nat)
  | cellReg (c off : Nat)
  | leReg (b off : Nat)
  | fwPort (b off : Nat)
  | bwQueue (b off : Nat)
  | dmaReg (r off : Nat)
  | laBell (r q : Nat)
  /-- attached memory -/
  | attached (cached : Bool) (a : Nat)
  | host (a : Nat)
  | nothing
  deriving DecidableEq, Repr

/-- Bytes of block SRAM scratch: 2 MiB less the cache size in force (R439). -/
def scratchSize (m : MemTile) (b : Nat) : Nat := 0x200000 - 0x80000 * mgetD m.sizes b 2

/-- R439. -/
def blockSpot (m : MemTile) (b o : Nat) : Spot :=
  if o < 0x800000 then (if o < scratchSize m b then .sram (blockBase b + o) else .nothing)
  else if o < 0xA00000 then .sram (blockBase b + o)
  else if 0xB00000 ≤ o ∧ o < 0xB08000 then .cellReg (8 * b + (o - 0xB00000) / 0x1000) ((o - 0xB00000) % 0x1000)
  else if 0xC00000 ≤ o ∧ o < 0xC10000 then .leReg b (o - 0xC00000)
  else if 0xC10000 ≤ o ∧ o < 0xC14000 then .fwPort b (o - 0xC10000)
  else if 0xC20000 ≤ o ∧ o < 0xC21000 then .bwQueue b (o - 0xC20000)
  else .nothing

/-- R440. -/
def regionSpot (r o : Nat) : Spot :=
  if o < 0xFE0000 then .table r o
  else if o < 0x1000000 then .sram (regionBase r + o)
  else if 0x2000000 ≤ o ∧ o < 0x2100000 then .dmaReg r (o - 0x2000000)
  else if 0x2100000 ≤ o ∧ o < 0x2102000 ∧ (o - 0x2100000) % 0x100 < 8 then .laBell r ((o - 0x2100000) / 0x100)
  else .nothing

/-- R438, for a canonical address. -/
def spotAt (m : MemTile) (a : Nat) : Spot :=
  if 0x010000000000 ≤ a ∧ a < 0x010010000000 then
    blockSpot m ((a - 0x010000000000) / 0x1000000) (a % 0x1000000)
  else if 0x020000000000 ≤ a ∧ a < 0x020010000000 then
    regionSpot ((a - 0x020000000000) / 0x4000000) ((a - 0x020000000000) % 0x4000000)
  else if 0x100000000000 ≤ a ∧ a < 0x100000000000 + memCapacity m then .attached true (a - 0x100000000000)
  else if 0x180000000000 ≤ a ∧ a < 0x180000000000 + memCapacity m then .attached false (a - 0x180000000000)
  else if 0x800000000000 ≤ a ∧ a < 0x1000000000000 then .host (a - 0x800000000000)
  else .nothing

/-- Whether the whole of a range of canonical addresses is SRAM that can be read and written. -/
def sramRange (m : MemTile) (a n : Nat) : Bool :=
  match spotAt m a, spotAt m (a + n - 1) with
  | .sram x, .sram y => y + 1 == x + n
  | _, _ => false

/-! ### SRAM and its poisoned words (R513, R514) -/

/-- The 64-bit words a range touches. -/
def wordsOf (a n : Nat) : List Nat := (span (a / 8) ((a + n - 1) / 8 + 1 - a / 8)).map (8 * ·)

/-- A read of SRAM; none where a word of it is poisoned. -/
def sramRead (m : MemTile) (a n : Nat) : Option Bytes :=
  if (wordsOf a n).any (m.bad.contains ·) then none else some (memGets 0 m.sram a n)

/-- R430: a store to a granule clears the reservations on it. -/
def dropReserve (a n : Nat) (s : State) : State :=
  { s with cpu := { s.cpu with threads := mmap s.cpu.threads (fun _ x =>
      match x.reserve with
      | some g => if decide (g < a / 64) || decide ((a + n - 1) / 64 < g) then x else { x with reserve := none }
      | none => x) } }

/-- A write of SRAM: a word wholly written is poisoned no longer, and reservations on its granules are cleared. -/
def sramWrite (a : Nat) (b : Bytes) (s : State) : State :=
  let whole := (wordsOf a b.length).filter (fun w => decide (a ≤ w) && decide (w + 8 ≤ a + b.length))
  let s1 := { s with mem := { s.mem with sram := memPuts 0 s.mem.sram a b, bad := s.mem.bad.filter (fun w => !whole.contains w) } }
  dropReserve a b.length s1

/-- Marking the word at an address poisoned. -/
def sramPoison (a : Nat) (m : MemTile) : MemTile := { m with bad := sadd m.bad (a / 8 * 8) }

/-- A range of SRAM takes zero with fresh check bits (R452). -/
def sramZero (lo hi : Nat) (m : MemTile) : MemTile :=
  { m with sram := memClear m.sram lo hi, bad := m.bad.filter (fun w => decide (w < lo) || decide (hi ≤ w)) }

/-! ### Block caches (R441) -/

/-- The lines a block's cache holds. -/
def cacheOf (m : MemTile) (b : Nat) : List (Nat × CLine) := mgetD m.caches b []

/-- Lines its size in force allows. -/
def cacheLimit (m : MemTile) (b : Nat) : Nat := 8192 * mgetD m.sizes b 2

/-- A line is written back: as poison where a word of it is poisoned (R37). -/
def writeBack (line : Nat) (c : CLine) (w : MemIo) : MemIo :=
  if c.dirty then memWriteLine line (!c.bad.isEmpty) c.data w else w

/-- Removing a line from a cache. -/
def cacheDel (b line : Nat) (m : MemTile) : MemTile :=
  { m with caches := mput m.caches b ((cacheOf m b).filter (·.1 != line)) }

/-- A line enters a cache, which evicts lines of the Kwaith's choice beyond its size. -/
def cachePut (b line : Nat) (c : CLine) (w : MemIo) : MemIo :=
  let rest := (cacheOf w.mem b).filter (·.1 != line)
  if rest.length < cacheLimit w.mem b then
    { w with mem := { w.mem with caches := mput w.mem.caches b ((line, c) :: rest) } }
  else
    let (v, io1) := freeNat w.io
    match rest[v % rest.length]? with
    | none => writeBack line c { w with io := io1 }
    | some e =>
      let w1 := writeBack e.1 e.2 { w with io := io1 }
      { w1 with mem := { w1.mem with caches := mput w1.mem.caches b ((line, c) :: rest.filter (·.1 != e.1)) } }

/-- A line as the cache of a block holds it, read from memory where it is absent; poison where the read returns poison. -/
def cacheLine (b line : Nat) (w : MemIo) : CLine × MemIo :=
  match (cacheOf w.mem b).find? (·.1 == line) with
  | some e => (e.2, w)
  | none =>
    match memRead line [] w with
    | (some d, w1) => let c : CLine := { data := d, bad := [], dirty := false }; (c, cachePut b line c w1)
    | (none, w1) =>
      let c : CLine := { data := List.replicate 64 0, bad := List.range 8, dirty := false }
      (c, cachePut b line c w1)

/-- Words of a line a range touches. -/
def lineWords (o n : Nat) : List Nat := span (o / 8) ((o + n - 1) / 8 + 1 - o / 8)

/-- A cached read within one line; none is poison. -/
def cachedRead (b a n : Nat) (w : MemIo) : Option Bytes × MemIo :=
  let (c, w1) := cacheLine b (a / 64) w
  if (lineWords (a % 64) n).any (c.bad.contains ·) then (none, w1) else (some (slice c.data (a % 64) n), w1)

/-- A cached write within one line. -/
def cachedWrite (b a : Nat) (d : Bytes) (w : MemIo) : MemIo :=
  let (c, w1) := cacheLine b (a / 64) w
  let o := a % 64
  let whole := (lineWords o d.length).filter (fun k => decide (o ≤ 8 * k) && decide (8 * k + 8 ≤ o + d.length))
  cachePut b (a / 64)
    { data := splice c.data o d, bad := c.bad.filter (fun k => !whole.contains k), dirty := true } w1

/-- kwcmo: clean (1), invalidate (2), or both (3) one line of a block's cache (R432). -/
def cacheMaint (b line op : Nat) (w : MemIo) : MemIo :=
  match (cacheOf w.mem b).find? (·.1 == line) with
  | none => w
  | some e =>
    let w1 := if op = 2 then w else writeBack line e.2 w
    if op = 1 then
      { w1 with mem := { w1.mem with caches := mput w1.mem.caches b ((cacheOf w1.mem b).map (fun x =>
          if x.1 = line then (x.1, { x.2 with dirty := false }) else x)) } }
    else { w1 with mem := cacheDel b line w1.mem }

/-- Every dirty line of a block's cache is written back and the cache is emptied (R37). -/
def cacheFlush (b : Nat) (w : MemIo) : MemIo :=
  let w1 := (cacheOf w.mem b).foldl (fun w e => writeBack e.1 e.2 w) w
  { w1 with mem := { w1.mem with caches := mdel w1.mem.caches b } }

/-! ### Reads and writes that bypass the caches, as engines make them (R480, R483) -/

/-- Bytes of attached memory, line by line; none where a line returns poison. `fuel` bounds the lines. -/
def attachedRead : Nat → Nat → Nat → MemIo → Option Bytes × MemIo
  | 0, _, _, w => (some [], w)
  | fuel + 1, a, n, w =>
    if n = 0 then (some [], w)
    else
      let k := min n (64 - a % 64)
      match memRead (a / 64) [] w with
      | (none, w1) => (none, w1)
      | (some d, w1) =>
        match attachedRead fuel (a + k) (n - k) w1 with
        | (none, w2) => (none, w2)
        | (some r, w2) => (some (slice d (a % 64) k ++ r), w2)

/-- Bytes written to attached memory, line by line; false where a part of a line is refused, with the address. -/
def attachedWrite : Nat → Nat → Bytes → MemIo → Option Nat × MemIo
  | 0, _, _, w => (none, w)
  | fuel + 1, a, d, w =>
    if d.isEmpty then (none, w)
    else
      let k := min d.length (64 - a % 64)
      match memWrite (a / 64) (a % 64) (d.take k) w with
      | (false, w1) => (some a, w1)
      | (true, w1) => attachedWrite fuel (a + k) (d.drop k) w1

end Sys2Proof.Machine
end

