-- ==== Sys2Proof/Machine/StartOps.lean ====
section
/-!
DEFINITION. What the staged start shares with the units that can hold it: the reason code and HELD of START_STATUS (R63,
R66).
-/
namespace Sys2Proof.Machine

/-- A reason code, in START_STATUS and 02:0001. -/
def reasonSet (code : Nat) (s : State) : State :=
  on (dset (idx 0x020001 0) code) { s with start := { s.start with reason := code } }

/-- Start is held at its stage for a reason. -/
def startHeld (code : Nat) (s : State) : State :=
  let s1 := reasonSet code s
  startPut { s1.start with held := true } s1

/-- The hold ends. -/
def startUnheld (s : State) : State :=
  let s1 := reasonSet 0 s
  startPut { s1.start with held := false } s1

end Sys2Proof.Machine
end

