-- ==== Sys2Proof/Machine/BootOps.lean ====
section
/-!
DEFINITION. The boot flash and its image slots: layout (R69), image header and load entries (R71, R72), seal and retire
records (R73, R74), validity and selection (R75 to R77), programming, and the violations of class 7.
Choices of the model coded here, by entry of the assumption log: DEDUCED 21, 24; PRESUMED 11.
-/
namespace Sys2Proof.Machine

/-! ### The flash (R69, R70) -/

/-- Bytes of the flash; an erased byte reads 0xFF. -/
def flashRead (f : Mem) (a n : Nat) : Bytes := memGets 0xFF f a n

/-- Base of slot A (0) or B (1). -/
def slotBase (k : Nat) : Nat := 0x01000000 + 0x03000000 * k

/-- Bytes of a slot. -/
def slotSpan : Nat := 0x03000000

/-- Programming clears bits only. -/
def flashWrite (a : Nat) : Bytes → Mem → Mem
  | [], f => f
  | b :: bs, f => flashWrite (a + 1) bs (memPut 0xFF f a (b &&& memGet 0xFF f a))

/-- R563, class 7: the partner field. -/
def flashPartner (slot addr : Nat) : Bytes := le 1 slot ++ le 3 0 ++ le 4 addr

/-! ### The image header (R71, R72) -/

/-- The header of a slot. -/
def slotHeader (f : Mem) (k : Nat) : Bytes := flashRead f (slotBase k) 4096

/-- Load entry `n` of a header. -/
def loadEntry (h : Bytes) (n : Nat) : Bytes := slice h (0x100 + 32 * n) 32

/-- Load entries of a header. -/
def loadCount (h : Bytes) : Nat := field h 0x1C 2

/-- Body bytes of an image. -/
def bodyLen (h : Bytes) : Nat := field h 0xC 4

/-- R72: a piece for the cells lies wholly in cell, block or region SRAM. The steward core's memory has no size in the spec. -/
def pieceFits (m : MemTile) (e : Bytes) : Bool :=
  match field e 0 1 with
  | 1 => true
  | 2 => sramRange m (field e 0x10 8) (field e 8 4)
  | _ => false

/-- Two pieces overlap in their target. -/
def piecesOverlap (a b : Bytes) : Bool :=
  field a 0 1 == field b 0 1 && decide (field a 0x10 8 < field b 0x10 8 + field b 8 4) &&
  decide (field b 0x10 8 < field a 0x10 8 + field a 8 4)

/-- The offset of the first bad field of a load entry, if any. -/
def entryFault (m : MemTile) (h : Bytes) (n : Nat) : Option Nat :=
  let e := loadEntry h n
  let o := 0x100 + 32 * n
  if loadCount h ≤ n then (if allZero e then none else some o)
  else if field e 0 1 ≠ 1 ∧ field e 0 1 ≠ 2 then some o
  else if 2 ≤ field e 1 1 then some (o + 1)
  else if field e 2 2 ≠ 0 then some (o + 2)
  else if bodyLen h < field e 4 4 + field e 8 4 then some (o + 4)
  else if field e 0xC 4 ≠ 0 then some (o + 0xC)
  else if !pieceFits m e || (List.range n).any (fun k => piecesOverlap e (loadEntry h k)) then some (o + 0x10)
  else none

/-- Load entries of a header with a target. -/
def entriesFor (h : Bytes) (t : Nat) : List Bytes := ((List.range (loadCount h)).map (loadEntry h)).filter (fun e => field e 0 1 == t)

/-- R72: exactly one entry point for a target used. -/
def entryOk (h : Bytes) (t : Nat) : Bool :=
  (entriesFor h t).isEmpty || ((entriesFor h t).filter (fun e => (field e 1 1).testBit 0)).length == 1

/-- The byte offset of the first header field that fails a rule of R71 or R72; none where every field passes. -/
def headerFault (m : MemTile) (h : Bytes) : Option Nat :=
  if field h 0 4 ≠ 0x4D49574B then some 0
  else if field h 4 2 ≠ 1 then some 4
  else if 3 < field h 6 1 then some 6
  else if field h 7 1 ≠ 0 then some 7
  else if 256 < field h 8 2 then some 8
  else if field h 0xA 2 ≠ 0 then some 0xA
  else if bodyLen h < 1 ∨ 0x02FEF000 < bodyLen h then some 0xC
  else if loadCount h < 1 ∨ 32 < loadCount h then some 0x1C
  else if field h 0x1E 2 ≠ 0 then some 0x1E
  else if !allZero (slice h 0xF0 16) then some 0xF0
  else
    match (List.range 32).findSome? (entryFault m h) with
    | some o => some o
    | none =>
      if !allZero (slice h 0x500 0xAA0) then some 0x500
      else if !(entryOk h 1 && entryOk h 2) then some 0x100 else none

/-- The root key hash matches its fuse and the key is not revoked. -/
def headerKey (revoked : List Nat) (h : Bytes) : Bool :=
  decide (sha384 (slice h 0x50 96) = Config.rootKeyHash (field h 6 1)) && !revoked.contains (field h 6 1)

/-- The signature is valid. -/
def headerSig (h : Bytes) : Bool := ecdsaVerify (slice h 0x50 96) (slice h 0 0xFA0) (slice h 0xFA0 96)

/-- The fused epoch (R82). -/
def fusedEpoch (blown : List Nat) : Nat := blown.foldl (fun e n => max e (n + 1)) 0

/-! ### Seal and retire records (R73, R74) -/

/-- Address of record position `k`, 0 to 7 for seals, 8 to 15 for retires. -/
def recordAt (slot k : Nat) : Nat := slotBase slot + 0x02FF0000 + 0x1000 * k

/-- A seal record. -/
def sealBytes (slot seq epoch time : Nat) (digest : Bytes) : Bytes :=
  let b := le 4 0x4C53574B ++ le 1 1 ++ le 1 slot ++ le 2 0 ++ le 4 seq ++ le 2 epoch ++ le 2 0 ++ le 8 time ++ padTo 48 digest ++
    List.replicate 52 0
  b ++ le 4 (crc32c b)

/-- The sequence of an intact seal at a position. -/
def sealSeq (f : Mem) (slot k : Nat) : Option Nat :=
  let b := flashRead f (recordAt slot k) 128
  let h := slotHeader f slot
  if field b 0 4 = 0x4C53574B ∧ field b 4 1 = 1 ∧ field b 5 1 = slot ∧ field b 0x7C 4 = crc32c (slice b 0 0x7C) ∧
      field b 0xC 2 = field h 8 2 ∧ slice b 0x18 48 = sha384 h then some (field b 8 4)
  else none

/-- The sequence of a slot's current seal, 0 where it is unsealed. -/
def slotSeq (f : Mem) (slot : Nat) : Nat := (((List.range 8).reverse.findSome? (sealSeq f slot))).getD 0

/-- A retire record. -/
def retireBytes (slot seq by_ time : Nat) : Bytes :=
  let b := le 4 0x5452574B ++ le 1 1 ++ le 1 slot ++ le 2 0 ++ le 4 seq ++ le 4 by_ ++ le 8 time ++ List.replicate 36 0
  b ++ le 4 (crc32c b)

/-- An intact retire record of a slot names the sequence of its current seal. -/
def slotRetired (f : Mem) (slot : Nat) : Bool :=
  slotSeq f slot != 0 && (span 8 8).any (fun k =>
    let b := flashRead f (recordAt slot k) 64
    field b 0 4 == 0x5452574B && field b 4 1 == 1 && field b 5 1 == slot && field b 0x3C 4 == crc32c (slice b 0 0x3C) &&
    field b 8 4 == slotSeq f slot)

/-- The next free position of a kind of record: seals from 0, retires from 8. -/
def freePos (f : Mem) (slot lo : Nat) : Option Nat :=
  (span lo 8).find? (fun k => (flashRead f (recordAt slot k) 128).all (· == 0xFF))

/-! ### Validity (R75) and the states of 02:0100 -/

/-- A slot holds nothing. -/
def slotErased (f : Mem) (slot : Nat) : Bool := (slotHeader f slot).all (· == 0xFF)

/-- The precheck: every rule of R75 but signature and digest. 7 where it passes, else the state the slot shows. -/
def slotPrecheck (b : Boot) (m : MemTile) (slot : Nat) : Nat :=
  let h := slotHeader b.flash slot
  if slotErased b.flash slot then 0
  else if (headerFault m h).isSome then 1
  else if !headerKey b.revoked h then 2
  else if field h 8 2 < fusedEpoch b.blown then 3
  else if slotSeq b.flash slot = 0 then 4 else 7

/-- The rest: 2 signature, 8 digest; 0 where both hold. -/
def slotProve (b : Boot) (slot : Nat) : Nat :=
  let h := slotHeader b.flash slot
  if !headerSig h then 2
  else if sha384 (flashRead b.flash (slotBase slot + 4096) (bodyLen h)) ≠ slice h 0x20 48 then 8 else 0

/-- The full verification of R75, without the seal where `sealed` is false. -/
def slotVerify (b : Boot) (m : MemTile) (slot : Nat) (sealed : Bool) : Nat :=
  let p := slotPrecheck b m slot
  if p = 7 || (p = 4 && !sealed) then
    (if slotProve b slot ≠ 0 then slotProve b slot else if slotRetired b.flash slot then 6 else 5)
  else p

/-- Whether a state of 02:0100 is that of a valid slot. -/
def stateValid (st : Nat) : Bool := st == 5 || st == 6

/-- 02:0100 and 02:0101 of a slot. -/
def slotReport (slot st seq : Nat) (io : Io) : Io :=
  let put (i n : Nat) (io : Io) : Io := if mget io.dic i = some (.num n) then io else dset i n io
  put (idx 0x020101 (slot + 1)) seq (put (idx 0x020100 (slot + 1)) st io)

/-- The slot that booted: 0xFF none. -/
def bootedSlot (io : Io) : Nat := dget io (idx 0x020103 0) 0xFF

/-- The highest current-seal sequence of both slots. -/
def topSeq (f : Mem) : Nat := max (slotSeq f 0) (slotSeq f 1)

/-! ### Selection (R76) -/

/-- What the boot ROM settles on: the slot to boot and 02:0104, and the states of the slots that failed full verification. -/
structure Choice where
  slot   : Option Nat
  code   : Nat
  failed : List (Nat × Nat)
  deriving DecidableEq, Repr

/-- R76: the candidate of a pool: the highest sequence, slot A of equals. -/
def candidate (f : Mem) (pool : List Nat) : Option Nat :=
  match pool with
  | [] => none
  | [k] => some k
  | _ => some (if slotSeq f 0 < slotSeq f 1 then 1 else 0)

/-- 02:0104 for what was found: the slots not retired, and those retired, that have passed so far. -/
def selectCode (f : Mem) (live spare : List Nat) : Nat :=
  if live.length = 2 then (if slotSeq f 0 = slotSeq f 1 then 3 else 2)
  else if live.length = 1 then (if spare.isEmpty then 1 else 0) else 4

/-- R76: candidates are tried in turn; `fuel` is the number of slots. -/
def choose (b : Boot) (m : MemTile) : Nat → List Nat → List Nat → List (Nat × Nat) → Choice
  | 0, _, _, failed => { slot := none, code := 5, failed := failed }
  | fuel + 1, live, spare, failed =>
    match candidate b.flash (if live.isEmpty then spare else live) with
    | none => { slot := none, code := 5, failed := failed }
    | some k =>
      if slotProve b k = 0 then { slot := some k, code := selectCode b.flash live spare, failed := failed }
      else choose b m fuel (live.filter (· != k)) (spare.filter (· != k)) (failed ++ [(k, slotProve b k)])

/-- R76 over both slots. -/
def bootChoice (b : Boot) (m : MemTile) : Choice :=
  let pre := [0, 1].filter (fun k => slotPrecheck b m k == 7)
  choose b m 2 (pre.filter (fun k => !slotRetired b.flash k)) (pre.filter (slotRetired b.flash)) []

/-- R78, step 4: both slots are prechecked. -/
def slotsPrecheck (s : State) : State :=
  [0, 1].foldl (fun s k => on (slotReport k (slotPrecheck s.boot s.mem k) (slotSeq s.boot.flash k)) s) s

/-! ### Seals and retirements (R80, R77) -/

/-- A seal with sequence `seq` is programmed in a slot; none where no position or number is left. -/
def sealSlot (slot seq time : Nat) (f : Mem) : Option Mem :=
  match freePos f slot 0 with
  | none => none
  | some k =>
    if 0xFFFFFFFE < seq then none
    else
      let h := slotHeader f slot
      some (flashWrite (recordAt slot k) (sealBytes slot seq (field h 8 2) time (sha384 h)) f)

/-- A retire record is programmed in a slot; none where no position is left or it is unsealed. -/
def retireSlot (slot time : Nat) (f : Mem) : Option Mem :=
  match freePos f slot 8 with
  | none => none
  | some k =>
    if slotSeq f slot = 0 then none
    else some (flashWrite (recordAt slot k) (retireBytes slot (slotSeq f slot) (slotSeq f (1 - slot)) time) f)

/-- Steps 5 and 6 of R80: the slot is sealed, and the other retired where it is valid; none where a record cannot be written. -/
def sealAndRetire (slot : Nat) (other : Bool) (time : Nat) (f : Mem) : Option Mem :=
  match sealSlot slot (topSeq f + 1) time f with
  | none => none
  | some f1 => if other then (match retireSlot (1 - slot) time f1 with | some f2 => some f2 | none => some f1) else some f1

end Sys2Proof.Machine
end

