-- ==== Sys2Proof/Machine/Parse.lean ====
section
/-!
DEFINITION. The parse graph and the key (R246 to R252), the flow hash (R283, R621), and what a receive completion says
of a frame (R622).
Choices of the model coded here, by entry of the assumption log: DEDUCED 43.
-/
namespace Sys2Proof.Machine

/-- One set of headers, outer or inner (R248). -/
structure Layer where
  present : Bool
  /-- offset of the Ethernet header, of L3 and of L4 -/
  ethOff : Nat
  l3Off  : Nat
  l4Off  : Nat
  dmac   : Nat
  smac   : Nat
  etype  : Nat
  tags   : List Nat
  /-- 0 none, 1 IPv4, 2 IPv6, 3 ARP -/
  l3     : Nat
  src    : Nat
  dst    : Nat
  proto  : Nat
  tclass : Nat
  frag   : Bool
  later  : Bool
  sport  : Nat
  dport  : Nat
  /-- halfword 27 -/
  misc   : Nat
  deriving DecidableEq, Repr

/-- Headers not reached. -/
def Layer.none : Layer :=
  { present := false, ethOff := 0, l3Off := 0, l4Off := 0, dmac := 0, smac := 0, etype := 0, tags := [], l3 := 0, src := 0,
    dst := 0, proto := 0, tclass := 0, frag := false, later := false, sport := 0, dport := 0, misc := 0 }

/-- What the parser has found so far. -/
structure Parsed where
  outer  : Layer
  inner  : Layer
  /-- the inner headers have begun -/
  isInner : Bool
  /-- 0 none, 1 VXLAN, 2 Geneve, 3 custom -/
  tunnel : Nat
  vni    : Nat
  err    : Bool
  trunc  : Bool
  roce   : Bool
  esp    : Bool
  /-- custom headers parsed: number, offset -/
  customs : List (Nat × Nat)
  deriving DecidableEq, Repr

/-- Nothing parsed. -/
def Parsed.none : Parsed :=
  { outer := Layer.none, inner := Layer.none, isInner := false, tunnel := 0, vni := 0, err := false, trunc := false,
    roce := false, esp := false, customs := [] }

/-- Where the parse stands: what comes next and at which offset. -/
inductive Pt where
  | ether (o : Nat)
  | etype (t o : Nat)
  | arp (o : Nat)
  | ip4 (o : Nat)
  | ip6 (o : Nat)
  /-- an IP protocol or next header; extension headers passed, and whether they may occur -/
  | proto (p o exts : Nat) (v6 : Bool)
  | udp (dport o : Nat)
  | custom (n o : Nat)
  | stop
  deriving DecidableEq, Repr

/-- Big-endian bytes of a frame. -/
def fb (f : Bytes) (o n : Nat) : Nat := beField f o n

/-- R247: why a header of `n` bytes at `o` cannot be taken: 0 it can, 1 the frame ends inside it, 2 it extends beyond
byte 255 of a longer frame. -/
def lacks (f : Bytes) (o n : Nat) : Nat :=
  if 256 < o + n && 256 < f.length then 2 else if f.length < o + n then 1 else 0

/-- The set of headers being parsed. -/
def cur (p : Parsed) : Layer := if p.isInner then p.inner else p.outer

/-- Changing it. -/
def setCur (p : Parsed) (l : Layer) : Parsed := if p.isInner then { p with inner := l } else { p with outer := l }

/-- The parse ends with PARSE_ERR (1) or TRUNCATED (2). -/
def bad (p : Parsed) (w : Nat) : Pt × Parsed := (.stop, if w = 2 then { p with trunc := true } else { p with err := true })

/-! ### Custom headers (R251, R252) -/

/-- The lowest-numbered definition, not parsed before, that a trigger kind and value select. -/
def customFor (defs : List Bytes) (p : Parsed) (kind value : Nat) : Option Nat :=
  (List.range defs.length).find? (fun n =>
    let d := (defs[n]?).getD []
    field d 0 1 == kind && !(p.customs.any (·.1 == n)) &&
      (if kind = 4 then field d 1 1 == value else field d 2 2 == value))

/-- Length of a custom header at `o`; none where its length byte lies beyond the frame. -/
def customLen (d : Bytes) (f : Bytes) (o : Nat) : Nat :=
  field d 7 1 + (fb f (o + field d 4 1) 1 &&& field d 5 1) * field d 6 1

/-! ### The fixed graph (R246) -/

/-- A trigger point: the custom headers first, then the fixed branch. -/
def branch (defs : List Bytes) (p : Parsed) (kind value o : Nat) (fixed : Pt) : Pt × Parsed :=
  match customFor defs p kind value with
  | some n => (.custom n o, p)
  | none => (fixed, p)

/-- What an IP protocol leads to. -/
def afterProto (f : Bytes) (p : Parsed) (q o exts : Nat) (v6 : Bool) : Pt × Parsed :=
  let l := cur p
  if v6 && (q == 0 || q == 43 || q == 60 || q == 44) then
    if (if p.isInner then 2 else 4) ≤ exts then bad p 1
    else
      let n := if q = 44 then 8 else (fb f (o + 1) 1 + 1) * 8
      let w := if lacks f o 8 ≠ 0 then lacks f o 8 else lacks f o n
      if w ≠ 0 then bad p w
      else
        let fo := if q = 44 then fb f (o + 2) 2 / 8 else 0
        let l' := { l with proto := fb f o 1, frag := l.frag || q == 44, later := l.later || fo != 0 }
        if fo ≠ 0 then (.stop, setCur p l') else (.proto (fb f o 1) (o + n) (exts + 1) true, setCur p l')
  else if q = 6 then
    let n := max 20 (fb f (o + 12) 1 / 16 * 4)
    let w := if lacks f o 20 ≠ 0 then lacks f o 20 else lacks f o n
    if w ≠ 0 then bad p w
    else (.stop, setCur p { l with sport := fb f o 2, dport := fb f (o + 2) 2, misc := fb f (o + 12) 2 % 512, l4Off := o })
  else if q = 17 then
    if lacks f o 8 ≠ 0 then bad p (lacks f o 8)
    else (.udp (fb f (o + 2) 2) (o + 8), setCur p { l with sport := fb f o 2, dport := fb f (o + 2) 2, l4Off := o })
  else if q = 1 || q = 58 then
    let n := if q = 1 then 8 else 4
    if lacks f o n ≠ 0 then bad p (lacks f o n)
    else (.stop, setCur p { l with misc := fb f o 2, l4Off := o })
  else if q = 50 && !p.isInner then
    if lacks f o 4 ≠ 0 then bad p (lacks f o 4)
    else (.stop, { setCur p { l with sport := fb f o 2, dport := fb f (o + 2) 2, l4Off := o } with esp := true })
  else (.stop, p)

/-- The start of the inner headers. -/
def beginInner (p : Parsed) (kind vni o : Nat) : Pt × Parsed :=
  (.ether o, { p with isInner := true, tunnel := kind, vni := vni })

/-- What a UDP destination port leads to, on the outer headers alone. -/
def afterUdp (f : Bytes) (p : Parsed) (q o : Nat) : Pt × Parsed :=
  if p.isInner then (.stop, p)
  else if q = 4789 then
    if lacks f o 8 ≠ 0 then bad p (lacks f o 8) else beginInner p 1 (fb f (o + 4) 3) (o + 8)
  else if q = 6081 then
    let n := 8 + fb f o 1 % 64 * 4
    let w := if lacks f o 8 ≠ 0 then lacks f o 8 else lacks f o n
    if w ≠ 0 then bad p w
    else if fb f (o + 2) 2 = 0x6558 then beginInner p 2 (fb f (o + 4) 3) (o + n)
    else (.stop, { p with tunnel := 2, vni := fb f (o + 4) 3 })
  else if q = 4791 then (.stop, { p with roce := true })
  else (.stop, p)

/-- One step of the parse. -/
def parseStep (defs : List Bytes) (f : Bytes) (pt : Pt) (p : Parsed) : Pt × Parsed :=
  match pt with
  | .ether o =>
    if lacks f o 14 ≠ 0 then bad p (lacks f o 14)
    else
      (.etype (fb f (o + 12) 2) (o + 14),
       setCur p { Layer.none with present := true, ethOff := o, dmac := fb f o 6, smac := fb f (o + 6) 6, etype := fb f (o + 12) 2 })
  | .etype t o =>
    match customFor defs p 1 t with
    | some n => (.custom n o, p)
    | none =>
      let l := cur p
      if t = 0x8100 || t = 0x88A8 then
        if (if p.isInner then 1 else 2) ≤ l.tags.length then (.stop, p)
        else if lacks f o 4 ≠ 0 then bad p (lacks f o 4)
        else (.etype (fb f (o + 2) 2) (o + 4), setCur p { l with tags := l.tags ++ [fb f o 2], etype := fb f (o + 2) 2 })
      else if t = 0x0806 then (.arp o, p)
      else if t = 0x0800 then (.ip4 o, p)
      else if t = 0x86DD then (.ip6 o, p)
      else (.stop, p)
  | .arp o =>
    if p.isInner then (.stop, p)
    else if lacks f o 28 ≠ 0 then bad p (lacks f o 28)
    else (.stop, setCur p { cur p with l3 := 3, l3Off := o, src := fb f (o + 14) 4, dst := fb f (o + 24) 4, misc := fb f (o + 6) 2 })
  | .ip4 o =>
    let ihl := fb f o 1 % 16 * 4
    if lacks f o 1 ≠ 0 then bad p (lacks f o 1)
    else if fb f o 1 / 16 ≠ 4 || ihl < 20 then bad p 1
    else if lacks f o ihl ≠ 0 then bad p (lacks f o ihl)
    else if fb f (o + 2) 2 < ihl then bad p 1
    else
      let fr := fb f (o + 6) 2
      let l' := { cur p with
        l3 := 1, l3Off := o, src := fb f (o + 12) 4, dst := fb f (o + 16) 4, proto := fb f (o + 9) 1,
        tclass := fb f (o + 1) 1, frag := fr.testBit 13 || fr % 8192 != 0, later := fr % 8192 != 0 }
      if fr % 8192 ≠ 0 then (.stop, setCur p l') else (.proto (fb f (o + 9) 1) (o + ihl) 0 false, setCur p l')
  | .ip6 o =>
    if lacks f o 1 ≠ 0 then bad p (lacks f o 1)
    else if fb f o 1 / 16 ≠ 6 then bad p 1
    else if lacks f o 40 ≠ 0 then bad p (lacks f o 40)
    else
      (.proto (fb f (o + 6) 1) (o + 40) 0 true,
       setCur p { cur p with
         l3 := 2, l3Off := o, src := fb f (o + 8) 16, dst := fb f (o + 24) 16, proto := fb f (o + 6) 1,
         tclass := fb f o 2 / 16 % 256 })
  | .proto q o exts v6 =>
    match customFor defs p 2 q with
    | some n => (.custom n o, p)
    | none => afterProto f p q o exts v6
  | .udp q o =>
    match customFor defs p 3 q with
    | some n => (.custom n o, if q = 4791 && !p.isInner then { p with roce := true } else p)
    | none => afterUdp f p q o
  | .custom n o =>
    let d := (defs[n]?).getD []
    let w0 := if field d 5 1 = 0 then 0 else lacks f o (field d 4 1 + 1)
    let len := customLen d f o
    if w0 ≠ 0 then bad p w0
    else if 64 < len then bad p 1
    else if lacks f o len ≠ 0 then bad p (lacks f o len)
    else
      let p1 := { p with customs := p.customs ++ [(n, o)] }
      match customFor defs p1 4 n with
      | some m => (.custom m (o + len), p1)
      | none =>
        let nx := o + field d 9 1
        match field d 8 1 with
        | 1 => if lacks f nx 2 ≠ 0 then bad p1 (lacks f nx 2) else (.etype (fb f nx 2) (o + len), p1)
        | 2 => if lacks f nx 1 ≠ 0 then bad p1 (lacks f nx 1) else (.proto (fb f nx 1) (o + len) 0 false, p1)
        | 3 => (.ip4 (o + len), p1)
        | 4 => (.ip6 (o + len), p1)
        | 5 => if p1.isInner then (.stop, p1) else beginInner p1 3 p1.vni (o + len)
        | _ => (.stop, p1)
  | .stop => (.stop, p)

/-- The parse, with fuel for the longest chain of headers R246 and R251 allow. -/
def parseFrom (defs : List Bytes) (f : Bytes) : Nat → Pt → Parsed → Parsed
  | 0, _, p => p
  | n + 1, pt, p =>
    match pt with
    | .stop => p
    | _ => parseFrom defs f n (parseStep defs f pt p).1 (parseStep defs f pt p).2

/-- R246: the parse of a frame under the custom definitions of a plate. -/
def parse (defs : List Bytes) (f : Bytes) : Parsed := parseFrom defs f 40 (.ether 0) Parsed.none

/-! ### The key (R248 to R250) -/

/-- The headers a key mode selects. -/
def selected (mode : Nat) (p : Parsed) : Layer := if mode.testBit 1 && p.tunnel != 0 then p.inner else p.outer

/-- Halfword 1 (R249). -/
def keyFlags (mode : Nat) (p : Parsed) : Nat :=
  let l := selected mode p
  b2n p.err * 0x8000 + b2n p.trunc * 0x4000 + l.l3 * 0x1000 + b2n l.frag * 0x800 + b2n l.later * 0x400 + p.tunnel * 0x100 +
  b2n (1 ≤ l.tags.length) * 0x80 + b2n (2 ≤ l.tags.length) * 0x40 + b2n p.roce * 0x20 + b2n p.esp * 0x10 +
  maskOf ((p.customs.map (·.1)).filter (· < 4))

/-- The custom extract (R252): 4 bytes of the lowest-numbered parsed custom header that has EXTRACT. -/
def customExtract (defs : List Bytes) (f : Bytes) (p : Parsed) : Bytes :=
  match (List.range 4).find? (fun n => (field ((defs[n]?).getD []) 0x0B 1).testBit 0 && p.customs.any (·.1 == n)) with
  | none => le 4 0
  | some n =>
    let o := ((p.customs.find? (·.1 == n)).map (·.2)).getD 0
    slice f (o + field ((defs[n]?).getD []) 0x0A 1) 4

/-- The 64-byte key. -/
def keyOf (mode : Nat) (defs : List Bytes) (ingress : Nat) (f : Bytes) (p : Parsed) : Bytes :=
  let l := selected mode p
  be 2 ingress ++ be 2 (keyFlags mode p) ++ be 2 l.etype ++ be 2 (l.tags.headD 0) ++ be 2 ((l.tags.drop 1).headD 0) ++
  be 6 (if mode.testBit 0 then l.smac else l.dmac) ++ be 16 l.src ++ be 16 l.dst ++ be 1 l.proto ++ be 1 l.tclass ++
  (if l.later then be 6 0 else be 2 l.sport ++ be 2 l.dport ++ be 2 l.misc) ++ be 4 p.vni ++ customExtract defs f p

/-- Halfword `h` of a key. -/
def halfword (key : Bytes) (h : Nat) : Nat := beField key (2 * h) 2

/-- `w` key bits from position `p`, the bit at `p` most significant (R255). -/
def keyBits (key : Bytes) (p w : Nat) : Nat :=
  let n := beField key (p / 8) 3
  (n / 2 ^ (24 - p % 8 - w)) % 2 ^ w

/-! ### Hash functions (R283) -/

/-- 32-bit rotation to the left. -/
def rotl32 (v n : Nat) : Nat := (v * 2 ^ (n % 32) + v / 2 ^ (32 - n % 32)) % 2 ^ 32

/-- The fold of R283 over big-endian 32-bit words of a key. -/
def foldHash (step base : Nat) (key : Bytes) : Nat :=
  (List.range (key.length / 4)).foldl (fun h i => h ^^^ rotl32 (beField key (4 * i) 4) ((step * i + base) % 32)) 0

/-- R283: bucket of a MAC and bridge domain. -/
def brBucket (mac : Bytes) (bd : Nat) : Nat :=
  let h := foldHash 9 1 (slice mac 0 6 ++ be 2 bd)
  (h ^^^ (h / 2 ^ 15)) % 2 ^ 15

/-- R283: the two candidate buckets of a connection key. -/
def connBuckets (key : Bytes) : Nat × Nat :=
  let a := foldHash 7 0 key
  let b := foldHash 11 3 key
  ((a ^^^ (a / 2 ^ 23)) % 2 ^ 23, (b ^^^ (b / 2 ^ 23)) % 2 ^ 23)

/-- R286: the 40-byte connection key of a parse key and a zone. -/
def connKey (key : Bytes) (zone : Nat) : Bytes :=
  slice key 16 16 ++ slice key 32 16 ++ slice key 50 4 ++ slice key 48 1 ++ le 1 (halfword key 1 / 0x1000 % 4) ++ le 2 zone

/-- Whether a key's L3 kind is IPv4 or IPv6. -/
def keyIsIp (key : Bytes) : Bool :=
  halfword key 1 / 0x1000 % 4 == 1 || halfword key 1 / 0x1000 % 4 == 2

/-- R621: the flow hash of a parse key. -/
def flowHash (key : Bytes) : Nat := if keyIsIp key then foldHash 7 0 (connKey key 0) else 0

/-! ### Checksums -/

/-- The Internet checksum's ones' complement sum of big-endian 16-bit words, the last byte padded with zero. -/
def onesSum (bs : Bytes) : Nat :=
  let s := (List.range ((bs.length + 1) / 2)).foldl (fun s i => s + beField bs (2 * i) 2) 0
  (s % 65536 + s / 65536) % 65536 + (s % 65536 + s / 65536) / 65536

/-- Bytes of the outermost IPv4 header. -/
def ip4Header (f : Bytes) (o : Nat) : Bytes := slice f o (fb f o 1 % 16 * 4)

/-- End of the IP packet that starts at `o`. -/
def ipEnd (f : Bytes) (l : Layer) : Nat :=
  if l.l3 = 1 then l.l3Off + fb f (l.l3Off + 2) 2 else l.l3Off + 40 + fb f (l.l3Off + 4) 2

/-- The pseudo-header of a layer's TCP or UDP segment. -/
def pseudo (l : Layer) (proto len : Nat) : Bytes :=
  if l.l3 = 1 then be 4 l.src ++ be 4 l.dst ++ be 1 0 ++ be 1 proto ++ be 2 len
  else be 16 l.src ++ be 16 l.dst ++ be 4 len ++ be 3 0 ++ be 1 proto

/-- L4 of a layer as R622 names it. -/
def l4Of (p : Parsed) : Nat :=
  let l := p.outer
  if l.l4Off = 0 then 0
  else if p.roce then 5
  else if p.esp then 4
  else if l.proto = 6 then 1
  else if l.proto = 17 then 2
  else if l.proto = 1 || l.proto = 58 then 3 else 0

/-- R622: packet type of a frame under the fixed headers. -/
def packetType (f : Bytes) : Nat :=
  let p := parse [] f
  b2n p.outer.frag * 128 + (if p.tunnel < 3 then p.tunnel else 0) * 32 + l4Of p * 4 + p.outer.l3

/-- R622: checksum status of a frame. -/
def checksumStatus (f : Bytes) : Nat :=
  let p := parse [] f
  let l := p.outer
  let ip := l.l3 == 1
  let ipGood := ip && onesSum (ip4Header f l.l3Off) == 0xFFFF
  let proto := if l.proto = 6 then 6 else 17
  let fin := ipEnd f l
  let l4 := (l4Of p == 1 || l4Of p == 2 || l4Of p == 5) && !l.frag && decide (fin ≤ f.length) && decide (l.l4Off + 8 ≤ fin) &&
    !(proto == 17 && fb f (l.l4Off + 6) 2 == 0)
  let seg := slice f l.l4Off (fin - l.l4Off)
  let l4Good := l4 && onesSum (pseudo l proto seg.length ++ seg) == 0xFFFF
  b2n ip + 2 * b2n ipGood + 4 * b2n l4 + 8 * b2n l4Good

/-- The ones' complement of a sum, as a checksum field carries it. -/
def checksumOf (bs : Bytes) : Nat := 0xFFFF - onesSum bs

/-- A frame with its outermost IPv4 header checksum filled in (R197). -/
def fillIpSum (f : Bytes) : Bytes :=
  let l := (parse [] f).outer
  if l.l3 ≠ 1 then f
  else
    let z := splice f (l.l3Off + 10) (be 2 0)
    splice z (l.l3Off + 10) (be 2 (checksumOf (ip4Header z l.l3Off)))

/-- A frame with the checksum of its outermost TCP or UDP segment filled in (R197). -/
def fillL4Sum (f : Bytes) : Bytes :=
  let p := parse [] f
  let l := p.outer
  let fin := ipEnd f l
  let at_ := if l.proto = 6 then 16 else 6
  if !(l4Of p == 1 || l4Of p == 2 || l4Of p == 5) || l.frag || decide (f.length < fin) then f
  else
    let z := splice f (l.l4Off + at_) (be 2 0)
    let seg := slice z l.l4Off (fin - l.l4Off)
    let c := checksumOf (pseudo l (if l.proto = 6 then 6 else 17) seg.length ++ seg)
    splice z (l.l4Off + at_) (be 2 (if c = 0 && l.proto = 17 then 0xFFFF else c))

/-- A frame with a tag pushed as the outermost. -/
def pushTag (f : Bytes) (tpid tci : Nat) : Bytes := slice f 0 12 ++ be 2 tpid ++ be 2 tci ++ f.drop 12

/-- Whether a frame's outermost EtherType is a tag. -/
def tagged (f : Bytes) : Bool := fb f 12 2 == 0x8100 || fb f 12 2 == 0x88A8

end Sys2Proof.Machine
end

