-- ==== Sys2Proof/Machine/RingOps.lean ====
section
/-!
DEFINITION. Descriptor rings (chapter 10): scanning and accepting submission entries (R187 to R194), the checks of
entries (R195 to R198, R202, R207), completions in fetch order (R201), full completion rings (R205, R206), and the
creation and deletion of rings (R212, R213).
Choices of the model coded here, by entry of the assumption log: DEDUCED 40, 41, 84.
-/
namespace Sys2Proof.Machine

/-! ### Rings as a set -/

/-- A ring no field of which has been set. -/
def Ring.blank (owner : Nat) : Ring :=
  { owner := owner, serial := 0, isCq := false, admin := false, fmt := 2, kind := 0, log2n := 4, base := 0, counter := 0,
    state := .active, cause := 0, latched := 0, sheepdog := false, page := 0, slot := 0, drain := none, cq := 0,
    weight := 1, doubleRead := false, vport := 0, scan := false, scanAgain := false, fetched := [], ctlblk := 0,
    seen := 0, vector := 0, k := 0, t := 0, autoArm := false, autoArm0 := false, armed := false, since := 0,
    firstAt := 0, quota := 0, sram := false, reads := [], awaiting := [], overflow := [], spill := [],
    stopped := false, heldCount := 0, lost := 0 }

/-- Submission rings bound to completion ring `id`. -/
def boundTo (io : Io) (id : Nat) : List (Nat × Ring) :=
  io.rings.rings.filter (fun p => !p.2.isCq && p.2.cq == id)

/-- R205: bytes of the pool 06:0001 reserved. -/
def spillReserved (io : Io) : Nat :=
  ((io.rings.rings.filter (fun p => p.2.isCq && !p.2.sram)).map (fun p => p.2.quota * 64)).sum + io.nvSpill

/-- 06:0000, 06:0002, 00:0102.01 and 00:0103.01 follow the rings in existence (R125, R217). -/
def ringTotals (io : Io) : Io :=
  dset (idx 0x000103 1) ((io.rings.rings.filter (fun p => p.2.fmt == 2)).length)
    (dset (idx 0x000102 1) ((io.rings.rings.filter (fun p => p.2.fmt == 1)).length)
      (dset (idx 0x060002 0) (ceilDiv (spillReserved io) 1024) (dset (idx 0x060000 0) io.rings.rings.length io)))

/-- Whether completion ring `id` suspends the rings bound to it (R209). -/
def cqHolds (io : Io) (id : Nat) : Bool :=
  match ringOf io id with
  | some r => r.state == .overflow || r.state == .error
  | none => false

/-! ### Scanning (R192 to R194) -/

/-- R193: reads of up to eight consecutive entries from the consumer counter are issued. -/
def scanReads (r : Ring) (io : Io) : Io :=
  (List.range (min 8 (64 - r.fetched.length))).foldl
    (fun io k => hostRead r.owner (r.base.toNat + 64 * ((r.counter.toNat + k) % 2 ^ r.log2n)) 64 io) io

/-- R193, R194: a pending scan starts where the ring is ACTIVE, no batch is under way and fewer than 64 of its entries
await completion. -/
def kick (id : Nat) (io : Io) : Io :=
  match ringOf io id with
  | none => io
  | some r =>
    if r.state == .active && !r.scan && r.scanAgain && decide (r.fetched.length < 64) && !frozen io r.owner &&
        !(r.sheepdog && io.rings.adopting) then
      scanReads r (ringPut id { r with scan := true, scanAgain := false } io)
    else io

/-! ### Ring-level faults (R207, R208) -/

/-- The status register of an admin queue reports a ring-level fault (R210). -/
def admFault (r : Ring) (cause : Nat) (io : Io) : Io :=
  if r.admin then regPut .admStatus r.owner 15 8 cause (regOn .admStatus r.owner (if r.isCq then 2 else 1) io) else io

/-- R208: a ring-level fault of a submission ring at its consumer counter. -/
def sqFault (id cause : Nat) (io : Io) : Io :=
  match ringOf io id with
  | none => io
  | some r =>
    let io1 := ringPut id { r with state := .error, cause := cause, latched := r.counter.toNat, scan := false, scanAgain := false } io
    let io2 := admFault r cause (bump32 0x060010 cause io1)
    let io3 := violate 0x0109 (hostPartner io2 r.owner 0) (le 4 (id % 2 ^ 20 + cause * 2 ^ 24) ++ le 4 r.counter.toNat) io2
    event r.owner 0x0601 id r.counter.toNat cause [] io3

/-- R206: the completion ring enters ERROR; `lost` completions are counted at once. Its bound rings stay, or become,
suspended. -/
def cqError (id cause lost : Nat) (io : Io) : Io :=
  match ringOf io id with
  | none => io
  | some r =>
    let io1 := ringPut id { r with state := .error, cause := cause, latched := r.counter.toNat, lost := r.lost + lost } io
    let io2 := (boundTo io1 id).foldl (fun io p =>
      if p.2.state == .active then ringPut p.1 { p.2 with state := .suspended, scanAgain := p.2.scanAgain || p.2.scan, scan := false } io
      else io) io1
    let io3 := bumpBy 64 (idx 0x060012 0) lost (admFault r cause io2)
    eventAndPf r.owner 0x0602 id r.counter.toNat (r.lost + lost) [] io3

/-- R208: cause 0x05 on a completion ring: counted, and the ring enters ERROR with what awaits it lost (R216). -/
def cqFault (id : Nat) (io : Io) : Io :=
  match ringOf io id with
  | none => io
  | some r =>
    if r.state == .error then io
    else cqError id 5 r.awaiting.length (bump32 0x060010 5 (ringPut id { r with awaiting := [] } io))

/-! ### Completions of fetched entries, in fetch order (R201) -/

/-- The ready completions at the head of a list of fetched entries. -/
def readyHead (l : List Fetched) : List Fetched := l.takeWhile (fun f => f.done.isSome)

/-- Completions ready at the head of a ring's fetched entries are delivered, each with the consumer counter of that
moment, and a pending scan may go on. -/
def deliver (id : Nat) (io : Io) : Io :=
  match ringOf io id with
  | none => io
  | some r =>
    let ready := readyHead r.fetched
    let io1 := ringPut id { r with fetched := r.fetched.drop ready.length } io
    let drop := r.admin && (admOf io r.owner).stopping
    kick id (ready.foldl (fun io f => match f.done with
      | some (some c) => if drop then io else complete r.cq { c with consumer := r.counter.toNat } io
      | _ => io) io1)

/-- The fetched entry at a counter value gets its completion `c`; a success of an entry with SUPPRESS set gives none. -/
def finish (id counter : Nat) (c : Cpl) (io : Io) : Io :=
  match ringOf io id with
  | none => io
  | some r =>
    deliver id (ringPut id { r with fetched := r.fetched.map (fun f =>
      if f.counter == counter && f.done.isNone then { f with started := true, done := some (if f.suppress && c.status == 0 then none else some c) }
      else f) } io)

/-- A completion of a fetched entry with nothing but its status. -/
def cplOf (id : Nat) (r : Ring) (f : Fetched) (status bytes detail time : Nat) (extra : Bytes) : Cpl :=
  { kind := if r.admin then 3 else if 16 ≤ r.kind then 18 else r.kind, status := status, held := false, tag := f.tag, ring := id, consumer := 0,
    bytes := bytes, detail := detail, time := time, extra := extra }

/-- The entry fetched at a counter value and not yet completed. -/
def fetchedAt (r : Ring) (counter : Nat) : Option Fetched :=
  r.fetched.find? (fun f => f.counter == counter && f.done.isNone)

/-! ### Entries (R195 to R198) -/

/-- Phase bit of an entry. -/
def entryPhase (fmt : Nat) (b : Bytes) : Bool := if fmt = 1 then (field b 0x3F 1).testBit 7 else (field b 0 1).testBit 0

/-- FORMAT field of an entry. -/
def entryFormat (fmt : Nat) (b : Bytes) : Nat := if fmt = 1 then field b 0x3F 1 % 16 else field b 0 1 / 16

/-- Element `k` of a format v2 entry or of a list segment that starts at `o`: address, length, type, reserved. -/
def elemAt (b : Bytes) (o k : Nat) : Nat × Nat × Nat × Nat :=
  (field b (o + 16 * k) 8, field b (o + 16 * k + 8) 4, field b (o + 16 * k + 12) 1, field b (o + 16 * k + 13) 3)

/-- What walking an external list finds: its data elements, a ring-level cause (R207), or a status (R202). -/
inductive ListWalk where
  | elems (l : List (Nat × Nat))
  | ring (cause : Nat)
  | status (s : Nat)
  deriving DecidableEq, Repr

/-- R196: the walk from a chain element (address `a`, length `n`); `seen` holds the segments visited and `count` the
elements so far, `acc` the data elements. -/
def walkList (segs : List Segment) : Nat → List Nat → Nat → Nat → Nat → List (Nat × Nat) → ListWalk
  | 0, _, _, _, _, _ => .ring 2
  | fuel + 1, seen, count, a, n, acc =>
    if a % 16 ≠ 0 || n % 16 ≠ 0 || n < 16 || 4096 < n then .ring 3
    else if seen.contains a then .ring 1
    else if 256 < count + n / 16 then .ring 2
    else
      match (segs.find? (fun s => s.addr == a)).bind (·.bytes) with
      | none => .status 5
      | some b =>
        let es := (List.range (n / 16)).map (elemAt b 0)
        let body := es.dropLast
        if body.any (fun e => e.2.2.1 != 0) then .ring 3
        else
          match es.getLast? with
          | none => .ring 3
          | some e =>
            if es.any (fun e => e.2.2.2 != 0) then .status 9
            else if e.2.2.1 = 0 then .elems (acc ++ es.map (fun e => (e.1, e.2.1)))
            else if e.2.2.1 = 1 then
              walkList segs fuel (a :: seen) (count + n / 16) e.1 e.2.1 (acc ++ body.map (fun e => (e.1, e.2.1)))
            else .ring 3

/-- The data elements of a format v2 entry, inline or from its list. -/
def entryElems (b : Bytes) (segs : List Segment) : ListWalk :=
  let n := field b 3 1
  if (field b 2 1).testBit 1 then
    let e := elemAt b 0x10 0
    if e.2.2.1 ≠ 1 then .ring 3 else walkList segs 257 [] 1 e.1 e.2.1 []
  else
    let es := (List.range (min n 3)).map (elemAt b 0x10)
    if es.any (fun e => e.2.2.1 != 0) then .ring 3 else .elems (es.map (fun e => (e.1, e.2.1)))

/-- R202 class Entry, statuses 0x02 and 0x04, over data elements. -/
def elemStatus (es : List (Nat × Nat)) (translated : Bool) : Nat :=
  if es.any (fun e => decide (65535 < e.2)) then 2
  else if es.any (fun e => e.2 == 0) || !translated then 4 else 0

/-- The reserved bits of a format v2 TRANSMIT or RECEIVE_POST entry that are set (R7, R195 to R197). -/
def reservedV2 (b : Bytes) (op : Nat) : Bool :=
  let n := if (field b 2 1).testBit 1 then 1 else min (field b 3 1) 3
  bits (field b 0 1) 3 1 != 0 || field b 2 1 / 4 != 0 ||
  (if op = 1 then field b 0x0C 1 / 16 != 0 || field b 0x0D 3 != 0 else field b 8 8 != 0) ||
  !allZero (slice b (0x10 + 16 * n) (48 - 16 * n)) || ((List.range n).any (fun k => (elemAt b 0x10 k).2.2.2 != 0))

/-- The element count of a format v2 entry is in range: 1 to 3, or 0 with SGL. -/
def countOk (b : Bytes) : Bool :=
  if (field b 2 1).testBit 1 then field b 3 1 == 0 else decide (1 ≤ field b 3 1) && decide (field b 3 1 ≤ 3)

/-- What becomes of one entry whose phase matched: accepted with what it asks for and an entry-level status (0 none),
or a ring-level fault. -/
inductive Taken where
  | entry (f : Fetched) (status : Nat)
  | fault (cause : Nat)
  deriving DecidableEq, Repr

/-- An accepted entry before its operands are known. -/
def fetchedBlank (r : Ring) (b : Bytes) : Fetched :=
  { counter := r.counter.toNat, tag := if r.fmt = 1 then field b 0x30 4 else field b 4 4,
    opcode := if r.fmt = 1 then field b 0x34 1 else field b 1 1,
    suppress := !r.admin && if r.fmt = 1 then (field b 0x36 1).testBit 0 else (field b 2 1).testBit 0,
    started := false, length := 0, timestamp := false, vlan := none, ipSum := false, l4Sum := false, elems := [],
    entry := b, txTime := none, dropped := false, done := none }

/-- R198: a format v1 entry. -/
def takeV1 (r : Ring) (b : Bytes) (translated : Bool) : Taken :=
  let f := fetchedBlank r b
  let n := field b 0x35 1
  let es := (List.range (min n 3)).map (fun k => (field b (16 * k) 8, field b (16 * k + 8) 4))
  let sum := (es.map (·.2)).sum
  let fl := field b 0x36 1
  let len := field b 0x38 2
  let f' := { f with
    length := if f.opcode = 1 then len else sum, elems := es, vlan := if fl.testBit 1 then some (field b 0x3A 2) else none,
    ipSum := fl.testBit 2, l4Sum := fl.testBit 3 }
  let resv := fl / 16 != 0 || field b 0x37 1 != 0 || field b 0x3C 3 != 0 || bits (field b 0x3F 1) 6 4 != 0 ||
    ((List.range (min n 3)).any (fun k => field b (16 * k + 12) 4 != 0)) ||
    !allZero (slice b (16 * min n 3) (48 - 16 * min n 3)) || (f.opcode == 2 && field b 0x38 4 != 0)
  if f.opcode ≠ r.kind then .entry f 1
  else if resv then .entry f 9
  else if n < 1 || 3 < n || (f.opcode = 1 && (len < 14 || 9600 < len || len ≠ sum)) then .entry f 2
  else .entry f' (elemStatus es translated)

/-- R195, R212: whether an opcode is known and of a ring's kind. -/
def opcodeOfKind (kind op : Nat) (admin : Bool) : Bool :=
  op == 0 ||
  (if admin then decide (0x81 ≤ op) && decide (op ≤ 0x86)
   else if kind = 1 || kind = 2 then op == kind
   else decide (0x10 ≤ op) && decide (op ≤ 0x3F))

/-- R195 to R197: a format v2 entry. A NOP is checked for its control and flag bits alone; an admin or RDMA entry is
checked further by its own command. On an admin ring the status is one of R214 (R200). -/
def takeV2 (r : Ring) (b : Bytes) (segs : List Segment) (translated : Bool) : Taken :=
  let f := fetchedBlank r b
  if !opcodeOfKind r.kind f.opcode r.admin then .entry f (if r.admin then 0x10 else 1)
  else if f.opcode = 0 then
    .entry f (if bits (field b 0 1) 3 1 = 0 && field b 2 1 / 4 = 0 then 0 else if r.admin then 0x10 else 9)
  else if r.admin || 3 ≤ r.kind then
    match (if (field b 2 1).testBit 1 && !r.admin then entryElems b segs else .elems []) with
    | .ring c => .fault c
    | .status s => .entry f s
    | .elems es => .entry { f with elems := es } 0
  else if reservedV2 b f.opcode then .entry f 9
  else if !countOk b || (f.opcode == 1 && (decide (field b 8 2 < 14) || decide (9600 < field b 8 2))) then .entry f 2
  else
    match entryElems b segs with
    | .ring c => .fault c
    | .status s => .entry f s
    | .elems es =>
      let sum := (es.map (·.2)).sum
      let len := field b 8 2
      let o := field b 0x0C 1
      let f' := { f with
        length := if f.opcode = 1 then len else sum, elems := es,
        vlan := if f.opcode = 1 && o.testBit 0 then some (field b 0x0A 2) else none,
        ipSum := f.opcode == 1 && o.testBit 1, l4Sum := f.opcode == 1 && o.testBit 2,
        timestamp := f.opcode == 1 && o.testBit 3 }
      if f.opcode = 1 && len ≠ sum then .entry f 2
      else .entry f' (elemStatus es translated)

/-- R207: FORMAT first, then the entry itself. -/
def takeEntry (r : Ring) (b : Bytes) (e : EntryRead) : Taken :=
  if entryFormat r.fmt b ≠ r.fmt then .fault 4
  else if r.fmt = 1 then takeV1 r b e.translated else takeV2 r b e.segments e.translated

/-! ### Accepting a batch (R191, R193) -/

/-- R188: the phase a consumer at its counter expects. -/
def wantPhase (r : Ring) : Bool := phaseAt r.log2n r.counter

/-- One entry of a batch, and whether the batch goes on. -/
def acceptOne (id : Nat) (e : EntryRead) (io : Io) : Io × Bool :=
  match ringOf io id with
  | none => (io, false)
  | some r =>
    match e.entry with
    | none => (sqFault id 5 io, false)
    | some b1 =>
      if entryPhase r.fmt b1 ≠ wantPhase r then (io, false)
      else
        let second : Option Bytes := if r.doubleRead then e.second else some b1
        match second with
        | none => (sqFault id 5 io, false)
        | some b =>
          if entryPhase r.fmt b ≠ wantPhase r then (bump32 0x060013 0 io, false)
          else
            match takeEntry r b e with
            | .fault c => (sqFault id c io, false)
            | .entry f st =>
              let f' := if st = 0 then f else { f with done := some (some (cplOf id r f st 0 0 0 [])) }
              (ringPut id { r with counter := r.counter + 1, fetched := r.fetched ++ [f'] } io, true)

/-- The entries of a batch in counter order, up to the first that ends it; true where all were accepted. -/
def acceptBatch (id : Nat) : List EntryRead → Io → Io × Bool
  | [], io => (io, true)
  | e :: es, io =>
    match acceptOne id e io with
    | (io1, true) => acceptBatch id es io1
    | (io1, false) => (io1, false)

/-- R193: a batch returns. After eight accepted entries, or where a doorbell came meanwhile, the engine scans on. -/
def batchReturn (id : Nat) (es : List EntryRead) (io : Io) : Io :=
  match ringOf io id with
  | none => io
  | some r =>
    if !r.scan then io
    else if r.state ≠ .active then ringPut id { r with scan := false } io
    else
      let got := acceptBatch id (es.take (min 8 (64 - r.fetched.length))) io
      match ringOf got.1 id with
      | none => got.1
      | some r1 =>
        deliver id (ringPut id { r1 with
          scan := false,
          scanAgain := r1.state == .active && (r1.scanAgain || (got.2 && decide (8 ≤ es.length))) } got.1)

/-! ### A full completion ring (R203, R205) -/

/-- R205 step 2: fetching stops on every ring bound to the completion ring, and event 0x0603 is raised. -/
def suspendBound (id : Nat) (io : Io) : Io :=
  match ringOf io id with
  | none => io
  | some r =>
    let io1 := ringPut id { r with state := .overflow, stopped := true } io
    let io2 := (boundTo io1 id).foldl (fun io p =>
      if p.2.state == .active then ringPut p.1 { p.2 with state := .suspended, scanAgain := p.2.scanAgain || p.2.scan, scan := false } io
      else io) io1
    event r.owner 0x0603 id r.counter.toNat (boundTo io2 id).length [] io2

/-- R209: the suspended rings bound to a completion ring become ACTIVE, each with one scan. -/
def resumeBound (id : Nat) (io : Io) : Io :=
  (boundTo io id).foldl (fun io p =>
    if p.2.state == .suspended then kick p.1 (ringPut p.1 { p.2 with state := .active, scanAgain := true } io) else io) io

/-- R205 step 5: overflow and spill have both emptied. -/
def drainedHeld (id : Nat) (io : Io) : Io :=
  match ringOf io id with
  | none => io
  | some r =>
    if !(r.overflow.isEmpty && r.spill.isEmpty) then io
    else if r.stopped then
      event r.owner 0x0604 id r.counter.toNat r.heldCount []
        (resumeBound id (ringPut id { r with state := .active, stopped := false, heldCount := 0 } io))
    else ringPut id { r with heldCount := 0 } io

/-- Held completions are written, overflow first and then spill, while slots are free; `n` bounds the free slots. -/
def deliverHeld (id : Nat) : Nat → Io → Io
  | 0, io => io
  | n + 1, io =>
    match ringOf io id with
    | none => io
    | some r =>
      match r.overflow, r.spill with
      | c :: cs, _ => deliverHeld id n (cplWrite id { r with overflow := cs } { c with held := true } io)
      | [], c :: cs => deliverHeld id n (cplWrite id { r with spill := cs } { c with held := true } io)
      | [], [] => io

/-- R205, R206: one completion after a fresh read of the control block. -/
def placeCpl (id : Nat) (c : Cpl) (io : Io) : Io :=
  match ringOf io id with
  | none => io
  | some r =>
    if r.state == .error then cplLost id r io
    else if r.overflow.isEmpty && r.spill.isEmpty && decide (0 < cqFree r r.seen) then cplWrite id r c io
    else if decide (r.overflow.length < 8) && r.spill.isEmpty && !r.stopped then
      let io1 := ringPut id { r with overflow := r.overflow ++ [c], heldCount := r.heldCount + 1 } io
      if r.overflow.length = 7 then suspendBound id io1 else io1
    else if r.spill.length < r.quota then
      ringPut id { r with spill := r.spill ++ [c], heldCount := r.heldCount + 1 } io
    else cqError id 0 1 io

/-- A control block value is taken over, or found invalid (R203). -/
def takeSeen (id : Nat) (c : Word32) (io : Io) : Io :=
  match ringOf io id with
  | none => io
  | some r =>
    if 2 ^ r.log2n < (r.counter - c).toNat then
      event r.owner 0x0605 id c.toNat 0 []
        (violate 0x0108 (hostPartner io r.owner 0) (le 4 id ++ le 4 c.toNat) (bump32 0x060014 0 io))
    else ringPut id { r with seen := c } io

/-- R203 to R206: the read of a control block returns its consumer counter and ARM. -/
def ctlblkReturn (id : Nat) (c : Word32) (arm : Bool) (io : Io) : Io :=
  match ringOf io id with
  | none => io
  | some r =>
    let byDb := r.reads.headD false
    let io1 := takeSeen id c (ringPut id { r with reads := r.reads.drop 1, awaiting := [] } io)
    let io2 := match ringOf io1 id with
      | some r1 => if r1.state == .error then io1 else drainedHeld id (deliverHeld id (cqFree r1 r1.seen) io1)
      | none => io1
    let io3 := r.awaiting.foldl (fun io c => placeCpl id c io) io2
    match ringOf io3 id with
    | some r3 => if byDb && arm then ringCoalesce id { r3 with armed := true } io3 else io3
    | none => io3

/-! ### Creating and deleting rings (R211 to R213) -/

/-- Whether a doorbell of a function is held. -/
def doorbellHeld (io : Io) (fn page slot : Nat) : Bool :=
  io.rings.rings.any (fun p => p.2.owner == fn && p.2.page == page && p.2.slot == slot)

/-- A ring takes a ring ID the Kwaith chooses (R186). -/
def ringCreate (r : Ring) (io : Io) : Option Nat × Io :=
  match pickFree (fun k => (ringOf io k).isSome) 0 (2 ^ 20) io with
  | (none, io1) => (none, io1)
  | (some k, io1) =>
    let n := io1.rings.serial
    (some k, ringTotals (ringPut k { r with serial := n } { io1 with rings := { io1.rings with serial := n + 1 } }))

/-- A ring is gone. -/
def ringDrop (id : Nat) (io : Io) : Io :=
  ringTotals { io with rings := { io.rings with rings := mdel io.rings.rings id } }

/-- R216: FLR, PERST#, hot reset or link down of a function: every ring of it is gone, with its admin queue, held
events and registers (R210, R215). -/
def ringsDropFn (fn : Nat) (io : Io) : Io :=
  regReset [.admSqBase, .admCqBase, .admCqCtlblk, .admCfg, .admCtrl, .admStatus] fn
    (ringTotals { io with rings := { io.rings with
      rings := io.rings.rings.filter (fun p => p.2.owner != fn), adm := mdel io.rings.adm fn } })

/-! ### The admin queue (R210, R211) -/

/-- R211 step 1: the cause of a refusal of ENABLE, or 0. -/
def admCause (fn stage : Nat) (translated : Bool) (io : Io) : Nat :=
  let sq := regField .admCfg fn 3 0 io
  let cq := regField .admCfg fn 11 8 io
  let v := regField .admCfg fn 26 16 io
  if sq < 4 || 12 < sq || cq < 4 || 12 < cq then 1
  else if (16 ≤ fn && 63 < v) || (fn % 4 = 0 && fn < 16 && stage < 3 && v ≠ 0) then 3
  else if !translated then 4 else 0

/-- The admin completion ring as R204, R205 and R211 give it. -/
def admCqRing (fn : Nat) (io : Io) : Ring :=
  let n := regField .admCfg fn 11 8 io
  { Ring.blank fn with
    isCq := true, admin := true, kind := 3, log2n := n, base := regGet .admCqBase fn io,
    counter := BitVec.ofNat 32 (2 ^ n), seen := BitVec.ofNat 32 (2 ^ n), ctlblk := regGet .admCqCtlblk fn io,
    vector := regField .admCfg fn 26 16 io, k := 1, t := 0, autoArm := true, autoArm0 := true, armed := true,
    quota := 64, sram := true, slot := 1 }

/-- The admin submission ring. -/
def admSqRing (fn cq : Nat) (io : Io) : Ring :=
  let n := regField .admCfg fn 3 0 io
  { Ring.blank fn with
    admin := true, kind := 3, log2n := n, base := regGet .admSqBase fn io, counter := BitVec.ofNat 32 (2 ^ n),
    cq := cq, doubleRead := regBit .admCtrl fn 1 io }

/-- R215: the events held while READY was 0 are delivered; the first carries the count of those lost. -/
def admFlush (fn : Nat) (io : Io) : Io :=
  let a := admOf io fn
  a.events.foldl (fun io ev => raiseEvent fn ev io) (admPut fn { a with events := [] } io)

/-- R211 steps 1 and 2: ENABLE written 1 and not held. -/
def admStart (fn stage : Nat) (translated : Bool) (io : Io) : Io :=
  let cause := admCause fn stage translated io
  if cause ≠ 0 then regPut .admStatus fn 15 8 cause (regOff .admCtrl fn 0 io)
  else
    match ringCreate (admCqRing fn io) io with
    | (none, io1) => io1
    | (some q, io1) =>
      match ringCreate (admSqRing fn q io1) io1 with
      | (none, io2) => io2
      | (some k, io2) =>
        let a := { admOf io2 fn with sq := some k, cq := some q, stopping := false, startHeld := false }
        admFlush fn (regOn .admStatus fn 0 (regOn .admCtrl fn 0 (admPut fn a (notFresh fn io2))))

/-! ### Admin completions (R212, R214) -/

/-- The admin entry with this tag and opcode, fetched and not yet carried out. -/
def admFetched (r : Ring) (entry : Bytes) : Option Fetched :=
  r.fetched.find? (fun f => f.done.isNone && f.tag == field entry 4 4 && f.opcode == field entry 1 1)

/-- An admin command ends with a status, a ring ID (or count) in Bytes, Detail and its extra bytes. It completes on the
admin completion ring in fetch order. -/
def admReply (fn : Nat) (entry : Bytes) (status bytes detail : Nat) (extra : Bytes) (io : Io) : Io :=
  match (admOf io fn).sq with
  | none => io
  | some k =>
    match ringOf io k with
    | none => io
    | some r =>
      let c : Cpl := { kind := 3, status := status, held := false, tag := field entry 4 4, ring := k,
                       consumer := r.counter.toNat, bytes := bytes, detail := detail, time := 0, extra := extra }
      match admFetched r entry with
      | some f => finish k f.counter c io
      | none => if (admOf io fn).stopping then io else complete r.cq c io

/-- Whether a function has a running admin queue, so that an admin command can have been fetched. -/
def admRuns (io : Io) (fn : Nat) : Bool := ((admOf io fn).sq.bind (ringOf io)).isSome

/-- Highest doorbell page of a function (R192). -/
def pageLimit (fn : Nat) : Nat := if fn < 16 then 12288 else 48

/-- Highest MSI-X vector of a function plus one (R148). -/
def vectorLimit (fn : Nat) : Nat := if fn < 16 then 2048 else 64

end Sys2Proof.Machine
end

