-- ==== Sys2Proof/Machine/NetOps.lean ====
section
/-!
DEFINITION. The network side (chapter 11): the packet buffer and its limits (R239 to R241), admission of received
frames (R219, R220), sequences and stamping (R226 to R229), dealing (R230, R231), the Fold (R235 to R238), receive
rings, and punts (R233).
Choices of the model coded here, by entry of the assumption log: DESIGN CHOICE 42, 45; DEDUCED 32, 43, 44, 84.
-/
namespace Sys2Proof.Machine

/-- The units a packet meets: what the meanings of chapters 11 to 14 change. -/
structure Wire where
  io    : Io
  net   : Net
  pipe  : Pipe
  tabs  : Tabs
  burin : Burin
  deriving DecidableEq, Repr

/-- A change of those units. -/
def onWire (f : Wire → Wire) (s : State) : State :=
  let w := f { io := s.io, net := s.net, pipe := s.pipe, tabs := s.tabs, burin := s.burin }
  { s with io := w.io, net := w.net, pipe := w.pipe, tabs := w.tabs, burin := w.burin }

/-- A change of the reporting side. -/
def Wire.on (f : Io → Io) (w : Wire) : Wire := { w with io := f w.io }

/-- A change of the network side. -/
def Wire.onNet (f : Net → Net) (w : Wire) : Wire := { w with net := f w.net }

/-! ### Ports (R218) -/

/-- Ports a mode defines. -/
def modePorts (mode : Nat) : Nat :=
  match mode with
  | 0 => 1 | 1 => 2 | 2 => 4 | _ => 8

/-- The port an Ethernet lane serves in the mode in force (R218). -/
def laneEthPort (n : Net) (l : Nat) : Nat := (l - 1) / (if n.mode = 4 then 1 else 8 / modePorts n.mode)

/-- Gb/s of a port of a mode. -/
def modeSpeed (mode : Nat) : Nat :=
  match mode with
  | 0 => 1600 | 1 => 800 | 2 => 400 | 3 => 200 | _ => 100

/-- Port `p`. -/
def portAt (n : Net) (p : Nat) : PortSt := mgetD n.ports p PortSt.reset

/-- Storing a port. -/
def portPut (p : Nat) (x : PortSt) (n : Net) : Net := { n with ports := mput n.ports p x }

/-- Whether the mode in force defines the port. -/
def portExists (n : Net) (p : Nat) : Bool := decide (p < modePorts n.mode)

/-- 07:0003 of a port. -/
def portStateBits (n : Net) (p : Nat) : Nat :=
  let x := portAt n p
  if portExists n p then b2n x.up + 2 * b2n x.training + 256 * maskOf (x.paused.map (·.1)) else 0

/-- 07:0003 follows the port. -/
def portReport (p : Nat) (w : Wire) : Wire := w.on (dset (idx 0x070003 (p + 1)) (portStateBits w.net p))

/-- R225: whether a virtual port exists. -/
def vportExists (n : Net) (v : Nat) : Bool :=
  (decide (v < 8) && portExists n v) || (decide (0x100 ≤ v) && decide (v ≤ 0x103)) ||
  (decide (0x200 ≤ v) && decide (v ≤ 0x5FF)) || (decide (0x800 ≤ v) && decide (v ≤ 0x8FF))

/-! ### The packet buffer (R239 to R241), in units of 256 bytes -/

/-- Units of a frame with its stamp. -/
def unitsOf (f : Bytes) : Nat := ceilDiv (f.length + 32) 256

/-- Units of a list of packets. -/
def unitsIn (l : List Pkt) : Nat := (l.map (fun p => unitsOf p.frame)).sum

/-- Whether a priority is lossless on a port (R220). -/
def lossless (io : Io) (p q : Nat) : Bool := (dget io (idx 0x070010 (p + 1)) 0).testBit q

/-- Guaranteed units of a port and priority. -/
def guaranteed (io : Io) (p : Nat) : Nat := 4 * dget io (idx 0x070013 (p + 1)) 128

/-- Headroom units of a port and lossless priority. -/
def headroom (io : Io) (p : Nat) : Nat := 4 * dget io (idx 0x070012 (p + 1)) 512

/-- R239: the shared part, for given settings: KiB of staging and punts, per-port guaranteed and headroom KiB, and
lossless masks. -/
def sharedKib (ports staging punt : Nat) (guar head : Nat → Nat) (mask : Nat → Nat) : Int :=
  49152 - 8192 - staging - punt -
    ((List.range ports).map (fun p => (8 * guar p + (bitsOf 8 (mask p)).length * head p : Nat))).sum

/-- The shared part in force, in units. -/
def sharedUnits (w : Wire) : Nat :=
  (4 * sharedKib (modePorts w.net.mode) (dget w.io (idx 0x070121 0) 8192) (dget w.io (idx 0x070122 0) 4096)
    (fun p => dget w.io (idx 0x070013 (p + 1)) 128) (fun p => dget w.io (idx 0x070012 (p + 1)) 512)
    (fun p => dget w.io (idx 0x070010 (p + 1)) 0)).toNat

/-- Units of an ingress queue, headroom apart. -/
def ingressUse (w : Wire) (p q : Nat) : Nat :=
  unitsIn ((portAt w.net p).inQ.filter (·.prio == q)) - mgetD (portAt w.net p).head q 0

/-- Units of an egress queue. -/
def egressUse (w : Wire) (p q : Nat) : Nat := unitsIn (mgetD (portAt w.net p).egress q [])

/-- Shared space free now. -/
def sharedFree (w : Wire) : Nat :=
  sharedUnits w -
    ((List.range (modePorts w.net.mode)).map (fun p => ((List.range 8).map (fun q =>
      (ingressUse w p q - guaranteed w.io p) + (egressUse w p q - guaranteed w.io p))).sum)).sum

/-- R240: whether a queue that holds `use` units may take `u` more. -/
def mayTake (w : Wire) (p use u : Nat) : Bool :=
  let g := guaranteed w.io p
  let free := sharedFree w
  decide (use + u ≤ g) ||
  (decide (use + u - g ≤ free * dget w.io (idx 0x070014 0) 16 / 16) && decide (use + u - g ≤ free + (use - g)))

/-- The limit of a queue now. -/
def queueLimit (w : Wire) (p : Nat) : Nat := guaranteed w.io p + sharedFree w * dget w.io (idx 0x070014 0) 16 / 16

/-- R221, R241: the port sends a PFC frame: XOFF with quanta 0xFFFF, XON with zero. -/
def sendPfc (p q quanta : Nat) (w : Wire) : Wire :=
  let x := portAt w.net p
  let x' := { x with xoff := if quanta = 0 then mdel x.xoff q else mput x.xoff q w.io.now }
  (w.on (emit (.pfc p q quanta))).onNet (portPut p x')

/-- R241: XON where use has fallen below the limit by half the headroom. -/
def maybeXon (p q : Nat) (w : Wire) : Wire :=
  if (mget (portAt w.net p).xoff q).isSome && decide (ingressUse w p q + mgetD (portAt w.net p).head q 0 + headroom w.io p / 2 ≤ queueLimit w p)
  then sendPfc p q 0 w else w

/-! ### Handles -/

/-- A handle no frame in the buffer has. -/
def newHandle (w : Wire) : Nat × Wire :=
  match pickFree (fun h => (mget w.net.got h).isSome || w.net.fold.any (·.handle == h) ||
      w.net.punts.any (fun t => t.2.any (·.handle == h))) 0 (2 ^ 32) w.io with
  | (some h, io) => (h, { w with io := io, net := { w.net with damaged := sdel w.net.damaged h } })
  | (none, io) => (0, { w with io := io })

/-- A packet of a source, not yet stamped. -/
def newPkt (src prio ingress time : Nat) (f : Bytes) (tx : Option (Nat × Nat)) (handle : Nat) : Pkt :=
  { frame := f, src := src, seq := 0, slot := 0, direct := false, prio := prio, ingress := ingress, time := time, mark := 0,
    dest := 0, region := 0, handle := handle, tx := tx }

/-! ### Received frames (R219, R220, R222, R241) -/

/-- R222: the time base corrected by 07:0026. -/
def portTime (io : Io) (p : Nat) : Nat :=
  (io.timeBase + BitVec.ofInt 64 (toSigned 32 (dget io (idx 0x070026 (p + 1)) 0))).toNat

/-- R221: a pause of a priority's egress queue by `quanta` of 512 bit times; zero resumes it. -/
def pauseQueue (p q quanta : Nat) (w : Wire) : Wire :=
  let x := portAt w.net p
  let till := w.io.now + ceilDiv (quanta * 512) (modeSpeed w.net.mode)
  portReport p (w.onNet (portPut p { x with paused := if quanta = 0 then mdel x.paused q else mput x.paused q till }))

/-- R563, class 3: a network peer. -/
def netPartner (p prio : Nat) (f : Bytes) : Bytes := le 1 p ++ le 1 prio ++ slice f 6 6

/-- A frame enters a port's ingress queue. -/
def takeIn (p prio : Nat) (f : Bytes) (head : Nat) (w : Wire) : Wire :=
  let (h, w1) := newHandle w
  let x := portAt w1.net p
  let k := newPkt p prio p (portTime w1.io p) f none h
  w1.onNet (portPut p { x with
    inQ := x.inQ ++ [k], head := if head = 0 then x.head else mput x.head prio (mgetD x.head prio 0 + head) })

/-- R241: a frame of a priority meets the limits of its ingress queue. -/
def ingress (p prio : Nat) (f : Bytes) (w : Wire) : Wire :=
  let u := unitsOf f
  if mayTake w p (ingressUse w p prio) u then takeIn p prio f 0 w
  else if !lossless w.io p prio then w.on (bump64 0x070007 (p + 1))
  else
    let w1 := if (mget (portAt w.net p).xoff prio).isSome then w else sendPfc p prio 0xFFFF w
    let used := mgetD (portAt w1.net p).head prio 0
    if used + u ≤ headroom w1.io p then takeIn p prio f u w1
    else w1.on (fun io => violate 0x0301 (netPartner p prio f) (le 2 f.length) (bump64 0x070008 (p + 1) io))

/-- R219: what the MAC does with a received frame, given without its FCS. -/
def macReceive (p : Nat) (f : Bytes) (fecOk fcsOk : Bool) (w : Wire) : Wire :=
  if w.net.frozen || !portExists w.net p || !(portAt w.net p).up then w
  else if !fecOk then w.on (bump64 0x070005 (p + 1))
  else if !fcsOk || decide (f.length + 4 < 64) || decide (dget w.io (idx 0x070002 (p + 1)) 9622 < f.length + 4) then
    w.on (bump64 0x070006 (p + 1))
  else if fb f 12 2 = 0x8808 && fb f 14 2 = 1 then w.on (bump32 0x070015 (p + 1))
  else if fb f 12 2 = 0x8808 && fb f 14 2 = 0x0101 then
    (bitsOf 8 (fb f 16 2)).foldl (fun w q => pauseQueue p q (fb f (18 + 2 * q) 2) w) w
  else
    let prio := if tagged f then fb f 14 2 / 2 ^ 13 else dget w.io (idx 0x070011 (p + 1)) 0
    ingress p prio f w

/-! ### Stamping and dealing (R226 to R232) -/

/-- R231, R232: whether a region is eligible by mask, withdrawal, isolation and reset (07:0102). -/
def regionOpen (io : Io) (c : Cont) (r : Nat) : Bool :=
  (dget io (idx 0x070101 0) 15).testBit r && !c.withdrawn.contains r && !c.regions.contains r &&
  !(c.regionResets.any (·.1 == r))

/-- Queues of a region's pipeline. -/
def pipeQ (n : Net) (r : Nat) : PipeQ := mgetD n.pipes r PipeQ.reset

/-- Storing them. -/
def pipeQPut (r : Nat) (q : PipeQ) (n : Net) : Net := { n with pipes := mput n.pipes r q }

/-- R231: eligible at a dealing instant: open, and its link queue of 64 entries (R45) has a free one. -/
def eligible (w : Wire) (c : Cont) (r : Nat) : Bool :=
  regionOpen w.io c r && decide ((pipeQ w.net r).queue.length < 64)

/-- The next eligible region after the one that took the previous packet. -/
def nextRegion (w : Wire) (c : Cont) : Option Nat :=
  ((List.range 4).map (fun k => (w.net.lastRegion + 1 + k) % 4)).find? (eligible w c)

/-- The next key after `last` in turn whose queue is not empty. -/
def nextTurn (m : List (Nat × List Pkt)) (last : Nat) : Option Nat :=
  let ks := (m.filter (fun p => !p.2.isEmpty)).map (·.1)
  match ks.find? (fun k => decide (last < k)) with
  | some k => some k
  | none => ks.head?

/-- The input a packet is taken from: class 0 port, 1 host, 2 thread, 3 engine, and the port, thread or engine. -/
def nextInput (w : Wire) : Option (Nat × Nat) :=
  let n := w.net
  match nextTurn (n.ports.map (fun p => (p.1, p.2.inQ))) n.lastPort with
  | some p => some (0, p)
  | none =>
    let ready (c : Nat) : Option Nat := match c with
      | 1 => if n.hostQ.isEmpty then none else some 0
      | 2 => nextTurn n.threadQ n.lastThread
      | _ => nextTurn n.engineQ n.lastEngine
    let c0 := if n.cls < 1 || 3 < n.cls then 1 else n.cls
    let order := if 0 < n.credit then [c0, c0 % 3 + 1, (c0 + 1) % 3 + 1] else [c0 % 3 + 1, (c0 + 1) % 3 + 1, c0]
    match order.find? (fun c => (ready c).isSome) with
    | none => none
    | some c => (ready c).map (fun k => (c, k))

/-- The packet at the head of an input, and the network side without it. -/
def takeInput (w : Wire) (i : Nat × Nat) : Option (Pkt × Net) :=
  let n := w.net
  let wt := dget w.io (idx 0x070100 i.1) (if i.1 = 1 then 4 else 2)
  let credit := (if n.cls = i.1 && 0 < n.credit then n.credit else wt) - 1
  match i.1 with
  | 0 =>
    match (portAt n i.2).inQ with
    | [] => none
    | k :: r =>
      let x := portAt n i.2
      let h := mgetD x.head k.prio 0
      let x' := { x with inQ := r, head := if h = 0 then x.head else mput x.head k.prio (h - unitsOf k.frame) }
      some (k, { portPut i.2 x' n with lastPort := i.2 })
  | 1 =>
    match n.hostQ with
    | [] => none
    | k :: r => some (k, { n with hostQ := r, cls := 1, credit := credit })
  | 2 =>
    match mgetD n.threadQ i.2 [] with
    | [] => none
    | k :: r => some (k, { n with threadQ := if r.isEmpty then mdel n.threadQ i.2 else mput n.threadQ i.2 r, lastThread := i.2, cls := 2, credit := credit })
  | _ =>
    match mgetD n.engineQ i.2 [] with
    | [] => none
    | k :: r => some (k, { n with engineQ := if r.isEmpty then mdel n.engineQ i.2 else mput n.engineQ i.2 r, lastEngine := i.2, cls := 3, credit := credit })

/-- R226 to R231: one packet is stamped and dealt to region `r`; its sequence no longer names one declared lost (R236). -/
def stampDeal (k : Pkt) (r : Nat) (w : Wire) : Wire :=
  let n := w.net
  let q := mgetD n.seqs k.src 0
  let k' := { k with
    seq := q, slot := w.pipe.live, region := r, time := if k.src < 0x100000 then k.time else time64 w.io }
  let p := pipeQ n r
  let slot : FoldSlot := { src := k.src, seq := q, region := r, slot := w.pipe.live, handle := k.handle, tx := k.tx, result := none }
  { w with
    io := dset (idx 0x070115 0) (n.fold.length + 1) (bump64 0x070103 (r + 1)
      (dset (idx 0x080003 (w.pipe.live + 1)) (mgetD n.inFlight w.pipe.live 0 + 1) w.io))
    net := { n with
      seqs := mput n.seqs k.src ((q + 1) % 65536), pipes := mput n.pipes r { p with queue := p.queue ++ [k'] },
      lost := n.lost.filter (fun y => !(y.1 == k.src && y.2.1 == q)),
      fold := n.fold ++ [slot], lastRegion := r, inFlight := mput n.inFlight w.pipe.live (mgetD n.inFlight w.pipe.live 0 + 1) } }

/-- R230: one packet is dealt where a region is eligible, a Fold slot is free and an input waits. -/
def dealOne (c : Cont) (w : Wire) : Wire :=
  match nextRegion w c, nextInput w with
  | some r, some i =>
    if decide (16384 ≤ w.net.fold.length) then w
    else
      match takeInput w i with
      | none => w
      | some (k, n) =>
        let w1 := stampDeal k r { w with net := n }
        if i.1 = 0 then maybeXon i.2 k.prio w1 else w1
  | _, _ => w

/-- R230: up to four packets in one cycle. -/
def deal (c : Cont) (w : Wire) : Wire :=
  if w.net.frozen then w else dealOne c (dealOne c (dealOne c (dealOne c w)))

/-! ### Receive rings (R197, R202, R260) -/

/-- Receive rings of a virtual port, in creation order. -/
def rxRings (io : Io) (v : Nat) : List (Nat × Ring) :=
  sortBy (fun a b => decide (a.2.serial ≤ b.2.serial))
    (io.rings.rings.filter (fun p => !p.2.isCq && p.2.kind == 2 && !p.2.admin && p.2.vport == v))

/-- The frame's bytes are written into the elements of a buffer, in order. -/
def writeElems (fn : Nat) : List (Nat × Nat) → Bytes → Io → Io
  | [], _, io => io
  | (a, n) :: es, bs, io =>
    if bs.isEmpty then io else writeElems fn es (bs.drop n) (hostWrite fn a (bs.take n) io)

/-- The kind-specific bytes of a receive completion (R200, R622). -/
def rxExtra (f : Bytes) (hash mark ingress : Nat) : Bytes :=
  le 4 hash ++ le 2 (if tagged f then fb f 14 2 else 0) ++ le 1 (packetType f) ++ le 1 (checksumStatus f) ++ le 4 mark ++
  le 2 ingress

/-- A frame takes the oldest posted buffer of a receive ring; false where there is none. -/
def ringReceive (id : Nat) (r : Ring) (o : Out) (io : Io) : Bool × Io :=
  match r.fetched.find? (fun f => f.started && f.done.isNone) with
  | none => (false, io)
  | some f =>
    if f.length < o.pkt.frame.length then (true, finish id f.counter (cplOf id r f 0x0A 0 0 0 []) io)
    else
      (true, finish id f.counter
        (cplOf id r f 0 o.pkt.frame.length 0 o.pkt.time (rxExtra o.pkt.frame o.hash o.mark o.pkt.ingress))
        (writeElems r.owner f.elems o.pkt.frame io))

/-- A transmit entry learns that its frame was dropped after being read (R197). -/
def txDropped (tx : Option (Nat × Nat)) (io : Io) : Io :=
  match tx with
  | none => io
  | some (id, c) =>
    match ringOf io id with
    | none => io
    | some r => ringPut id { r with fetched := r.fetched.map (fun f => if f.counter == c then { f with dropped := true } else f) } io

/-- A packet is dropped: its transmit entry, if it has one, learns of it. -/
def dropPkt (k : Pkt) (w : Wire) : Wire := w.on (txDropped k.tx)

/-- R238: a packet no receive buffer takes is counted in 07:0116. -/
def rxNoBuffer (k : Pkt) (w : Wire) : Wire :=
  dropPkt k (w.on (bump64 0x070116 (if k.ingress < 8 then k.ingress + 1 else 9)))

/-- R172, R174: a packet bound for a VF that is frozen or in FLR is dropped and counted. -/
def vfDrop (n : Nat) (k : Pkt) (w : Wire) : Wire :=
  let v := vfAt w.io n
  dropPkt k (w.on (fun io => bump64 0x050102 0 (vfPut n { v with drops := satAdd 32 v.drops 1 } io)))

/-- R260: the receive ring a packet selects among those of a host virtual port. -/
def rxSelect (rings : List (Nat × Ring)) (q hash : Nat) : Option (Nat × Ring) :=
  if rings.isEmpty then none
  else if q = 0xFFFF then rings[hash % rings.length]?
  else rings[q]?

/-- A packet reaches a receive ring, or is held while the ring is being adopted (R64). -/
def rxGive (rg : Nat × Ring) (o : Out) (w : Wire) : Wire :=
  if rg.2.sheepdog && w.io.rings.adopting then
    if unitsIn (w.net.adoptHeld.map (·.pkt)) + unitsOf o.pkt.frame ≤ 8192 then
      w.onNet (fun n => { n with adoptHeld := n.adoptHeld ++ [o] })
    else dropPkt o.pkt (w.on (bump64 0x020020 0))
  else
    match ringReceive rg.1 rg.2 o w.io with
    | (true, io) => { w with io := io }
    | (false, _) => rxNoBuffer o.pkt w

/-- R238: a packet released to a host virtual port. -/
def toHost (o : Out) (v : Nat) (w : Wire) : Wire :=
  if 0x200 ≤ v && v ≤ 0x5FF && ((vfAt w.io (v - 0x200)).state != .running || (vfAt w.io (v - 0x200)).inFlr) then
    vfDrop (v - 0x200) o.pkt w
  else
    match rxSelect (rxRings w.io v) o.rxq o.hash with
    | none => rxNoBuffer o.pkt w
    | some rg => rxGive rg o w

/-- R238: a packet released to a network port; true where the release is held. -/
def toPort (o : Out) (p : Nat) (w : Wire) : Bool × Wire :=
  let q := o.pkt.prio
  let gone := dropPkt o.pkt (w.on (bump64 0x070117 (p + 1)))
  if !portExists w.net p || !(portAt w.net p).up then (false, gone)
  else if mayTake w p (egressUse w p q) (unitsOf o.pkt.frame) then
    let x := portAt w.net p
    (false, w.onNet (portPut p { x with egress := mput x.egress q (mgetD x.egress q [] ++ [o.pkt]) }))
  else if lossless w.io p q then (true, w)
  else (false, gone)

/-- R61: a frame admitted to the Sheepdog receive ring. Without that ring it is dropped and counted in 02:0020. -/
def toSheepdog (o : Out) (w : Wire) : Wire :=
  match w.io.rings.rings.find? (fun p => p.2.sheepdog && !p.2.isCq && p.2.kind == 2) with
  | none => dropPkt o.pkt (w.on (bump64 0x020020 0))
  | some rg => rxGive rg o w

/-- R514: a damaged frame bound for a host ring, a thread or an engine is dropped and counted. -/
def damagedDrop (k : Pkt) (w : Wire) : Wire := dropPkt k (w.on (bump64 0x100052 0))

/-- R238: one copy of a released packet goes to its destination; true where it is held. -/
def deliverOut (o : Out) (w : Wire) : Bool × Wire :=
  match o.dest, w.net.damaged.contains o.pkt.handle with
  | .vport v, bad => if v < 8 then toPort o v w else (false, if bad then damagedDrop o.pkt w else toHost o v w)
  | _, true => (false, damagedDrop o.pkt w)
  | .rdma r, false => (false, w.onNet (fun n => { n with rdmaQ := mput n.rdmaQ r (mgetD n.rdmaQ r [] ++ [o.pkt]) }))
  | .sheepdog, false => (false, toSheepdog o w)
  | .learn, false => (false, w.onNet (fun n => { n with learnRx := n.learnRx ++ [o.pkt] }))
  | .steward, false => (false, w.onNet (fun n => { n with stewardRx := n.stewardRx ++ [o.pkt] }))

/-- The copies of a packet in turn; those not yet gone are left where one is held. -/
def deliverOuts : List Out → Wire → List Out × Wire
  | [], w => ([], w)
  | o :: os, w =>
    match deliverOut o w with
    | (true, w1) => (o :: os, w1)
    | (false, w1) => deliverOuts os w1

/-! ### The Fold (R235 to R238) -/

/-- State code of a plate slot (R266). -/
def slotState (p : Pipe) (s : Nat) : Nat := (p.states[s]?).getD 0

/-- R560, byte 0x09: the live slot, a slot DRAINING, the Sheepdog rules in force. -/
def plateBits (live : Nat) (st : Nat → Nat) : Nat :=
  live % 4 + 64 * b2n ((List.range 4).any (fun s => st s == 4)) + 128 * b2n (st 0 == 5)

/-- R271: the plate registers and objects follow the slots. -/
def plateReport (p : Pipe) (io : Io) : Io :=
  let st (s : Nat) : Nat := slotState p s
  let was (s : Nat) : Nat := dget io (idx 0x080002 (s + 1)) (if s = 0 then 5 else 0)
  let io0 := modeBump (plateBits (regField .pipePlateInfo 0 1 0 io) was) (plateBits p.live st) io
  let io1 := regPut .pipePlateStatus 0 11 0 (st 0 + 8 * st 1 + 64 * st 2 + 512 * st 3)
    (regPut .pipePlateStatus 0 31 16 p.liveGen.toNat (regPut .pipePlateInfo 0 1 0 p.live io0))
  (List.range 4).foldl (fun io s => if dget io (idx 0x080002 (s + 1)) (if s = 0 then 5 else 0) = st s then io else dset (idx 0x080002 (s + 1)) (st s) io) io1

/-- R272: a DRAINING plate slot whose in-flight count is zero becomes FREE and its marks clear. -/
def slotDrained (slot : Nat) (w : Wire) : Wire :=
  if mgetD w.net.inFlight slot 0 = 0 && slotState w.pipe slot = 4 then
    let p := { w.pipe with
      states := w.pipe.states.set slot 0, headers := mdel w.pipe.headers slot,
      marks := (mmap w.pipe.marks (fun _ l => sdel l slot)).filter (fun p => !p.2.isEmpty) }
    { w with io := plateReport p w.io, pipe := p }
  else w

/-- A packet leaves the Fold: its slot is free and its plate's count falls (R229). -/
def leaveFold (x : FoldSlot) (w : Wire) : Wire :=
  let n := mgetD w.net.inFlight x.slot 0 - 1
  slotDrained x.slot
    { w with
      io := dset (idx 0x070115 0) (w.net.fold.length - 1) (dset (idx 0x080003 (x.slot + 1)) n w.io)
      net := { w.net with
        fold := w.net.fold.filter (fun y => !(y.src == x.src && y.seq == x.seq)), inFlight := mput w.net.inFlight x.slot n } }

/-- R235: results of a source are released while the next expected one is there and its destinations take it. -/
def release (src : Nat) : Nat → Wire → Wire
  | 0, w => w
  | fuel + 1, w =>
    let q := mgetD w.net.next src 0
    match w.net.fold.find? (fun x => x.src == src && x.seq == q) with
    | none => w
    | some x =>
      match x.result with
      | none => w
      | some (outs, at_) =>
        match deliverOuts outs w with
        | ([], w1) =>
          release src fuel (leaveFold x (w1.onNet (fun n => { n with next := mput n.next src ((q + 1) % 65536), held := sdel n.held src })))
        | (left, w1) =>
          w1.onNet (fun n => { n with held := sadd n.held src, fold := n.fold.map (fun y =>
            if y.src == src && y.seq == q then { y with result := some (left, at_) } else y) })

/-- Releases of a source as far as they go. -/
def releaseAll (src : Nat) (w : Wire) : Wire := release src (w.net.fold.length + 1) w

/-- R235, R236: a result or skip token reaches the Fold. -/
def foldResult (x : Result) (w : Wire) : Wire :=
  match w.net.lost.find? (fun l => l.1 == x.src && l.2.1 == x.seq) with
  | some l =>
    x.outs.foldl (fun w o => dropPkt o.pkt w)
      ((w.on (bump64 0x070112 (l.2.2 + 1))).onNet (fun n =>
        { n with lost := n.lost.filter (fun y => !(y.1 == x.src && y.2.1 == x.seq)) }))
  | none =>
    releaseAll x.src (w.onNet (fun n => { n with fold := n.fold.map (fun y =>
      if y.src == x.src && y.seq == x.seq && y.result.isNone then { y with result := some (x.outs, w.io.now) } else y) }))

/-- R236: the next expected sequence of a source is declared lost where later results of the source wait behind it. -/
def holeLost (src : Nat) (w : Wire) : Wire :=
  let q := mgetD w.net.next src 0
  let waiting := (w.net.fold.filter (fun y => y.src == src)).filterMap (fun y => y.result.map (·.2))
  match w.net.fold.find? (fun y => y.src == src && y.seq == q && y.result.isNone), waiting.min? with
  | some x, some t0 =>
    let w0 := w.on (reach (t0 + us (dget w.io (idx 0x070110 0) 50)))
    let w1 := (w0.on (fun io => txDropped x.tx (bump64 0x070111 (x.region + 1) io))).onNet (fun n =>
      { n with next := mput n.next src ((q + 1) % 65536), lost := n.lost ++ [(src, q, x.region)] })
    releaseAll src (leaveFold x w1)
  | _, _ => w

/-- R237: every packet dealt to a region and not yet returned becomes a loss at once. -/
def regionLosses (r : Nat) (w : Wire) : Wire :=
  let mine := w.net.fold.filter (fun x => x.region == r && x.result.isNone)
  let w1 := mine.foldl (fun w x => w.on (fun io => txDropped x.tx (bump64 0x070113 (r + 1) io))) w
  let w2 := w1.onNet (fun n => { n with
    pipes := mput n.pipes r PipeQ.reset,
    fold := n.fold.map (fun x => if x.region == r && x.result.isNone then { x with result := some ([], w.io.now) } else x) })
  (mine.map (·.src)).eraseDups.foldl (fun w s => releaseAll s w) w2

/-! ### Sources restart (R226) -/

/-- The sequence of a source restarts at 0. -/
def seqRestart (src : Nat) (n : Net) : Net := { n with seqs := mdel n.seqs src, next := mdel n.next src }

/-- Source ID of a ring. -/
def ringSrc (id : Nat) : Nat := 0x100000 + id

/-! ### Egress (R221, R241) -/

/-- The highest priority of a port with a frame waiting that the partner has not paused. -/
def egressPick (x : PortSt) (now : Nat) : Option Nat :=
  [7, 6, 5, 4, 3, 2, 1, 0].find? (fun q => !(mgetD x.egress q []).isEmpty &&
    !(match mget x.paused q with | some t => decide (now < t) | none => false))

/-- The transmit entry of a frame learns when it left its port (R197, R222). -/
def txLeft (tx : Option (Nat × Nat)) (t : Nat) (io : Io) : Io :=
  match tx with
  | none => io
  | some (id, c) =>
    match ringOf io id with
    | none => io
    | some r => ringPut id { r with fetched := r.fetched.map (fun f => if f.counter == c then { f with txTime := some t } else f) } io

/-- A port transmits the next frame by strict priority. -/
def egressSend (p : Nat) (w : Wire) : Wire :=
  let x := portAt w.net p
  if w.net.frozen || !x.up then w
  else
    match egressPick x w.io.now with
    | none => w
    | some q =>
      match mgetD x.egress q [] with
      | [] => w
      | k :: r =>
        let bad := w.net.damaged.contains k.handle
        (w.on (fun io => txLeft k.tx (portTime io p)
          (if bad then bump64 0x100052 0 (emit (.badFrame p q k.frame) io) else emit (.frame p q k.frame) io))).onNet
          (portPut p { x with egress := if r.isEmpty then mdel x.egress q else mput x.egress q r })

/-! ### Punts (R233) -/

/-- Units held by punted packets, queued or got. -/
def puntUse (n : Net) : Nat := (n.punts.map (fun t => unitsIn t.2)).sum + unitsIn (n.got.map (·.2.2))

/-- R233: a punt to a thread, or the drop that becomes of it. -/
def punt (c : Cont) (thread : Nat) (k : Pkt) (w : Wire) : Wire :=
  if c.cells.contains (thread / 8) || c.blocks.contains (thread / 64) then dropPkt k (w.on (bump64 0x070114 2))
  else if w.net.damaged.contains k.handle then damagedDrop k w
  else if 4 * dget w.io (idx 0x070122 0) 4096 < puntUse w.net + unitsOf k.frame then dropPkt k (w.on (bump64 0x070114 1))
  else w.onNet (fun n => { n with punts := mput n.punts thread (mgetD n.punts thread [] ++ [k]) })

/-- R233: a cell or block is isolated: what is queued for its threads and not yet got is dropped. -/
def puntsDrop (p : Nat → Bool) (w : Wire) : Wire :=
  let gone := (w.net.punts.filter (fun t => p t.1)).flatMap (·.2)
  gone.foldl (fun w k => dropPkt k (w.on (bump64 0x070114 2)))
    (w.onNet (fun n => { n with punts := n.punts.filter (fun t => !p t.1) }))

/-! ### Packets of the device's own engines (R226) -/

/-- R296, R539: an engine hands the Drover a frame for a network port; the frame enters by that port and leaves by it
unclassified. -/
def engineSend (engine prio port : Nat) (f : Bytes) (w : Wire) : Wire :=
  let (h, w1) := newHandle w
  let k := { newPkt (0x300000 + engine) prio port 0 f none h with direct := true, dest := port }
  w1.onNet (fun n => { n with engineQ := mput n.engineQ engine (mgetD n.engineQ engine [] ++ [k]) })

end Sys2Proof.Machine
end

