-- ==== Sys2Proof/Machine/TableOps.lean ====
section
/-!
DEFINITION. The bridge and connection tables (chapter 13): lookups (R283 to R289), the learn arbiter's decisions (R290 to
R295), learn messages (R296 to R301) and the mirrors of R311.
Choices of the model coded here, by entry of the assumption log: DEDUCED 51, 80.
-/
namespace Sys2Proof.Machine

/-- A volatile numeric object follows a unit's state; no notification where it does not change. -/
def dfollow (i n : Nat) (io : Io) : Io := if mget io.dic i = some (.num n) then io else dset i n io

/-- Regions in service: not isolated and not in reset (R30, R39). -/
def inService (c : Cont) : List Nat :=
  (List.range 4).filter (fun r => !c.regions.contains r && !(c.regionResets.any (·.1 == r)))

/-! ### Peers of the domain, as the learn arbiter sees them (R299, R300) -/

/-- A peer of the domain. -/
def domPeer (d : Dom) (id : Nat) : DomPeer := mgetD d.peers id DomPeer.reset

/-- A current member: MEMBER or SUSPECT. -/
def isMember (d : Dom) (id : Nat) : Bool := (domPeer d id).state == 1 || (domPeer d id).state == 2

/-- Highest learn-message version both sides support; 0 for none. -/
def learnVersion (io : Io) (mask : Nat) : Nat :=
  let m := mask &&& dget io (idx 0x000101 4) 3
  if m.testBit 1 then 2 else if m.testBit 0 then 1 else 0

/-- Versions in use among the members. -/
def learnVersions (io : Io) (d : Dom) : List Nat :=
  let vs := (d.peers.filter (fun p => p.2.state == 1 || p.2.state == 2)).map (fun p => learnVersion io p.2.learn)
  [2, 1].filter (fun v => vs.contains v)

/-! ### The bridge table (R279, R280) -/

/-- The entry with a key. -/
def brFind (t : Tabs) (mac : Bytes) (bd : Nat) : Option (Nat × BrEntry) :=
  t.br.find? (fun e => decide (e.2.mac = mac) && e.2.bd == bd)

/-- The first free place for a key: its bucket, then the overflow store. -/
def brPlace (t : Tabs) (mac : Bytes) (bd : Nat) : Option Nat :=
  match lowestFree t.br (4 * brBucket mac bd) (4 * brBucket mac bd + 4) with
  | some i => some i
  | none => lowestFree t.br 131072 135168

/-- The 16 bytes of an entry, HIT clear. -/
def brBytes (e : BrEntry) : Bytes :=
  padTo 6 e.mac ++ le 2 e.bd ++ le 2 e.dest ++ le 2 e.owner ++ le 1 (1 + 2 * b2n e.static + 4 * b2n e.remote) ++ le 3 0

/-! ### Learn ports (R290) -/

/-- The learn port of a virtual port. -/
def learnPort (v : Nat) : Option Nat :=
  if v < 8 then some v
  else if 0x100 ≤ v && v ≤ 0x103 then some (8 + (v - 0x100))
  else if 0x200 ≤ v && v ≤ 0x5FF then some (12 + (v - 0x200)) else none

/-- Limit and mode of a learn port. -/
def learnCfg (io : Io) (l : Nat) : Nat × Nat :=
  let b := dgetB io (idx (0x090400 + l) 0)
  if b.isEmpty then (4096, 1) else (field b 0 4, field b 4 1)

/-- Entries that count against the limit of a virtual port's learn port. -/
def learned (t : Tabs) (v : Nat) : Nat := (t.br.filter (fun e => e.2.dest == v && !e.2.static && !e.2.remote)).length

/-- 09:0900 + L follows the table; `more` excess packets are added. -/
def learnStat (v more : Nat) (w : Wire) : Wire :=
  match learnPort v with
  | none => w
  | some l =>
    let i := idx (0x090900 + l) 0
    let n := learned w.tabs v
    let x := satAdd 32 (field (dgetB w.io i) 4 4) more
    let b := le 4 n ++ le 4 x ++ le 1 (b2n (decide ((learnCfg w.io l).1 ≤ n))) ++ le 7 0
    if mget w.io.dic i = some (.str b) then w else w.on (dsetB i b)

/-- 09:0001, 09:0002 and the learn port follow the bridge table. -/
def brReport (v : Nat) (w : Wire) : Wire :=
  learnStat v 0 (w.on (fun io => dfollow (idx 0x090002 0) (w.tabs.br.filter (fun e => decide (131072 ≤ e.1))).length
    (dfollow (idx 0x090001 0) w.tabs.br.length io)))

/-- Writing an entry into every replica; what stood there is reported too. -/
def brWrite (i : Nat) (e : BrEntry) (w : Wire) : Wire :=
  let old := (mget w.tabs.br i).map (·.dest)
  let w1 := brReport e.dest { w with tabs := { w.tabs with br := mput w.tabs.br i e } }
  match old with
  | some v => brReport v w1
  | none => w1

/-- Removing an entry from every replica. -/
def brRemove (i : Nat) (e : BrEntry) (w : Wire) : Wire :=
  brReport e.dest { w with tabs := { w.tabs with br := mdel w.tabs.br i } }

/-! ### Records for the peers (R296, R301) -/

/-- A record waits to be sent, where this device is PRIMARY. -/
def learnQueue (d : Dom) (op bd : Nat) (mac : Bytes) (time : Nat) (refresh : Bool) (w : Wire) : Wire :=
  if d.state ≠ 1 then w
  else
    let r : LearnRec := { op := op, bd := bd, mac := mac, time := time, refresh := refresh, at_ := w.io.now }
    { w with tabs := { w.tabs with outbox := w.tabs.outbox ++ [r] } }

/-- Whether this device owns an entry. -/
def ownedBy (d : Dom) (e : BrEntry) : Bool := e.owner == d.id && !e.remote

/-- Every entry this device owns is announced again. -/
def reannounce (d : Dom) (statics : Bool) (w : Wire) : Wire :=
  (w.tabs.br.filter (fun e => ownedBy d e.2 && (statics || !e.2.static))).foldl
    (fun w e => learnQueue d 1 e.2.bd e.2.mac e.2.time true w) w

/-- R551: a sweep is started, or queued behind one in progress. -/
def startSweep (d : Dom) (w : Wire) : Wire :=
  if w.tabs.outbox.any (·.refresh) then { w with tabs := { w.tabs with sweepQueued := true } } else reannounce d false w

/-- An entry this device owned has gone: a WITHDRAW record. -/
def withdraw (d : Dom) (e : BrEntry) (w : Wire) : Wire :=
  if ownedBy d e then learnQueue d 2 e.bd e.mac e.time false w else w

/-! ### The learn arbiter (R291, R292) -/

/-- The entry an incoming learn becomes. -/
def learnEntry (x : LearnEv) : BrEntry :=
  { mac := x.mac, bd := x.bd, dest := x.dest, owner := x.owner, static := false, remote := x.remote, hit := [], time := x.time,
    idle := 0, stale := false }

/-- R292: an install that has won: written at `i`, counted, and announced where this device owns it. -/
def install (d : Dom) (i : Nat) (e : BrEntry) (w : Wire) : Wire :=
  let w1 := brWrite i e (w.on (bump64 0x090020 1))
  if ownedBy d e then learnQueue d 1 e.bd e.mac e.time false w1 else w1

/-- R292: a NEW event met no entry and its learn port is at its limit. -/
def overLimit (x : LearnEv) (w : Wire) : Bool :=
  x.isNew && (match learnPort x.dest with
    | some l => decide ((learnCfg w.io l).1 ≤ learned w.tabs x.dest)
    | none => false)

/-- R292, R300, R301: one learn or WITHDRAW meets the table. -/
def learnDecide (d : Dom) (x : LearnEv) (w : Wire) : Wire :=
  match brFind w.tabs x.mac x.bd with
  | none =>
    if x.withdraw then w
    else if overLimit x w then w.on (bump64 0x090020 4)
    else
      match brPlace w.tabs x.mac x.bd with
      | none => w.on (bump64 0x090003 1)
      | some i => install d i (learnEntry x) w
  | some (i, e) =>
    if x.withdraw then
      if e.owner == x.owner && !e.static && e.time == x.time then brRemove i e w else w
    else if e.static then w.on (bump64 0x090020 3)
    else if x.owner == e.owner && x.dest == e.dest then
      brWrite i { e with idle := 0, stale := e.stale && !x.remote } w
    else if d.state = 2 && !x.remote && e.owner != d.id then w.on (bump64 0x090020 5)
    else if e.time < x.time || (x.time == e.time && x.owner < e.owner) then
      install d i (learnEntry x) (if !x.remote && !x.isNew then w.on (bump64 0x090003 4) else w)
    else w.on (bump64 0x090020 3)

/-- The oldest event. -/
def arbiterStep (d : Dom) (w : Wire) : Wire :=
  match w.tabs.arb with
  | [] => w
  | x :: xs => learnDecide d x { w with tabs := { w.tabs with arb := xs } }

/-- R291: a pipeline raises a learn event, unless its filter holds the key or its queue is full. -/
def learnRaise (x : LearnEv) (w : Wire) : Wire :=
  let f := mgetD w.tabs.filters x.region []
  if f.contains (x.mac, x.bd) then w
  else if 1024 ≤ (w.tabs.arb.filter (fun y => y.region == x.region)).length then w.on (bump64 0x090020 2)
  else
    { w with tabs := { w.tabs with
        filters := mput w.tabs.filters x.region (((x.mac, x.bd) :: f).take 256), arb := w.tabs.arb ++ [x] } }

/-! ### Ageing (R293 to R295) -/

/-- Whether an entry ages: neither STATIC nor REMOTE with a reachable owner. -/
def ages (d : Dom) (e : BrEntry) : Bool := !e.static && !(e.remote && isMember d e.owner && !e.stale)

/-- The ager meets one entry. -/
def ageOne (c : Cont) (d : Dom) (w : Wire) (x : Nat × BrEntry) : Wire :=
  let e := x.2
  if !ages d e then w
  else
    let hit := e.hit.any (fun r => (inService c).contains r)
    let e' := { e with hit := e.hit.filter (fun r => !(inService c).contains r), idle := if hit then 0 else e.idle + 1 }
    let age := dget w.io (idx 0x090000 0) 300
    if age ≠ 0 && age ≤ e'.idle then withdraw d e (brRemove x.1 e (w.on (bump64 0x090003 2)))
    else { w with tabs := { w.tabs with br := mput w.tabs.br x.1 e' } }

/-- One sweep. -/
def ageAll (c : Cont) (d : Dom) (w : Wire) : Wire := w.tabs.br.foldl (ageOne c d) w

/-! ### Learn messages (R296 to R300) -/

/-- Destination of learn messages. -/
def learnGroup (io : Io) : Bytes :=
  let b := dgetB io (idx 0x090032 0)
  if b.isEmpty then [0x03, 0x00, 0x4B, 0x57, 0x00, 0x01] else b

/-- A version 2 record. -/
def recV2 (owner : Nat) (r : LearnRec) : Bytes :=
  le 1 r.op ++ le 1 0 ++ le 2 r.bd ++ padTo 6 r.mac ++ le 2 owner ++ le 4 0 ++ le 8 r.time

/-- A version 1 record. -/
def recV1 (r : LearnRec) : Bytes :=
  le 1 r.op ++ le 1 0 ++ le 2 r.bd ++ padTo 6 r.mac ++ le 2 0 ++ le 4 (bits r.time 41 10)

/-- The frame of a batch in a version; frames shorter than Ethernet allows are padded with zeros. -/
def learnFrame (io : Io) (d : Dom) (seq : Word32) (v : Nat) (rs : List LearnRec) : Bytes :=
  let hdr := learnGroup io ++ baseMac ++ be 2 (dget io (idx 0x090030 0) 0x88B5)
  let body :=
    if v = 2 then
      le 1 2 ++ le 1 (b2n (rs.any (·.refresh))) ++ le 2 d.id ++ le 4 seq.toNat ++ le 8 (time64 io) ++ le 2 rs.length ++ le 2 0 ++
      rs.flatMap (recV2 d.id)
    else le 1 1 ++ le 1 0 ++ le 2 d.id ++ le 2 rs.length ++ le 2 0 ++ rs.flatMap recV1
  let f := hdr ++ body
  if f.length < 60 then padTo 60 f else f

/-- Ports learn messages use that are up. -/
def learnPorts (w : Wire) : List Nat :=
  (List.range 8).filter (fun p => portExists w.net p && (portAt w.net p).up && (dget w.io (idx 0x090031 0) 255).testBit p)

/-- A batch is sent once in each version in use, on every learn port that is up. -/
def learnSend (d : Dom) (rs : List LearnRec) (w : Wire) : Wire :=
  (learnVersions w.io d).foldl (fun w v =>
    let f := learnFrame w.io d w.tabs.txSeq v rs
    let w1 := (learnPorts w).foldl (fun w p => engineSend 4 7 p f (w.on (bump64 0x090035 1))) w
    if v = 2 then { w1 with tabs := { w1.tabs with txSeq := w1.tabs.txSeq + 1 } } else w1) w

/-- Records of one batch: the oldest that share its REFRESH flag. -/
def batchOf (n : Nat) (l : List LearnRec) : List LearnRec :=
  match l with
  | [] => []
  | r :: _ => (l.takeWhile (fun x => x.refresh == r.refresh)).take n

/-- LEARN_BATCH_SEND: enough records wait, or the oldest has waited 09:0033 us. A queued sweep starts once no record of
the one before it waits. -/
def batchSend (d : Dom) (w : Wire) : Wire :=
  let n := if (learnVersions w.io d).contains 2 then 60 else 64
  match w.tabs.outbox with
  | [] => w
  | r :: _ =>
    let b := batchOf n w.tabs.outbox
    let w0 := if n ≤ w.tabs.outbox.length then w else w.on (reach (r.at_ + us (dget w.io (idx 0x090033 0) 100)))
    let w1 := learnSend d b { w0 with tabs := { w0.tabs with outbox := w0.tabs.outbox.drop b.length } }
    if w1.tabs.sweepQueued && !(w1.tabs.outbox.any (·.refresh)) then
      reannounce d false { w1 with tabs := { w1.tabs with sweepQueued := false } }
    else w1

/-- R298: the time nearest `now` whose bits 41:10 are `x` and bits 9:0 zero. -/
def nearTime (now x : Nat) : Nat :=
  let m := 2 ^ 42
  let c := now - now % m + x * 1024
  let dist (a : Nat) : Nat := (a - now) + (now - a)
  let best (a b : Nat) : Nat := if dist b < dist a then b else a
  best (best c (c + m)) (if m ≤ c then c - m else c)

/-- R300: the frame's form: its lengths agree, reserved fields are zero and every op is known. -/
def learnFormed (b : Bytes) (len : Nat) : Bool :=
  let v := field b 0 1
  let fits (n : Nat) : Bool := len == n || (decide (n < 60) && len == 60)
  if v = 2 then
    let n := field b 0x10 2
    decide (field b 1 1 ≤ 1) && field b 0x12 2 == 0 && decide (1 ≤ n) && decide (n ≤ 60) && fits (14 + 20 + 24 * n) &&
    (List.range n).all (fun i =>
      let r := slice b (20 + 24 * i) 24
      (field r 0 1 == 1 || field r 0 1 == 2) && field r 1 1 == 0 && decide (field r 2 2 < 4096) && field r 0x0C 4 == 0)
  else if v = 1 then
    let n := field b 4 2
    field b 1 1 == 0 && field b 6 2 == 0 && decide (1 ≤ n) && decide (n ≤ 64) && fits (14 + 8 + 16 * n) &&
    (List.range n).all (fun i =>
      let r := slice b (8 + 16 * i) 16
      (field r 0 1 == 1 || field r 0 1 == 2) && field r 1 1 == 0 && decide (field r 2 2 < 4096) && field r 0x0A 2 == 0)
  else decide (4 ≤ b.length)

/-- The arbiter events of a received frame. -/
def learnEvents (io : Io) (b : Bytes) (port : Nat) : List LearnEv × Nat :=
  let sender := field b 2 2
  let ev (op bd : Nat) (mac : Bytes) (owner time : Nat) : LearnEv :=
    { mac := mac, bd := bd, dest := port, owner := owner, time := time, remote := true, withdraw := op == 2, isNew := false, region := 4 }
  if field b 0 1 = 2 then
    let rs := (List.range (field b 0x10 2)).map (fun i => slice b (20 + 24 * i) 24)
    let ok := rs.filter (fun r => field r 0x0A 2 == sender)
    (ok.map (fun r => ev (field r 0 1) (field r 2 2) (slice r 4 6) sender (field r 0x10 8)), rs.length - ok.length)
  else
    ((List.range (field b 4 2)).map (fun i =>
      let r := slice b (8 + 16 * i) 16
      ev (field r 0 1) (field r 2 2) (slice r 4 6) sender (nearTime (time64 io) (field r 0x0C 4))), 0)

/-- R563, class 5: sender, port, Domain field. -/
def fabricPartner (sender port domain : Nat) : Bytes := le 2 sender ++ le 1 port ++ le 1 0 ++ le 4 domain

/-- R300: a received learn message. -/
def learnReceive (d : Dom) (k : Pkt) (w : Wire) : Wire :=
  let b := k.frame.drop 14
  let sender := field b 2 2
  let w1 := w.on (bump64 0x090035 2)
  if !learnFormed b k.frame.length then
    let n := if field b 0 1 = 2 then field b 0x10 2 else field b 4 2
    w1.on (fun io => violate 0x0503 (fabricPartner sender k.ingress 0) (le 1 (field b 0 1) ++ le 1 0 ++ le 2 n) (bump64 0x090035 3 io))
  else if !isMember d sender then w1.on (bump64 0x090035 5)
  else if field b 0 1 ≠ learnVersion w.io (domPeer d sender).learn then w1.on (bump64 0x090035 4)
  else if d.state ≠ 1 then w1.on (bump64 0x090035 6)
  else
    let x := learnEvents w.io b k.ingress
    let seq := field b 4 4
    let miss := match field b 0 1, mget w.tabs.rxSeq sender with
      | 2, some l => if laterSeq seq l then (seq + 2 ^ 32 - l - 1) % 2 ^ 32 else 0
      | _, _ => 0
    let rx := if field b 0 1 = 2 then mput w.tabs.rxSeq sender seq else w.tabs.rxSeq
    let w2 := w1.on (fun io => bumpBy 64 (idx 0x090035 8) x.2 (bumpBy 64 (idx 0x090035 7) miss io))
    { w2 with tabs := { w2.tabs with rxSeq := rx, arb := w2.tabs.arb ++ x.1 } }

/-! ### The connection table (R281, R282, R287, R289) -/

/-- A connection entry. -/
def connAt (t : Tabs) (i : Nat) : Bytes := padTo 64 (mgetD t.conn i [])

/-- Whether an entry is valid. -/
def connValid (t : Tabs) (i : Nat) : Bool := (field (connAt t i) 0x28 1).testBit 0

/-- The four candidate slots of a key, in the order of R287. -/
def connSlots (key : Bytes) : List Nat :=
  let b := connBuckets key
  [2 * b.1, 2 * b.1 + 1, 2 * b.2, 2 * b.2 + 1]

/-- R287: the entry of a key. -/
def connFind (t : Tabs) (key : Bytes) : Option Nat :=
  (connSlots key).find? (fun i => connValid t i && decide ((connAt t i).take 40 = key))

/-- The slots of an occupant's alternative bucket. -/
def altSlots (t : Tabs) (i : Nat) : List Nat :=
  let b := connBuckets ((connAt t i).take 40)
  let a := if b.1 = i / 2 then b.2 else b.1
  [2 * a, 2 * a + 1]

/-- R289 step 3: one level of the search over chains, each with its last slot first; the chain that ends free, or the
chains of the next level and the slots visited. -/
def chainLevel (t : Tabs) : List (List Nat) → List (List Nat) → List Nat → Option (List Nat) × List (List Nat) × List Nat
  | [], next, seen => (none, next, seen)
  | c :: cs, next, seen =>
    let alts := altSlots t (c.headD 0)
    match alts.find? (fun i => !connValid t i) with
    | some f => (some (f :: c), next, seen)
    | none =>
      let new := (alts.eraseDups).filter (fun i => !seen.contains i)
      chainLevel t cs (next ++ new.map (fun i => i :: c)) (seen ++ new)

/-- The search, at most `fuel` relocations deep. -/
def chainSearch (t : Tabs) : Nat → List (List Nat) → List Nat → Option (List Nat)
  | 0, _, _ => none
  | fuel + 1, cs, seen =>
    match chainLevel t cs [] seen with
    | (some c, _, _) => some c
    | (none, next, seen') => if next.isEmpty then none else chainSearch t fuel next seen'

/-- Writing a connection entry, in attached memory and every cache. -/
def connPut (i : Nat) (b : Bytes) (w : Wire) : Wire := { w with tabs := { w.tabs with conn := mput w.tabs.conn i b } }

/-- Clearing one. -/
def connClear (i : Nat) (w : Wire) : Wire := { w with tabs := { w.tabs with conn := mdel w.tabs.conn i } }

/-- R289 step 4: one relocation: the occupant of `a` moves to `b`, not within 20 us of its last move (R288). -/
def relocate (a b : Nat) (w : Wire) : Wire :=
  let w0 := match mget w.tabs.moved a with
    | some t => w.on (reach (t + us 20))
    | none => w
  let w1 := connPut b (connAt w0.tabs a) w0
  let e := w1.tabs.epoch + 1
  let w2 := { w1 with
    io := dset (idx 0x090011 0) e.toNat (bump64 0x090012 0 w1.io)
    tabs := { w1.tabs with epoch := e, moved := mput (mdel w1.tabs.moved a) b w1.io.now } }
  connClear a w2

/-- The relocations of a chain, the free slot first. -/
def relocateAll : List Nat → Wire → Wire
  | b :: a :: r, w => relocateAll (a :: r) (relocate a b w)
  | _, w => w

/-- 09:0010 follows the table. -/
def connReport (w : Wire) : Wire :=
  w.on (dfollow (idx 0x090010 0) (w.tabs.conn.filter (fun e => (field e.2 0x28 1).testBit 0)).length)

/-- R289: an insert: status, path and the tables. -/
def connInsert (e : Bytes) (w : Wire) : Nat × List Nat × Wire :=
  let key := e.take 40
  let new := splice e 0x28 (le 1 1)
  if (connFind w.tabs key).isSome then (2, [], w)
  else
    match (connSlots key).find? (fun i => !connValid w.tabs i) with
    | some i => (0, [i], connReport (connPut i new w))
    | none =>
      let starts := (connSlots key).eraseDups
      match chainSearch w.tabs 8 (starts.map (fun i => [i])) starts with
      | none => (4, [], w)
      | some c => (0, c.reverse, connReport (connPut (c.getLastD 0) new (relocateAll c w)))

end Sys2Proof.Machine
end

