-- ==== Sys2Proof/Machine/MonOps.lean ====
section
/-!
DEFINITION. Clocks as units see them (R42, R43), the monitors' readings, and the Shepherd's rules (chapter 23).
Choices of the model coded here, by entry of the assumption log: DESIGN CHOICE 78; DEDUCED 79.
-/
namespace Sys2Proof.Machine

/-! ### Clock frequencies -/

/-- A domain runs at `f` kHz from now on; 0 stops it. -/
def clkSet (e f : Nat) (s : State) : State :=
  let s1 := if 1 ≤ e && e ≤ 4 then { s with cpu := { s.cpu with cycles := mput s.cpu.cycles (e - 1) (cyclesNow s (e - 1), s.io.now) } } else s
  { s1 with clk := { s1.clk with freq := mput s1.clk.freq e f } }

/-! ### Regions -/

/-- The Shepherd's state of a region. -/
def shepAt (s : State) (r : Nat) : ShepR := mgetD s.mon.regions r ShepR.reset

/-- Storing it. -/
def shepPut (r : Nat) (x : ShepR) (s : State) : State := { s with mon := { s.mon with regions := mput s.mon.regions r x } }

/-- A region is in service: neither isolated nor being reset. -/
def served (s : State) (r : Nat) : Bool := (inService s.cont).contains r

/-- R518: frequency in kHz, and V in mV, of an operating point. -/
def pointKhz (p : Nat) : Nat := ([2400000, 2257000, 2114000, 1971000, 1829000, 1686000, 1543000, 1400000][p]?).getD 1400000
def pointMv (p : Nat) : Nat := ([880, 843, 806, 769, 731, 694, 657, 620][p]?).getD 620

/-- R518: the rail setpoint of a point under the region's ageing offset. -/
def railOf (io : Io) (r p : Nat) : Nat := max 620 (pointMv p + dget io (idx 0x030111 (r + 1)) 0 - 40)

/-- R591: VOUT_COMMAND counts of 1 ÷ 4,096 V, to the nearest. -/
def voutCount (mv : Nat) : Nat := (mv * 4096 + 500) / 1000

/-- A rail write joins the queue; an emergency write goes before every queued one that is not. -/
def railWrite (r mv : Nat) (urgent : Bool) (s : State) : State :=
  let s1 := shepPut r { shepAt s r with rail := mv } s
  { s1 with mon := { s1.mon with vrQ := if urgent then (r, voutCount mv) :: s1.mon.vrQ else s1.mon.vrQ ++ [(r, voutCount mv)] } }

/-- The idle PLL of a region's pair locks to a new frequency (R43). -/
def freqTarget (r f : Nat) (s : State) : State := { s with clk := { s.clk with target := mput s.clk.target r f } }

/-- R532: a decision of a region is published and counted. -/
def decide_ (r point reason : Nat) (s : State) : State :=
  let x := shepAt s r
  let b := le 1 point ++ le 1 reason ++ le 2 x.rail ++ le 2 (pointKhz point / 1000) ++ le 2 0 ++ le 8 (time64 s.io)
  on (fun io => if reason = 0 then dsetB (idx 0x030200 (r + 1)) b io
    else bump64 0x030201 reason (dsetB (idx 0x030200 (r + 1)) b io)) s

/-- R533: an event to PF0, repeated in 03:0204. -/
def monEvent (code ring consumer detail : Nat) (s : State) : State :=
  on (fun io => dsetM (idx 0x030204 0) (le 2 code ++ le 2 detail ++ le 2 ring ++ le 2 consumer ++ le 8 (time64 io))
    (eventPf0 code ring consumer detail [] io)) s

/-! ### Temperatures (R516, R517, R521) -/

/-- A sensor's reading in eighths of a degree. -/
def tempOf (io : Io) (n : Nat) : Int := toSigned 16 (dget io (idx 0x030000 (n + 1)) 0)

/-- R525: the Shepherd distrusts a sensor. -/
def distrusted (io : Io) (n : Nat) : Bool := (dget io (idx 0x030004 (n / 32 + 1)) 0).testBit (n % 32)

/-- Setting or clearing the distrust of a sensor. -/
def distrustSet (n : Nat) (v : Bool) (io : Io) : Io :=
  let old := dget io (idx 0x030004 (n / 32 + 1)) 0
  dset (idx 0x030004 (n / 32 + 1)) (if v then old ||| 2 ^ (n % 32) else old - (if old.testBit (n % 32) then 2 ^ (n % 32) else 0)) io

/-- Sensors of a zone: regions 0 to 3, 4 the tiles. -/
def zoneSensors (z : Nat) : List Nat := if z = 4 then span 40 8 else span (10 * z) 10

/-- Trusted sensors of a zone. -/
def trustedOf (s : State) (z : Nat) : List Nat := (zoneSensors z).filter (fun n => !distrusted s.io n && !s.mon.failed.contains n)

/-- Tr or the tile temperature: the highest trusted reading; the last one published where none is trusted. -/
def zoneTemp (s : State) (z : Nat) : Int :=
  match (trustedOf s z).map (tempOf s.io) with
  | [] => toSigned 16 (dget s.io (idx 0x030005 (z + 1)) 0)
  | t :: ts => ts.foldl max t

/-- 03:0005. -/
def tempPublish (z : Nat) (s : State) : State :=
  let v := ofSigned 16 (zoneTemp s z)
  if dget s.io (idx 0x030005 (z + 1)) 0 = v then s else on (dset (idx 0x030005 (z + 1)) v) s

/-- Threshold of a thermal stage. -/
def stageAt (n : Nat) : Int := ([95, 100, 108][n - 1]?).getD 0 * 8

/-- R521: the stage a temperature gives, with 3 °C of hysteresis. -/
def stageOf (old : Nat) (t : Int) : Nat :=
  ([3, 2, 1].find? (fun n => decide (stageAt n ≤ t) || (decide (n ≤ old) && decide (stageAt n - 24 < t)))).getD 0

/-- A zone's thermal stage follows its temperature: each stage entered is counted and raised. -/
def stageUpdate (z : Nat) (t : Int) (s : State) : State :=
  let old := mgetD s.mon.stages z 0
  let new := stageOf old t
  if new = old then s
  else
    let s1 := on (dset (idx 0x030010 (z + 1)) new) { s with mon := { s.mon with stages := mput s.mon.stages z new } }
    (span (old + 1) (new - old)).foldl (fun s n =>
      monEvent 0x0301 (if z = 4 then 0xFF else z) n (ofSigned 16 t) (on (bump32 0x030011 n) s)) s1

/-- Regions in rotation at the Drover. -/
def rotation (s : State) : List Nat := (List.range 4).filter (regionOpen s.io s.cont)

/-- R522: a region goes to 1,400 MHz, and its rail to 620 mV after it, abandoning a change under way. -/
def emergencyRegion (r : Nat) (s : State) : State :=
  let x := shepAt s r
  decide_ r 7 6 (railWrite r 620 true (freqTarget r 1400000 (shepPut r { x with point := 7, change := none } s)))

/-- R522 for a region: it is also withdrawn, unless it is the only one in rotation. -/
def emergency (r : Nat) (s : State) : State :=
  if (shepAt s r).emergency then s
  else
    let s1 := if rotation s = [r] then s else contPut { s.cont with withdrawn := sadd s.cont.withdrawn r } s
    let s2 := emergencyRegion r s1
    shepPut r { shepAt s2 r with emergency := true, coolAt := none } s2

/-- A sensor has failed (R517): it reads 0x7FFF and is treated as distrusted. -/
def sensorFail (n : Nat) (s : State) : State :=
  if s.mon.failed.contains n then s
  else
    let s1 := on (dset (idx 0x030000 (n + 1)) 0x7FFF) { s with mon := { s.mon with failed := sadd s.mon.failed n } }
    tempPublish (if 40 ≤ n then 4 else n / 10) (monEvent 0x0302 0 n 2 (on (distrustSet n true) s1))

/-- The instant since which a condition has held. -/
def since (ok : Bool) (old : Option Nat) (now : Nat) : Option Nat := if ok then some (old.getD now) else none

/-- A temperature sample. -/
def tempSample (n : Nat) (v : Int) (s : State) : State :=
  if v < -440 || 1200 < v then sensorFail n s
  else if s.mon.failed.contains n then s
  else
    let z := if 40 ≤ n then 4 else n / 10
    let first := (mget s.io.dic (idx 0x030001 (n + 1))).isNone
    let peak := toSigned 16 (dget s.io (idx 0x030001 (n + 1)) 0)
    let s1 := on (fun io =>
      let io1 := dset (idx 0x030000 (n + 1)) (ofSigned 16 v) io
      if first || peak < v then dset (idx 0x030001 (n + 1)) (ofSigned 16 v) io1 else io1) s
    let s2 := tempPublish z s1
    let cool := (List.range 48).all (fun k => s2.mon.failed.contains k || decide (tempOf s2.io k < 840))
    let s3 := { s2 with mon := { s2.mon with tripCool := since cool s2.mon.tripCool s2.io.now } }
    let s4 := if z = 4 then s3
      else
        let x := shepAt s3 z
        shepPut z { x with coolAt := since ((trustedOf s3 z).all (fun k => decide (tempOf s3.io k < 776))) x.coolAt s3.io.now } s3
    let t := zoneTemp s4 z
    let s5 := if s4.start.stage < 2 then stageUpdate z t s4 else s4
    if distrusted s5.io n || v < 864 then s5
    else if z = 4 then
      (if mgetD s5.mon.stages 4 0 = 3 then s5 else (List.range 4).foldl (fun s r => emergencyRegion r s) (stageUpdate 4 t s5))
    else emergency z (stageUpdate z t s5)

/-! ### Voltages (R527) -/

/-- Nominal mV of a fixed rail's monitor. -/
def nominalMv (n : Nat) : Nat :=
  if n < 18 then 750 else if n < 20 then 800 else if n < 22 then 750 else if n = 22 then 1200 else if n = 23 then 750
  else if n = 24 then 1200 else if n < 29 then 1100 else 1800

/-- A voltage sample. -/
def voltSample (n : Nat) (v : Nat) (s : State) : State :=
  let s1 := on (dset (idx 0x030002 (n + 1)) v) s
  if n < 16 then
    let r := n / 4
    let x := shepAt s1 r
    let k := if v + 30 < x.rail then mgetD s1.mon.low n 0 + 1 else 0
    let s2 := { s1 with mon := { s1.mon with low := mput s1.mon.low n k } }
    if k = 3 then shepPut r { x with droop := true } s2 else s2
  else
    let out := decide (20 * v < 19 * nominalMv n) || decide (21 * nominalMv n < 20 * v)
    let was := s1.mon.excursion.contains n
    let s2 := { s1 with mon := { s1.mon with excursion := if out then sadd s1.mon.excursion n else sdel s1.mon.excursion n } }
    if out && !was then monEvent 0x0303 0 n v s2 else s2

/-! ### The cycle (R520, R524 to R526) -/

/-- R20. -/
def neighbours : List (Nat × Nat) := [(0, 1), (0, 2), (1, 3), (2, 3)]

/-- The two highest trusted readings of a region, with the sensor of the first. -/
def hottestTwo (s : State) (r : Nat) : Option (Nat × Int × Int) :=
  match sortBy (fun a b => decide (b.2 ≤ a.2)) ((trustedOf s r).map (fun n => (n, tempOf s.io n))) with
  | a :: b :: _ => some (a.1, a.2, b.2)
  | _ => none

/-- R525 for a pair: sensors far above their region are distrusted; else the cooler region counts as warmer. `fuel` bounds
the sensors a region can lose. -/
def distrustPair (a b : Nat) : Nat → State × List Int → State × List Int
  | 0, w => w
  | fuel + 1, (s, t) =>
    let ta := (t[a]?).getD 0
    let tb := (t[b]?).getD 0
    let hot := if ta < tb then b else a
    let cold := if ta < tb then a else b
    let th := max ta tb
    let tc := min ta tb
    if th - tc ≤ 280 then (s, t)
    else
      match hottestTwo s hot with
      | some (n, x, y) =>
        if x = th && 120 < x - y then
          let s1 := monEvent 0x0302 0 n 1 (on (distrustSet n true) s)
          let s2 := tempPublish hot (shepPut hot { shepAt s1 hot with note := 0x0C } s1)
          distrustPair a b fuel (s2, t.set hot y)
        else (s, t.set cold (max tc (th - 8 * dget s.io (idx 0x030104 0) 25)))
      | none => (s, t.set cold (max tc (th - 8 * dget s.io (idx 0x030104 0) 25)))

/-- R524: pairs whose hotter region is held. -/
def holdPairs (s : State) (t : List Int) : List (Nat × Nat) :=
  let lim : Int := 8 * dget s.io (idx 0x030104 0) 25
  neighbours.filterMap (fun p =>
    let ta := (t[p.1]?).getD 0
    let tb := (t[p.2]?).getD 0
    let q := if ta < tb then (p.2, p.1) else p
    let d := max ta tb - min ta tb
    if lim < d || (s.mon.holds.contains q && lim - 24 < d) then some q else none)

/-- R526: the policy's choice from a point, before the bounds. -/
def policyPoint (policy cur fast occ : Nat) : Nat :=
  if policy = 1 then (if 750 < occ then cur - 1 else if occ < 400 then cur + 1 else cur) else fast

/-- Position of a reason in the table of R532. -/
def reasonRank (c : Nat) : Nat := ([0x06, 0x05, 0x09, 0x07, 0x08, 0x11, 0x12, 0x04, 0x0B, 0x03, 0x01, 0x02].idxOf? c).getD 99

/-- The slowest of a list of limits, the first in the table where several are equal. -/
def slowest : List (Nat × Nat) → Nat × Nat
  | [] => (0, 0)
  | x :: r =>
    let y := slowest r
    if y.1 < x.1 || (y.1 = x.1 && reasonRank x.2 < reasonRank y.2) then x else y

/-- The limits on a region in a cycle (R520 to R527): point and reason each. A limit that only forbids a faster point counts
where the policy asks for one. -/
def limitsOf (s : State) (r occ : Nat) (t : List Int) (holds : List (Nat × Nat)) : List (Nat × Nat) :=
  let x := shepAt s r
  let now := s.io.now
  let cur := x.point
  let fastB := dget s.io (idx 0x030100 (r + 1)) 0
  let barred := dget s.io (idx 0x030112 (r + 1)) 0
  let fast := max fastB barred
  let slow := max fast (dget s.io (idx 0x030101 (r + 1)) 7)
  let policy := dget s.io (idx 0x030102 0) 0
  let raw := policyPoint policy cur fast occ
  let bounded := max fast (min raw slow)
  let want := if cur < bounded then cur + 1 else bounded
  let boundCode := if fastB < barred then 0x0B else 0x03
  let base := (want, if want < cur then 0x01 else if cur < want then 0x02 else 0) ::
    (if raw < fast || cur < fast then [(want, boundCode)] else if slow < raw then [(want, 0x03)] else [])
  let hold (c : Bool) (code : Nat) : List (Nat × Nat) := if c && want < cur then [(cur, code)] else []
  let slower10 := match x.lastSlow with | some l => decide (l + ms 10 ≤ now) | none => true
  let tr := (t[r]?).getD 0
  let tile := (t[4]?).getD 0
  let target : Int := 8 * dget s.io (idx 0x030103 0) 90
  let stage := mgetD s.mon.stages r 0
  let tstage := mgetD s.mon.stages 4 0
  let lim : Int := 8 * dget s.io (idx 0x030104 0) 25
  let beyond := neighbours.any (fun p => (p.1 == r && decide (lim < tr - (t[p.2]?).getD 0)) || (p.2 == r && decide (lim < tr - (t[p.1]?).getD 0)))
  let held := holds.any (fun p => p.1 == r)
  base ++
  (if target < tr then (if cur < slow && slower10 then [(cur + 1, 0x04)] else [(cur, 0x04)]) else hold (decide (target - 24 < tr)) 0x04) ++
  (if beyond then (if slower10 && cur < 7 then [(cur + 1, 0x07)] else [(cur, 0x07)]) else if held then [(cur, 0x07)] else []) ++
  (if 2 ≤ stage then (if stageAt 2 ≤ tr then [(min 7 (cur + 1), 0x05)] else [(cur, 0x05)]) else []) ++
  (if 2 ≤ tstage then (if stageAt 2 ≤ tile then [(min 7 (cur + 1), 0x09)] else [(cur, 0x09)]) else []) ++
  (if x.droop then [(min 7 (cur + 1), 0x08)] else hold (decide (now < x.droopBar)) 0x08) ++
  hold (decide (now < x.settleBar)) 0x11 ++
  (if x.emergency || tstage = 3 then [(7, 0x06)] else [])

/-- R519: a region begins to change from its point to `p`. -/
def changePoint (r p : Nat) (s : State) : State :=
  let x := shepAt s r
  if p = x.point then s
  else if x.point < p then freqTarget r (pointKhz p) (shepPut r { x with point := p, change := some (false, x.point, s.io.now) } s)
  else railWrite r (railOf s.io r p) false (shepPut r { x with point := p, change := some (true, x.point, s.io.now) } s)

/-- The decision of a region in a cycle. -/
def shepDecide (r occ : Nat) (t : List Int) (holds : List (Nat × Nat)) (s : State) : State :=
  if !served s r then decide_ r 7 0x10 s
  else
    let x := shepAt s r
    if x.change.isSome then s
    else
      let l := slowest (limitsOf s r occ t holds)
      let now := s.io.now
      let paced := decide (l.1 < x.point) && (match x.lastFast with | some f => decide (now < f + ms 100) | none => false)
      let p := if l.1 < x.point then (if paced then x.point else x.point - 1) else l.1
      let code := if paced || l.2 = 0 then (if x.note = 0 then 0 else x.note) else l.2
      let x1 := { x with
        droop := false, droopBar := if x.droop then now + sec 1 else x.droopBar, note := 0,
        lastFast := if p < x.point then some now else x.lastFast,
        lastSlow := if x.point < p && (l.2 == 0x07 || l.2 == 0x04) then some now else x.lastSlow }
      let s1 := changePoint r p (shepPut r x1 s)
      decide_ r p code s1

/-- R529: the scrub rate. -/
def scrubRate (u : Nat) (s : State) : State :=
  let lo : Int := dget s.io (idx 0x100102 0) 100
  let hi : Int := dget s.io (idx 0x100103 0) 2000
  let rate := ((lo * 1000 + (hi - lo) * (1000 - u)) / 1000).toNat
  on (fun io => dsetB (idx 0x030203 0) (le 4 rate ++ le 2 u ++ le 1 0x0E ++ le 1 0 ++ le 8 (time64 io)) (dset (idx 0x100104 0) rate io)) s

/-- R520: one cycle. -/
def shepCycle (occ : List (Fin 1001)) (u : Nat) (s : State) : State :=
  let s0 := on (reach (s.mon.beatAt + ms 1)) s
  let t0 := (List.range 5).map (zoneTemp s0)
  let d := neighbours.foldl (fun w p => distrustPair p.1 p.2 10 w) (s0, t0)
  let s1 := (List.range 5).foldl (fun s z => stageUpdate z (zoneTemp s z) s) d.1
  let holds := holdPairs s1 d.2
  let s2 := (List.range 4).foldl (fun s r => shepDecide r ((occ[r]?).map (·.val) |>.getD 0) d.2 holds s) s1
  scrubRate u { s2 with mon := { s2.mon with holds := holds, beatAt := s2.io.now, silent := false } }

/-- Regions at P7 as before stage 2 (R520, R534): through a chip warm reset ageing, distrust and failures are kept. -/
def shepWarm (s : State) : State :=
  let s1 := { s with mon := { s.mon with regions := [], stages := [], holds := [], low := [], silent := false, beatAt := s.io.now } }
  (List.range 4).foldl (fun s r => decide_ r 7 0x0F (railWrite r 620 false (freqTarget r 1400000 s))) s1

end Sys2Proof.Machine
end

