-- ==== Sys2Proof/Machine/ClockOps.lean ====
section
/-!
DEFINITION. Clock domains and crossings (R42 to R52): which domains a crossing joins, what a reset or a stopped clock does to
it, and its resynchronisation.
Choices of the model coded here, by entry of the assumption log: DESIGN CHOICE 19.
-/
namespace Sys2Proof.Machine

/-- R45: the domains a crossing joins, as elements of 01:0200; 0 for CLK_AON and TCK, which always run. -/
def xingDomains (x : Nat) : Nat × Nat :=
  if x < 4 then (x + 1, 9)
  else if x < 8 then (x - 3, x + 1)
  else if x < 12 then (11, x - 3)
  else if x < 18 then ([(11, 9), (12, 9), (13, 9), (10, 9), (14, 9), (11, 12)][x - 12]?).getD (0, 0)
  else if x < 20 then (0, 14)
  else (14, x - 19)

/-- Whether a domain's clock runs. -/
def domainRuns (s : State) (d : Nat) : Bool := d == 0 || (!s.clk.holdAll && clkFreq s d != 0)

/-- The state of crossing `x` + 1. -/
def xingAt (s : State) (x : Nat) : XState := mgetD s.clk.crossings x .run

/-- Storing it. -/
def xingPut (x : Nat) (st : XState) (s : State) : State :=
  { s with clk := { s.clk with crossings := mput s.clk.crossings x st } }

/-- R49: side `inner` is lost. Every entry towards it, and every entry towards the survivor that is not whole, is discarded
and counted; a discarded request that expects a response is answered "crossing reset". -/
def xingDrop (x : Nat) (inner : Bool) (traffic : List XTransfer) (io : Io) : Io :=
  let gone := traffic.filter (fun t => t.inner == inner || !t.whole)
  let io1 := (gone.filter (fun t => t.inner == inner && t.request)).foldl (fun io t => emit (.crossingReset (x + 1) t.originator) io) io
  if gone.isEmpty then io1 else bumpBy 32 (idx 0x010211 (x + 1)) gone.length io1

/-- A crossing leaves RUN for RESET or HELD. -/
def xingDown (x : Nat) (st : XState) (inner : Bool) (traffic : List XTransfer) (s : State) : State :=
  xingPut x st (on (xingDrop x inner traffic) s)

/-- Both sides are out of reset with their clocks running. -/
def xingReady (s : State) (x : Nat) : Bool := domainRuns s (xingDomains x).1 && domainRuns s (xingDomains x).2

/-- R50: a crossing returns to RUN, which 01:0212 counts. -/
def xingResync (x : Nat) (s : State) : State :=
  if xingAt s x = .run then s else on (bump32 0x010212 (x + 1)) (xingPut x .run s)

/-- R51: a crossing held for a clock that runs again starts R50. -/
def xingRetry (x : Nat) (s : State) : State :=
  if xingAt s x = .held && xingReady s x then xingPut x .resync s else s

/-- The crossings a stopped domain holds, and those its return frees. -/
def xingsHeld (xs : List Nat) (inner : Nat → Bool) (s : State) : State :=
  xs.foldl (fun s x => if xingAt s x = .held then s else xingDown x .held (inner x) [] s) s
def xingsRetry (xs : List Nat) (s : State) : State := xs.foldl (fun s x => xingRetry x s) s

/-- Crossings at a region's edges, numbered from 0 (R45). -/
def regionXings (r : Nat) : List Nat := [r, r + 4, r + 8, r + 20]

/-- Whether the region is the second-named domain of an edge crossing. -/
def regionInner (x : Nat) : Bool := decide (8 ≤ x)

end Sys2Proof.Machine
end

