-- ==== Sys2Proof/Machine/BurinOps.lean ====
section
/-!
DEFINITION. The key store (R314 to R319), security associations and their counters (R323 to R327), and the inline Burin's
work on a frame (R328, R329, R332, R333).
Choices of the model coded here, by entry of the assumption log: DESIGN CHOICE 54; DEDUCED 53.
-/
namespace Sys2Proof.Machine

/-! ### Pools (R314) -/

/-- The pool of a function. -/
def poolOf (fn : Nat) : Nat := if fn < 16 then 1024 + fn % 4 else fn - 16

/-- The device pool. -/
def devicePool : Nat := 1028

/-- Slots of a pool. -/
def poolSize (io : Io) (pool : Nat) : Nat :=
  if pool < 1024 then
    match vfRun io pool with
    | some r => field r 0x0A 2
    | none => 64
  else if pool = 1028 then 16384 else 12288

/-- The key of slot `i` of a pool. -/
def slotKey (pool i : Nat) : Nat := pool * 2 ^ 18 + i

/-- A key slot. -/
def slotAt (b : Burin) (pool i : Nat) : KeySlot := mgetD b.slots (slotKey pool i) KeySlot.reset

/-- Whether a chip-wide VF number is one of a PF's VFs. -/
def vfOfPf (io : Io) (p n : Nat) : Bool :=
  pfOfVf io n == p && decide (n < vfTotal io 0 + vfTotal io 1 + vfTotal io 2 + vfTotal io 3)

/-- 0A:0000: KEYED slots of the pools an element stands for. -/
def keyedIn (b : Burin) (element : Nat) : Nat :=
  (b.slots.filter (fun s => s.2.state == .keyed &&
    (let pool := s.1 / 2 ^ 18
     if element ≤ 4 then pool == 1023 + element else if element = 5 then pool == 1028 else decide (pool < 1024)))).length

/-- 0A:0000 follows the slots. -/
def keyReport (w : Wire) : Wire :=
  w.on (fun io => (List.range 6).foldl (fun io k =>
    let i := idx 0x0A0000 (k + 1)
    let n := keyedIn w.burin (k + 1)
    if dget io i 0 = n then io else dset i n io) io)

/-- Storing a key slot. -/
def slotPut (pool i : Nat) (k : KeySlot) (w : Wire) : Wire :=
  keyReport { w with burin := { w.burin with slots := mput w.burin.slots (slotKey pool i) k } }

/-- R316: a Burin of a region needs a slot: it becomes the most recently used of the 8,192 resident. -/
def keyTouch (r pool i : Nat) (w : Wire) : Wire :=
  let k := r * 2 ^ 32 + slotKey pool i
  let miss := !w.burin.resident.contains k
  let w1 := if miss then w.on (bump64 0x0A0001 (r + 1)) else w
  { w1 with burin := { w1.burin with resident := (k :: w1.burin.resident.filter (· != k)).take 8192 } }

/-! ### Keys (R317) -/

/-- Bytes of a key of a usage. -/
def keyBytes (usage : Nat) : Nat :=
  match usage with
  | 1 => 16
  | 5 => 64
  | _ => 32

/-- Data words of a usage and form. -/
def keyWords (usage form : Nat) : Nat := keyBytes usage / 4 + (if form = 1 then 2 else 0)

/-- The check value of a key (R317). -/
def checkValue (usage : Nat) (key : Bytes) : Nat :=
  let b := match usage with
    | 3 => chachaZero key
    | 4 => aesZero (key.take 16)
    | 5 => aesZero (key.take 32)
    | 6 => hmac key []
    | _ => aesZero key
  beField b 0 3

/-- A key command as the window or 0A:0110 gives it: the writer's pool, the target pool if it is one the writer may
reach, slot, usage, form, KEK slot, whether the words given are those needed, and the data. -/
structure KeyCmd where
  own    : Nat
  target : Option Nat
  slot   : Nat
  usage  : Nat
  form   : Nat
  kek    : Nat
  exact  : Bool
  data   : Bytes
  deriving DecidableEq, Repr

/-- R319: the cause that refuses a command before its key is looked at, or 0. -/
def keyCause (stage : Nat) (erase : Bool) (c : KeyCmd) (w : Wire) : Nat :=
  match c.target with
  | none => if stage < 3 then 9 else 2
  | some t =>
    if stage < 3 then 9
    else if poolSize w.io t ≤ c.slot then 1
    else if erase then (if 0 < (slotAt w.burin t c.slot).refs then 7 else 0)
    else if c.usage < 1 || 7 < c.usage || 1 < c.form then 3
    else if c.form = 1 && poolSize w.io c.own ≤ c.kek then 1
    else if !c.exact then 4
    else if c.form = 1 && !((slotAt w.burin c.own c.kek).state == .keyed && (slotAt w.burin c.own c.kek).usage == 7) then 6
    else if w.burin.rng = 2 then 0x0A
    else 0

/-- The key a WRITE carries: unwrapped under its KEK where it is wrapped. -/
def keyCarried (c : KeyCmd) (w : Wire) : Option Bytes :=
  if c.form = 0 then some (padTo (keyBytes c.usage) c.data)
  else (aesUnwrap (slotAt w.burin c.own c.kek).key (padTo (keyBytes c.usage + 8) c.data)).map (padTo (keyBytes c.usage))

/-- R318: a WRITE or ERASE: its cause, its check value, and the key store after it. -/
def keyRun (stage : Nat) (erase : Bool) (c : KeyCmd) (w : Wire) : Nat × Nat × Wire :=
  let bad (n : Nat) (w : Wire) : Nat × Nat × Wire := (n, 0, w.on (bump32 0x0A0012 n))
  let w0 := if keyCause stage erase c w = 0x0A then w.on (reach (w.io.now + us (dget w.io (idx 0x0A0003 0) 100))) else w
  let n := keyCause stage erase c w
  if n ≠ 0 then bad n w0
  else
    let t := c.target.getD 0
    if erase then (0, 0, slotPut t c.slot KeySlot.reset w)
    else
      match keyCarried c w with
      | none => bad 5 w
      | some key =>
        let half := key.length / 2
        if 0 < (slotAt w.burin t c.slot).refs then bad 7 w
        else if (c.usage = 4 || c.usage = 5) && decide (key.take half = key.drop half) then bad 8 w
        else (0, checkValue c.usage key, slotPut t c.slot { state := .keyed, usage := c.usage, key := key, refs := 0, used := false } w)

/-! ### Security associations (R323 to R326) -/

/-- An SA's key field of its descriptor. -/
def saKind (a : Sa) : Nat := field a.desc 1 1

/-- An SA's flags. -/
def saFlag (a : Sa) (k : Nat) : Bool := (field a.desc 0x20 1).testBit k

/-- The handle of an SA at an index. -/
def saHandle (i : Nat) (a : Sa) : Nat := a.tag * 2 ^ 18 + i

/-- The SA a handle names; none where it is stale or unknown. -/
def saOf (b : Burin) (h : Nat) : Option (Nat × Sa) :=
  match mget b.sas (h % 2 ^ 18) with
  | some a => if h < 2 ^ 30 && a.tag = h / 2 ^ 18 then some (h % 2 ^ 18, a) else none
  | none => none

/-- Storing an SA. -/
def saPut (i : Nat) (a : Sa) (w : Wire) : Wire := { w with burin := { w.burin with sas := mput w.burin.sas i a } }

/-- R326: the limit of an SA's counter. -/
def saLimit (a : Sa) : Nat :=
  let k := saKind a
  if (k = 1 || k = 3) && !saFlag a 0 then 2 ^ 32 - 1 else 2 ^ 64 - 1

/-- R325: the warning threshold. -/
def saWarning (a : Sa) : Nat :=
  let v := field a.desc 0x18 8
  if v ≠ 0 then v else if saLimit a < 2 ^ 32 then 2 ^ 31 else 2 ^ 63

/-- R333: a Burin event, to the owning function and a VF's PF, or to 0A:0020. -/
def saEvent (code handle pool : Nat) (counter : Nat) (data : Bytes) (w : Wire) : Wire :=
  w.on (fun io =>
    if pool = 1028 then dsetM (idx 0x0A0020 0) (le 2 code ++ le 2 0 ++ le 4 handle ++ le 8 counter) io
    else if pool < 1024 then eventAndPf (16 + pool) code 0 0 handle data io
    else event (activeTwin io (pool - 1024)) code 0 0 handle data io)

/-- R326: the next counter value of an SA, with its events; none where it is spent. The key slot becomes USED (R315). -/
def saGrant (i : Nat) (a : Sa) (w : Wire) : Option Nat × Wire :=
  let c := a.counter.toNat
  if saLimit a ≤ c then
    (none, if a.spent then w else saEvent 0x0A02 (saHandle i a) a.pool c [] (saPut i { a with spent := true } w))
  else
    let v := c + 1
    let warn := !a.warned && decide (saWarning a ≤ v)
    let last := decide (saLimit a ≤ v)
    let slot := field a.desc 8 4
    let w1 := saPut i { a with counter := BitVec.ofNat 64 v, warned := a.warned || warn, spent := a.spent || last } w
    let w2 := slotPut a.pool slot { slotAt w1.burin a.pool slot with used := true } w1
    let w3 := if warn then saEvent 0x0A01 (saHandle i a) a.pool v (le 8 v) w2 else w2
    (some v, if last then saEvent 0x0A02 (saHandle i a) a.pool v [] w3 else w3)

/-! ### Replay (R329) -/

/-- Replay state of an AN. -/
def replayAt (a : Sa) (an : Nat) : Replay := mgetD a.replay an { highest := a.counter.toNat, marked := [] }

/-- Whether a value is refused. -/
def replayed (a : Sa) (an v : Nat) : Bool :=
  let r := replayAt a an
  saFlag a 3 && (decide (v + field a.desc 0x22 2 ≤ r.highest) || r.marked.contains v)

/-- A verified value is marked. -/
def replayMark (a : Sa) (an v : Nat) : Sa :=
  let r := replayAt a an
  let h := max r.highest v
  let n := field a.desc 0x22 2
  let r' : Replay := { highest := h, marked := (sadd r.marked v).filter (fun x => decide (h < x + n)) }
  { a with replay := mput a.replay an r', counter := if saKind a = 2 then BitVec.ofNat 64 h else BitVec.ofNat 64 (max a.counter.toNat v) }

/-- RFC 4303 appendix A: the full value of a received 32-bit number against the highest received and a window. -/
def fullSeq (highest window low : Nat) : Nat :=
  let w := max 1 window
  let tl := highest % 2 ^ 32
  let th := highest / 2 ^ 32
  if w - 1 ≤ tl then (if tl - (w - 1) ≤ low then th else th + 1) * 2 ^ 32 + low
  else (if tl + 2 ^ 32 - (w - 1) ≤ low then th - 1 else th) * 2 ^ 32 + low

/-! ### The inline Burin on a frame (R328) -/

/-- The outcome of step 5: a frame, or a cause of R332. -/
inductive Inline where
  | frame (f : Bytes)
  | fail (cause : Nat)
  deriving DecidableEq, Repr

/-- AEAD algorithm of a key usage: 1 AES-GCM, 3 ChaCha20-Poly1305. -/
def aeadOf (usage : Nat) : Nat := if usage = 3 then 3 else 1

/-- An IPv4 or IPv6 header with its length and protocol rewritten, and the IPv4 checksum recomputed. -/
def ipFix (hdr : Bytes) (v6 : Bool) (proto payload : Nat) : Bytes :=
  if v6 then splice (splice hdr 4 (be 2 (payload + (hdr.length - 40)))) 6 (be 1 proto)
  else
    let h := splice (splice (splice hdr 2 (be 2 (hdr.length + payload))) 9 (be 1 proto)) 10 (be 2 0)
    splice h 10 (be 2 (checksumOf h))

/-- ESP trailer: padding 1, 2, … to a multiple of 4, pad length, next header. -/
def espTrailer (n next : Nat) : Bytes :=
  let pad := (4 - (n + 2) % 4) % 4
  (List.range pad).map (fun i => BitVec.ofNat 8 (i + 1)) ++ be 1 pad ++ be 1 next

/-- ESP additional data: SPI and sequence number, with its high half first under ESN. -/
def espAad (a : Sa) (spi v : Nat) : Bytes :=
  be 4 spi ++ (if saFlag a 0 then be 4 (v / 2 ^ 32) else []) ++ be 4 (v % 2 ^ 32)

/-- The ESP packet around a payload. -/
def espSeal (a : Sa) (key : KeySlot) (v : Nat) (payload : Bytes) (next : Nat) : Bytes :=
  let spi := field a.desc 0x24 4
  let pt := payload ++ espTrailer payload.length next
  be 4 spi ++ be 4 (v % 2 ^ 32) ++ be 8 v ++
  aeadSeal (aeadOf key.usage) key.key (slice a.desc 0x0C 4 ++ be 8 v) (espAad a spi v) pt

/-- The outer header of tunnel mode; what R325 does not give of it (identification, ECN, flow label) is `free`. -/
def tunnelHeader (a : Sa) (free proto payload : Nat) : Bytes :=
  let dscp := field a.desc 0x62 1 % 64
  let hop := field a.desc 0x61 1
  if field a.desc 0x60 1 = 2 then
    be 4 (6 * 2 ^ 28 + (dscp * 4 + free % 4) * 2 ^ 20 + free / 4 % 2 ^ 20) ++ be 2 payload ++ be 1 proto ++ be 1 hop ++
    slice a.desc 0x40 16 ++ slice a.desc 0x50 16
  else
    ipFix (be 1 0x45 ++ be 1 (dscp * 4 + free % 4) ++ be 2 0 ++ be 2 (free / 4) ++ be 2 0 ++ be 1 hop ++ be 1 proto ++ be 2 0 ++
      slice a.desc 0x4C 4 ++ slice a.desc 0x5C 4) false proto payload

/-- A UDP port of the descriptor, 4,500 where it is zero. -/
def espPort (a : Sa) (o : Nat) : Nat :=
  let v := field a.desc o 2
  if v = 0 then 4500 else v

/-- Kind 1: ESP outbound. -/
def espOut (a : Sa) (key : KeySlot) (v free : Nat) (f : Bytes) : Inline :=
  let l := (parse [] f).outer
  if !(l.l3 == 1 || l.l3 == 2) then .fail 2
  else
    let v6 := l.l3 == 2
    let hl := if v6 then 40 else fb f l.l3Off 1 % 16 * 4
    let fin := min f.length (ipEnd f l)
    let packet := slice f l.l3Off (fin - l.l3Off)
    let hdr := packet.take hl
    let proto := if v6 then fb hdr 6 1 else fb hdr 9 1
    let udp (n : Nat) : Bytes := if saFlag a 2 then be 2 (espPort a 0x64) ++ be 2 (espPort a 0x66) ++ be 2 (n + 8) ++ be 2 0 else []
    let outer := if saFlag a 2 then 17 else 50
    if saFlag a 1 then
      let esp := espSeal a key v packet (if v6 then 41 else 4)
      let body := udp esp.length ++ esp
      let et := if field a.desc 0x60 1 = 2 then 0x86DD else 0x0800
      .frame (slice f 0 (l.l3Off - 2) ++ be 2 et ++ tunnelHeader a free outer body.length ++ body)
    else
      let esp := espSeal a key v (packet.drop hl) proto
      let body := udp esp.length ++ esp
      .frame (slice f 0 l.l3Off ++ ipFix hdr v6 outer body.length ++ body)

/-- Where the ESP header of a frame lies for an inbound SA: outer, or after a UDP header on the configured port. -/
def espAt (a : Sa) (f : Bytes) : Option Nat :=
  let l := (parse [] f).outer
  if !(l.l3 == 1 || l.l3 == 2) || l.l4Off = 0 then none
  else if l.proto = 50 then some l.l4Off
  else if l.proto = 17 && fb f (l.l4Off + 2) 2 = espPort a 0x66 then some (l.l4Off + 8)
  else none

/-- Kind 2: ESP inbound: the frame, or a cause; and the sequence value it carries. -/
def espIn (a : Sa) (key : KeySlot) (f : Bytes) : Inline × Nat :=
  match espAt a f with
  | none => (.fail 9, 0)
  | some o =>
    let l := (parse [] f).outer
    let v6 := l.l3 == 2
    let hl := if v6 then 40 else fb f l.l3Off 1 % 16 * 4
    let fin := min f.length (ipEnd f l)
    if fb f o 4 ≠ field a.desc 0x24 4 || fin < o + 34 then (.fail 9, 0)
    else
      let low := fb f (o + 4) 4
      let v := if saFlag a 0 then fullSeq (replayAt a 0).highest (field a.desc 0x22 2) low else low
      match aeadOpen (aeadOf key.usage) key.key (slice a.desc 0x0C 4 ++ slice f (o + 8) 8) (espAad a (fb f o 4) v)
          (slice f (o + 16) (fin - o - 16)) with
      | none => (.fail 4, v)
      | some pt =>
        let pad := fb pt (pt.length - 2) 1
        let next := fb pt (pt.length - 1) 1
        if pt.length < pad + 2 then (.fail 8, v)
        else
          let data := pt.take (pt.length - 2 - pad)
          if saFlag a 1 then
            (.frame (slice f 0 (l.l3Off - 2) ++ be 2 (if next = 41 then 0x86DD else 0x0800) ++ data), v)
          else (.frame (slice f 0 l.l3Off ++ ipFix (slice f l.l3Off hl) v6 next data.length ++ data), v)

/-- The MACsec nonce of a packet number: SCI and number, or under XPN the salt against SSCI and number. -/
def secNonce (a : Sa) (salt : Bytes) (v : Nat) : Bytes :=
  if saFlag a 0 then List.zipWith (· ^^^ ·) salt (be 4 (field a.desc 0x24 4) ++ be 8 v)
  else be 8 (field a.desc 0x28 8) ++ be 4 (v % 2 ^ 32)

/-- Kind 3: MACsec transmit. -/
def secOut (a : Sa) (key : KeySlot) (v : Nat) (f : Bytes) : Inline :=
  let data := f.drop 12
  let conf := !saFlag a 4
  let tci := 0x20 * b2n (saFlag a 5) + 0x0C * b2n conf + field a.desc 0x21 1 % 4
  let sl := if data.length < 48 then data.length else 0
  let tag := be 2 0x88E5 ++ be 1 tci ++ be 1 sl ++ be 4 (v % 2 ^ 32) ++ (if saFlag a 5 then be 8 (field a.desc 0x28 8) else [])
  let head := slice f 0 12 ++ tag
  let n := secNonce a (slice a.desc 0x50 12) v
  if conf then .frame (head ++ aeadSeal 1 key.key n head data)
  else .frame (head ++ data ++ aeadSeal 1 key.key n (head ++ data) [])

/-- The key slot of an AN of a kind 4 channel. -/
def secSlot (a : Sa) (an : Nat) : Option Nat :=
  let s := field a.desc (0x40 + 4 * an) 4
  if s = 0xFFFFFFFF then none else some s

/-- Kind 4: the AN a frame names, where its EtherType and SCI fit the channel. A SecTAG without SCI names the channel's
only peer. -/
def secAn (a : Sa) (f : Bytes) : Option Nat :=
  if f.length < 36 || fb f 12 2 ≠ 0x88E5 then none
  else if (fb f 14 1).testBit 5 && fb f 20 8 ≠ field a.desc 0x28 8 then none
  else some (fb f 14 1 % 4)

/-- Kind 4: MACsec receive under the key of its AN. -/
def secIn (a : Sa) (key : KeySlot) (an : Nat) (f : Bytes) : Inline × Nat :=
  let hl := if (fb f 14 1).testBit 5 then 28 else 20
  let low := fb f 16 4
  let v := if saFlag a 0 then fullSeq (replayAt a an).highest (field a.desc 0x22 2) low else low
  let salt := if an = 0 then slice a.desc 0x50 12 else slice a.desc (0x68 + 12 * (an - 1)) 12
  let sl := fb f 15 1 % 64
  let body := (f.drop hl).take (if sl = 0 then f.length else sl + 16)
  let head := slice f 0 hl
  let n := secNonce a salt v
  if body.length < 16 then (.fail 8, v)
  else if (fb f 14 1).testBit 3 then
    match aeadOpen 1 key.key n head body with
    | none => (.fail 4, v)
    | some pt => (.frame (slice f 0 12 ++ pt), v)
  else
    let data := body.take (body.length - 16)
    match aeadOpen 1 key.key n (head ++ data) (body.drop (body.length - 16)) with
    | none => (.fail 4, v)
    | some _ => (.frame (slice f 0 12 ++ data), v)

/-- An inline failure: counted in 0A:0010 and in the SA's drops; ICV and replay failures are journalled (R329). -/
def inlineFail (cause : Nat) (i : Option Nat) (v : Nat) (k : Pkt) (w : Wire) : Wire :=
  let w1 := w.on (bump64 0x0A0010 cause)
  match i with
  | none => w1
  | some i =>
    match mget w1.burin.sas i with
    | none => w1
    | some a =>
      let w2 := saPut i { a with drops := satAdd 64 a.drops 1 } w1
      if cause = 4 || cause = 5 then
        w2.on (violate (if cause = 4 then 0x0302 else 0x0303) (netPartner k.ingress k.prio k.frame)
          (le 4 (saHandle i a) ++ le 4 (v % 2 ^ 32)))
      else w2

/-- R328, R329: an inbound result that verified meets the replay window. -/
def inboundDone (i : Nat) (a : Sa) (an : Nat) (r : Inline × Nat) (k : Pkt) (w : Wire) : Option Bytes × Wire :=
  match r.1 with
  | .fail c => (none, inlineFail c (some i) r.2 k w)
  | .frame f =>
    if replayed a an r.2 then (none, inlineFail 5 (some i) r.2 k w)
    else if 9600 < f.length then (none, inlineFail 8 (some i) r.2 k w)
    else (some f, saPut i (if saFlag a 3 then replayMark a an r.2 else a) w)

/-- An outbound result. -/
def outboundDone (i : Nat) (v : Nat) (r : Inline) (k : Pkt) (w : Wire) : Option Bytes × Wire :=
  match r with
  | .fail c => (none, inlineFail c (some i) v k w)
  | .frame f => if 9600 < f.length then (none, inlineFail 8 (some i) v k w) else (some f, w)

/-- A usable key slot of an SA. -/
def saKey (w : Wire) (a : Sa) (slot : Nat) : Option KeySlot :=
  let k := slotAt w.burin a.pool slot
  if k.state == .keyed then some k else none

/-- R328: step 5 of R262 on a frame of region `r` under an SA handle: the frame after it, or none where it failed. -/
def inlineBurin (r handle : Nat) (k : Pkt) (w : Wire) : Option Bytes × Wire :=
  match saOf w.burin handle with
  | none => (none, inlineFail 1 none 0 k w)
  | some (i, a) =>
    let kind := saKind a
    if 4 < kind then (none, inlineFail 2 (some i) 0 k w)
    else if kind = 4 then
      match secAn a k.frame with
      | none => (none, inlineFail 9 (some i) 0 k w)
      | some an =>
        match secSlot a an with
        | none => (none, inlineFail 9 (some i) 0 k w)
        | some s =>
          match saKey w a s with
          | none => (none, inlineFail 6 (some i) 0 k w)
          | some key => inboundDone i a an (secIn a key an k.frame) k (keyTouch r a.pool s w)
    else
      let s := field a.desc 8 4
      match saKey w a s with
      | none => (none, inlineFail 6 (some i) 0 k w)
      | some key =>
        let w1 := keyTouch r a.pool s w
        if kind = 2 then inboundDone i a 0 (espIn a key k.frame) k w1
        else
          match saGrant i a w1 with
          | (none, w2) => (none, inlineFail 3 (some i) 0 k w2)
          | (some v, w2) =>
            let (free, io) := freeNat w2.io
            let w3 := if kind = 1 && saFlag a 1 then { w2 with io := io } else w2
            outboundDone i v (if kind = 1 then espOut a key v free k.frame else secOut a key v k.frame) k w3

end Sys2Proof.Machine
end

