-- ==== Sys2Proof/Machine/Burin.lean ====
section
/-!
DEFINITION. The key and SA commands of chapter 14: key windows and 0A:0110 (R317 to R320), 0A:0100 (R323 to R326).
Choices of the model coded here, by entry of the assumption log: DEDUCED 53.
-/
namespace Sys2Proof.Machine

/-! ### Key commands -/

/-- The window of a function. -/
def keyWin (b : Burin) (fn : Nat) : KeyWin := mgetD b.wins fn { words := [], last := 0 }

/-- Its data words and WORDS clear. -/
def keyWinClear (fn : Nat) (w : Wire) : Wire :=
  { w with io := regPut .keyWinFill fn 17 0 0 w.io, burin := { w.burin with wins := mdel w.burin.wins fn } }

/-- R317: a data word is written; discarded with OVERRUN while BUSY. -/
def keyWinData (fn i : Nat) (v : Nat) (w : Wire) : Wire :=
  if regBit .keyWinStatus fn 0 w.io then w.on (regOn .keyWinStatus fn 3)
  else
    let x := keyWin w.burin fn
    { w with
      io := regSet .keyWinFill fn (regGet .keyWinFill fn w.io ||| mask i i) w.io
      burin := { w.burin with wins := mput w.burin.wins fn { words := mput x.words i (v % 2 ^ 32), last := w.io.now } } }

/-- The command a window's registers spell. -/
def keyWinCmd (fn : Nat) (w : Wire) : KeyCmd :=
  let own := poolOf fn
  let t := regField .keyWinTarget fn 15 0 w.io
  let usage := regField .keyWinCtrl fn 15 12 w.io
  let form := regField .keyWinCtrl fn 9 8 w.io
  let x := keyWin w.burin fn
  { own := own
    target := if t = 0xFFFF || 16 ≤ fn then some own else if vfOfPf w.io (fn % 4) t then some t else none
    slot := regField .keyWinSlot fn 17 0 w.io, usage := usage, form := form, kek := regField .keyWinKek fn 17 0 w.io
    exact := regField .keyWinFill fn 17 0 w.io == 2 ^ keyWords usage form - 1
    data := (List.range 18).flatMap (fun i => le 4 (mgetD x.words i 0)) }

/-- A window command: data words clear at acceptance, DONE and the outcome follow. -/
def keyWinRun (stage fn : Nat) (erase : Bool) (w : Wire) : Wire :=
  let r := keyRun stage erase (keyWinCmd fn w) w
  let w1 := keyWinClear fn r.2.2
  w1.on (fun io =>
    let io1 := regOn .keyWinStatus fn 1 io
    if r.1 ≠ 0 then regPut .keyWinStatus fn 15 8 r.1 (regOn .keyWinStatus fn 2 io1)
    else regPut .keyWinCheck fn 23 0 r.2.1 (regOff .keyWinStatus fn 2 io1))

/-- 0A:0110 written (R320). Its keys and KEKs of M and F lie in the device pool. -/
def keyCmdRun (stage : Nat) (by_ : Issuer) (arg : Bytes) (erase : Bool) (w : Wire) : Wire :=
  let i := idx 0x0A0110 0
  match gate stage by_ 0x0A0110 w.io with
  | some e => w.on (answer by_ i e [])
  | none =>
    let t := field arg 0x0C 2
    if arg.length ≠ 88 || field arg 0 1 ≠ (if erase then 2 else 1) || field arg 3 1 ≠ 0 || field arg 0x0E 2 ≠ 0 then w.on (answer by_ i 5 [])
    else
      let all := vfTotal w.io 0 + vfTotal w.io 1 + vfTotal w.io 2 + vfTotal w.io 3
      let clear := principalOf by_.assoc.binding == .m && field arg 2 1 != 1
      let c : KeyCmd :=
        { own := devicePool, target := if t = 0xFFFE || t = 0xFFFF then some devicePool else if t < all then some t else none
          slot := field arg 4 4, usage := if clear then 0 else field arg 1 1, form := field arg 2 1, kek := field arg 8 4, exact := true
          data := slice arg 16 72 }
      let r := keyRun stage erase c w
      r.2.2.on (answer by_ i (if r.1 = 0 then 0 else 0x11) (if r.1 = 0 then le 4 r.2.1 else le 1 r.1))

/-- A key command from either source. -/
def keyFrom (stage : Nat) (src : KeySrc) (erase : Bool) (w : Wire) : Wire :=
  match src with
  | .win fn => keyWinRun stage fn.val erase w
  | .cmd b arg => keyCmdRun stage b arg erase w

/-- KEY_WRITE (R314 to R320). -/
def execKeyWrite (src : KeySrc) (s : State) : Host.Outcome State Fault Refusal :=
  .next (onWire (keyFrom s.start.stage src false) s)

/-- KEY_ERASE (R314 to R320). -/
def execKeyErase (src : KeySrc) (s : State) : Host.Outcome State Fault Refusal :=
  .next (onWire (keyFrom s.start.stage src true) s)

/-- KEY_WINDOW_CLEAR_TIMEOUT (R318): 100 ms after the last data write the data words and WORDS clear. -/
def execKeyWindowClear (fn : Fn) (s : State) : Host.Outcome State Fault Refusal :=
  .next (onWire (fun w => if (keyWin w.burin fn.val).words.isEmpty then w
    else keyWinClear fn.val (w.on (reach ((keyWin w.burin fn.val).last + ms 100)))) s)

/-! ### Security associations -/

/-- R324: the owner pool a command's Owner field names for its issuer; none where the issuer may not act there. -/
def saPool (io : Io) (by_ : Issuer) (owner : Nat) : Option Nat :=
  let all := vfTotal io 0 + vfTotal io 1 + vfTotal io 2 + vfTotal io 3
  match principalOf by_.assoc.binding with
  | .h =>
    let p := by_.assoc.key % 4
    if owner = 0xFFFF then some (1024 + p) else if owner < all && pfOfVf io owner = p then some owner else none
  | _ => if owner = 0xFFFF || owner = 0xFFFE then some devicePool else if owner < all then some owner else none

/-- Whether the issuer may act on an SA of a pool. -/
def saMay (io : Io) (by_ : Issuer) (pool : Nat) : Bool :=
  match principalOf by_.assoc.binding with
  | .m => true
  | .h => pool == 1024 + by_.assoc.key % 4 || (decide (pool < 1024) && pfOfVf io pool == by_.assoc.key % 4)
  | _ => pool == 1028 || decide (pool < 1024)

/-- A field is zero unless the kind uses it. -/
def unusedZero (a : Bytes) (kind : Nat) (kinds : List Nat) (o n : Nat) : Bool := kinds.contains kind || allZero (slice a o n)

/-- The flags a kind may set. -/
def saFlagMask (kind : Nat) : Nat :=
  match kind with
  | 1 => 0x07
  | 2 => 0x0F
  | 3 => 0x31
  | 4 => 0x39
  | _ => 0

/-- R325: a CREATE descriptor is well formed. -/
def saDescOk (a : Bytes) : Bool :=
  let k := field a 1 1
  let fl := field a 0x20 1
  let u (ks : List Nat) (o n : Nat) : Bool := unusedZero a k ks o n
  decide (1 ≤ k) && decide (k ≤ 8) && field a 4 4 == 0 && u [1, 2, 3, 5, 6, 7, 8] 8 4 && u [1, 2, 6, 7] 0x0C 4 &&
  u [1, 2, 3, 4, 6, 7] 0x10 8 && u [1, 3, 6, 7] 0x18 8 && (fl &&& (255 - saFlagMask k)) == 0 &&
  (if k = 3 then decide (field a 0x21 1 ≤ 3) else field a 0x21 1 == 0) &&
  (if k = 2 || k = 4 then decide (field a 0x22 2 ≤ 1024) else field a 0x22 2 == 0) &&
  u [1, 2, 3, 4] 0x24 4 && u [3, 4] 0x28 8 && (if k = 5 then decide (field a 0x30 1 ≤ 1) else field a 0x30 1 == 0) &&
  allZero (slice a 0x31 15) && u [1, 2, 4] 0x40 16 && u [1, 2, 3, 4] 0x50 12 && u [1, 2] 0x5C 4 &&
  (if k = 1 || k = 2 then
    (if fl.testBit 1 then field a 0x60 1 == 1 || field a 0x60 1 == 2 else decide (field a 0x60 1 ≤ 2))
   else field a 0x60 1 == 0) &&
  u [1] 0x61 1 && (if k = 1 then decide (field a 0x62 1 ≤ 63) else field a 0x62 1 == 0) && field a 0x63 1 == 0 && u [1, 2] 0x64 4 &&
  u [4] 0x68 24 && (k != 4 || !fl.testBit 0 || field a 0x4C 4 == 0xFFFFFFFF)

/-- The key slots a descriptor names. -/
def saSlots (a : Bytes) : List Nat :=
  if field a 1 1 = 4 then ((List.range 4).map (fun k => field a (0x40 + 4 * k) 4)).filter (· != 0xFFFFFFFF) else [field a 8 4]

/-- R312, R317: usages that fit a kind. -/
def usageFits (kind usage : Nat) : Bool :=
  match kind with
  | 1 => usage == 1 || usage == 2 || usage == 3
  | 2 => usage == 1 || usage == 2 || usage == 3
  | 3 => usage == 1 || usage == 2
  | 4 => usage == 1 || usage == 2
  | 5 => usage == 4 || usage == 5
  | 6 => usage == 1 || usage == 2
  | 7 => usage == 3
  | _ => usage == 6

/-- R315: kinds that encrypt. -/
def encrypts (kind : Nat) : Bool := kind == 1 || kind == 3 || kind == 6 || kind == 7

/-- R315, R325: an SA may be created on a slot. -/
def slotFits (w : Wire) (pool kind s : Nat) : Bool :=
  let k := slotAt w.burin pool s
  decide (s < poolSize w.io pool) && k.state == .keyed && usageFits kind k.usage && !(encrypts kind && k.used)

/-- Reference counts of key slots change by an SA (R315). -/
def saRefs (pool : Nat) (slots : List Nat) (up : Bool) (w : Wire) : Wire :=
  slots.foldl (fun w s =>
    let k := slotAt w.burin pool s
    slotPut pool s { k with refs := if up then k.refs + 1 else k.refs - 1 } w) w

/-- 0A:0101 follows. -/
def saCount (w : Wire) : Wire := w.on (fun io => dset (idx 0x0A0101 0) w.burin.sas.length io)

/-- 0A:0100 is answered. -/
def saAnswer (by_ : Issuer) (st : Nat) (r : Bytes) (w : Wire) : Wire := w.on (answer by_ (idx 0x0A0100 0) st r)

/-- Checks that every op of 0A:0100 makes before it acts. -/
def saGate (stage : Nat) (by_ : Issuer) (arg : Bytes) (op : Nat) (io : Io) : Option Nat :=
  match gate stage by_ 0x0A0100 io with
  | some e => some e
  | none => if arg.length ≠ 128 || field arg 0 1 ≠ op then some 5 else none

/-- An SA comes into being at a free index of the Kwaith's choice, under the tag of that index. -/
def saMake (pool : Nat) (arg : Bytes) (w : Wire) : Option Nat × Wire :=
  match pickFree (fun i => (mget w.burin.sas i).isSome) 0 262144 w.io with
  | (none, io) => (none, { w with io := io })
  | (some i, io) =>
    let tag := mgetD w.burin.tags i 0
    let a : Sa :=
      { tag := tag, pool := pool, desc := arg, counter := BitVec.ofNat 64 (field arg 0x10 8), warned := false, spent := false,
        drops := 0, replay := [] }
    (some (tag * 2 ^ 18 + i), saCount (saPut i a (saRefs pool (saSlots arg) true { w with io := io })))

/-- CREATE. -/
def saCreate (stage : Nat) (by_ : Issuer) (arg : Bytes) (w : Wire) : Wire :=
  match saGate stage by_ arg 1 w.io with
  | some e => saAnswer by_ e [] w
  | none =>
    match saPool w.io by_ (field arg 2 2) with
    | none => saAnswer by_ 3 [] w
    | some pool =>
      if !saDescOk arg then saAnswer by_ 5 [] w
      else if !(saSlots arg).all (slotFits w pool (field arg 1 1)) then saAnswer by_ 0x11 [] w
      else
        match saMake pool arg w with
        | (none, w1) => saAnswer by_ 0x10 [] w1
        | (some h, w1) => saAnswer by_ 0 (le 4 h) w1

/-- SA_CREATE (R315, R323 to R325). -/
def execSaCreate (by_ : Issuer) (arg : Bytes) (s : State) : Host.Outcome State Fault Refusal :=
  .next (onWire (saCreate s.start.stage by_ arg) s)

/-- An SA ends: reference counts fall, its tag moves on, its index is free. -/
def saFree (i : Nat) (a : Sa) (w : Wire) : Wire :=
  let w1 := saRefs a.pool (saSlots a.desc) false w
  saCount { w1 with burin := { w1.burin with
    sas := mdel w1.burin.sas i, tags := mput w1.burin.tags i ((a.tag + 1) % 4096) } }

/-- DELETE. -/
def saDelete (stage : Nat) (by_ : Issuer) (arg : Bytes) (w : Wire) : Wire :=
  match saGate stage by_ arg 2 w.io with
  | some e => saAnswer by_ e [] w
  | none =>
    match saOf w.burin (field arg 4 4) with
    | none => saAnswer by_ 0x11 [] w
    | some (i, a) => if !saMay w.io by_ a.pool then saAnswer by_ 3 [] w else saAnswer by_ 0 [] (saFree i a w)

/-- SA_DELETE (R323, R324). -/
def execSaDelete (by_ : Issuer) (arg : Bytes) (s : State) : Host.Outcome State Fault Refusal :=
  .next (onWire (saDelete s.start.stage by_ arg) s)

/-- QUERY: 64 bytes of the descriptor with the current counter, then the drop count. -/
def saQuery (stage : Nat) (by_ : Issuer) (arg : Bytes) (w : Wire) : Wire :=
  match saGate stage by_ arg 3 w.io with
  | some e => saAnswer by_ e [] w
  | none =>
    match saOf w.burin (field arg 4 4) with
    | none => saAnswer by_ 0x11 [] w
    | some (_, a) =>
      if !saMay w.io by_ a.pool then saAnswer by_ 3 [] w
      else saAnswer by_ 0 (splice (slice a.desc 0 64) 0x10 (le 8 a.counter.toNat) ++ le 8 a.drops) w

/-- SA_QUERY (R324). -/
def execSaQuery (by_ : Issuer) (arg : Bytes) (s : State) : Host.Outcome State Fault Refusal :=
  .next (onWire (saQuery s.start.stage by_ arg) s)

/-! ### Resets (R317, R334) -/

/-- The window of a function resets with it. -/
def keyWinReset (fn : Nat) (w : Wire) : Wire :=
  let w1 := w.on (regReset [.keyWinSlot, .keyWinTarget, .keyWinCtrl, .keyWinKek, .keyWinStatus, .keyWinCheck, .keyWinFill] fn)
  { w1 with burin := { w1.burin with wins := mdel w1.burin.wins fn } }

end Sys2Proof.Machine
end

