-- ==== Sys2Proof/Machine/VfOps.lean ====
section
/-!
DEFINITION. Types and quotas of VFs (R168 to R171).
-/
namespace Sys2Proof.Machine

/-- R168 to R170: the type of VF `n`: of its run; where no run is given at all, the number of its PF; else 0. -/
def vfType (io : Io) (n : Nat) : Nat :=
  match vfRun io n with
  | some r => field r 1 1
  | none => if (vfRunList io).isEmpty then pfOfVf io n else 0

/-- A quota of VF `n`: `o` and `k` are where a run holds it, `d` its default. -/
def vfQuota (io : Io) (n o k d : Nat) : Nat :=
  match vfRun io n with
  | some r => field r o k
  | none => d

/-- RDMA QPs of VF `n`. -/
def vfQps (io : Io) (n : Nat) : Nat := vfQuota io n 0xC 4 (if 2 ≤ vfType io n then 512 else 0)

/-- Memory regions of VF `n`. -/
def vfMrs (io : Io) (n : Nat) : Nat := vfQuota io n 0x10 4 (if 2 ≤ vfType io n then 512 else 0)

/-- Queue pairs of VF `n`: ring pairs, or NVMe I/O queue pairs. -/
def vfPairs (io : Io) (n : Nat) : Nat := vfQuota io n 8 2 16

/-- MSI-X vectors of VF `n`. -/
def vfVectors (io : Io) (n : Nat) : Nat := vfQuota io n 6 1 16

/-- VFs 1 to TotalVFs of every PF. -/
def vfCount (io : Io) : Nat := ((List.range 4).map (vfTotal io)).sum

end Sys2Proof.Machine
end

