-- ==== Sys2Proof/Machine/NvmeOps.lean ====
section
/-!
DEFINITION. What the storage front end shares (chapter 16): controllers (R369), their settings (R393), namespaces as the
front end sees them (R385, R386), asynchronous events and the error log (R384), and completions (R383, R387, R389, R390).
Choices of the model coded here, by entry of the assumption log: DEDUCED 62; PRESUMED 61.
-/
namespace Sys2Proof.Machine

/-! ### Controllers (R369, R393) -/

/-- A controller. -/
def ctlAt (s : State) (c : Nat) : NvCtl := mgetD s.nvme.ctls c NvCtl.reset

/-- Storing a controller. -/
def ctlPut (c : Nat) (x : NvCtl) (s : State) : State := { s with nvme := { s.nvme with ctls := mput s.nvme.ctls c x } }

/-- The function instance a controller belongs to. -/
def ctlFn (io : Io) (c : Nat) : Nat := if c < 4 then activeTwin io c else 16 + (c - 4)

/-- Whether a controller exists. -/
def ctlExists (s : State) (c : Nat) : Bool :=
  if c < 4 then c == 1 || s.nvme.hosts.testBit c
  else (vfAt s.io (c - 4)).up && (vfType s.io (c - 4) == 1 || vfType s.io (c - 4) == 3)

/-- The queue quota of a controller (R373). -/
def ctlQuota (io : Io) (c : Nat) : Nat := if c < 4 then 128 else vfPairs io (c - 4)

/-- The settings of a controller in 0C:0400 + CNTLID: weight, URGENT, in-flight limit, spill quota. -/
def ctlCfg (io : Io) (c : Nat) : Nat × Bool × Nat × Nat :=
  let b := dgetB io (idx (0x0C0400 + c) 0)
  if b.isEmpty then (4, decide (c < 4), 1024, 1024) else (field b 0 1, field b 1 1 == 1, field b 2 2, field b 4 4)

/-- CSTS.RDY. -/
def ctlReady (io : Io) (c : Nat) : Bool := regBit .nvCsts c 0 io

/-- Memory page size in bytes (CC.MPS). -/
def ctlPage (io : Io) (c : Nat) : Nat := 4096 * 2 ^ regField .nvCc c 10 7 io

/-- Commands in flight on the chip (R377). -/
def nvInFlight (s : State) : Nat := (s.nvme.ctls.map (fun p => p.2.cmds.length)).sum

/-- 0C:0001 and 0C:0002 follow the controllers. -/
def nvTotals (s : State) : State :=
  on (fun io => dset (idx 0x0C0002 0) (nvInFlight s)
    (dset (idx 0x0C0001 0) (s.nvme.ctls.filter (fun p => ctlReady io p.1)).length io)) s

/-- Bytes of the spill pool that I/O completion queues reserve (R389). -/
def nvReserve (s : State) : State :=
  on (fun io => ringTotals { io with
    nvSpill := (s.nvme.ctls.map (fun p => ((p.2.cqs.filter (fun q => q.1 != 0)).map (fun q => q.2.quota * 16)).sum)).sum }) s

/-! ### Namespaces as the front end sees them (R385, R386) -/

/-- A namespace. -/
def nsAt (s : State) (n : Nat) : Option Ns := mget s.store.nss n

/-- Storing a namespace. -/
def nsPut (n : Nat) (x : Ns) (s : State) : State := { s with store := { s.store with nss := mput s.store.nss n x } }

/-- The state of R386: an isolated side serves a sealed namespace, or one of two copies, read only. -/
def nsState (s : State) (x : Ns) : Nat := if x.state = 0 && s.dom.state = 2 && (x.kind == 2 || x.copies == 2) then 3 else x.state

/-- Bytes of an LBA. -/
def lbaBytes (fmt : Nat) : Nat := if fmt = 0 then 512 else 4096

/-- The namespace is exposed and active under CC.CSS (R385). -/
def nsActive (io : Io) (c : Nat) (x : Ns) : Bool := x.attached.contains c && (x.kind == 0 || regField .nvCc c 6 4 io == 6)

/-! ### Asynchronous events and the error log (R384) -/

/-- Feature `k` of a controller; `d` is its default. -/
def featOf (x : NvCtl) (k d : Nat) : Nat := mgetD x.feats k d

/-- Dwords of a completion entry. -/
def cqeBytes (e : NvCqe) (head : Nat) (phase : Bool) : Bytes :=
  le 8 e.result ++ le 2 head ++ le 2 e.sq ++ le 2 e.cid ++ le 2 (e.status * 2 + b2n phase)

/-- Free entries of a completion queue (R373). -/
def nvFree (q : NvCq) : Nat := (q.head + q.size - q.tail % q.size - 1) % q.size

/-- A completion is written at the tail of its queue, and its vector is raised. -/
def cqeWrite (c k : Nat) (q : NvCq) (e : NvCqe) (s : State) : State :=
  let x := ctlAt s c
  let fn := ctlFn s.io c
  let head := match mget x.sqs e.sq with | some y => y.head | none => 0
  let last := decide (q.tail + 1 = q.size)
  let q' := { q with tail := if last then 0 else q.tail + 1, phase := if last then !q.phase else q.phase }
  on (fun io => msix fn q.vector (hostWrite fn (q.base + 16 * q.tail) (cqeBytes e head q.phase) io))
    (ctlPut c { x with cqs := mput x.cqs k q' } s)

/-- The SQs bound to a completion queue. -/
def sqsOf (x : NvCtl) (k : Nat) : List Nat := (x.sqs.filter (fun p => p.2.cq == k)).map (·.1)

/-- The SQs bound to a completion queue are suspended, or resumed. -/
def nvSuspend (c k : Nat) (v : Bool) (s : State) : State :=
  let x := ctlAt s c
  ctlPut c { x with sqs := mmap x.sqs (fun _ q => if q.cq = k then { q with suspended := v } else q) } s

/-- Held completions are posted while entries are free, overflow slots first (R389). -/
def nvDrain (c k : Nat) : Nat → State → State
  | 0, s => s
  | n + 1, s =>
    match mget (ctlAt s c).cqs k with
    | none => s
    | some q =>
      if q.error || nvFree q = 0 then s
      else
        match q.overflow, q.spill with
        | e :: es, _ => nvDrain c k n (cqeWrite c k { q with overflow := es } e s)
        | [], e :: es => nvDrain c k n (cqeWrite c k { q with spill := es } e s)
        | [], [] => s

/-- R389 step 5. -/
def nvResume (c k : Nat) (s : State) : State :=
  match mget (ctlAt s c).cqs k with
  | none => s
  | some q =>
    if q.stopped && q.overflow.isEmpty && q.spill.isEmpty && !q.error then
      let x := ctlAt s c
      nvSuspend c k false (ctlPut c { x with cqs := mput x.cqs k { q with stopped := false } } s)
    else s

/-- The function instance that receives the Kwaith events of a controller (R390). -/
def ctlEventFn (io : Io) (c : Nat) : Nat := if c < 4 then ctlFn io c else activeTwin io (pfOfVf io (c - 4))

/-- CSTS.CFS is set, with event 0x0C02 (R372, R390, R391). -/
def nvFatal (c cause : Nat) (s : State) : State :=
  let x := ctlAt s c
  on (fun io => event (ctlEventFn io c) 0x0C02 c 0 cause [] (regOn .nvCsts c 1 io)) (ctlPut c { x with st := 4, rising := none } s)

/-- A completion that cannot be stored (R390). -/
def cqeLost (c : Nat) (s : State) : State :=
  let x := ctlAt s c
  on (bump64 0x0C0011 0) (ctlPut c { x with lost := x.lost + 1 } s)

/-- An Error Information entry, newest first, 64 kept. -/
def errLog (c sq cid status lba ns : Nat) (s : State) : State :=
  let x := ctlAt s c
  let n := x.errCount + 1
  let b := le 8 n ++ le 2 sq ++ le 2 cid ++ le 2 (status * 2) ++ le 2 0 ++ le 8 lba ++ le 4 ns ++ le 36 0
  ctlPut c { x with errlog := (b :: x.errlog).take 64, errCount := n } s

/-- What becomes of a completion at its queue: written, held, spilled, or the queue enters ERROR (R389, R390). The admin
queue turns ERROR into CSTS.CFS. -/
def cqePost (c k : Nat) (e : NvCqe) (s : State) : State :=
  match mget (ctlAt s c).cqs k with
  | none => s
  | some q =>
    let x := ctlAt s c
    if q.error then cqeLost c s
    else if q.overflow.isEmpty && q.spill.isEmpty && decide (0 < nvFree q) then cqeWrite c k q e s
    else if decide (q.overflow.length < 8) && q.spill.isEmpty && !q.stopped then
      let full := q.overflow.length == 7
      let s1 := ctlPut c { x with cqs := mput x.cqs k { q with overflow := q.overflow ++ [e], stopped := full } } s
      if full then nvSuspend c k true s1 else s1
    else if q.spill.length < q.quota then ctlPut c { x with cqs := mput x.cqs k { q with spill := q.spill ++ [e] } } s
    else
      let s1 := cqeLost c (on (bump32 0x0C0013 3) (nvSuspend c k true (ctlPut c { x with cqs := mput x.cqs k { q with error := true } } s)))
      let s2 := on (fun io => event (ctlEventFn io c) 0x0C01 c k (ctlAt s1 c).lost [] io) s1
      if k = 0 then nvFatal c 3 s2 else s2

/-- An asynchronous event of a type (0 error, 1 SMART, 2 notice), with its information and log page: it completes an
outstanding request, or waits. -/
def nvAsync (c ty info page : Nat) (s : State) : State :=
  let x := ctlAt s c
  let d := ty + 256 * info + 65536 * page
  if x.masked.contains ty then s
  else
    match x.aers with
    | [] => if x.events.contains d then s else ctlPut c { x with events := x.events ++ [d] } s
    | cid :: r =>
      let s1 := ctlPut c { x with aers := r, masked := sadd x.masked ty, cmds := x.cmds.filter (fun m => !(m.sq == 0 && m.cid == cid)) } s
      nvTotals (on (bump64 0x0C0010 1) (cqePost c 0 { result := d, sq := 0, cid := cid, status := 0 }
        (ctlPut c { ctlAt s1 c with completed := (ctlAt s1 c).completed + 1 } s1)))

/-- R390, R391: Persistent Internal Error, with an entry that names the queue. -/
def nvPersistent (c q : Nat) (s : State) : State := nvAsync c 0 3 1 (errLog c q 0xFFFF 0x06 0 0 s)

/-- A completion is posted, and a queue that enters ERROR by it is reported (R390). -/
def nvPost (c k : Nat) (e : NvCqe) (s : State) : State :=
  let before := match mget (ctlAt s c).cqs k with | some q => q.error | none => true
  let s1 := cqePost c k e s
  let after := match mget (ctlAt s1 c).cqs k with | some q => q.error | none => true
  if !before && after && k ≠ 0 then nvPersistent c k s1 else s1

/-! ### Ending a command (R383, R384, R387) -/

/-- Element of 0C:0010 for a status. -/
def statusElement (st : Nat) : Nat :=
  if st = 0 then 1 else if st = 0x82 then 5 else if st = 0x21 then 6 else if st = 7 || st = 8 then 7
  else if st / 256 = 0 then 2 else if st / 256 = 1 then 3 else 4

/-- The command of a controller under SQ and command ID. -/
def cmdAt (s : State) (c sq cid : Nat) : Option NvCmd := (ctlAt s c).cmds.find? (fun m => m.sq == sq && m.cid == cid)

/-- Storing a command. -/
def cmdPut (c : Nat) (m : NvCmd) (s : State) : State :=
  let x := ctlAt s c
  ctlPut c { x with cmds := x.cmds.map (fun n => if n.sq == m.sq && n.cid == m.cid then m else n) } s

/-- A command is in flight no more. -/
def cmdDrop (c sq cid : Nat) (s : State) : State :=
  let x := ctlAt s c
  nvTotals (ctlPut c { x with cmds := x.cmds.filter (fun m => !(m.sq == sq && m.cid == cid)) } s)

/-- The status field of a completion: SC, SCT, CRD where the host has set ACRE (R387), DNR. -/
def statusField (x : NvCtl) (st : Nat) (dnr : Bool) : Nat :=
  let acre := featOf x 0x16 0 % 256 == 1
  let crd := b2n (acre && !dnr && (st == 0x82 || st == 0x21))
  st % 256 + 256 * (st / 256 % 8) + 2048 * crd + 16384 * b2n dnr

/-- The NSID of an entry. -/
def entryNs (b : Bytes) : Nat := field b 4 4

/-- The SLBA of an I/O entry. -/
def entryLba (b : Bytes) : Nat := field b 40 8

/-- NLB of an I/O entry, as blocks. -/
def entryBlocks (b : Bytes) : Nat := field b 48 2 + 1

/-- Once its last command has ended, a Delete I/O SQ that waits completes (R392); a controller in reset is down. -/
def ctlSettle (c : Nat) (s : State) : State :=
  let x := ctlAt s c
  if x.falling && x.cmds.isEmpty then
    nvTotals (on (fun io => regOff .nvCsts c 0 io) (ctlPut c { NvCtl.reset with completed := x.completed, lost := x.lost } s))
  else s

/-- A command ends: it leaves flight, is counted and logged, and its completion is posted unless it is discarded. -/
def nvFinish (c : Nat) (m : NvCmd) (st : Nat) (dnr : Bool) (s : State) : State :=
  let x := ctlAt s c
  let s1 := cmdDrop c m.sq m.cid s
  if m.discard then ctlSettle c s1
  else
    let s2 := on (bump64 0x0C0010 (statusElement st)) (ctlPut c { ctlAt s1 c with completed := x.completed + 1 } s1)
    let s3 := if st = 0 || [0x82, 8, 0x21].contains st then s2 else errLog c m.sq m.cid (statusField x st dnr) (entryLba m.entry) (entryNs m.entry) s2
    match mget x.sqs m.sq with
    | none => s3
    | some q => nvPost c q.cq { result := m.result, sq := m.sq, cid := m.cid, status := statusField x st dnr } s3

/-- The last command of an SQ that is being deleted has ended: the SQ goes, and the Delete completes. -/
def sqLeave (c k : Nat) (s : State) : State :=
  let x := ctlAt s c
  match mget x.sqs k with
  | none => s
  | some q =>
    match q.leaving with
    | none => s
    | some cid =>
      if x.cmds.any (fun m => m.sq == k) then s
      else
        let s1 := ctlPut c { x with sqs := mdel x.sqs k } s
        match cmdAt s1 c 0 cid with
        | some m => nvFinish c m 0 false s1
        | none => s1

/-- A command ends, and what waited for it goes on. -/
def nvEnd (c : Nat) (m : NvCmd) (st : Nat) (dnr : Bool) (s : State) : State := sqLeave c m.sq (nvFinish c m st dnr s)

/-- The same, of a command named by its IDs, if it is in flight. -/
def nvEndAt (c sq cid st : Nat) (dnr : Bool) (s : State) : State :=
  match cmdAt s c sq cid with
  | some m => nvEnd c m st dnr s
  | none => s

/-- R385: an attachment or state change enters the Changed Namespace List of a controller and raises its notice. -/
def nsChanged (n : Nat) (cs : List Nat) (s : State) : State :=
  cs.foldl (fun s c =>
    let x := ctlAt s c
    let s1 := ctlPut c { x with changed := sadd x.changed n } s
    if (featOf x 0x0B 0).testBit 8 then nvAsync c 2 0 4 s1 else s1) s

/-- A namespace enters a state of R386. -/
def nsSet (n st : Nat) (s : State) : State :=
  match nsAt s n with
  | none => s
  | some x =>
    if x.state = st then s
    else nsChanged n x.attached (nsPut n { x with state := st, waitAt := if st = 2 then some s.io.now else none } s)

/-! ### Host data of a command -/

/-- The bytes of a list page or segment read at an address. -/
def segAt (lists : List Segment) (a : Nat) : Option Bytes := (lists.find? (fun x => x.addr == a)).bind (·.bytes)

/-- PRP entries of a list: pages of `mps` bytes, the last slot of a full list page pointing to the next. -/
def prpList (lists : List Segment) (mps : Nat) : Nat → Nat → Nat → Except Nat (List (Nat × Nat))
  | 0, _, _ => .error 0x13
  | fuel + 1, a, left =>
    if left = 0 then .ok []
    else if a % 8 ≠ 0 then .error 0x13
    else
      match segAt lists a with
      | none => .error 4
      | some b =>
        let slots := (mps - a % mps) / 8
        let pages := ceilDiv left mps
        let n := if pages ≤ slots then pages else slots - 1
        let es := (List.range n).map (fun k => (field b (8 * k) 8, min mps (left - k * mps)))
        if es.any (fun e => e.1 % mps != 0) then .error 0x13
        else if pages ≤ slots then .ok es
        else (prpList lists mps fuel (field b (8 * n) 8) (left - n * mps)).map (es ++ ·)

/-- The host segments PRP1 and PRP2 name. -/
def prpSegs (b : Bytes) (lists : List Segment) (mps len : Nat) : Except Nat (List (Nat × Nat)) :=
  let p1 := field b 24 8
  let p2 := field b 32 8
  let first := min len (mps - p1 % mps)
  if p1 % 4 ≠ 0 then .error 0x13
  else if len ≤ first then .ok [(p1, len)]
  else if len - first ≤ mps then (if p2 % mps ≠ 0 then .error 0x13 else .ok [(p1, first), (p2, len - first)])
  else (prpList lists mps (len / 4096 + 2) p2 (len - first)).map ((p1, first) :: ·)

/-- SGL descriptors from a segment on: data blocks, then perhaps one that names the next segment (R379, R383). -/
def sglWalk (lists : List Segment) : Nat → List Nat → Nat → Bytes → Except Nat (List (Nat × Nat))
  | 0, _, _, _ => .error 0x0D
  | fuel + 1, seen, count, b =>
    let n := b.length / 16
    if n = 0 || 256 < count + n then .error 0x0D
    else
      let ty (k : Nat) : Nat := field b (16 * k + 15) 1
      let body := (List.range (n - 1)).map (fun k => (ty k, field b (16 * k) 8, field b (16 * k + 8) 4))
      let last := (ty (n - 1), field b (16 * (n - 1)) 8, field b (16 * (n - 1) + 8) 4)
      if body.any (fun e => e.1 != 0) then .error (if body.any (fun e => e.1 == 0x20 || e.1 == 0x30) then 0x0D else 0x11)
      else
        let es := body.map (fun e => (e.2.1, e.2.2))
        if last.1 = 0 then .ok (es ++ [(last.2.1, last.2.2)])
        else if last.1 = 0x20 || last.1 = 0x30 then
          if seen.contains last.2.1 || last.2.2 % 16 ≠ 0 || last.2.2 = 0 then .error 0x0D
          else
            match segAt lists last.2.1 with
            | none => .error 4
            | some b' => (sglWalk lists fuel (last.2.1 :: seen) (count + n) (slice b' 0 last.2.2)).map (es ++ ·)
        else .error 0x11

/-- The host segments of a transfer of `len` bytes: PRPs or SGLs (R379). -/
def dataSegs (b : Bytes) (lists : List Segment) (mps len : Nat) : Except Nat (List (Nat × Nat)) :=
  if len = 0 then .ok []
  else if field b 1 1 / 64 = 0 then prpSegs b lists mps len
  else
    match sglWalk lists 258 [] 0 (slice b 24 16) with
    | .error e => .error e
    | .ok es => if (es.map (fun (e : Nat × Nat) => e.2)).sum = len then .ok es else .error 0x0F

/-- DNR of a status (R383, R386): 0 for success, 0/04h, 0/20h, 0/21h and, where the namespace may come back, 0/82h. -/
def dnrOf (st : Nat) : Bool := !([0, 4, 0x20, 0x21, 0x82].contains st)

/-- Data to the host segments of a command. -/
def segsWrite (fn : Nat) : List (Nat × Nat) → Bytes → Io → Io
  | [], _, io => io
  | (a, n) :: es, d, io => if d.isEmpty then io else segsWrite fn es (d.drop n) (hostWrite fn a (d.take n) io)

/-- An admin command that returns data, or fails by its data pointer. -/
def nvReply (c : Nat) (m : NvCmd) (lists : List Segment) (len : Nat) (d : Bytes) (s : State) : State :=
  match dataSegs m.entry lists (ctlPage s.io c) len with
  | .error e => nvEnd c m e (dnrOf e) s
  | .ok segs => nvEnd c m 0 false (on (segsWrite (ctlFn s.io c) segs (padTo len d)) s)

end Sys2Proof.Machine
end

