-- ==== Sys2Proof/Machine/Nvme.lean ====
section
/-!
DEFINITION. NVMe controllers: enable, reset and shutdown (R372), doorbells (R374), fetch and its checks (R375 to R377, R382),
admin commands (R373, R378, R380, R381, R384, R392), queue memory faults (R391).
Choices of the model coded here, by entry of the assumption log: DESIGN CHOICE 6; DEDUCED 62; PRESUMED 61.
-/
namespace Sys2Proof.Machine

/-! ### Enable, reset, shutdown (R372) -/

/-- CC as an enable check finds it. -/
def ccOk (io : Io) (c : Nat) : Bool :=
  decide (regField .nvCc c 10 7 io ≤ 4) && (regField .nvCc c 6 4 io == 0 || regField .nvCc c 6 4 io == 6)

/-- The admin queue pair of a controller, from AQA, ASQ and ACQ. -/
def adminPair (io : Io) (c : Nat) (x : NvCtl) : NvCtl :=
  let sq : NvSq := { base := (regGet .nvAsq c io).toNat, size := regField .nvAqa c 11 0 io + 1, cq := 0, prio := 0, head := 0,
                     tail := 0, suspended := false, failed := false, leaving := none }
  let cq : NvCq := { base := (regGet .nvAcq c io).toNat, size := regField .nvAqa c 27 16 io + 1, head := 0, tail := 0, phase := true,
                     vector := 0, quota := 64, overflow := [], spill := [], stopped := false, error := false }
  { x with sqs := [(0, sq)], cqs := [(0, cq)] }

/-- A write of CC, whose EN and SHN rows carry it. -/
def ccWrite (c : Nat) (v : Word32) (s : State) : State := on (regWrite .nvCc c (v.setWidth 64)) s

/-- CC.EN written 1: before stage 3 the controller waits; at stage 3 CC is checked. -/
def ccEnable (c : Nat) (v : Word32) (s : State) : State :=
  if !ctlExists s c || regBit .nvCc c 0 s.io || !v.getLsbD 0 then s
  else
    let s1 := ccWrite c v s
    if s.start.stage < 3 then ctlPut c { ctlAt s1 c with st := 2, rising := some s.io.now } s1
    else if ccOk s1.io c then ctlPut c { ctlAt s1 c with rising := some s.io.now } s1
    else nvFatal c 0 s1

/-- CC_EN_SET (R372). -/
def execCcEnSet (c : CtlNo) (v : Word32) (s : State) : Host.Outcome State Fault Refusal := .next (ccEnable c.val v s)

/-- A controller that waits becomes ready at stage 3, or fails its check. -/
def ctlRise (c : Nat) (s : State) : State :=
  let x := ctlAt s c
  if x.rising.isNone || s.start.stage < 3 || x.falling then s
  else if !ccOk s.io c then nvFatal c 0 s
  else nvTotals (on (regOn .nvCsts c 0) (ctlPut c { adminPair s.io c x with st := 3, rising := none } s))

/-- CONTROLLER_READY (R372). -/
def execControllerReady (c : CtlNo) (s : State) : Host.Outcome State Fault Refusal := .next (ctlRise c.val s)

/-- The controller goes down: commands not handed to firmware are discarded, the others finish with their completions
discarded, every queue is deleted and features return to their defaults. -/
def ctlDown (c : Nat) (s : State) : State :=
  let x := ctlAt s c
  let kept := (x.cmds.filter (fun m => m.thread.isSome)).map (fun m => { m with discard := true })
  let s1 := on (fun io => regOff .nvCsts c 1 (regPut .nvCsts c 3 2 0 io))
    (ctlPut c { NvCtl.reset with falling := true, cmds := kept, completed := x.completed, lost := x.lost } s)
  nvReserve (ctlSettle c (nvTotals s1))

/-- CC_EN_CLEAR (R372). -/
def execCcEnClear (c : CtlNo) (v : Word32) (s : State) : Host.Outcome State Fault Refusal :=
  .next (if !ctlExists s c.val || !regBit .nvCc c.val 0 s.io || v.getLsbD 0 then s
    else ctlDown c.val (on (regOff .nvCc c.val 0) (ccWrite c.val v s)))

/-- CC.SHN asks for shutdown: fetching stops, shutdown processing begins (CSTS.SHST 01b). -/
def ctlShutdown (c : Nat) (v : Word32) (s : State) : State :=
  let n := bits v.toNat 15 14
  if !ctlExists s c || !regBit .nvCc c 0 s.io || (n ≠ 1 && n ≠ 2) then s
  else
    let s1 := ccWrite c v s
    on (regPut .nvCsts c 3 2 1) (ctlPut c { ctlAt s1 c with shn := true } s1)

/-- CC_SHN (R372). -/
def execCcShn (c : CtlNo) (v : Word32) (s : State) : Host.Outcome State Fault Refusal := .next (ctlShutdown c.val v s)

/-- Every fetched command has been posted (outstanding Asynchronous Event Requests excepted). -/
def ctlQuiet (x : NvCtl) : Bool := x.cmds.all (fun m => m.sq == 0 && x.aers.contains m.cid)

/-- SHUTDOWN_COMPLETE (R372). -/
def execShutdownComplete (c : CtlNo) (s : State) : Host.Outcome State Fault Refusal :=
  .next (let x := ctlAt s c.val
    if x.shn && ctlQuiet x && regField .nvCsts c.val 3 2 s.io == 1 then
      on (regPut .nvCsts c.val 3 2 2) (ctlPut c.val { x with st := 5 } s)
    else s)

/-! ### Doorbells (R374) -/

/-- A doorbell is ignored: counted, journalled (R564), with the NVMe Error event. `d` is its index in the array of doorbells. -/
def doorbellFault (c e d v : Nat) (s : State) : State :=
  nvAsync c 0 (e - 1) 1 (on (fun io =>
    violate 0x010A (hostPartner io (ctlFn io c) 0) (le 2 c ++ le 2 d ++ le 4 v) (bump32 0x0C0012 e io)) s)

/-- The tail doorbell of a queue. -/
def sqTail (c q v : Nat) (s : State) : State :=
  let x := ctlAt s c
  if !ctlExists s c then s
  else
    match mget x.sqs q with
    | none => doorbellFault c 1 (2 * q) v s
    | some y => if y.size ≤ v then doorbellFault c 2 (2 * q) v s else ctlPut c { x with sqs := mput x.sqs q { y with tail := v } } s

/-- SQ_TAIL_DOORBELL (R374, R564). -/
def execSqTailDoorbell (c : CtlNo) (q : Nat) (v : Half) (s : State) : Host.Outcome State Fault Refusal :=
  .next (sqTail c.val q v.toNat s)

/-- The head doorbell of a completion queue: a value beyond the last completion posted is invalid. -/
def cqHead (c q v : Nat) (s : State) : State :=
  let x := ctlAt s c
  if !ctlExists s c then s
  else
    match mget x.cqs q with
    | none => doorbellFault c 1 (2 * q + 1) v s
    | some y =>
      if y.size ≤ v || (y.tail + y.size - y.head) % y.size < (v + y.size - y.head) % y.size then doorbellFault c 2 (2 * q + 1) v s
      else nvResume c q (nvDrain c q (y.overflow.length + y.spill.length) (ctlPut c { x with cqs := mput x.cqs q { y with head := v } } s))

/-- CQ_HEAD_DOORBELL (R374, R389, R392). -/
def execCqHeadDoorbell (c : CtlNo) (q : Nat) (v : Half) (s : State) : Host.Outcome State Fault Refusal :=
  .next (cqHead c.val q v.toNat s)

/-! ### Fetch arbitration (R375 to R377) -/

/-- Commands an SQ holds. -/
def sqHolds (y : NvSq) : Nat := if y.suspended || y.failed || y.leaving.isSome then 0 else (y.tail + y.size - y.head) % y.size

/-- The queues of a class that hold commands: 0 urgent, 1 high, 2 medium, 3 low; every I/O queue is of class 1 under
CC.AMS 000b, and urgent ones are of class 1 where URGENT is 0. -/
def clsQueues (io : Io) (c : Nat) (x : NvCtl) (k : Nat) : List Nat :=
  let wrr := regField .nvCc c 13 11 io == 1
  let cls (y : NvSq) : Nat := if !wrr then 1 else if y.prio = 0 && !(ctlCfg io c).2.1 then 1 else y.prio
  (x.sqs.filter (fun p => p.1 != 0 && decide (0 < sqHolds p.2) && cls p.2 == k)).map (·.1)

/-- A controller the engine does not skip. -/
def mayFetch (s : State) (c : Nat) : Bool :=
  let x := ctlAt s c
  ctlExists s c && ctlReady s.io c && x.st == 3 && !x.shn && decide (x.cmds.length < (ctlCfg s.io c).2.2.1) &&
  !(decide (4 ≤ c) && frozen s.io (16 + (c - 4))) && decide (nvInFlight s < 32768)

/-- Controllers with work of a class: 0 urgent, 1 weighted, 2 admin. -/
def ctlsWith (s : State) (k : Nat) : List Nat :=
  (s.nvme.ctls.map (·.1)).filter (fun c =>
    mayFetch s c &&
    (let x := ctlAt s c
     match k with
     | 2 => (match mget x.sqs 0 with | some y => decide (0 < sqHolds y) | none => false)
     | 0 => !(clsQueues s.io c x 0).isEmpty
     | _ => [1, 2, 3].any (fun j => !(clsQueues s.io c x j).isEmpty)))

/-- The member of a list after `last`, cyclically. -/
def after (l : List Nat) (last : Nat) : Option Nat :=
  match l.find? (fun c => decide (last < c)) with
  | some c => some c
  | none => l.head?

/-- The grant of a class in a round (Feature 01h). -/
def clsGrant (x : NvCtl) (k : Nat) : Nat := (featOf x 1 0) / 256 ^ (4 - k) % 256 + 1

/-- Arbitration Burst in commands. -/
def burstOf (x : NvCtl) : Nat := 2 ^ min (featOf x 1 0 % 8) 3

/-- R376: the class the round serves next: the current one while it has a grant and commands, else the next with
commands, with its grant. -/
def roundClass (io : Io) (c : Nat) (x : NvCtl) : Option (Nat × Nat) :=
  if regField .nvCc c 13 11 io ≠ 1 then (if (clsQueues io c x 1).isEmpty then none else some (1, burstOf x))
  else
    let has (k : Nat) : Bool := !(clsQueues io c x k).isEmpty
    if has x.cls && decide (0 < x.grant) then some (x.cls, x.grant)
    else
      match ([1, 2, 3].filter (fun k => decide (x.cls < k))).find? has with
      | some k => some (k, clsGrant x k)
      | none => ([1, 2, 3].find? has).map (fun k => (k, clsGrant x k))

/-- What a pick takes: controller, SQ, class (0 urgent, 4 admin), commands at most. -/
structure NvPick where
  ctl : Nat
  sq  : Nat
  cls : Nat
  n   : Nat
  grant : Nat
  deriving DecidableEq, Repr

/-- R375, R376: the choice within a controller for a kind of work (0 urgent, 1 weighted, 2 admin). -/
def pickIn (s : State) (c kind : Nat) : Option NvPick :=
  let x := ctlAt s c
  let present (q : Nat) : Nat := match mget x.sqs q with | some y => sqHolds y | none => 0
  let room := min ((ctlCfg s.io c).2.2.1 - x.cmds.length) (32768 - nvInFlight s)
  match kind with
  | 2 => some { ctl := c, sq := 0, cls := 4, n := min room (min (burstOf x) (present 0)), grant := 0 }
  | 0 => (after (clsQueues s.io c x 0) (mgetD x.turns 0 0)).map
      (fun q => { ctl := c, sq := q, cls := 0, n := min room (min (burstOf x) (present q)), grant := 0 })
  | _ =>
    match roundClass s.io c x with
    | none => none
    | some (k, g) => (after (clsQueues s.io c x k) (mgetD x.turns k 0)).map
        (fun q => { ctl := c, sq := q, cls := k, n := min room (min (burstOf x) (min g (present q))), grant := g })

/-- R375: the weighted controller: the one visited while its credit lasts, else the next. -/
def weightedCtl (s : State) : Option Nat :=
  let l := ctlsWith s 1
  if 0 < s.nvme.credit && l.contains s.nvme.lastWeighted then some s.nvme.lastWeighted else after l s.nvme.lastWeighted

/-- R375: the pick, and the engine's own state after it. -/
def nvPick (s : State) : Option NvPick × Nvme :=
  let v := s.nvme
  match after (ctlsWith s 2) v.lastAdmin with
  | some c => (pickIn s c 2, { v with lastAdmin := c })
  | none =>
    let urgent := after (ctlsWith s 0) v.lastUrgent
    let weighted := weightedCtl s
    match urgent, weighted with
    | none, none => (none, v)
    | some c, none => (pickIn s c 0, { v with lastUrgent := c, urgentRun := 0 })
    | u, some w =>
      if u.isSome && v.urgentRun < 7 then
        (pickIn s (u.getD 0) 0, { v with lastUrgent := u.getD 0, urgentRun := v.urgentRun + 1 })
      else
        let fresh := !(decide (0 < v.credit) && v.lastWeighted == w)
        let left := if fresh then (ctlCfg s.io w).1 - 1 else v.credit - 1
        (pickIn s w 1, { v with lastWeighted := w, credit := left, urgentRun := 0 })

/-! ### Checks (R382) -/

/-- Opcodes of R378 and R379. -/
def adminOps : List Nat := [0, 1, 2, 4, 5, 6, 8, 9, 0xA, 0xC]
def ioOps : List Nat := [0, 1, 2, 8, 9, 0x79, 0x7A, 0x7D]

/-- Reserved bits of a command that are set: CDW0 bits 13:10, PSDT 11b, CDW2 and CDW3. -/
def cmdReserved (b : Bytes) : Bool := bits (field b 1 1) 5 2 != 0 || field b 1 1 / 64 == 3 || !allZero (slice b 8 8)

/-- R382 check 5: a namespace kind carries a command; the Write of a sealed namespace passes. -/
def kindCarries (kind op : Nat) : Bool :=
  if op = 8 || op = 9 then kind == 0 else if op = 0x79 || op = 0x7A || op = 0x7D then decide (1 ≤ kind) else true

/-- R386: the state admits the command; else its status and DNR. -/
def stateStatus (st op : Nat) : Option (Nat × Bool) :=
  let reads := op == 2 || op == 0x7A || op == 0
  match st with
  | 0 => none
  | 3 => if reads then none else some (0x20, false)
  | 4 => some (0x82, true)
  | _ => some (0x82, false)

/-- Checks 4 to 8 of an I/O command. -/
def ioCheck (s : State) (c : Nat) (b : Bytes) : Option (Nat × Bool) :=
  let op := field b 0 1
  let n := entryNs b
  if op = 0 && n = 0xFFFFFFFF then none
  else
    match nsAt s n with
    | none => some (0x0B, true)
    | some x =>
      let lim := if op = 0x7D then 65536 else 2 ^ 20
      let ranged := op == 1 || op == 2 || op == 8 || op == 0x7D
      if !nsActive s.io c x then some (0x0B, true)
      else if !kindCarries x.kind op then some (1, true)
      else
        match (if op = 0 then none else stateStatus (nsState s x) op) with
        | some r => some r
        | none =>
          if ranged && x.size < entryLba b + entryBlocks b || (op = 0x79 || op = 0x7A) && x.size ≤ entryLba b then some (0x80, true)
          else if (op = 1 || op = 2 || op = 0x7D) && lim < entryBlocks b * lbaBytes x.fmt then some (2, true)
          else if op = 1 && x.kind = 2 then some (0x1BC, true)
          else none

/-- R382: the status of a fetched command's first failing check. -/
def cmdCheck (s : State) (c sq : Nat) (b : Bytes) : Option (Nat × Bool) :=
  let op := field b 0 1
  let x := ctlAt s c
  if x.cmds.any (fun m => m.sq == sq && m.cid == field b 2 2) then some (3, true)
  else if !((if sq = 0 then adminOps else ioOps).contains op) then some (1, true)
  else if field b 1 1 % 4 ≠ 0 || cmdReserved b then some (2, true)
  else if sq = 0 then none else ioCheck s c b

/-- A command as fetched. -/
def cmdOf (sq : Nat) (b : Bytes) : NvCmd :=
  { sq := sq, cid := field b 2 2, entry := b, thread := none, pieces := [], out := 0, segs := [], ended := none, result := 0,
    discard := false }

/-- A failing check ends a command at once. A command ID conflict leaves the first command alone. -/
def checkFail (c : Nat) (m : NvCmd) (st : Nat) (dnr : Bool) (s : State) : State :=
  let x := ctlAt s c
  let s1 := if st = 3 then on (bump32 0x0C0013 4) s else s
  let s2 := on (bump64 0x0C0010 (statusElement st)) (ctlPut c { ctlAt s1 c with completed := x.completed + 1 } s1)
  let s3 := if st = 0x82 then s2 else errLog c m.sq m.cid (statusField x st dnr) (entryLba m.entry) (entryNs m.entry) s2
  match mget x.sqs m.sq with
  | none => s3
  | some q => nvPost c q.cq { result := 0, sq := m.sq, cid := m.cid, status := statusField x st dnr } s3

/-- One fetched entry: the head moves, the command is checked and joins those in flight. -/
def fetchOne (c k : Nat) (b : Bytes) (s : State) : State :=
  let x := ctlAt s c
  match mget x.sqs k with
  | none => s
  | some y =>
    let s1 := ctlPut c { x with sqs := mput x.sqs k { y with head := (y.head + 1) % y.size } } s
    match cmdCheck s1 c k b with
    | some r => checkFail c (cmdOf k b) r.1 r.2 s1
    | none => ctlPut c { ctlAt s1 c with cmds := (ctlAt s1 c).cmds ++ [cmdOf k b] } s1

/-- R391: an access to a queue's memory fails. -/
def queueFault (c : Nat) (isCq : Bool) (k : Nat) (s : State) : State :=
  let x := ctlAt s c
  if k = 0 then nvFatal c 6 (on (bump32 0x0C0013 6) s)
  else if isCq then
    match mget x.cqs k with
    | none => s
    | some q =>
      let s1 := on (bump32 0x0C0013 2) (nvSuspend c k true (ctlPut c { x with cqs := mput x.cqs k { q with error := true } } s))
      let s2 := cqeLost c s1
      nvPersistent c k (on (fun io => event (ctlEventFn io c) 0x0C01 c k (ctlAt s2 c).lost [] io) s2)
  else
    match mget x.sqs k with
    | none => s
    | some q => nvPersistent c k (on (bump32 0x0C0013 1) (ctlPut c { x with sqs := mput x.sqs k { q with failed := true } } s))

/-- The entries of a pick in order, up to a failed read. -/
def fetchEntries (c k : Nat) : List (Option Bytes) → State → State
  | [], s => s
  | none :: _, s => queueFault c false k s
  | some b :: r, s => fetchEntries c k r (fetchOne c k (padTo 64 b) s)

/-- R375 to R377: one pick, every 200 ns. -/
def fetchNext (es : List (Option Bytes)) (s : State) : State :=
  let s0 := on (reach (s.nvme.pickAt + 200)) s
  let r := nvPick s0
  let s1 := { s0 with nvme := { r.2 with pickAt := s0.io.now } }
  match r.1 with
  | none => s1
  | some p =>
    let x := ctlAt s1 p.ctl
    let n := (es.take p.n).length
    let s2 := ctlPut p.ctl (if p.cls = 4 then x else
      { x with turns := mput x.turns p.cls p.sq, cls := if p.cls = 0 then x.cls else p.cls, grant := if p.cls = 0 then x.grant else p.grant - n }) s1
    nvTotals (fetchEntries p.ctl p.sq (es.take p.n) s2)

/-- FETCH_PICK (R375 to R377, R382, R386, R559). -/
def execFetchPick (entries : List (Option Bytes)) (s : State) : Host.Outcome State Fault Refusal := .next (fetchNext entries s)

/-- QUEUE_MEMORY_FAULT (R391). -/
def execQueueMemoryFault (c : CtlNo) (isCq : Bool) (q : Nat) (s : State) : Host.Outcome State Fault Refusal :=
  .next (if ctlReady s.io c.val then queueFault c.val isCq q s else s)

/-- The SCT and SC of a fault of R383. -/
def faultStatus : NvFault → Nat
  | .hostData => 4
  | .threadLost => 0x21
  | .internal => 6
  | .writeFault => 0x280
  | .readFault => 0x281

/-- R383: a command ends with the fault that met it, or with the status it has come to. -/
def cmdComplete (c sq cid : Nat) (fault : Option NvFault) (s : State) : State :=
  match cmdAt s c sq cid with
  | none => s
  | some m =>
    match (if m.thread.isSome then fault else none), m.ended with
    | some f, _ => nvEnd c m (faultStatus f) (dnrOf (faultStatus f)) s
    | none, some e => nvEnd c m e.1 e.2 s
    | none, none => s

/-- NVME_COMMAND_COMPLETE (R383, R384, R387, R389, R390). -/
def execNvmeCommandComplete (c : CtlNo) (sq cid : Nat) (fault : Option NvFault) (s : State) : Host.Outcome State Fault Refusal :=
  .next (cmdComplete c.val sq cid fault s)

/-- R36, R37, R383: the commands of threads that are reset or isolated end with 0/21h. -/
def nvThreadsLost (p : Nat → Bool) (s : State) : State :=
  s.nvme.ctls.foldl (fun s (x : Nat × NvCtl) =>
    x.2.cmds.foldl (fun s m =>
      match m.thread with
      | some t => if p t then nvEndAt x.1 m.sq m.cid 0x21 false s else s
      | none => s) s) s

/-! ### Admin commands (R373, R378) -/

/-- The fetched admin command under an ID, if it has this opcode; `f` carries it out. -/
def adminRow (c cid op : Nat) (f : NvCmd → State → State) (s : State) : State :=
  match cmdAt s c 0 cid with
  | none => s
  | some m => if field m.entry 0 1 = op && m.ended.isNone && !(ctlAt s c).aers.contains cid && m.result = 0 then f m s else s

/-- Command Dwords 10 and 11. -/
def cdw10 (m : NvCmd) : Nat := field m.entry 40 4
def cdw11 (m : NvCmd) : Nat := field m.entry 44 4

/-- At the first I/O queue CC.IOSQES and CC.IOCQES must be 6 and 4 (R372). -/
def entrySizes (s : State) (c : Nat) : Bool :=
  let x := ctlAt s c
  (x.sqs.any (fun p => p.1 != 0) || x.cqs.any (fun p => p.1 != 0)) ||
  (regField .nvCc c 19 16 s.io == 6 && regField .nvCc c 23 20 s.io == 4)

/-- Whether a function's pool has room for a spill quota (R389). -/
def spillRoom (s : State) (q : Nat) : Bool := decide (spillReserved s.io + q * 16 ≤ s.io.rings.pool * 2 ^ 20)

/-- Vectors of a controller's function. -/
def ctlVectors (io : Io) (c : Nat) : Nat := if c < 4 then 2048 else vfQuota io (c - 4) 6 1 16

/-- Create I/O CQ. -/
def createCq (c : Nat) (m : NvCmd) (s : State) : State :=
  let x := ctlAt s c
  let q := cdw10 m % 65536
  let size := cdw10 m / 65536
  let quota := (ctlCfg s.io c).2.2.2
  if !entrySizes s c then nvFatal c 0 s
  else if !((cdw11 m).testBit 0 && (cdw11 m).testBit 1) then nvEnd c m 2 true s
  else if q = 0 || ctlQuota s.io c < q || (mget x.cqs q).isSome then nvEnd c m 0x101 true s
  else if size = 0 then nvEnd c m 0x102 true s
  else if !spillRoom s quota then nvEnd c m 0x102 true (on (bump32 0x0C0013 5) s)
  else if ctlVectors s.io c ≤ cdw11 m / 65536 then nvEnd c m 0x108 true s
  else if field m.entry 24 8 % ctlPage s.io c ≠ 0 then nvEnd c m 0x13 true s
  else
    let y : NvCq := { base := field m.entry 24 8, size := size + 1, head := 0, tail := 0, phase := true, vector := cdw11 m / 65536,
                      quota := quota, overflow := [], spill := [], stopped := false, error := false }
    nvEnd c m 0 false (nvReserve (ctlPut c { x with cqs := mput x.cqs q y } s))

/-- CREATE_IO_CQ (R373, R389). -/
def execCreateIoCq (c : CtlNo) (cid : Nat) (s : State) : Host.Outcome State Fault Refusal := .next (adminRow c.val cid 5 (createCq c.val) s)

/-- Create I/O SQ. -/
def createSq (c : Nat) (m : NvCmd) (s : State) : State :=
  let x := ctlAt s c
  let q := cdw10 m % 65536
  let size := cdw10 m / 65536
  if !entrySizes s c then nvFatal c 0 s
  else if !(cdw11 m).testBit 0 then nvEnd c m 2 true s
  else if q = 0 || ctlQuota s.io c < q || (mget x.sqs q).isSome then nvEnd c m 0x101 true s
  else if size = 0 then nvEnd c m 0x102 true s
  else if (cdw11 m / 65536) = 0 || (mget x.cqs (cdw11 m / 65536)).isNone then nvEnd c m 0x100 true s
  else if field m.entry 24 8 % ctlPage s.io c ≠ 0 then nvEnd c m 0x13 true s
  else
    let y : NvSq := { base := field m.entry 24 8, size := size + 1, cq := cdw11 m / 65536, prio := cdw11 m / 2 % 4, head := 0, tail := 0,
                      suspended := (match mget x.cqs (cdw11 m / 65536) with | some k => k.stopped || k.error | none => false),
                      failed := false, leaving := none }
    nvEnd c m 0 false (on (notFresh (ctlFn s.io c)) (ctlPut c { x with sqs := mput x.sqs q y } s))

/-- CREATE_IO_SQ (R373). -/
def execCreateIoSq (c : CtlNo) (cid : Nat) (s : State) : Host.Outcome State Fault Refusal := .next (adminRow c.val cid 1 (createSq c.val) s)

/-- Delete I/O SQ: commands not handed to firmware end with 0/08h; the Delete completes after the last of the others. -/
def deleteSq (c : Nat) (m : NvCmd) (s : State) : State :=
  let x := ctlAt s c
  let q := cdw10 m % 65536
  match mget x.sqs q with
  | none => nvEnd c m 0x101 true s
  | some y =>
    if q = 0 || y.leaving.isSome then nvEnd c m 0x101 true s
    else
      let mine := x.cmds.filter (fun n => n.sq == q && n.thread.isNone)
      let s1 := mine.foldl (fun s n => nvFinish c n 8 true s) (ctlPut c { x with sqs := mput x.sqs q { y with leaving := some m.cid } } s)
      sqLeave c q s1

/-- DELETE_IO_SQ (R390, R392). -/
def execDeleteIoSq (c : CtlNo) (cid : Nat) (s : State) : Host.Outcome State Fault Refusal := .next (adminRow c.val cid 0 (deleteSq c.val) s)

/-- Delete I/O CQ. -/
def deleteCq (c : Nat) (m : NvCmd) (s : State) : State :=
  let x := ctlAt s c
  let q := cdw10 m % 65536
  if q = 0 || (mget x.cqs q).isNone then nvEnd c m 0x101 true s
  else if !(sqsOf x q).isEmpty then nvEnd c m 0x10C true s
  else nvEnd c m 0 false (nvReserve (ctlPut c { x with cqs := mdel x.cqs q } s))

/-- DELETE_IO_CQ (R373, R390). -/
def execDeleteIoCq (c : CtlNo) (cid : Nat) (s : State) : Host.Outcome State Fault Refusal := .next (adminRow c.val cid 4 (deleteCq c.val) s)

/-- The composite temperature in kelvins: the highest of the 48 sensors of 03:0000, in eighths of a degree, that have not
failed. -/
def compositeK (io : Io) : Nat :=
  let ts := ((List.range 48).map (fun k => dget io (idx 0x030000 (k + 1)) 0)).filter (· != 0x7FFF)
  (((ts.map (toSigned 16)).foldl max (-2184)) / 8 + 273).toNat

/-- WCTEMP. -/
def wcTemp : Nat := 368

/-- A text field padded with spaces. -/
def ascii (n : Nat) (t : List Nat) : Bytes := (t.map (BitVec.ofNat 8)) ++ List.replicate (n - t.length) 0x20

/-- A number as `n` hexadecimal ASCII characters. -/
def hexAscii : Nat → Nat → List Nat
  | 0, _ => []
  | n + 1, v => hexAscii n (v / 16) ++ [if v % 16 < 10 then 48 + v % 16 else 55 + v % 16]

/-- FR: 02:0113 as eight characters. -/
def fwRevision (io : Io) : Bytes := ascii 8 (hexAscii 8 (dget io (idx 0x020113 0) 0))

/-- The vendor log page: the 32 bytes of 0C:0900 + CNTLID (R393). -/
def ctlState (s : State) (c : Nat) : Bytes :=
  let x := ctlAt s c
  if !ctlExists s c then le 32 0
  else
    let io := x.cqs.filter (fun p => p.1 != 0)
    le 1 x.st ++ le 1 (x.sqs.filter (fun p => p.1 != 0)).length ++ le 1 io.length ++
    le 1 (x.sqs.filter (fun p => p.2.suspended)).length ++ le 2 x.cmds.length ++ le 2 (x.cqs.filter (fun p => p.2.error)).length ++
    le 8 x.completed ++ le 4 ((x.cqs.map (fun p => p.2.overflow.length + p.2.spill.length)).sum) ++ le 4 x.lost ++ le 8 0

/-- The SMART / Health page. -/
def smartPage (s : State) : Bytes :=
  let k := compositeK s.io
  le 1 (if wcTemp ≤ k then 2 else 0) ++ le 2 k ++ le 509 0

/-- The Commands Supported and Effects page: bit 0 of each supported opcode's entry. -/
def effectsPage : Bytes :=
  (List.range 256).flatMap (fun k => le 4 (if adminOps.contains k then 1 else 0)) ++
  (List.range 256).flatMap (fun k => le 4 (if ioOps.contains k then 1 else 0)) ++ le 2048 0

/-- A log page, from its start. -/
def logPage (s : State) (c p : Nat) : Option Bytes :=
  let x := ctlAt s c
  match p with
  | 1 => some (padTo 4096 (x.errlog.flatMap id))
  | 2 => some (smartPage s)
  | 3 => some (padTo 512 (le 1 1 ++ le 7 0 ++ fwRevision s.io))
  | 4 => some (padTo 4096 (if 1024 < x.changed.length then le 4 0xFFFFFFFF else x.changed.flatMap (le 4)))
  | 5 => some effectsPage
  | 0xC0 => some (ctlState s c)
  | _ => none

/-- Get Log Page: it returns the page and, unless RAE is set, clears what it reports. -/
def logRead (c : Nat) (lists : List Segment) (m : NvCmd) (s : State) : State :=
  let d := cdw10 m
  let len := ((cdw11 m % 65536) * 65536 + d / 65536 + 1) * 4
  let off := field m.entry 48 8
  let x := ctlAt s c
  match logPage s c (d % 256) with
  | none => nvEnd c m 0x109 true s
  | some b =>
    if 2 ^ 20 < len then nvEnd c m 2 true s
    else
      let ty := if d % 256 = 1 then 0 else if d % 256 = 2 then 1 else 2
      let keep := d.testBit 15 || !([1, 2, 4].contains (d % 256))
      let x' := if keep then x else { x with
        masked := sdel x.masked ty, changed := if d % 256 = 4 then [] else x.changed }
      let s1 := nvReply c m lists len (b.drop off) (ctlPut c x' s)
      if keep then s1
      else
        let y := ctlAt s1 c
        match y.events.find? (fun e => e % 256 == ty) with
        | some e => nvAsync c (e % 256) (e / 256 % 256) (e / 65536) (ctlPut c { y with events := y.events.filter (· != e) } s1)
        | none => s1

/-- GET_LOG_PAGE (R380). -/
def execGetLogPage (c : CtlNo) (cid : Nat) (lists : List Segment) (s : State) : Host.Outcome State Fault Refusal :=
  .next (adminRow c.val cid 2 (logRead c.val lists) s)

/-- Identify Controller (R381), fields at their offsets in the NVMe structure; every other byte zero. -/
def identifyCtl (s : State) (c : Nat) : Bytes :=
  let io := s.io
  let put (o : Nat) (b d : Bytes) : Bytes := splice d o b
  put 0 (le 2 0x1D2B ++ le 2 0x1D2B ++ ascii 20 (hexAscii 16 serialNo) ++
      ascii 40 [86, 97, 114, 114, 111, 101, 114, 110, 32, 75, 119, 97, 105, 116, 104, 32, 75, 87, 45, 57, 52, 49, 54] ++ fwRevision io)
    (put 78 (le 2 c ++ le 4 0x00020000 ++ le 4 100000 ++ le 4 2000000)
      (put 128 (le 2 5) (put 77 (le 1 8) (put 258 (le 1 3 ++ le 1 7 ++ le 1 3 ++ le 1 2 ++ le 1 63)
        (put 266 (le 2 368 ++ le 2 373) (put 512 (le 1 0x66 ++ le 1 0x44 ++ le 2 (ctlCfg io c).2.2.1 ++ le 4 4096 ++ le 2 0x000C)
          (put 525 (le 1 0 ++ le 2 15 ++ le 2 15) (put 536 (le 4 1) (le 4096 0)))))))))

/-- Identify Namespace, NVM command set (R385). -/
def identifyNs (x : Ns) : Bytes :=
  let n := if x.fmt = 0 then 127 else 15
  splice (splice (splice (splice (splice (le 4096 0) 0 (le 8 x.size ++ le 8 x.size ++ le 8 x.size ++ le 1 2 ++ le 1 1 ++ le 1 x.fmt)) 30 (le 1 1))
    33 (le 1 9 ++ le 2 n ++ le 2 n)) 104 (padTo 16 x.nguid)) 128 (le 4 (9 * 2 ^ 16) ++ le 4 (12 * 2 ^ 16))

/-- Identify Namespace of the Zoned command set: MAR, MOR and the zone size of the format. -/
def identifyZns (x : Ns) : Bytes :=
  splice (splice (le 4096 0) 4 (le 4 (x.active - 1) ++ le 4 (x.active - 1))) (2816 + 16 * x.fmt) (le 8 x.zoneSize)

/-- NSIDs above `n` of namespaces that satisfy a test, 1,024 at most. -/
def nsList (s : State) (n : Nat) (p : Ns → Bool) : Bytes :=
  padTo 4096 (((s.store.nss.filter (fun x => decide (n < x.1) && p x.2)).map (fun x => le 4 x.1)).take 1024 |>.flatten)

/-- What Identify answers: CNS, NSID and CSI. -/
def identifyData (s : State) (c cns n csi : Nat) : Except Nat Bytes :=
  let mine (x : Ns) : Bool := nsActive s.io c x
  match cns with
  | 0 => match nsAt s n with | some x => .ok (if mine x then identifyNs x else le 4096 0) | none => if 1 ≤ n && n ≤ 4096 then .ok (le 4096 0) else .error 0x0B
  | 1 => .ok (identifyCtl s c)
  | 2 => .ok (nsList s n mine)
  | 3 => match nsAt s n with
    | some x => .ok (padTo 4096 (le 1 2 ++ le 1 16 ++ le 2 0 ++ padTo 16 x.nguid ++ le 1 4 ++ le 1 1 ++ le 2 0 ++ le 1 (if x.kind = 0 then 0 else 2)))
    | none => .error 0x0B
  | 5 => match nsAt s n with
    | some x => if csi = 2 && 1 ≤ x.kind then .ok (if mine x then identifyZns x else le 4096 0) else if csi = 0 then .ok (le 4096 0) else .error 2
    | none => .error 0x0B
  | 6 => if csi = 2 then .ok (splice (le 4096 0) 0 (le 1 4)) else if csi = 0 then .ok (le 4096 0) else .error 2
  | 0x1C => .ok (splice (le 4096 0) 0 (le 8 (if regField .nvCc c 6 4 s.io = 6 then 5 else 1)))
  | _ => .error 2

/-- IDENTIFY (R378, R381, R385). -/
def execIdentify (c : CtlNo) (cid : Nat) (lists : List Segment) (s : State) : Host.Outcome State Fault Refusal :=
  .next (adminRow c.val cid 6 (fun m s =>
    match identifyData s c.val (cdw10 m % 256) (entryNs m.entry) (cdw11 m / 2 ^ 24) with
    | .error e => nvEnd c.val m e true s
    | .ok b => nvReply c.val m lists 4096 b s) s)

/-- Abort (R384). -/
def abortCmd (c : Nat) (m : NvCmd) (s : State) : State :=
  match cmdAt s c (cdw10 m % 65536) (cdw10 m / 65536) with
  | some t =>
    if t.thread.isNone && t.ended.isNone && !(t.sq == 0) then nvEndAt c 0 m.cid 0 false (nvEnd c t 7 true s)
    else nvEnd c { m with result := 1 } 0 false s
  | none => nvEnd c { m with result := 1 } 0 false s

/-- ABORT (R384, R392). -/
def execNvmAbort (c : CtlNo) (cid : Nat) (s : State) : Host.Outcome State Fault Refusal := .next (adminRow c.val cid 8 (abortCmd c.val) s)

/-- The features of R380. -/
def features : List Nat := [1, 2, 4, 7, 8, 9, 0xA, 0xB, 0x16]

/-- The default of a feature. -/
def featDflt (f : Nat) : Nat := if f = 4 then wcTemp else 0

/-- The key a feature value is held under: per vector for 09h, per threshold type for 04h. -/
def featKey (f d11 : Nat) : Nat := if f = 9 then 9 + 256 * (d11 % 65536) else if f = 4 then 4 + 256 * (d11 / 2 ^ 16 % 64) else f

/-- Set Features. -/
def setFeature (c : Nat) (mem : HostRead) (m : NvCmd) (s : State) : State :=
  let x := ctlAt s c
  let f := cdw10 m % 256
  let v := cdw11 m
  if !features.contains f then nvEnd c m 2 true s
  else if f = 2 && v % 32 ≠ 0 then nvEnd c m 2 true s
  else if f = 7 then
    let n := ctlQuota s.io c - 1
    nvEnd c { m with result := n + 65536 * n } 0 false s
  else if f = 0x16 then
    match mem with
    | .fail _ => nvEnd c m 4 false s
    | .data b => nvEnd c m 0 false (ctlPut c { x with feats := mput x.feats 0x16 (field b 0 1) } s)
  else nvEnd c m 0 false (ctlPut c { x with feats := mput x.feats (featKey f v) v } s)

/-- SET_FEATURES (R373, R380, R387). -/
def execSetFeatures (c : CtlNo) (cid : Nat) (mem : HostRead) (s : State) : Host.Outcome State Fault Refusal :=
  .next (adminRow c.val cid 9 (setFeature c.val mem) s)

/-- Get Features: the current value in Dword 0; Host Behavior Support as data. -/
def getFeature (c : Nat) (lists : List Segment) (m : NvCmd) (s : State) : State :=
  let f := cdw10 m % 256
  let x := ctlAt s c
  let n := ctlQuota s.io c - 1
  if !features.contains f then nvEnd c m 2 true s
  else if f = 0x16 then nvReply c m lists 512 (le 1 (featOf x 0x16 0)) s
  else
    nvEnd c { m with result := if f = 7 then n + 65536 * n else mgetD x.feats (featKey f (cdw11 m)) (featDflt f) % 2 ^ 32 } 0 false s

/-- GET_FEATURES (R380). -/
def execGetFeatures (c : CtlNo) (cid : Nat) (lists : List Segment) (s : State) : Host.Outcome State Fault Refusal :=
  .next (adminRow c.val cid 0xA (getFeature c.val lists) s)

/-- Asynchronous Event Request: eight may be outstanding (AERL 7); a waiting event answers at once. -/
def asyncRequest (c : Nat) (m : NvCmd) (s : State) : State :=
  let x := ctlAt s c
  if 8 ≤ x.aers.length then nvEnd c m 0x105 true s
  else
    let s1 := ctlPut c { x with aers := x.aers ++ [m.cid] } s
    match x.events.find? (fun e => !x.masked.contains (e % 256)) with
    | some e =>
      nvAsync c (e % 256) (e / 256 % 256) (e / 65536) (ctlPut c { ctlAt s1 c with events := x.events.filter (· != e) } s1)
    | none => s1

/-- ASYNC_EVENT_REQUEST (R378). -/
def execAsyncEventRequest (c : CtlNo) (cid : Nat) (s : State) : Host.Outcome State Fault Refusal :=
  .next (adminRow c.val cid 0xC (asyncRequest c.val) s)

end Sys2Proof.Machine
end

