-- ==== Sys2Proof/Machine/OaBase.lean ====
section
/-!
DEFINITION. What other units do to the object-access server: the end of associations (R96), and Stored values the Kwaith
itself writes (R15).
Choices of the model coded here, by entry of the assumption log: DESIGN CHOICE 23; DEDUCED 30.
-/
namespace Sys2Proof.Machine

/-- R96: associations end: their transactions abort, their subscriptions and notifications are discarded. -/
def assocsEnd (p : AssocKey → Bool) (io : Io) : Io :=
  { io with oa := { io.oa with
      assocs := io.oa.assocs.filter (fun a => !p a.key), subs := io.oa.subs.filter (fun x => !p x.assoc),
      txns := io.oa.txns.filter (fun t => !p t.assoc) } }

/-- A Stored object the Kwaith itself writes: in force, and in the parameter area. -/
def storedSet (i n : Nat) (io : Io) : Io := dset i n { io with params := mput io.params i (.num n) }

/-- The same for a byte string. -/
def storedSetB (i : Nat) (b : Bytes) (io : Io) : Io := dsetB i b { io with params := mput io.params i (.str b) }

end Sys2Proof.Machine
end

