-- ==== Sys2Proof/Machine/Plates.lean ====
section
/-!
DEFINITION. Plates (chapter 12): the load engine's LOAD, PREPARE and RELEASE (R268 to R270), the checks of R254 to R256,
R260, R264 and R265, the commit (R271, R272), pinned rules (R273 to R275) and the classifier's counters.
Choices of the model coded here, by entry of the assumption log: DESIGN CHOICE 50; DEDUCED 48, 49, 87.
-/
namespace Sys2Proof.Machine

/-! ### Keys of the stores (R253) -/

/-- Key of a node. -/
def nodeKey (deep : Bool) (level i : Nat) : Nat := b2n deep * 2 ^ 20 + level * 2 ^ 16 + i

/-- Key of a rule entry. -/
def ruleKey (deep : Bool) (i : Nat) : Nat := b2n deep * 2 ^ 20 + i

/-- Key of a marked entry (R267): stores 2 node, 3 rule, 4 action, 5 template. -/
def markKey (store k : Nat) : Nat := store * 2 ^ 24 + k

/-- Entries of a store. -/
def storeSize (p : Pipe) (store : Nat) (deep : Bool) : Nat :=
  match store with
  | 1 => 4
  | 2 => if deep then p.deepNodes else 1024
  | 3 => if deep then p.deepRules else 131072
  | 4 => 16384
  | _ => 1024

/-- Bytes of an entry of a store. -/
def entrySize (store : Nat) : Nat :=
  match store with
  | 1 => 256
  | 2 => 64
  | 3 => 32
  | 4 => 32
  | _ => 128

/-- A node; one never written is zero. -/
def nodeAt (p : Pipe) (deep : Bool) (level i : Nat) : Bytes := padTo 64 (mgetD p.nodes (nodeKey deep level i) [])

/-- A rule entry. -/
def ruleAt (p : Pipe) (deep : Bool) (i : Nat) : Bytes := padTo 32 (mgetD p.rules (ruleKey deep i) [])

/-- An action entry. -/
def actionAt (p : Pipe) (i : Nat) : Bytes := padTo 32 (mgetD p.actions i [])

/-- A tunnel template. -/
def templateAt (p : Pipe) (i : Nat) : Bytes := padTo 128 (mgetD p.templates i [])

/-- The header of a slot. -/
def headerAt (p : Pipe) (s : Nat) : Bytes := padTo 256 (mgetD p.headers s [])

/-- The custom header definitions of a slot (R251). -/
def customsOf (p : Pipe) (s : Nat) : List Bytes := (List.range 4).map (fun n => slice (headerAt p s) (0x90 + 16 * n) 16)

/-! ### Loading (R267, R268) -/

/-- A slot's marks cleared on every entry. -/
def clearMarks (s : Nat) (p : Pipe) : Pipe :=
  { p with marks := (mmap p.marks (fun _ l => sdel l s)).filter (fun e => !e.2.isEmpty) }

/-- Whether an entry is marked for a slot that is READY, LIVE or DRAINING. -/
def entryHeld (p : Pipe) (store k : Nat) : Bool :=
  (mgetD p.marks (markKey store k) []).any (fun s => slotState p s == 2 || slotState p s == 3 || slotState p s == 4)

/-- Key of entry `i` of a record's store. -/
def recKey (r : Bytes) (i : Nat) : Nat :=
  let deep := (field r 2 1).testBit 0
  match field r 0 1 with
  | 2 => nodeKey deep (field r 1 1) i
  | 3 => ruleKey deep i
  | _ => i

/-- R268: the form of a record whose header is `r`, with `left` bytes of the list from its start. -/
def recFormed (r : Bytes) (left : Nat) : Bool :=
  let store := field r 0 1
  let n := field r 8 4
  decide (16 ≤ left) && decide (1 ≤ store) && decide (store ≤ 5) &&
  (if store = 2 then decide (field r 1 1 ≤ 15) else field r 1 1 == 0) &&
  (if store = 2 || store = 3 then decide (field r 2 1 ≤ 1) else field r 2 1 == 0) &&
  (if store = 1 then decide (field r 3 1 ≤ 3) && field r 4 4 == 0 && n == 1 else field r 3 1 == 0) &&
  decide (1 ≤ n) && field r 0x0C 4 == 0 && decide (16 + n * entrySize store ≤ left)

/-- The cause that refuses a record, or 0. -/
def recCause (p : Pipe) (r : Bytes) (left : Nat) : Nat :=
  let store := field r 0 1
  if !recFormed r left then 0x01
  else if store = 1 then (if slotState p (field r 3 1) ≤ 2 then 0 else 0x04)
  else if storeSize p store ((field r 2 1).testBit 0) < field r 4 4 + field r 8 4 then 0x02
  else if (span (field r 4 4) (field r 8 4)).any (fun i => entryHeld p store (recKey r i)) then 0x03
  else 0

/-- One entry of a record is written whole. -/
def putEntry (store k : Nat) (b : Bytes) (p : Pipe) : Pipe :=
  match store with
  | 2 => { p with nodes := mput p.nodes k b }
  | 3 => { p with rules := mput p.rules k b }
  | 4 => { p with actions := mput p.actions k b }
  | _ => { p with templates := mput p.templates k b }

/-- A record that passed its checks is applied. -/
def applyRec (r body : Bytes) (p : Pipe) : Pipe :=
  let store := field r 0 1
  if store = 1 then
    let s := field r 3 1
    let p1 := if slotState p s = 2 then clearMarks s p else p
    { p1 with headers := mput p1.headers s (slice body 0 256), states := p1.states.set s 1 }
  else
    (List.range (field r 8 4)).foldl (fun p i =>
      putEntry store (recKey r (field r 4 4 + i)) (slice body (i * entrySize store) (entrySize store)) p) p

/-- The records of a list from offset `o`, in order, up to the first that fails. -/
def loadFrom (list : Bytes) : Nat → Nat → Pipe → LoadRes × Pipe
  | 0, _, p => (⟨0, 0, 0, 0⟩, p)
  | fuel + 1, o, p =>
    if list.length ≤ o then (⟨0, 0, 0, 0⟩, p)
    else
      let r := slice list o 16
      let c := recCause p r (list.length - o)
      if c ≠ 0 then (⟨c, 0, 0, o⟩, p)
      else loadFrom list fuel (o + 16 + field r 8 4 * entrySize (field r 0 1)) (applyRec r (list.drop (o + 16)) p)

/-- R268: a load list. -/
def loadList (list : Bytes) (p : Pipe) : LoadRes × Pipe := loadFrom list (list.length / 16 + 1) 0 p

/-! ### What PREPARE checks (R269) -/

/-- R254, R255: a pointer met in a node of level `level` - 1 (0 for a root), below a DEEP pointer or not, is malformed. -/
def ptrBad (below : Bool) (level v : Nat) : Bool :=
  match bits v 63 62 with
  | 0 => v != 0
  | 1 =>
    bits v 60 50 != 0 || bits v 47 41 != 0 || bits v 31 20 != 0 || bits v 49 48 == 0 ||
    decide (512 < bits v 40 32 + bits v 49 48) || decide (16 ≤ level) || (below && !v.testBit 61)
  | 2 => bits v 60 35 != 0 || bits v 31 20 != 0 || (below && !v.testBit 61)
  | _ => true

/-- R256: a match word (5 bytes) is malformed. -/
def wordBad (w : Bytes) : Bool :=
  decide (31 < field w 0 1) || (field w 1 2 &&& (65535 - field w 3 2)) != 0

/-- R256: a first entry (`pos` 0) or continuation entry is malformed on its own. -/
def ruleEntryBad (pos : Nat) (e : Bytes) : Bool :=
  let c := field e 0 1
  let n := field e 1 1
  let o := if pos = 0 then 7 else 2
  let lim := if pos = 0 then 5 else 6
  (c.testBit 7 != decide (0 < pos)) || !c.testBit 6 || bits c 5 2 != 0 || (decide (0 < pos) && c % 4 != pos) ||
  decide (lim < n) || (List.range n).any (fun i => wordBad (slice e (o + 5 * i) 5)) || !allZero (e.drop (o + 5 * n))

/-- The entries of one rule at the head of a block: none where malformed, or the first entry's length in entries. -/
def ruleWidth (es : List Bytes) : Option Nat :=
  match es with
  | [] => none
  | e :: _ =>
    let w := field e 0 1 % 4 + 1
    if es.length < w then none
    else if (List.range w).any (fun i => ruleEntryBad i ((es[i]?).getD [])) then none
    else some w

/-- The whole rules of a block in order: offset, and entries; the flag says that all of it is well formed, the number is
the offset of the rule that is not. -/
def blockRules : Nat → Nat → List Bytes → List (Nat × List Bytes) × Option Nat
  | 0, _, _ => ([], none)
  | fuel + 1, o, es =>
    match es with
    | [] => ([], none)
    | _ =>
      match ruleWidth es with
      | none => ([], some o)
      | some w =>
        let r := blockRules fuel (o + w) (es.drop w)
        ((o, es.take w) :: r.1, r.2)

/-- R264: a template is well formed. -/
def templateOk (t : Bytes) : Bool :=
  let k := field t 113 1
  let n := field t 112 1
  decide (1 ≤ k) && decide (k ≤ 4) && decide ((if k = 1 || k = 3 then 50 else 70) ≤ n) && decide (n ≤ 112) && allZero (t.drop 114)

/-- The template an action reaches, if any (R260, R264). -/
def actionTemplate (a : Bytes) : Option Nat :=
  if (field a 1 1).testBit 4 && !(field a 0x14 2).testBit 15 then some (field a 0x14 2 % 1024) else none

/-- R260: an action entry is malformed, its template apart. -/
def actionBad (n : Net) (a : Bytes) : Bool :=
  let v := field a 0 1
  let fl := field a 1 1
  let t := field a 0x14 2
  decide (5 < v) || fl.testBit 7 || (v == 1 && !vportExists n (field a 2 2)) || (v == 4 && decide (1023 < field a 2 2)) ||
  (fl.testBit 0 && !vportExists n (field a 4 2)) || (fl.testBit 1 && decide (8191 < field a 0x0C 2)) ||
  (fl.testBit 2 && decide (2047 < field a 0x0E 2)) ||
  (fl.testBit 4 && (if t.testBit 15 then t % 32768 != 0 else decide (1024 ≤ t))) ||
  decide (7 < field a 0x16 1) || decide (3 < field a 0x17 1) || !allZero (slice a 0x1A 6) ||
  (v == 3 && (decide (7 < fl) || field a 6 2 != 0 || field a 8 4 != 0 || field a 0x13 1 != 0 || !allZero (slice a 0x14 6)))

/-- R251: a custom header definition `n` is malformed. -/
def customBad (n : Nat) (d : Bytes) : Bool :=
  let k := field d 0 1
  if k = 0 then !allZero (slice d 0x0C 4)
  else
    decide (4 < k) || (k == 4 && (decide (3 < field d 1 1) || field d 1 1 == n || field d 2 2 != 0)) ||
    decide (field d 6 1 < 1) || decide (16 < field d 6 1) || decide (field d 7 1 < 2) || decide (64 < field d 7 1) ||
    decide (5 < field d 8 1) || decide (60 < field d 0x0A 1) || decide (1 < field d 0x0B 1) || !allZero (slice d 0x0C 4)

/-- R265: a plate header is malformed, its pointers apart. -/
def headerBad (h : Bytes) : Bool :=
  field h 0 4 != 0x4C50574B || decide (3 < field h 4 1) || field h 5 1 != 0 || !allZero (slice h 9 7) ||
  !allZero (slice h 0xD0 48) || (List.range 4).any (fun n => customBad n (slice h (0x90 + 16 * n) 16))

/-- What a walk over a plate has met: pointers still to follow at the next level, and keys reached in each store, with
the failures found. -/
structure Reach where
  ptrs    : List Nat
  leaves  : List Nat
  nodes   : List Nat
  fails   : List LoadRes
  deriving DecidableEq, Repr

/-- A pointer held by an entry of a store is met. -/
def meetPtr (below : Bool) (level : Nat) (holder : LoadRes) (v : Nat) (x : Reach) : Reach :=
  if ptrBad below level v then { x with fails := x.fails ++ [{ holder with cause := 0x11 }] }
  else if bits v 63 62 = 1 then { x with ptrs := x.ptrs ++ [v] }
  else if bits v 63 62 = 2 then { x with leaves := x.leaves ++ [v] }
  else x

/-- A node of level `level` that pointer `v` names is checked, and its pointers are met. -/
def meetNode (p : Pipe) (level : Nat) (x : Reach) (v : Nat) : Reach :=
  let deep := v.testBit 61
  let i := bits v 19 0
  let at_ : LoadRes := ⟨0, 2, level, i⟩
  if storeSize p 2 deep ≤ i then { x with fails := x.fails ++ [{ at_ with cause := 0x02 }] }
  else
    let n := nodeAt p deep level i
    let w := bits v 49 48
    let unused := (List.range 8).any (fun s => decide (2 ^ w ≤ s) && field n (8 * s) 8 != 0)
    let x1 := { x with nodes := x.nodes ++ [nodeKey deep level i] }
    let x2 := if unused then { x1 with fails := x1.fails ++ [{ at_ with cause := 0x12 }] } else x1
    (List.range (2 ^ w)).foldl (fun x s => meetPtr deep (level + 1) at_ (field n (8 * s) 8) x) x2

/-- The levels of a plate, one after another. -/
def meetLevels (p : Pipe) : Nat → Nat → Reach → Reach
  | 0, _, x => x
  | fuel + 1, level, x =>
    if x.ptrs.isEmpty then x
    else meetLevels p fuel (level + 1) (x.ptrs.eraseDups.foldl (meetNode p level) { x with ptrs := [] })

/-- What a leaf's block holds: keys of its rule entries, actions it names, and its failure. -/
def leafParts (p : Pipe) (v : Nat) : List Nat × List Nat × List LoadRes :=
  let deep := v.testBit 61
  let i := bits v 19 0
  let n := bits v 34 32 + 1
  if storeSize p 3 deep < i + n then ([], [], [⟨0x02, 3, 0, i⟩])
  else
    let b := blockRules 9 0 ((span i n).map (ruleAt p deep))
    let bad : List LoadRes := match b.2 with
      | none => []
      | some o => [⟨0x13, 3, 0, i + o⟩]
    let beyond : List LoadRes := (b.1.filter (fun r => decide (16384 ≤ field ((r.2[0]?).getD []) 4 3))).map (fun r => ⟨0x02, 3, 0, i + r.1⟩)
    ((span i n).map (ruleKey deep), b.1.map (fun r => field ((r.2[0]?).getD []) 4 3), bad ++ beyond)

/-- What a plate reaches: marks to set, rule entries counted, and every failure PREPARE can report. -/
structure Plate where
  marks : List Nat
  rules : Nat
  fails : List LoadRes
  deriving DecidableEq, Repr

/-- R269: a slot's plate. -/
def plateOf (n : Net) (p : Pipe) (s : Nat) : Plate :=
  let h := headerAt p s
  let roots := (List.range 16).foldl (fun x i => meetPtr false 0 ⟨0, 1, 0, 0⟩ (field h (0x10 + 8 * i) 8) x) ⟨[], [], [], []⟩
  let x := meetLevels p 16 0 roots
  let ls := x.leaves.eraseDups.map (leafParts p)
  let rules := (ls.flatMap (·.1)).eraseDups
  let miss := field h 6 3
  let actions := ((if miss < 16384 then [miss] else []) ++ (ls.flatMap (·.2.1)).filter (· < 16384)).eraseDups
  let further := (actions.filter (fun a => field (actionAt p a) 0 1 == 3)).map (fun a => (a, field (actionAt p a) 0x10 3))
  let actions := (actions ++ (further.map (·.2)).filter (· < 16384)).eraseDups
  let temps := (actions.filterMap (fun a => actionTemplate (actionAt p a))).eraseDups
  let badActions := actions.filter (fun a => actionBad n (actionAt p a) ||
    (match actionTemplate (actionAt p a) with | some t => !templateOk (templateAt p t) | none => false))
  { marks := x.nodes.eraseDups.map (markKey 2) ++ rules.map (markKey 3) ++ actions.map (markKey 4) ++ temps.map (markKey 5)
    rules := rules.length
    fails := (if headerBad h then [⟨0x10, 1, 0, 0⟩] else []) ++ (if 16384 ≤ miss then [⟨0x02, 1, 0, 0⟩] else []) ++ x.fails ++
      ls.flatMap (·.2.2) ++ badActions.map (fun a => ⟨0x14, 4, 0, a⟩) ++
      (further.filter (fun x => decide (16384 ≤ x.2))).map (fun x => ⟨0x02, 4, 0, x.1⟩) ++
      (if 1048576 < rules.length then [⟨0x15, 3, 0, 0⟩] else []) }

/-- PREPARE's check at its end: READY with its marks set, or one of the failures, whichever the Kwaith's walk met first. -/
def prepare (s : Nat) (w : Wire) : LoadRes × Wire :=
  let pl := plateOf w.net w.pipe s
  if pl.fails.isEmpty then
    (⟨0, 0, 0, 0⟩,
     { w with pipe := { w.pipe with
         states := w.pipe.states.set s 2, marks := pl.marks.foldl (fun m k => mupd m k [] (fun l => sadd l s)) w.pipe.marks } })
  else
    let (v, io) := freeNat w.io
    ((pl.fails[v % pl.fails.length]?).getD ⟨0, 0, 0, 0⟩, { w with io := io })

/-! ### The load engine (R270) -/

/-- A slot becomes FREE: its header and marks go. -/
def freeSlot (s : Nat) (p : Pipe) : Pipe :=
  let p1 := clearMarks s p
  { p1 with headers := mdel p1.headers s, states := p1.states.set s 0 }

/-- The load engine starts an operation: a LOAD's records are applied, a RELEASE is done; a PREPARE runs on. -/
def opStart (o : LoadOp) (p : Pipe) : LoadOp × Pipe :=
  if o.res.cause ≠ 0 then (o, p)
  else
    match o.op with
    | 1 =>
      match o.list with
      | none => ({ o with res := ⟨0x05, 0, 0, 0⟩ }, p)
      | some l => ({ o with res := (loadList l p).1 }, (loadList l p).2)
    | 2 => (if slotState p o.slot = 1 then o else { o with res := ⟨0x04, 0, 0, 0⟩ }, p)
    | _ =>
      if slotState p o.slot = 1 || slotState p o.slot = 2 then (o, freeSlot o.slot p)
      else ({ o with res := ⟨0x04, 0, 0, 0⟩ }, p)

/-- An accepted operation waits for the engine, or starts where the engine is idle. -/
def opTake (o : LoadOp) (w : Wire) : Wire :=
  if w.pipe.ops.isEmpty then
    let x := opStart o w.pipe
    { w with io := plateReport x.2 w.io, pipe := { x.2 with ops := [x.1] } }
  else { w with pipe := { w.pipe with ops := w.pipe.ops ++ [o] } }

/-- PIPE_LOAD_CMD written with an operation: discarded with OVERRUN while BUSY; before stage 3 it fails with 0x08. -/
def opRegs (stage op fn slot : Nat) (list : Option Bytes) (w : Wire) : Wire :=
  if regBit .pipeLoadStatus fn 0 w.io then w.on (regOn .pipeLoadStatus fn 3)
  else
    let len := regField .pipeLoadLen fn 26 0 w.io
    let a := regField .pipeLoadAddr fn 63 6 w.io * 64
    let c := if stage < 3 then 0x08 else if op = 1 && 2 ^ 26 < len then 0x01 else 0
    let w1 := w.on (fun io => (if op = 1 && c = 0 then hostRead fn a len else id) (regOn .pipeLoadStatus fn 0 io))
    opTake { origin := 0, op := op, slot := slot, list := list.map (·.take len), fn := fn, res := ⟨c, 0, 0, 0⟩ } w1

/-- 08:0021 written: the operation, its slot and its list, checked. -/
def opCmd (stage : Nat) (by_ : Issuer) (arg : Bytes) (w : Wire) : Wire :=
  let fw := principalOf by_.assoc.binding == .f
  let st := match gate stage by_ 0x080021 w.io with
    | some e => e
    | none =>
      if cmdRuns w.io 0x080021 then 0x08
      else if arg.length ≠ 4 || field arg 0 1 < 1 || 3 < field arg 0 1 || 3 < field arg 1 1 || 1 < field arg 2 1 || field arg 3 1 ≠ 0 then 0x05
      else if (field arg 2 1 == 1) != fw then 0x03
      else 0
  if st ≠ 0 then w.on (answer by_ (idx 0x080021 0) st [])
  else
    let list := dgetB w.io (idx (if fw then 0x080024 else 0x080020) 0)
    opTake { origin := if fw then 2 else 1, op := field arg 0 1, slot := field arg 1 1, list := some list, fn := 0, res := ⟨0, 0, 0, 0⟩ }
      (w.on (beginCmd by_ 0x080021))

/-- LOAD, PREPARE or RELEASE from either source. -/
def opFrom (stage op : Nat) (src : PlateSrc) (list : Option Bytes) (w : Wire) : Wire :=
  match src with
  | .regs l slot => opRegs stage op (4 * l.val) slot.val list w
  | .cmd b arg => opCmd stage b arg w

/-- R269, R278: what an operation reports at its end. -/
def opReport (o : LoadOp) (io : Io) : Io :=
  if o.origin = 0 then
    let r := o.res
    let io1 := regOff .pipeLoadStatus o.fn 0 (regOn .pipeLoadStatus o.fn 1 io)
    if r.cause = 0 then regOff .pipeLoadStatus o.fn 2 io1
    else
      regPut .pipeLoadDetail o.fn 63 32 r.index (regPut .pipeLoadDetail o.fn 23 16 r.level
        (regPut .pipeLoadDetail o.fn 15 8 r.store (regPut .pipeLoadStatus o.fn 15 8 r.cause (regOn .pipeLoadStatus o.fn 2 io1))))
  else
    let r := o.res
    endCmd 0x080021 (if r.cause = 0 then 0 else 0x11) []
      (dsetB (idx 0x080023 0) (le 1 r.cause ++ le 1 r.store ++ le 1 r.level ++ le 1 0 ++ le 4 r.index ++ le 8 0) io)

/-- The running operation ends, and the next one starts. -/
def opDone (w : Wire) : Wire :=
  match w.pipe.ops with
  | [] => w
  | o :: os =>
    let x := if o.op = 2 && o.res.cause = 0 then prepare o.slot w else (o.res, w)
    let w1 := x.2.on (opReport { o with res := x.1 })
    match os with
    | [] => { w1 with io := plateReport w1.pipe w1.io, pipe := { w1.pipe with ops := [] } }
    | n :: rest =>
      let y := opStart n w1.pipe
      { w1 with io := plateReport y.2 w1.io, pipe := { y.2 with ops := y.1 :: rest } }

/-- LOAD (R268, R269, R270). -/
def execPlateLoad (src : PlateSrc) (list : Option Bytes) (s : State) : Host.Outcome State Fault Refusal :=
  .next (onWire (opFrom s.start.stage 1 src list) s)

/-- PREPARE (R269, R270): the slot stays BUILDING until the operation ends. -/
def execPlatePrepare (src : PlateSrc) (s : State) : Host.Outcome State Fault Refusal :=
  .next (onWire (opFrom s.start.stage 2 src none) s)

/-- RELEASE (R266, R270). -/
def execPlateRelease (src : PlateSrc) (s : State) : Host.Outcome State Fault Refusal :=
  .next (onWire (opFrom s.start.stage 3 src none) s)

/-- PLATE_OP_DONE (R269, R270). -/
def execPlateOpDone (s : State) : Host.Outcome State Fault Refusal := .next (onWire opDone s)

/-! ### Commit (R271) -/

/-- A commit at its acceptance instant: true where it is accepted. -/
def commit (stage s : Nat) (w : Wire) : Bool × Wire :=
  let c := if stage < 3 then 2 else if slotState w.pipe s = 2 then 0 else 1
  if c ≠ 0 then
    (false, w.on (fun io => bump32 0x080011 c (regOn .pipePlateInfo 0 3 (regPut .pipePlateStatus 0 15 12 c io))))
  else
    let old := w.pipe.live
    let g : Half := if w.pipe.liveGen = 0xFFFF then 1 else w.pipe.liveGen + 1
    let p := { w.pipe with states := (w.pipe.states.set old 4).set s 3, live := s, liveGen := g }
    let w1 := { w with
      io := bump32 0x080010 0 (dset (idx 0x080000 0) s (dset (idx 0x080001 0) g.toNat (plateReport p w.io))), pipe := p }
    let w2 := slotDrained old w1
    (true, { w2 with io := plateReport w2.pipe w2.io })

/-- 08:0022 written. -/
def commitCmd (stage : Nat) (by_ : Issuer) (arg : Bytes) (w : Wire) : Wire :=
  match gate stage by_ 0x080022 w.io with
  | some e => w.on (answer by_ (idx 0x080022 0) e [])
  | none =>
    if arg.length ≠ 1 || 3 < field arg 0 1 then w.on (answer by_ (idx 0x080022 0) 0x05 [])
    else
      let r := commit stage (field arg 0 1) w
      r.2.on (answer by_ (idx 0x080022 0) (if r.1 then 0 else 0x11) [])

/-- A commit from either source. -/
def commitFrom (stage : Nat) (src : PlateSrc) (w : Wire) : Wire :=
  match src with
  | .regs _ slot => (commit stage slot.val w).2
  | .cmd b arg => commitCmd stage b arg w

/-- PLATE_COMMIT (R229, R266, R271). -/
def execPlateCommit (src : PlateSrc) (s : State) : Host.Outcome State Fault Refusal :=
  .next (onWire (commitFrom s.start.stage src) s)

/-! ### Pinned rules (R273 to R275) -/

/-- Key of pinned slot `s` of pipeline `r`. -/
def pinKey (r s : Nat) : Nat := r * 64 + s

/-- An empty pinned slot. -/
def Pin.reset : Pin := { body := List.replicate 120 0, valid := false }

/-- A pinned slot as last accepted for a pipeline. -/
def pinAcc (p : Pipe) (r s : Nat) : Pin := mgetD p.pinsAcc (pinKey r s) Pin.reset

/-- R273: a pinned body is malformed: its rule of width 1 or 2, or its inline action. -/
def pinBad (n : Net) (b : Bytes) : Bool :=
  let e := slice b 0 32
  let f := slice b 32 32
  let w := field e 0 1 % 4 + 1
  decide (2 < w) || ruleEntryBad 0 e || field e 2 2 != 0 || field e 4 3 != 0 ||
  (if w = 2 then ruleEntryBad 1 f else !allZero f) || actionBad n (slice b 64 32) || !allZero (slice b 96 24)

/-- A refused pinned write. -/
def pinRefuse (s : Nat) (io : Io) : Io := regPut .pipePinStatus 0 13 8 s (regOn .pipePinStatus 0 1 io)

/-- A write accepted for the pipelines of a mask: it waits to apply in each. -/
def pinAccept (x : PinWrite) (f : Pin → Pin) (w : Wire) : Wire :=
  { w with
    io := regOn .pipePinStatus 0 0 w.io
    pipe := { w.pipe with
      pinQ := w.pipe.pinQ ++ [x]
      pinsAcc := (bitsOf 4 x.mask).foldl (fun m r => mupd m (pinKey r x.slot) Pin.reset f) w.pipe.pinsAcc } }

/-- A body write. -/
def pinBody (mask s off : Nat) (b : Bytes) (w : Wire) : Wire :=
  pinAccept { mask := mask, slot := s, off := off, bytes := b, valid := none } (fun p => { p with body := splice p.body off b }) w

/-- A control write that leaves VALID as given. -/
def pinControl (mask s : Nat) (v : Bool) (w : Wire) : Wire :=
  pinAccept { mask := mask, slot := s, off := 0x78, bytes := [], valid := some v } (fun p => { p with valid := v }) w

/-- R274: a write of PF0 to a pinned slot. Bytes beyond the body and the control word's other bits are discarded. -/
def pinnedWrite (fn s off : Nat) (b : Bytes) (w : Wire) : Wire :=
  let mask := regField .pipePinMask fn 3 0 w.io
  if 0x78 ≤ off then
    if off ≠ 0x78 || b.isEmpty then w
    else if !(field b 0 1).testBit 0 then pinControl mask s false w
    else if (bitsOf 4 mask).any (fun r => pinBad w.net (pinAcc w.pipe r s).body) then pinControl mask s false (w.on (pinRefuse s))
    else pinControl mask s true w
  else if (bitsOf 4 mask).any (fun r => (pinAcc w.pipe r s).valid) then w.on (pinRefuse s)
  else pinBody mask s off ((b.take (0x78 - off)).mapIdx (fun i x => if off + i < 0x60 then x else 0)) w

/-- PINNED_WRITE (R274). -/
def execPinnedWrite (l : LinkNo) (slot : Fin 64) (off : Nat) (bytes : Bytes) (s : State) :
    Host.Outcome State Fault Refusal :=
  .next (onWire (pinnedWrite (4 * l.val) slot.val off bytes) s)

/-- A pinned slot as a pipeline holds it. -/
def pinAt (p : Pipe) (r s : Nat) : Pin := mgetD p.pins (pinKey r s) Pin.reset

/-- Slots of a pipeline that are VALID (08:0031). -/
def pinValid (p : Pipe) (r : Nat) : Nat := maskOf ((List.range 64).filter (fun s => (pinAt p r s).valid))

/-- The queue of accepted writes once pipeline `r` has applied its oldest. -/
def dropFirst (r : Nat) : List PinWrite → List PinWrite
  | [] => []
  | y :: ys => if y.mask.testBit r then { y with mask := y.mask &&& (15 - 2 ^ r) } :: ys else y :: dropFirst r ys

/-- R274: the oldest write a pipeline has not applied applies there. -/
def pinApply (r : Nat) (w : Wire) : Wire :=
  match w.pipe.pinQ.find? (fun x => x.mask.testBit r) with
  | none => w
  | some x =>
    let f (p : Pin) : Pin := match x.valid with
      | some v => { p with valid := v }
      | none => { p with body := splice p.body x.off x.bytes }
    let q := (dropFirst r w.pipe.pinQ).filter (fun y => y.mask != 0)
    let p := { w.pipe with pins := mupd w.pipe.pins (pinKey r x.slot) Pin.reset f, pinQ := q }
    let io1 := if q.isEmpty then regOff .pipePinStatus 0 0 w.io else w.io
    { w with io := if x.valid.isSome then dset (idx 0x080031 (r + 1)) (pinValid p r) io1 else io1, pipe := p }

/-- PINNED_APPLY (R274). -/
def execPinnedApply (r : RegionNo) (s : State) : Host.Outcome State Fault Refusal := .next (onWire (pinApply r.val) s)

/-- R275: 08:0030 written: the steps of R274 as one unit. -/
def pinCmd (stage : Nat) (by_ : Issuer) (arg : Bytes) (w : Wire) : Wire :=
  let ans (st : Nat) (w : Wire) : Wire := w.on (answer by_ (idx 0x080030 0) st [])
  match gate stage by_ 0x080030 w.io with
  | some e => ans e w
  | none =>
    let s := field arg 0 1
    let mask := field arg 1 1
    let c := field arg (4 + 0x78) 8
    if arg.length ≠ 132 || 63 < s || mask = 0 || 15 < mask || field arg 2 2 ≠ 0 || 1 < c then ans 0x05 w
    else
      let b := slice arg 4 0x78
      let w1 := pinBody mask s 0 b (pinControl mask s false w)
      if c = 0 then ans 0 w1
      else if pinBad w.net b then ans 0x11 w1
      else ans 0 (pinControl mask s true w1)

/-- PIN_WRITE (R62, R274, R275). -/
def execPinWrite (by_ : Issuer) (arg : Bytes) (s : State) : Host.Outcome State Fault Refusal :=
  .next (onWire (pinCmd s.start.stage by_ arg) s)

/-- R275: a region that returns holds what was last accepted for its pinned slots. -/
def pinsRestore (r : Nat) (w : Wire) : Wire :=
  let p := { w.pipe with
    pins := (List.range 64).foldl (fun m s => match mget w.pipe.pinsAcc (pinKey r s) with
      | some x => mput m (pinKey r s) x
      | none => mdel m (pinKey r s)) w.pipe.pins
    pinQ := (w.pipe.pinQ.map (fun y => { y with mask := y.mask &&& (15 - 2 ^ r) })).filter (fun y => y.mask != 0) }
  { w with io := dset (idx 0x080031 (r + 1)) (pinValid p r) w.io, pipe := p }

/-! ### Counters (R278) -/

/-- 08:0101 written. -/
def counterClear (stage : Nat) (by_ : Issuer) (n : Nat) (w : Wire) : Wire :=
  match gate stage by_ 0x080101 w.io with
  | some e => w.on (answer by_ (idx 0x080101 0) e [])
  | none =>
    if 8192 ≤ n then w.on (answer by_ (idx 0x080101 0) 0x05 [])
    else
      { w with
        io := answer by_ (idx 0x080101 0) 0 [] w.io
        pipe := { w.pipe with counters := (List.range 4).foldl (fun m r => mdel m (r * 8192 + n)) w.pipe.counters } }

/-- COUNTER_CLEAR (R278). -/
def execCounterClear (by_ : Issuer) (n : Half) (s : State) : Host.Outcome State Fault Refusal :=
  .next (onWire (counterClear s.start.stage by_ n.toNat) s)

/-- R277: FLR of PF0, or a reset of its link, ends a LOAD from its registers with cause 0x06, and its registers reset. -/
def plateLinkReset (fn : Nat) (w : Wire) : Wire :=
  let w1 := w.on (fun io => regReset [.pipeLoadAddr, .pipeLoadLen, .pipeLoadStatus, .pipeLoadDetail, .pipePinMask] fn io)
  let mine (o : LoadOp) : Bool := o.origin == 0 && o.fn == fn
  match w1.pipe.ops with
  | [] => w1
  | o :: os =>
    let left := os.filter (fun o => !mine o)
    if !mine o then { w1 with pipe := { w1.pipe with ops := o :: left } }
    else
      match left with
      | [] => { w1 with pipe := { w1.pipe with ops := [] } }
      | n :: rest =>
        let y := opStart n w1.pipe
        { w1 with io := plateReport y.2 w1.io, pipe := { y.2 with ops := y.1 :: rest } }

end Sys2Proof.Machine
end

