-- ==== Sys2Proof/Machine/LeOps.lean ====
section
/-!
DEFINITION. Waits of threads (R456), Bellwether records (R449, R450, R474), request-line pulses (R487), and the
lock-and-event unit: locks (R457, R458), event counters (R460, R461), channels (R462 to R466), the wait-for graph (R467,
R468) and halted holders (R471).
Choices of the model coded here, by entry of the assumption log: DESIGN CHOICE 2, 68; DEDUCED 17, 73.
-/
namespace Sys2Proof.Machine

/-! ### Bellwether records -/

/-- Containment resets of a unit still inside the window of R33. -/
def resetsIn (s : State) (level unit : Nat) : Nat :=
  let win := sec (dget s.io (idx 0x0E0402 level) (match level with | 1 => 10 | 2 => 60 | 3 => 600 | _ => 3600))
  (s.cont.resets.filter (fun r => r.level == level && r.unit == unit && decide (s.io.now < r.time + win))).length

/-- The Bellwether queue of a block. -/
def bwAt (s : State) (b : Nat) : Bw := mgetD s.cpu.bws b Bw.reset

/-- Storing it. -/
def bwPut (b : Nat) (x : Bw) (s : State) : State := { s with cpu := { s.cpu with bws := mput s.cpu.bws b x } }

/-- The 32 bytes of a record under its sequence (R450). -/
def bwBytes (r : BwRec) (seq : Nat) : Bytes :=
  le 8 r.time ++ le 1 r.kind ++ le 1 r.flags ++ le 2 r.thread ++ le 1 r.cell ++ le 1 r.count ++ le 2 seq ++ le 8 r.addr ++
  padTo 8 r.detail

/-- A record is written to the queue. -/
def bwWrite (r : BwRec) (x : Bw) : Bw :=
  let seq := x.producer.toNat % 65536
  { x with producer := x.producer + 1, slots := mput x.slots (x.producer.toNat % 64) (bwBytes r seq),
           unacked := if r.flags % 2 = 1 then x.unacked ++ [(seq, r)] else x.unacked }

/-- R449: whether the queue is full. -/
def bwFull (x : Bw) : Bool := (x.producer - x.consumer).toNat == 64

/-- R449, R450: a record is raised: counted, and written, or waiting where the queue is full. -/
def bwRaise (kind flags thread cell addr : Nat) (detail : Bytes) (s : State) : State :=
  let r : BwRec :=
    { time := time64 s.io, kind := kind, flags := flags, thread := thread, cell := cell, count := resetsIn s 1 cell % 256,
      addr := addr, detail := detail, raised := s.io.now }
  let s1 := on (if kind < 0x10 then bump32 0x0E0003 kind else bump32 0x0E0100 (kind - 0x0F)) s
  let x := bwAt s1 (cell / 8)
  bwPut (cell / 8) (if bwFull x then { x with waiting := x.waiting ++ [r] } else bwWrite r x) s1

/-- Waiting records are written while there is room; `fuel` bounds them. -/
def bwRefill : Nat → Bw → Bw
  | 0, x => x
  | fuel + 1, x =>
    if bwFull x then x
    else
      match x.waiting with
      | [] => x
      | r :: rs => bwRefill fuel (bwWrite r { x with waiting := rs })

/-- R449: whether a queue holds records not yet consumed. -/
def bwHolds (x : Bw) : Bool := x.producer != x.consumer

/-- BW_CONSUMER takes a value that is neither ahead of BW_PRODUCER nor more than 64 behind it. -/
def bwConsume (b : Nat) (v : Word32) (s : State) : State :=
  let x := bwAt s b
  if 64 < (x.producer - v).toNat then s else bwPut b (bwRefill 64 { x with consumer := v }) s

/-! ### Request lines (R487) -/

/-- The engine of a region. -/
def dmaAt (s : State) (r : Nat) : DmaEng := mgetD s.dma r DmaEng.reset

/-- Storing it. -/
def dmaPut (r : Nat) (x : DmaEng) (s : State) : State := { s with dma := mput s.dma r x }

/-- A pulse on a line: its count rises, or OVERFLOW is set and the pulse counted. -/
def dmaPulse (r l : Nat) (s : State) : State :=
  let e := dmaAt s r
  let x := mgetD e.lines l DmaLine.reset
  if x.count < 65535 then dmaPut r { e with lines := mput e.lines l { x with count := x.count + 1 } } s
  else on (bump32 0x0F0002 (r + 1)) (dmaPut r { e with lines := mput e.lines l { x with overflow := true } } s)

/-! ### Waits (R456) -/

/-- A thread begins to wait. -/
def waitBegin (t rd : Nat) (w : WaitOn) (s : State) : State :=
  threadPut t { threadAt s t with st := 2, wait := some { on_ := w, rd := rd, since := s.io.now } } s

/-- The edge a waiting thread contributes: target, kind and index (R467). -/
def edgeOf (s : State) (b i : Nat) : Option (Nat × CycleEdge) :=
  match (threadAt s (64 * b + i)).wait with
  | none => none
  | some w =>
    match w.on_ with
    | .lock l => (mgetD (leAt s b).locks l Lock.reset).holder.map (fun h => (h, { thread := i, kind := 1, index := l }))
    | .chanFull n => some ((mgetD (leAt s b).chans n Chan.reset).reader, { thread := i, kind := 3, index := n })
    | .chanEmpty n _ => some ((mgetD (leAt s b).chans n Chan.reset).writer, { thread := i, kind := 4, index := n })
    | _ => none

/-- Whether an edge of a reported cycle still stands. -/
def edgeStands (s : State) (b : Nat) (e : CycleEdge) : Bool :=
  match edgeOf s b e.thread with
  | none => false
  | some x => decide (x.2 = e)

/-- R468: reported cycles whose waits have ended are gone. -/
def cycleRefresh (b : Nat) (s : State) : State :=
  let u := leAt s b
  lePut b { u with cycles := u.cycles.filter (fun c => c.all (edgeStands s b)) } s

/-- A wait ends without its instruction completing: its place in a lock's queue is given up. -/
def waitDrop (t : Nat) (s : State) : State :=
  let x := threadAt s t
  let b := t / 64
  let s1 := match x.wait with
    | some { on_ := .lock l, .. } =>
      let u := leAt s b
      let k := mgetD u.locks l Lock.reset
      lePut b { u with locks := mput u.locks l { k with queue := k.queue.filter (· != t % 64) } } s
    | _ => s
  cycleRefresh b (threadPut t { x with wait := none } s1)

/-- A waiting instruction completes with a value: the thread runs on after it. -/
def waitDone (t : Nat) (v : Word64) (s : State) : State :=
  let x := threadAt s t
  match x.wait with
  | none => s
  | some w =>
    let s1 := waitDrop t s
    let y := threadAt s1 t
    stepOver t (threadPut t { setX w.rd v y with st := 1, pc := y.pc + 4, minstret := y.minstret + 1 } s1)

/-- The threads of a block that wait for something that satisfies `p`. -/
def waitersFor (s : State) (b : Nat) (p : WaitOn → Bool) : List Nat :=
  (blockThreads b).filter (fun t => match (threadAt s t).wait with | some w => p w.on_ | none => false)

/-! ### The wait-for graph (R467, R468) -/

/-- The edges from thread `i` on until thread `z` is reached; none where the walk ends. -/
def edgeWalk (s : State) (b z : Nat) : Nat → Nat → Option (List CycleEdge)
  | 0, _ => none
  | fuel + 1, i =>
    match edgeOf s b i with
    | none => none
    | some (k, e) => if k = z then some [e] else (edgeWalk s b z fuel k).map (e :: ·)

/-- R468: where the wait of thread `t` closes a cycle, it is kept, reported and counted. -/
def cycleCheck (t : Nat) (s : State) : State :=
  let b := t / 64
  match edgeWalk s b (t % 64) 64 (t % 64) with
  | none => s
  | some c =>
    let u := leAt s b
    let e := c.headD { thread := 0, kind := 0, index := 0 }
    bwRaise 0x10 0 t (t / 8) (maskOf (c.map (·.thread))) (le 1 e.kind ++ le 1 0 ++ le 2 e.index ++ le 1 c.length ++ le 3 0)
      (lePut b { u with cycles := c :: u.cycles } s)

/-- R471: another thread begins to wait on an object whose holder the debugger has halted: the first such wait in a halt
is reported. `kind` is 1 for a lock and 5 for a reservation. -/
def haltedCheck (b holder kind index : Nat) (p : WaitOn → Bool) (s : State) : State :=
  let u := leAt s b
  if (threadAt s (64 * b + holder)).st ≠ 3 || u.haltSeen.contains (kind, index) then s
  else
    bwRaise 0x13 0 (64 * b + holder) (8 * b + holder / 8) (maskOf ((waitersFor s b p).map (· % 64)))
      (le 1 kind ++ le 1 0 ++ le 2 index ++ le 4 0) (lePut b { u with haltSeen := (kind, index) :: u.haltSeen } s)

/-! ### Locks (R457, R458) -/

/-- Storing a lock. -/
def lockPut (b l : Nat) (k : Lock) (s : State) : State :=
  let u := leAt s b
  lePut b { u with locks := mput u.locks l k } s

/-- A lock of a block. -/
def lockAt (s : State) (b l : Nat) : Lock := mgetD (leAt s b).locks l Lock.reset

/-- What LK.ACQ and LK.TRY find: the status where the thread need not wait, and the lock. -/
def lockTake (t l : Nat) (s : State) : Option Nat × State :=
  let b := t / 64
  let k := lockAt s b l
  match k.holder with
  | none => (some (b2n k.abandoned), lockPut b l { k with holder := some (t % 64), abandoned := false } s)
  | some h => if h = t % 64 then (some 4, s) else (none, s)

/-- LK.ACQ joins the queue of a held lock. -/
def lockWait (t rd l : Nat) (s : State) : State :=
  let b := t / 64
  let k := lockAt s b l
  let s1 := cycleCheck t (waitBegin t rd (.lock l) (lockPut b l { k with queue := k.queue ++ [t % 64] } s))
  match k.holder with
  | none => s1
  | some h => haltedCheck b h 1 l (fun w => match w with | .lock m => m == l | _ => false) s1

/-- The lock passes to the oldest thread of its queue, whose LK.ACQ completes with `st`; free where none waits. -/
def lockPass (b l st : Nat) (s : State) : State :=
  let k := lockAt s b l
  match k.queue with
  | [] => lockPut b l { k with holder := none } s
  | i :: q => waitDone (64 * b + i) (BitVec.ofNat 64 st) (lockPut b l { k with holder := some i, queue := q, abandoned := false } s)

/-- LK.REL: a status, and the lock released. -/
def lockRelease (t l : Nat) (s : State) : Nat × State :=
  if (lockAt s (t / 64) l).holder = some (t % 64) then (0, cycleRefresh (t / 64) (lockPass (t / 64) l 0 s)) else (3, s)

/-- R458: a lock whose holder is lost. -/
def lockLost (b l : Nat) (s : State) : State :=
  let k := lockAt s b l
  let s1 := on (bump32 0x0E0101 (b + 1)) s
  if k.queue.isEmpty then lockPut b l { k with holder := none, abandoned := true } s1
  else lockPass b l 1 s1

/-! ### Event counters (R460, R461) -/

/-- A counter of a block. -/
def evAt (s : State) (b k : Nat) : Word64 := mgetD (leAt s b).events k 0

/-- R460: whether counter value `c` satisfies target `t`. -/
def evReached (c t : Word64) : Bool := decide ((c - t).toNat < 2 ^ 63)

/-- Lines of the region's engine that watch a counter (R487). -/
def evWatchers (s : State) (b k : Nat) : List Nat :=
  (List.range 8).filter (fun w =>
    let v := mgetD (dmaAt s (b / 4)).watches w 0
    v.testBit 31 && bits v 11 10 == b % 4 && bits v 9 0 == k)

/-- Waiters whose condition holds complete together. -/
def evWake (b k : Nat) (s : State) : State :=
  (waitersFor s b (fun w => match w with | .event j t => j == k && evReached (evAt s b k) (BitVec.ofNat 64 t) | _ => false)).foldl
    (fun s t => waitDone t 0 s) s

/-- An addition to a counter. -/
def evAdd (b k : Nat) (v : Word64) (s : State) : State :=
  let u := leAt s b
  let s1 := lePut b { u with events := mput u.events k (evAt s b k + v) } s
  evWake b k ((evWatchers s1 b k).foldl (fun s w => dmaPulse (b / 4) (52 + w) s) s1)

/-- Additions of engines still on their way arrive (R461). -/
def evArrive (s : State) : State :=
  s.io.evAdds.foldl (fun s a => evAdd a.1 a.2 1 s) (on (fun io => { io with evAdds := [] }) s)

/-! ### Channels (R462 to R466) -/

/-- A channel of a block. -/
def chanAt (s : State) (b n : Nat) : Chan := mgetD (leAt s b).chans n Chan.reset

/-- Storing it. -/
def chanPut (b n : Nat) (c : Chan) (s : State) : State :=
  let u := leAt s b
  lePut b { u with chans := mput u.chans n c } s

/-- The canonical address of a slot. -/
def chanSlot (b : Nat) (c : Chan) (i : Nat) : Nat := blockBase b + 1024 * c.base + 64 * (i % 16)

/-- The writer's thread waiting on a full channel, and the reader's waiting on an empty one. -/
def chanWriterWaits (s : State) (b n : Nat) : List Nat :=
  waitersFor s b (fun w => match w with | .chanFull m => m == n | _ => false)
def chanReaderWaits (s : State) (b n : Nat) : List Nat :=
  waitersFor s b (fun w => match w with | .chanEmpty m _ => m == n | _ => false)

/-- Every wait on a channel completes with a status. -/
def chanEndWaits (b n st : Nat) (s : State) : State :=
  (chanWriterWaits s b n ++ chanReaderWaits s b n).foldl (fun s t => waitDone t (BitVec.ofNat 64 st) s) s

/-- 64 bytes of SRAM copied, poison and all. -/
def sramCopy (src dst : Nat) (s : State) : State :=
  let bad := (wordsOf src 64).filter (s.mem.bad.contains ·)
  let s1 := sramWrite dst (memGets 0 s.mem.sram src 64) s
  { s1 with mem := bad.foldl (fun m w => sramPoison (dst + (w - src)) m) s1.mem }

/-- The status that keeps an operation off a channel: closed, not its end (R465), or none. -/
def chanBar (c : Chan) (i want : Nat) : Option Nat :=
  if c.state = .closed then some 7 else if i ≠ want then some 6 else none

/-- Slot HEAD is read to an address and freed. -/
def chanTake (b n dst : Nat) (s : State) : State :=
  let c := chanAt s b n
  chanPut b n { c with head := (c.head + 1) % 16, pub := c.pub - 1 } (sramCopy (chanSlot b c c.head) dst s)

/-- A slot is reserved; its address. -/
def chanReserve (b n : Nat) (s : State) : Word64 × State :=
  let c := chanAt s b n
  (BitVec.ofNat 64 (chanSlot b c (c.head + c.pub)), chanPut b n { c with reserved := true, aborted := false } s)

/-- CH.RES by block thread `i`: the value for rd, or none where it waits. -/
def chanRes (b n i : Nat) (s : State) : Option Word64 × State :=
  let c := chanAt s b n
  match chanBar c i c.writer with
  | some st => (some (BitVec.ofNat 64 st), s)
  | none =>
    if c.state = .broken then (some 8, s)
    else if c.reserved then (some 10, s)
    else if c.pub = 16 then (none, s)
    else ((some (chanReserve b n s).1), (chanReserve b n s).2)

/-- A reader waiting on a channel that holds a message takes it. -/
def chanWakeReader (b n : Nat) (s : State) : State :=
  match chanReaderWaits s b n with
  | [] => s
  | t :: _ =>
    match (threadAt s t).wait with
    | some { on_ := .chanEmpty _ dst, .. } => waitDone t 0 (chanTake b n dst s)
    | _ => s

/-- CH.PUB by block thread `i`. -/
def chanPub (b n i : Nat) (s : State) : Nat × State :=
  let c := chanAt s b n
  match chanBar c i c.writer with
  | some st => (st, s)
  | none =>
    if c.state = .broken then (8, s)
    else if c.reserved then (0, chanWakeReader b n (chanPut b n { c with reserved := false, pub := c.pub + 1 } s))
    else if c.aborted then (12, chanPut b n { c with aborted := false } s)
    else (9, s)

/-- The writer waiting on a channel with a free slot reserves it. -/
def chanWakeWriter (b n : Nat) (s : State) : State :=
  match chanWriterWaits s b n with
  | [] => s
  | t :: _ =>
    let r := chanReserve b n s
    waitDone t r.1 r.2

/-- CH.READ by block thread `i` into a canonical address: the status, or none where it waits. -/
def chanRead (b n i dst : Nat) (s : State) : Option Nat × State :=
  let c := chanAt s b n
  match chanBar c i c.reader with
  | some st => (some st, s)
  | none =>
    if 0 < c.pub then (some 0, chanWakeWriter b n (chanTake b n dst s))
    else if c.state = .broken then (some 8, s)
    else (none, s)

/-- CH.RES waits. -/
def chanResWait (t rd n : Nat) (s : State) : State := cycleCheck t (waitBegin t rd (.chanFull n) s)

/-- CH.READ waits. -/
def chanReadWait (t rd n dst : Nat) (s : State) : State :=
  let b := t / 64
  let s1 := cycleCheck t (waitBegin t rd (.chanEmpty n dst) s)
  let c := chanAt s1 b n
  if c.reserved then
    haltedCheck b c.writer 5 n (fun w => match w with | .chanEmpty m _ => m == n | _ => false) s1
  else s1

/-- R462: ENABLE is written 1: the channel opens, or CFG_REFUSED is set. -/
def chanOpen (b n base reader writer : Nat) (s : State) : State :=
  let u := leAt s b
  let clash := u.chans.any (fun p => p.1 != n && p.2.state != .closed && p.2.base == base)
  if scratchSize s.mem b < 1024 * base + 1024 || clash || writer == reader then
    let c := chanAt s b n
    lePut b { u with cfgRefused := true, chans := mput u.chans n { c with base := base, reader := reader, writer := writer } } s
  else chanPut b n { Chan.reset with state := .open, base := base, reader := reader, writer := writer } s

/-- R462: ENABLE is written 0. -/
def chanClose (b n : Nat) (s : State) : State :=
  let c := chanAt s b n
  chanEndWaits b n 7 (chanPut b n { Chan.reset with base := c.base, reader := c.reader, writer := c.writer } s)

/-- R466: one channel as the cell `c` is lost. -/
def chanLost (b n cell : Nat) (s : State) : State :=
  let c := chanAt s b n
  let wl := 8 * b + c.writer / 8 == cell
  let rl := 8 * b + c.reader / 8 == cell
  if c.state = .closed || !((wl && !c.writerLost) || (rl && !c.readerLost)) then s
  else
    let gone := if rl then c.pub else 0
    let c1 := { c with
      state := .broken, reserved := false, aborted := false, writerLost := c.writerLost || wl,
      readerLost := c.readerLost || rl, pub := if rl then 0 else c.pub }
    let t := 64 * b + (if wl then c.writer else c.reader)
    let s1 := bwRaise 0x14 0 t (t / 8) 0 (le 2 n ++ le 1 gone ++ le 1 (if wl && rl then 3 else if wl then 1 else 2) ++ le 4 0)
      (on (bump32 0x0E0102 (b + 1)) (chanPut b n c1 s))
    chanEndWaits b n 8 s1

/-- R36, R452 step 2: what a cell's threads held in the unit is lost: waits, locks, channels and wait watchdogs. -/
def leCellLost (cell : Nat) (s : State) : State :=
  let b := cell / 8
  let mine (i : Nat) : Bool := 8 * b + i / 8 == cell
  let s1 := (cellThreads cell).foldl (fun s t => waitDrop t s) s
  let s2 := ((leAt s1 b).locks.filter (fun p => match p.2.holder with | some h => mine h | none => false)).foldl
    (fun s p => lockLost b p.1 s) s1
  let s3 := ((leAt s2 b).chans).foldl (fun s p => chanLost b p.1 cell s) s2
  let u := leAt s3 b
  cycleRefresh b (lePut b { u with wdog := mfilter u.wdog (fun i _ => !mine i) } s3)

/-- R471: a thread leaves state 3: what was reported of its halt is forgotten. -/
def haltEnds (t : Nat) (s : State) : State :=
  let b := t / 64
  let u := leAt s b
  let mine (e : Nat × Nat) : Bool :=
    if e.1 = 1 then (mgetD u.locks e.2 Lock.reset).holder == some (t % 64)
    else (mgetD u.chans e.2 Chan.reset).writer == t % 64
  lePut b { u with haltSeen := u.haltSeen.filter (fun e => !mine e) } s

/-- R470: the wait watchdog of a thread expires. -/
def waitTimeout (t : Nat) (s : State) : State :=
  let b := t / 64
  let p := mgetD (leAt s b).wdog (t % 64) 0
  match (threadAt s t).wait with
  | none => s
  | some w =>
    let ki := match w.on_ with
      | .lock l => some (1, l)
      | .event k _ => some (2, k)
      | .chanFull n => some (3, n)
      | .chanEmpty n _ => some (4, n)
      | _ => none
    match ki with
    | none => s
    | some (k, i) =>
      if p = 0 then s
      else
        let s1 := waitDone t 5 (on (reach (w.since + us p)) s)
        bwRaise 0x12 0 t (t / 8) 0 (le 1 k ++ le 1 0 ++ le 2 i ++ le 4 p) (on (bump32 0x0E0103 (b + 1)) s1)

/-- R473: LE_CH_ABORT. -/
def chanAbort (b n : Nat) (fromDebug : Bool) (s : State) : State :=
  let c := chanAt s b n
  if fromDebug && c.state == .open && c.reserved && (threadAt s (64 * b + c.writer)).st == 3 then
    chanPut b n { c with reserved := false, aborted := true } s
  else
    let u := leAt s b
    lePut b { u with abortRefused := true } s

/-! ### BLOCK_STALL (R469) -/

/-- Whether a wait can be ended from outside the block. -/
def waitExternal (s : State) (b : Nat) (th : Thread) (w : WaitOn) : Bool :=
  (match w with
   | .event k _ => (mgetD (leAt s b).external (k / 64) 0).getLsbD (k % 64)
   | .packet _ => true
   | .put _ _ => true
   | _ => false) || (th.mie.getLsbD 7 && th.mstatus.getLsbD 3)

/-- The stall condition of R469. -/
def stallHolds (s : State) (b : Nat) : Bool :=
  let ts := (blockThreads b).map (threadAt s)
  ts.all (fun x => x.st == 0 || x.st == 2) && ts.any (fun x => x.st == 2) &&
  ts.all (fun x => match x.wait with | some w => !waitExternal s b x w.on_ | none => true)

/-- The stall condition has held for LE_STALL_HOLD. -/
def blockStall (b : Nat) (s : State) : State :=
  let u := leAt s b
  if u.stalled || !stallHolds s b then s
  else
    let ws := waitersFor s b (fun _ => true)
    bwRaise 0x11 0 0xFFFF (8 * b) (maskOf (ws.map (· % 64))) (le 1 ws.length ++ le 7 0)
      (lePut b { u with stalled := true } (on (reach (u.quiet + us u.stallHold)) s))

/-! ### Registers of the unit (R475) -/

/-- CH_CFG_n as it reads. -/
def chCfgBits (c : Chan) : Nat :=
  b2n (c.state != .closed) * 2 ^ 31 + c.base * 2 ^ 16 + c.reader * 2 ^ 8 + c.writer

/-- CH_STATE_n. -/
def chStateBits (s : State) (b : Nat) (c : Chan) : Nat :=
  c.state.ctorIdx * 2 ^ 30 + b2n (c.reserved && (threadAt s (64 * b + c.writer)).st == 3) * 2 ^ 29 + c.pub * 2 ^ 16 +
  b2n c.reserved * 2 ^ 12 + (if c.reserved then (c.head + c.pub) % 16 * 256 else 0) + c.head

/-- LK_STATE_l. -/
def lkStateBits (s : State) (b : Nat) (k : Lock) : Nat :=
  match k.holder with
  | none => b2n k.abandoned * 2 ^ 30
  | some h => 2 ^ 31 + b2n ((threadAt s (64 * b + h)).st == 3) * 2 ^ 29 + k.queue.length * 2 ^ 16 + h

/-- LE_WAIT_t. -/
def leWaitBits (x : Thread) : Nat :=
  match x.wait with
  | none => 0
  | some w =>
    match w.on_ with
    | .lock l => 2 ^ 28 + l
    | .event k _ => 2 * 2 ^ 28 + k
    | .chanFull n => 3 * 2 ^ 28 + n
    | .chanEmpty n _ => 4 * 2 ^ 28 + n
    | .packet _ => 5 * 2 ^ 28
    | .put _ _ => 5 * 2 ^ 28

/-- A register of the unit and its width in bytes; none at a reserved offset. -/
def leReg (s : State) (b off : Nat) : Option (Nat × Nat) :=
  let u := leAt s b
  if off < 0x2000 then some (8, (evAt s b (off / 8)).toNat)
  else if off < 0x4000 then some (8, 0)
  else if off < 0x4080 then some (8, (mgetD u.external ((off - 0x4000) / 8) 0).toNat)
  else if 0x8000 ≤ off ∧ off < 0xC000 then some (4, lkStateBits s b (lockAt s b ((off - 0x8000) / 4)))
  else if 0xC000 ≤ off ∧ off < 0xC800 then
    (let c := chanAt s b ((off - 0xC000) / 8)
     if off / 4 % 2 = 0 then some (4, chCfgBits c) else some (4, chStateBits s b c))
  else if 0xD000 ≤ off ∧ off < 0xD100 then some (4, mgetD u.wdog ((off - 0xD000) / 4) 0)
  else if 0xD100 ≤ off ∧ off < 0xD200 then some (4, leWaitBits (threadAt s (64 * b + (off - 0xD100) / 4)))
  else if 0xE000 ≤ off ∧ off < 0xE004 then
    some (4, b2n (!u.cycles.isEmpty) + 2 * b2n (stallHolds s b) + 4 * b2n u.abortRefused + 8 * b2n u.cfgRefused)
  else if 0xE004 ≤ off ∧ off < 0xE008 then some (4, u.stallHold)
  else if 0xE008 ≤ off ∧ off < 0xE00C then some (4, 0)
  else if 0xE100 ≤ off ∧ off < 0xE200 then
    some (4, match (u.cycles.headD [])[(off - 0xE100) / 4]? with
      | some e => 2 ^ 31 + e.kind * 2 ^ 28 + e.thread * 2 ^ 22 + e.index
      | none => 0)
  else none

/-- A write of CH_CFG_n: opens, closes, or changes the fields of a closed channel. -/
def chCfgWrite (b n v : Nat) (s : State) : State :=
  let c := chanAt s b n
  if v.testBit 31 then
    if c.state = .closed then chanOpen b n (bits v 26 16) (bits v 13 8) (bits v 5 0) s else s
  else if c.state = .closed then
    chanPut b n { c with base := bits v 26 16, reader := bits v 13 8, writer := bits v 5 0 } s
  else chanClose b n s

/-- A write of a register of the unit. -/
def leRegWrite (b off v : Nat) (fromDebug : Bool) (s : State) : State :=
  let u := leAt s b
  if 0x2000 ≤ off ∧ off < 0x4000 then evAdd b ((off - 0x2000) / 8) (BitVec.ofNat 64 v) s
  else if 0x4000 ≤ off ∧ off < 0x4080 then
    lePut b { u with external := mput u.external ((off - 0x4000) / 8) (BitVec.ofNat 64 v) } s
  else if 0xC000 ≤ off ∧ off < 0xC800 ∧ off / 4 % 2 = 0 then chCfgWrite b ((off - 0xC000) / 8) v s
  else if 0xD000 ≤ off ∧ off < 0xD100 then
    if bits v 19 0 ≤ 1000000 then lePut b { u with wdog := mput u.wdog ((off - 0xD000) / 4) (bits v 19 0) } s else s
  else if 0xE000 ≤ off ∧ off < 0xE004 then
    lePut b { u with cfgRefused := u.cfgRefused && !v.testBit 3, abortRefused := u.abortRefused && !v.testBit 2 } s
  else if 0xE004 ≤ off ∧ off < 0xE008 then
    if 1 ≤ bits v 15 0 ∧ bits v 15 0 ≤ 10000 then lePut b { u with stallHold := bits v 15 0 } s else s
  else if 0xE008 ≤ off ∧ off < 0xE00C then chanAbort b (bits v 7 0) fromDebug s
  else s

end Sys2Proof.Machine
end

