-- ==== Sys2Proof/Machine/DmaOps.lean ====
section
/-!
DEFINITION. The region DMA engines (chapter 21): the descriptor and its checks (R479, R482), the spaces an engine reaches
(R480), elements, swaps and the three operations (R481, R485, R486), bus errors (R490) and the channel states (R477 to
R491).
Choices of the model coded here, by entry of the assumption log: DESIGN CHOICE 75, 90; DEDUCED 70, 74.
-/
namespace Sys2Proof.Machine

/-- A channel of a region's engine. -/
def dmaCh (s : State) (r c : Nat) : DmaCh := mgetD (dmaAt s r).chans c DmaCh.reset

/-- Storing it. -/
def dmaChPut (r c : Nat) (x : DmaCh) (s : State) : State :=
  let e := dmaAt s r
  dmaPut r { e with chans := mput e.chans c x } s

/-! ### Fields of a descriptor (R479) -/

def dOp (d : Bytes) : Nat := field d 1 1 % 4
def dSwap (d : Bytes) : Nat := bits (field d 1 1) 4 2
def dFlag (d : Bytes) (k : Nat) : Bool := (field d 2 1).testBit k
def dLine (d : Bytes) : Nat := field d 3 1
def dBurst (d : Bytes) : Nat := bits (field d 4 1) 1 0
/-- Space of an operand: source (0) or destination (1). -/
def dSpace (d : Bytes) (k : Nat) : Nat := if k = 0 then bits (field d 4 1) 3 2 else bits (field d 4 1) 5 4
/-- Base address of an operand. -/
def dBase (d : Bytes) (k : Nat) : Nat := field d (8 + 8 * k) 8
/-- Element length E and counts. -/
def dLen (d : Bytes) : Nat := field d 0x18 2
def dCount (d : Bytes) (k : Nat) : Nat := field d (0x1A + 2 * k) 2
/-- Elements of the descriptor. -/
def dElems (d : Bytes) : Nat := dCount d 0 * dCount d 1 * dCount d 2
/-- Step of loop `j` for an operand. -/
def dStep (d : Bytes) (j k : Nat) : Int := toSigned 32 (field d (0x20 + 8 * j + 4 * k) 4)
/-- Host function, as kwhostfn encodes it. -/
def dFn (d : Bytes) : Nat := field d 0x38 2

/-- R481: address of element `n` of an operand. -/
def dAddr (d : Bytes) (k n : Nat) : Int :=
  let i0 := n % dCount d 0
  let i1 := n / dCount d 0 % dCount d 1
  let i2 := n / (dCount d 0 * dCount d 1)
  (dBase d k : Int) + dStep d 0 k * i0 + dStep d 1 k * i1 + dStep d 2 k * i2

/-- Lowest and highest byte of an operand over all elements. -/
def dExtent (d : Bytes) (k : Nat) : Int × Int :=
  let reach (j : Nat) : Int := dStep d j k * ((dCount d j : Int) - 1)
  let low := (dBase d k : Int) + min 0 (reach 0) + min 0 (reach 1) + min 0 (reach 2)
  let high := (dBase d k : Int) + max 0 (reach 0) + max 0 (reach 1) + max 0 (reach 2) + dLen d - 1
  (low, high)

/-! ### Spaces (R480) -/

/-- The permitted area of core space an address lies in: first and last byte. -/
def coreArea (m : MemTile) (write : Bool) (a : Nat) : Option (Nat × Nat) :=
  match spotAt m a with
  | .sram x =>
    if x < regionBase 0 then
      (let b := (x - blockBase 0) / 0x1000000
       let o := x % 0x1000000
       if o < 0x800000 then some (blockBase b, blockBase b + scratchSize m b - 1)
       else some (blockBase b + o / 0x40000 * 0x40000, blockBase b + o / 0x40000 * 0x40000 + 0x3FFFF))
    else
      (let base := x / 0x4000000 * 0x4000000
       some (if write then base + 0xFE0000 else base, base + 0xFFFFFF))
  | .table r _ => if write then none else some (regionBase r, regionBase r + 0xFFFFFF)
  | .attached true _ => some (0x100000000000, 0x100000000000 + memCapacity m - 1)
  | .attached false _ => some (0x180000000000, 0x180000000000 + memCapacity m - 1)
  | _ => none

/-- R482, 0x15: an operand stays inside one permitted area. -/
def extentOk (m : MemTile) (d : Bytes) (k : Nat) : Bool :=
  let e := dExtent d k
  let write := k == 1 && dOp d != 2
  decide (0 ≤ e.1) &&
  (match dSpace d k with
   | 0 => (match coreArea m write e.1.toNat with
     | none => false
     | some (lo, hi) => decide ((lo : Int) ≤ e.1) && decide (e.2 ≤ (hi : Int)))
   | 1 => decide (e.2 < 2 ^ 64)
   | _ => decide (e.2 < 2 ^ 48) && e.1.toNat / 65536 == e.2.toNat / 65536)

/-- The function instance a kwhostfn code names: a VF, or the active twin of a PF; none where it names neither. -/
def hostFnOf (io : Io) (code : Nat) : Option Nat :=
  if code < 0x400 then some (16 + code) else if code < 0x404 then some (activeTwin io (code - 0x400)) else none

/-- R482, 0x14: a PF, or an enabled VF. -/
def hostFnOk (io : Io) (code : Nat) : Bool :=
  if code < 0x400 then (vfAt io code).up else decide (code < 0x404)

/-- Unit of a swap mode (R485). -/
def swapUnit (mode : Nat) : Nat :=
  match mode with
  | 0 => 1 | 1 => 2 | 2 => 4 | 3 => 4 | _ => 8

/-- Operands the checks look at: not the source of a FILL. -/
def dOperands (d : Bytes) : List Nat := if dOp d = 1 then [1] else [0, 1]

/-- R482: the status a descriptor is refused with; 0 where it passes. -/
def dCheck (m : MemTile) (io : Io) (d : Bytes) : Nat :=
  let ks := dOperands d
  let host := ks.any (fun k => dSpace d k == 1)
  if bits (field d 0 1) 7 4 ≠ 2 || bits (field d 0 1) 3 1 ≠ 0 || dOp d = 3 || bits (field d 1 1) 7 5 ≠ 0 ||
      bits (field d 2 1) 7 3 ≠ 0 || bits (field d 4 1) 7 6 ≠ 0 || field d 5 1 ≠ 0 || bits (field d 6 2) 15 12 ≠ 0 ||
      field d 0x3B 1 ≠ 0 then 0x11
  else if dLen d = 0 || dElems d = 0 || 2 ^ 32 ≤ dLen d * dElems d then 0x12
  else if 4 < dSwap d || dLen d % swapUnit (dSwap d) ≠ 0 || (dOp d = 1 && dSwap d ≠ 0) then 0x13
  else if ks.any (fun k => dSpace d k == 3) || (host && !hostFnOk io (dFn d)) || (!host && dFn d ≠ 0) then 0x14
  else if !(ks.all (extentOk m d)) then 0x15
  else if (62 ≤ dLine d && dLine d ≤ 0xFE) || (dBurst d ≠ 0 && dLine d = 0xFF) then 0x16
  else if !dFlag d 0 && field d 6 2 ≠ 0 then 0x17
  else 0

/-! ### Accesses -/

/-- Bytes of free values, for memory whose contents the spec does not lay out (R440). -/
def freeBytes : Nat → Io → Bytes × Io
  | 0, io => ([], io)
  | n + 1, io =>
    let (v, io1) := freeNat io
    let (r, io2) := freeBytes n io1
    (BitVec.ofNat 8 v :: r, io2)

/-- R440: a byte range of the region's stores as a reader finds it: the last 31 KiB read zero, the rest holds stores whose
layout the spec does not give. -/
def tableRead (off n : Nat) (io : Io) : Bytes × Io :=
  if 0xFE0000 - 31 * 1024 ≤ off then (List.replicate n 0, io) else freeBytes n io

/-- The cell or block whose memory an SRAM address names is in reset or isolated. -/
def sramOff (s : State) (a : Nat) : Bool :=
  if a < regionBase 0 then
    let b := (a - blockBase 0) / 0x1000000
    let o := a % 0x1000000
    let blockOff := s.cont.blocks.contains b || s.cont.regions.contains (b / 4) || unitResetting s.cont s.io.now 2 b ||
      s.cont.regionResets.any (fun x => x.1 == b / 4)
    if o < 0x800000 then blockOff else cellOff s (8 * b + (o - 0x800000) / 0x40000)
  else s.cont.regions.contains ((a - regionBase 0) / 0x4000000)

/-- The end of an access: data, or a code of R490. -/
inductive CoreAns where
  | ok (b : Bytes)
  | err (code : Nat)
  deriving DecidableEq, Repr

/-- An engine reads core space. -/
def coreRead (a n : Nat) (s : State) : CoreAns × State :=
  match spotAt s.mem a with
  | .sram x =>
    if sramOff s x then (.err 1, s)
    else
      match sramRead s.mem x n with
      | some b => (.ok b, s)
      | none => (.err 2, s)
  | .table _ off =>
    let r := tableRead off n s.io
    (.ok r.1, { s with io := r.2 })
  | .attached _ x =>
    let r := attachedRead (n / 64 + 2) x n { io := s.io, mem := s.mem }
    let s1 := { s with io := r.2.io, mem := r.2.mem }
    (match r.1 with | some b => .ok b | none => .err 2, s1)
  | _ => (.err 1, s)

/-- An engine writes core space: no code where the write is performed. -/
def coreWrite (a : Nat) (d : Bytes) (s : State) : Option Nat × State :=
  match spotAt s.mem a with
  | .sram x => if sramOff s x then (some 1, s) else (none, sramWrite x d s)
  | .attached _ x =>
    let r := attachedWrite (d.length / 64 + 2) x d { io := s.io, mem := s.mem }
    (r.1.map (fun _ => 2), { s with io := r.2.io, mem := r.2.mem })
  | _ => (some 1, s)

/-- A frame of the packet buffer held by a thread of a region. -/
def bufFrame (s : State) (r a : Nat) : Option (Nat × Nat × Pkt) :=
  match mget s.net.got (a / 65536) with
  | none => none
  | some (t, k) => if t / 256 = r then some (a / 65536, t, k) else none

/-- An engine reads the packet buffer. -/
def bufRead (r a n : Nat) (s : State) : CoreAns :=
  match bufFrame s r a with
  | none => .err 1
  | some (_, _, k) => if a % 65536 + n ≤ k.frame.length then .ok (slice k.frame (a % 65536) n) else .err 1

/-- An engine writes the packet buffer. -/
def bufWrite (r a : Nat) (d : Bytes) (s : State) : Option Nat × State :=
  match bufFrame s r a with
  | none => (some 1, s)
  | some (h, t, k) =>
    if a % 65536 + d.length ≤ k.frame.length then
      (none, { s with net := { s.net with got := mput s.net.got h (t, { k with frame := splice k.frame (a % 65536) d }) } })
    else (some 1, s)

/-! ### Bus errors (R490) -/

/-- DMA_ERR_INFO. -/
def errInfo (fn space code : Nat) (write : Bool) : Nat := fn * 65536 + space * 256 + b2n write * 128 + code

/-- A failure of an access of a region's engine. -/
def busError (r a space fn code : Nat) (write : Bool) (s : State) : State :=
  let e := dmaAt s r
  let s1 := on (bump32 0x0F0000 (r + 1)) s
  if e.busError then dmaPut r { e with multiple := true, drained := false } s1
  else
    let info := errInfo fn space code write
    let stop (_ : Nat) (x : DmaCh) : DmaCh :=
      if x.state = .disabled then x else { x with state := .stopped, cause := 1, reading := false }
    on (dsetB (idx 0x0F0003 (r + 1)) (le 8 (time64 s.io) ++ le 8 a ++ le 4 info ++ le 4 0))
      (dmaPut r { e with busError := true, drained := false, errAddr := a, errInfo := info, chans := mmap e.chans stop } s1)

/-! ### Descriptors -/

/-- Core address of the descriptor a channel stands at. -/
def dmaDescAddr (x : DmaCh) : Nat := x.base.toNat + 64 * x.index

/-- R478: a channel's next read is due. -/
def dmaNext (x : DmaCh) : DmaCh := { x with state := .running, reading := true, desc := none, ending := none, refusal := false }

/-- A descriptor that passed its checks begins, at element 0. -/
def dmaBegin (d : Bytes) (x : DmaCh) : DmaCh :=
  let x1 := { x with desc := some d, progress := 0, ending := none, refusal := false, reading := false }
  if dLine d = 0xFF then { x1 with state := .running, allowed := dElems d } else { x1 with state := .waiting, allowed := 0 }

/-- R478, R482: the descriptor at INDEX as read. -/
def dmaTake (r c : Nat) (d : Bytes) (s : State) : State :=
  let x := dmaCh s r c
  if !(field d 0 1).testBit 0 then
    if x.kicked then dmaChPut r c { x with kicked := false } s
    else dmaChPut r c { x with state := .idle, reading := false } s
  else
    let st := dCheck s.mem s.io d
    if st = 0 then dmaChPut r c (dmaBegin d x) s
    else dmaChPut r c { x with desc := some d, progress := 0, allowed := 0, ending := some (st, 0), refusal := true,
                               reading := false } s

/-- The read of the descriptor at INDEX. -/
def dmaDescRead (r c : Nat) (s : State) : State :=
  let x := dmaCh s r c
  if !x.reading || x.state ≠ .running then s
  else
    let a := dmaDescAddr x
    match coreRead a 64 s with
    | (.err code, s1) => busError r a 0 0 code false s1
    | (.ok d, s1) => dmaTake r c d s1

/-- Elements one request moves (R488). -/
def burstSize (d : Bytes) : Nat :=
  match dBurst d with
  | 0 => dElems d
  | 1 => dCount d 0 * dCount d 1
  | 2 => dCount d 0
  | _ => 1

/-- The channels that wait on a line. -/
def lineWaiters (e : DmaEng) (l : Nat) : List Nat :=
  (e.chans.filter (fun p => p.2.state == .waiting && (match p.2.desc with | some d => dLine d == l | none => false))).map (·.1)

/-- R488: the next waiting channel in turn takes a request of line `l`. -/
def burstStart (r l : Nat) (s : State) : State :=
  let e := dmaAt s r
  let x := mgetD e.lines l DmaLine.reset
  let ws := lineWaiters e l
  let last := mgetD e.taken l 31
  let next := match ws.find? (fun c => decide (last < c)) with
    | some c => some c
    | none => ws.head?
  match next with
  | none => s
  | some c =>
    if x.count = 0 then s
    else
      let ch := mgetD e.chans c DmaCh.reset
      let n := match ch.desc with | some d => burstSize d | none => 0
      dmaPut r { e with lines := mput e.lines l { x with count := x.count - 1 }, taken := mput e.taken l c,
                        chans := mput e.chans c { ch with state := .running, allowed := ch.progress + n } } s

/-! ### Elements -/

/-- R485: one unit rearranged. -/
def swapOne (mode : Nat) (u : Bytes) : Bytes := if mode = 3 then u.drop 2 ++ u.take 2 else if mode = 0 then u else u.reverse

/-- R485: an element rearranged unit by unit. -/
def swapBytes (mode : Nat) : Nat → Bytes → Bytes
  | 0, b => b
  | fuel + 1, b =>
    if b.isEmpty then [] else swapOne mode (b.take (swapUnit mode)) ++ swapBytes mode fuel (b.drop (swapUnit mode))

/-- What reading an element finds: data with the host reads left, a failure, or nothing yet. -/
inductive ElemRead where
  | ok (b : Bytes) (rest : List HostRead)
  | err (code : Nat)
  | later
  deriving DecidableEq, Repr

/-- An element of an operand is read. -/
def elemRead (r : Nat) (d : Bytes) (k n : Nat) (host : List HostRead) (s : State) : ElemRead × State :=
  let a := (dAddr d k n).toNat
  match dSpace d k with
  | 0 =>
    (match coreRead a (dLen d) s with
     | (.ok b, s1) => (.ok b host, s1)
     | (.err c, s1) => (.err c, s1))
  | 1 =>
    (match host with
     | [] =>
       (.later, on (hostRead ((hostFnOf s.io (dFn d)).getD 0) a (dLen d)) s)
     | .data b :: rest => (.ok (padTo (dLen d) b) rest, s)
     | .fail c :: _ => (.err c.val, s))
  | _ =>
    (match bufRead r a (dLen d) s with
     | .ok b => (.ok b host, s)
     | .err c => (.err c, s))

/-- An element is written. -/
def elemWrite (r : Nat) (d : Bytes) (n : Nat) (b : Bytes) (s : State) : Option Nat × State :=
  let a := (dAddr d 1 n).toNat
  match dSpace d 1 with
  | 0 => coreWrite a b s
  | 1 => (none, on (hostWrite ((hostFnOf s.io (dFn d)).getD 0) a b) s)
  | _ => bufWrite r a b s

/-- A failure of an element's access. -/
def elemFail (r : Nat) (d : Bytes) (k n code : Nat) (write : Bool) (s : State) : State :=
  busError r (dAddr d k n).toNat (dSpace d k) (if dSpace d k = 1 then dFn d else 0) code write s

/-- A channel has finished one more element. -/
def elemDone (r c n : Nat) (s : State) : State := dmaChPut r c { dmaCh s r c with progress := n + 1 } s

/-- R481: elements from `n` on are copied, while they are allowed and their data is there. -/
def copyElems (r c : Nat) (d : Bytes) : Nat → Nat → List HostRead → State → State
  | 0, _, _, s => s
  | fuel + 1, n, host, s =>
    match elemRead r d 0 n host s with
    | (.later, s1) => s1
    | (.err code, s1) => elemFail r d 0 n code false s1
    | (.ok b rest, s1) =>
      match elemWrite r d n (swapBytes (dSwap d) (dLen d) b) s1 with
      | (some code, s2) => elemFail r d 1 n code true s2
      | (none, s2) => copyElems r c d fuel (n + 1) rest (elemDone r c n s2)

/-- R486: the pattern as it lands at an address. -/
def fillBytes (d : Bytes) (a n : Nat) : Bytes := (span a n).map (fun k => (d[8 + k % 8]?).getD 0)

/-- R486: elements are filled. -/
def fillElems (r c : Nat) (d : Bytes) : Nat → Nat → State → State
  | 0, _, s => s
  | fuel + 1, n, s =>
    match elemWrite r d n (fillBytes d (dAddr d 1 n).toNat (dLen d)) s with
    | (some code, s1) => elemFail r d 1 n code true s1
    | (none, s1) => fillElems r c d fuel (n + 1) (elemDone r c n s1)

/-- Index of the first byte in which two elements differ. -/
def firstDiff (a b : Bytes) : Option Nat := ((a.zip b).zip (List.range a.length)).findSome? (fun x => if x.1.1 = x.1.2 then none else some x.2)

/-- R486: elements are compared; the first difference ends the descriptor. -/
def compareElems (r c : Nat) (d : Bytes) : Nat → Nat → List HostRead → List HostRead → State → State
  | 0, _, _, _, s => s
  | fuel + 1, n, h0, h1, s =>
    match elemRead r d 0 n h0 s with
    | (.later, s1) => s1
    | (.err code, s1) => elemFail r d 0 n code false s1
    | (.ok a r0, s1) =>
      match elemRead r d 1 n h1 s1 with
      | (.later, s2) => s2
      | (.err code, s2) => elemFail r d 1 n code false s2
      | (.ok b r1, s2) =>
        match firstDiff (swapBytes (dSwap d) (dLen d) a) b with
        | some k => dmaChPut r c { dmaCh s2 r c with ending := some (1, n * dLen d + k) } s2
        | none => compareElems r c d fuel (n + 1) r0 r1 (elemDone r c n s2)

/-- After elements have moved: the descriptor has ended, or waits for its next request (R488, R489). -/
def dmaAfter (r c : Nat) (s : State) : State :=
  let x := dmaCh s r c
  match x.desc with
  | none => s
  | some d =>
    if x.state ≠ .running || x.ending.isSome then s
    else if dElems d ≤ x.progress then dmaChPut r c { x with ending := some (0, 0) } s
    else if x.allowed ≤ x.progress then dmaChPut r c { x with state := .waiting } s
    else s

/-- A channel carries out its descriptor as far as its bursts allow. -/
def dmaRun (r c op : Nat) (src dst : List HostRead) (s : State) : State :=
  let x := dmaCh s r c
  match x.desc with
  | none => s
  | some d =>
    if x.state ≠ .running || x.ending.isSome || dOp d ≠ op then s
    else
      let n := x.allowed - x.progress
      dmaAfter r c (match op with
        | 0 => copyElems r c d n x.progress src s
        | 1 => fillElems r c d n x.progress s
        | _ => compareElems r c d n x.progress src dst s)

/-- R489: the write-back of an ended descriptor: status and result, then byte 0x00; the address of a failure. -/
def writeBackDesc (a st res : Nat) (s : State) : Option (Nat × Nat) × State :=
  match coreWrite (a + 0x3A) (le 1 st ++ le 1 0 ++ le 4 res) s with
  | (some code, s1) => (some (a + 0x3A, code), s1)
  | (none, s1) =>
    match coreWrite a (le 1 0x20) s1 with
    | (some code, s2) => (some (a, code), s2)
    | (none, s2) => (none, s2)

/-- R489 step 4: where the channel goes. A refused descriptor leaves it STOPPED with cause 2 (R482, R491). -/
def dmaLeave (d : Bytes) (x : DmaCh) : DmaCh :=
  if x.refusal then { x with state := .stopped, cause := 2, desc := none, ending := none, refusal := false, reading := false }
  else
    let y := { x with index := (x.index + 1) % 2 ^ x.log2n, progress := 0, allowed := 0 }
    if dFlag d 2 && !x.kicked then { y with state := .idle, desc := none, ending := none, reading := false }
    else dmaNext { y with kicked := if dFlag d 2 then false else y.kicked }

/-- R489: an ended descriptor completes. -/
def dmaComplete (r c : Nat) (s : State) : State :=
  let x := dmaCh s r c
  match x.desc, x.ending with
  | some d, some (st, res) =>
    if x.state ≠ .running then s
    else
      match writeBackDesc (dmaDescAddr x) st res s with
      | (some (a, code), s1) => busError r a 0 0 code true s1
      | (none, s1) =>
        let s2 := dmaChPut r c (dmaLeave d (dmaCh s1 r c)) s1
        let s3 := on (bump64 0x0F0001 (r + 1)) s2
        if x.refusal then s3
        else
          let s4 := if dFlag d 0 then evAdd (4 * r + bits (field d 6 2) 11 10) (bits (field d 6 2) 9 0) 1 s3 else s3
          if dFlag d 1 then dmaPulse r (16 + c) s4 else s4
  | _, _ => s

/-! ### Channel control (R478, R491, R493) -/

/-- REFUSED is set. -/
def dmaRefuse (r c : Nat) (s : State) : State := dmaChPut r c { dmaCh s r c with refused := true } s

/-- CH_KICK. -/
def dmaKick (r c : Nat) (s : State) : State :=
  let x := dmaCh s r c
  match x.state with
  | .idle => dmaChPut r c (dmaNext x) s
  | .running => dmaChPut r c { x with kicked := true } s
  | .waiting => dmaChPut r c { x with kicked := true } s
  | _ => s

/-- Op 1. -/
def dmaStopOp (r c : Nat) (s : State) : State :=
  let x := dmaCh s r c
  if x.state = .running ∨ x.state = .waiting then dmaChPut r c { x with state := .stopped, cause := 3, reading := false } s
  else dmaRefuse r c s

/-- Whether RESUME, RESTART or SKIP is refused. -/
def dmaHeld (s : State) (r c : Nat) : Bool := (dmaCh s r c).state != .stopped || (dmaAt s r).busError

/-- Op 3. -/
def dmaRestartOp (r c : Nat) (s : State) : State :=
  if dmaHeld s r c then dmaRefuse r c s
  else dmaChPut r c (dmaNext { dmaCh s r c with cause := 0, progress := 0, allowed := 0 }) s

/-- Op 2. -/
def dmaResumeOp (r c : Nat) (s : State) : State :=
  let x := dmaCh s r c
  if dmaHeld s r c then dmaRefuse r c s
  else if x.cause = 2 then dmaRestartOp r c s
  else
    match x.desc with
    | none => dmaChPut r c (dmaNext { x with cause := 0 }) s
    | some _ =>
      dmaAfter r c (dmaChPut r c { x with cause := 0, state := .running } s)

/-- Op 4. -/
def dmaSkipOp (r c : Nat) (s : State) : State :=
  let x := dmaCh s r c
  if dmaHeld s r c then dmaRefuse r c s
  else
    let a := dmaDescAddr x
    match coreRead a 64 s with
    | (.err code, s1) => busError r a 0 0 code false s1
    | (.ok d, s1) =>
      if (field d 0 1).testBit 0 then
        dmaChPut r c { x with state := .running, cause := 0, desc := some d, ending := some (0x20, 0), refusal := false } s1
      else
        dmaChPut r c (dmaNext { x with cause := 0, index := (x.index + 1) % 2 ^ x.log2n, progress := 0, allowed := 0 }) s1

/-- DMA_CH_CTRL. -/
def dmaCtrl (r c op : Nat) (s : State) : State :=
  match op with
  | 1 => dmaStopOp r c s
  | 2 => dmaResumeOp r c s
  | 3 => dmaRestartOp r c s
  | 4 => dmaSkipOp r c s
  | _ => s

/-- DMA_CH_CFG. -/
def dmaCfg (r c v : Nat) (s : State) : State :=
  let x := dmaCh s r c
  let en := v.testBit 31
  let w := bits v 19 16
  let n := bits v 3 0
  if w = 0 || 12 < n || (x.enable && n ≠ x.log2n) then s
  else if x.enable && !en then
    if x.state = .running ∨ x.state = .waiting then s
    else dmaChPut r c { DmaCh.reset with base := x.base, weight := w, log2n := n, refused := x.refused } s
  else if !x.enable && en then
    dmaChPut r c { DmaCh.reset with base := x.base, enable := true, weight := w, log2n := n, state := .idle,
                                    refused := x.refused } s
  else dmaChPut r c { x with weight := w, log2n := n } s

/-- DMA_ENG_STATUS: bits written 1 clear, BUS_ERROR only once drained. -/
def dmaStatusWrite (r v : Nat) (s : State) : State :=
  let e := dmaAt s r
  dmaPut r { e with multiple := e.multiple && !v.testBit 2, busError := e.busError && !(v.testBit 0 && e.drained) } s

/-- DMA_REQ_SW: one pulse per bit. -/
def dmaSw (r v : Nat) (s : State) : State := (bitsOf 16 v).foldl (fun s l => dmaPulse r l s) s

/-- DMA_REQ_PENDING of a line. -/
def dmaPendWrite (r l v : Nat) (s : State) : State :=
  let e := dmaAt s r
  let x := mgetD e.lines l DmaLine.reset
  dmaPut r { e with lines := mput e.lines l { count := if v.testBit 30 then 0 else x.count, overflow := x.overflow && !v.testBit 31 } } s

/-! ### Registers (R493) -/

/-- DMA_CH_STATUS. -/
def dmaStatusBits (x : DmaCh) : Nat := b2n x.refused * 2 ^ 31 + x.state.ctorIdx * 2 ^ 28 + x.cause * 2 ^ 24 + x.index

/-- A register of the engine and its width in bytes; none at a reserved offset. -/
def dmaReg (s : State) (r off : Nat) : Option (Nat × Nat) :=
  let e := dmaAt s r
  if off < 0x800 then
    (let x := dmaCh s r (off / 0x40)
     match off % 0x40 / 4 with
     | 0 => some (8, x.base.toNat)
     | 1 => some (8, x.base.toNat)
     | 2 => some (4, b2n x.enable * 2 ^ 31 + x.weight * 2 ^ 16 + x.log2n)
     | 3 => some (4, 0)
     | 4 => some (4, 0)
     | 5 => some (4, dmaStatusBits x)
     | 6 => some (4, x.progress % 2 ^ 32)
     | _ => none)
  else if 0x1000 ≤ off ∧ off < 0x1004 then some (4, b2n e.busError + 2 * b2n e.drained + 4 * b2n e.multiple)
  else if 0x1008 ≤ off ∧ off < 0x1010 then some (8, e.errAddr)
  else if 0x1010 ≤ off ∧ off < 0x1014 then some (4, e.errInfo)
  else if 0x1014 ≤ off ∧ off < 0x1018 then some (4, 0)
  else if 0x1100 ≤ off ∧ off < 0x1200 then
    (let x := mgetD e.lines ((off - 0x1100) / 4) DmaLine.reset
     some (4, b2n x.overflow * 2 ^ 31 + x.count))
  else if 0x1200 ≤ off ∧ off < 0x1210 then some (4, mgetD e.timers ((off - 0x1200) / 4) 0)
  else if 0x1240 ≤ off ∧ off < 0x1260 then some (4, mgetD e.watches ((off - 0x1240) / 4) 0)
  else none

/-- A write of a register of the engine. -/
def dmaRegWrite (r off v : Nat) (s : State) : State :=
  let e := dmaAt s r
  if off < 0x800 then
    (let c := off / 0x40
     let x := dmaCh s r c
     match off % 0x40 / 4 with
     | 0 =>
       if x.enable && decide (x.base.toNat ≠ v % 2 ^ 48 / 64 * 64) then s
       else dmaChPut r c { x with base := BitVec.ofNat 64 (v % 2 ^ 48 / 64 * 64) } s
     | 2 => dmaCfg r c v s
     | 3 => dmaKick r c s
     | 4 => dmaCtrl r c (v % 8) s
     | 5 => dmaChPut r c { x with refused := x.refused && !v.testBit 31 } s
     | _ => s)
  else if 0x1000 ≤ off ∧ off < 0x1004 then dmaStatusWrite r v s
  else if 0x1014 ≤ off ∧ off < 0x1018 then dmaSw r (v % 65536) s
  else if 0x1100 ≤ off ∧ off < 0x1200 then dmaPendWrite r ((off - 0x1100) / 4) v s
  else if 0x1200 ≤ off ∧ off < 0x1210 then
    if 1 ≤ v % 2 ^ 32 ∧ v % 2 ^ 32 ≤ 999 then s
    else dmaPut r { e with timers := mput e.timers ((off - 0x1200) / 4) (v % 2 ^ 32) } s
  else if 0x1240 ≤ off ∧ off < 0x1260 then
    dmaPut r { e with watches := mput e.watches ((off - 0x1240) / 4) (b2n (v.testBit 31) * 2 ^ 31 + v % 4096) } s
  else s

end Sys2Proof.Machine
end

