-- ==== Sys2Proof/Machine/PktOps.lean ====
section
/-!
DEFINITION. Packets in the hands of threads (R227, R233, R234, R445, R446).
Choices of the model coded here, by entry of the assumption log: DESIGN CHOICE 72; DEDUCED 70.
-/
namespace Sys2Proof.Machine

/-- What of the machine a packet meets, and the rest as it was. -/
def wireOf (s : State) : Wire := { io := s.io, net := s.net, pipe := s.pipe, tabs := s.tabs, burin := s.burin }
def withWire (w : Wire) (s : State) : State := { s with io := w.io, net := w.net, pipe := w.pipe, tabs := w.tabs, burin := w.burin }

/-- R227: the stamp of a packet. -/
def stampBytes (k : Pkt) : Bytes :=
  le 4 k.src ++ le 2 k.seq ++ le 1 (k.slot % 4 + 4 * b2n k.direct) ++ le 1 k.prio ++ le 2 k.ingress ++ le 2 k.frame.length ++
    le 4 k.handle ++ le 8 k.time ++ le 4 k.mark ++ le 2 k.dest ++ le 2 0

/-- R445: frame bytes an area takes. -/
def headBytes (k : Pkt) : Nat := min k.frame.length 256

/-- R445: the oldest packet punted to thread `t` goes to the area at a canonical address; the value for rd, or none where no
packet is queued. -/
def pktTake (t area : Nat) (s : State) : Option Nat × State :=
  match mgetD s.net.punts t [] with
  | [] => (none, s)
  | k :: r =>
    let n := { s.net with punts := if r.isEmpty then mdel s.net.punts t else mput s.net.punts t r, got := mput s.net.got k.handle (t, k) }
    (some (headBytes k), sramWrite area (stampBytes k ++ k.frame.take (headBytes k)) { s with net := n })

/-- Threads waiting in PKT.GET for which a packet has come go on. -/
def getWake (s : State) : State :=
  (s.net.punts.map (·.1)).foldl (fun s t =>
    match (threadAt s t).wait with
    | some { on_ := .packet area, .. } =>
      (match pktTake t area s with
       | (some d, s1) => waitDone t (BitVec.ofNat 64 d) s1
       | (none, s1) => s1)
    | _ => s) s

/-- R446: the statuses that need no room, in their order 1, 4, 2, 3; 0 where the put goes on. `a` holds the 288 bytes of
the area. -/
def putStatus (s : State) (t : Nat) (a : Bytes) (ctl : Nat) : Nat :=
  match mget s.net.got (field a 0x0C 4) with
  | none => 1
  | some (o, k) =>
    let h := bits ctl 8 0
    let len := h + k.frame.length - headBytes k
    let dir := (field a 6 1).testBit 2
    if o ≠ t then 1
    else if 1024 ≤ ctl || 256 < h || field a 3 1 ≠ 0 || 8 ≤ field a 6 1 || 8 ≤ field a 7 1 || field a 0x1E 2 ≠ 0 then 4
    else if ctl.testBit 9 then 0
    else if len < 14 || 9600 < len then 2
    else if !vportExists s.net (field a 8 2) || (dir && !vportExists s.net (field a 0x1C 2)) then 3 else 0

/-- R241: whether re-injection is back-pressured. -/
def putBlocked (s : State) : Bool := decide (Config.reinjectRoom ≤ ((s.net.threadQ.map (fun p => p.2.length)).sum))

/-- R446: a put with status 0: the buffer is freed, or its frame re-injected. -/
def putGo (t : Nat) (a : Bytes) (ctl : Nat) (s : State) : State :=
  let h := field a 0x0C 4
  match mget s.net.got h with
  | none => s
  | some (_, k) =>
    let n := { s.net with got := mdel s.net.got h }
    if ctl.testBit 9 then withWire (dropPkt k (wireOf { s with net := n })) s
    else
      let k1 : Pkt := { newPkt (0x200000 + t) (field a 7 1) (field a 8 2) k.time (slice a 32 (bits ctl 8 0) ++ k.frame.drop (headBytes k)) k.tx k.handle with
        direct := (field a 6 1).testBit 2, dest := field a 0x1C 2 }
      { s with net := { n with threadQ := mput n.threadQ t (mgetD n.threadQ t [] ++ [k1]) } }

/-- The 288 bytes of an area. -/
def areaBytes (s : State) (area : Nat) : Bytes := memGets 0 s.mem.sram area 288

/-- PKT.PUT with the area at a canonical address: the status, or none where it waits. -/
def pktPut (t area ctl : Nat) (s : State) : Option Nat × State :=
  let a := areaBytes s area
  let st := putStatus s t a ctl
  if st ≠ 0 then (some st, s)
  else if !ctl.testBit 9 && putBlocked s then (none, s)
  else (some 0, putGo t a ctl s)

/-- Threads waiting in PKT.PUT go on, longest wait first, while there is room. -/
def putWake (s : State) : State :=
  let ws := sortBy (fun a b => decide (a.1 ≤ b.1)) (s.cpu.threads.filterMap (fun p => match p.2.wait with
    | some { on_ := .put area ctl, since := z, .. } => some (z, p.1, area, ctl)
    | _ => none))
  ws.foldl (fun s w =>
    match pktPut w.2.1 w.2.2.1 w.2.2.2 s with
    | (some st, s1) => waitDone w.2.1 (BitVec.ofNat 64 st) s1
    | (none, s1) => s1) s

end Sys2Proof.Machine
end

