-- ==== Sys2Proof/Machine/Pipeline.lean ====
section
/-!
DEFINITION. A packet in a region's pipeline: the walk (R255 to R259), pinned rules and the Sheepdog rules (R61, R273), the
action engine (R260 to R264), bridge and connection lookups with learning (R284 to R291), and the deep lane (R259, R287).
Choices of the model coded here, by entry of the assumption log: DESIGN CHOICE 54; DEDUCED 43, 47.
-/
namespace Sys2Proof.Machine

/-! ### The walk (R250, R255 to R257) -/

/-- Where a walk ends. -/
inductive Walk where
  | miss
  | deep
  | leaf (v : Nat)
  deriving DecidableEq, Repr

/-- The walk from a pointer; it leaves the walker at a DEEP pointer unless the deep lane walks. -/
def walkFrom (p : Pipe) (key : Bytes) (lane : Bool) : Nat → Nat → Nat → Walk
  | 0, _, _ => .miss
  | fuel + 1, level, v =>
    match bits v 63 62 with
    | 1 =>
      if v.testBit 61 && !lane then .deep
      else
        walkFrom p key lane fuel (level + 1)
          (field (nodeAt p (v.testBit 61) level (bits v 19 0)) (8 * keyBits key (bits v 40 32) (bits v 49 48)) 8)
    | 2 => if v.testBit 61 && !lane then .deep else .leaf v
    | _ => .miss

/-- R250: the root index of a key. -/
def rootIndex (key : Bytes) : Nat := halfword key 1 / 4096 % 4 * 4 + halfword key 1 / 256 % 4

/-- The walk of a plate. -/
def walk (p : Pipe) (slot : Nat) (key : Bytes) (lane : Bool) : Walk :=
  walkFrom p key lane 17 0 (field (headerAt p slot) (0x10 + 8 * rootIndex key) 8)

/-- R257: a match word. -/
def wordMatches (key w : Bytes) : Bool := (halfword key (field w 0 1 % 32) &&& field w 3 2) == field w 1 2

/-- Words of an entry at position `pos` of its rule. -/
def entryWords (pos : Nat) (e : Bytes) : List Bytes :=
  (List.range (field e 1 1)).map (fun i => slice e ((if pos = 0 then 7 else 2) + 5 * i) 5)

/-- R257: every word of every entry matches. -/
def ruleMatches (key : Bytes) (es : List Bytes) : Bool :=
  (es.mapIdx (fun i e => (entryWords i e).all (wordMatches key))).all id

/-- The winner among the rules of a leaf: highest PRIORITY, then lowest index. -/
def leafWinner (p : Pipe) (v : Nat) (key : Bytes) : Option Nat :=
  let n := bits v 34 32 + 1
  let rs := (blockRules 9 0 ((span (bits v 19 0) n).map (ruleAt p (v.testBit 61)))).1.filter (fun r => ruleMatches key r.2)
  let prio (r : Nat × List Bytes) : Nat := field ((r.2[0]?).getD []) 2 2
  (rs.foldl (fun b r => match b with
    | none => some r
    | some x => if prio x < prio r then some r else some x) none).map (fun r => field ((r.2[0]?).getD []) 4 3)

/-! ### Pinned rules (R273) -/

/-- Whether a pinned body's rule matches. -/
def pinMatches (key b : Bytes) : Bool :=
  ruleMatches key (if field b 0 1 % 4 = 0 then [slice b 0 32] else [slice b 0 32, slice b 32 32])

/-- The lowest-numbered VALID pinned slot of a pipeline that matches, and its inline action. -/
def pinHit (p : Pipe) (r : Nat) (key : Bytes) : Option (Nat × Bytes) :=
  ((List.range 64).find? (fun s => (pinAt p r s).valid && pinMatches key (pinAt p r s).body)).map
    (fun s => (s, slice (pinAt p r s).body 64 32))

/-! ### Results -/

/-- A packet's result crosses to the Fold: copies, or a skip token. -/
def giveResult (k : Pkt) (outs : List Out) (w : Wire) : Wire :=
  let q := pipeQ w.net k.region
  w.onNet (pipeQPut k.region { q with outbox := q.outbox ++ [{ src := k.src, seq := k.seq, outs := outs }] })

/-- A packet is dropped with a skip token; copies already taken go on. -/
def giveDrop (k : Pkt) (outs : List Out) (w : Wire) : Wire := giveResult k outs (dropPkt k w)

/-! ### Meters and counters (R263) -/

/-- Regions eligible at the Drover by mask and withdrawal. -/
def regionsOpen (io : Io) (c : Cont) : Nat := ((List.range 4).filter (regionOpen io c)).length

/-- A meter's configuration: CIR, PIR, CBS, PBS. -/
def meterCfg (io : Io) (m : Nat) : Bytes := dgetB io (idx (0x080800 + m) 0)

/-- R263: a packet of `n` bytes meets meter `m` in region `r`: whether it is red, and the classifier after it. -/
def meter (c : Cont) (r m n : Nat) (w : Wire) : Bool × Wire :=
  let cfg := meterCfg w.io m
  let unit := 96000000
  if field cfg 0 4 = 0 then (false, w)
  else
    let e := max 1 (regionsOpen w.io c)
    let cmax := field cfg 8 4 * unit
    let pmax := field cfg 12 4 * unit
    let b := mgetD w.pipe.buckets (r * 2048 + m) { c := cmax, p := pmax, last := w.io.now }
    let dt := w.io.now - b.last
    let tc := min cmax (b.c + dt * (field cfg 0 4 * 12 / e))
    let tp := min pmax (b.p + dt * (field cfg 4 4 * 12 / e))
    let need := n * unit
    let b' : Bucket :=
      if tp < need then { c := tc, p := tp, last := w.io.now }
      else if tc < need then { c := tc, p := tp - need, last := w.io.now }
      else { c := tc - need, p := tp - need, last := w.io.now }
    (decide (tp < need), { w with pipe := { w.pipe with buckets := mput w.pipe.buckets (r * 2048 + m) b' } })

/-- R263: counter `i` of a region counts a packet. -/
def countPkt (r i n : Nat) (w : Wire) : Wire :=
  let x := mgetD w.pipe.counters (r * 8192 + i) (0, 0)
  { w with pipe := { w.pipe with counters := mput w.pipe.counters (r * 8192 + i) ((x.1 + 1) % 2 ^ 64, (x.2 + n) % 2 ^ 64) } }

/-! ### Frame changes (R260, R264) -/

/-- Decapsulation: everything before the inner Ethernet header goes. -/
def decap (p : Parsed) (f : Bytes) : Bytes := if p.inner.present then f.drop p.inner.ethOff else f

/-- The VLAN operation. -/
def vlanOp (op tci : Nat) (f : Bytes) : Bytes :=
  match op with
  | 1 => pushTag f 0x8100 tci
  | 2 => if tagged f then slice f 0 12 ++ f.drop 16 else f
  | 3 => if tagged f then splice f 14 (be 2 tci) else f
  | _ => f

/-- Offset of the network header behind up to two tags. -/
def l3Offset (f : Bytes) : Nat :=
  let tag (o : Nat) : Bool := fb f o 2 == 0x8100 || fb f o 2 == 0x88A8
  if tag 12 then (if tag 16 then 22 else 18) else 14

/-- R264: encapsulation with a template. -/
def encap (t : Bytes) (hash : Nat) (f : Bytes) : Bytes :=
  let n := min 112 (field t 112 1)
  let g := slice t 0 n ++ f
  let o := l3Offset g
  let kind := field t 113 1
  let v4 := kind == 1 || kind == 3
  let u := if v4 then o + fb g o 1 % 16 * 4 else o + 40
  let g1 := splice (splice (splice g u (be 2 (49152 + hash % 16384))) (u + 4) (be 2 (g.length - u))) (u + 6) (be 2 0)
  if v4 then
    let g2 := splice (splice g1 (o + 2) (be 2 (g.length - o))) (o + 10) (be 2 0)
    splice g2 (o + 10) (be 2 (checksumOf (ip4Header g2 o)))
  else splice g1 (o + 4) (be 2 (g.length - o - 40))

/-! ### Bridge lookups and learning (R284, R285, R291) -/

/-- Whether a MAC is a group address. -/
def isGroup (mac : Bytes) : Bool := (field mac 0 1).testBit 0

/-- The bridge domain of a frame. -/
def bridgeDomain (f : Bytes) : Nat := if tagged f then fb f 14 2 % 4096 else 0

/-- A hit sets HIT in the region's replica. -/
def setHit (r i : Nat) (e : BrEntry) (w : Wire) : Wire :=
  { w with tabs := { w.tabs with br := mput w.tabs.br i { e with hit := sadd e.hit r } } }

/-- R285: the destination lookup: a destination, or the element of 09:0003 a drop counts in. -/
def bridgeDest (r : Nat) (mac : Bytes) (bd ingress target : Nat) (w : Wire) : (Nat ⊕ Nat) × Wire :=
  if isGroup mac then (.inl target, w)
  else
    match brFind w.tabs mac bd with
    | none => (.inl target, w)
    | some (i, e) =>
      let w1 := setHit r i e w
      if e.static && e.dest == 0xFFFF then (.inr 7, w1)
      else if e.dest = ingress then (.inr 6, w1)
      else (.inl e.dest, w1)

/-- R291: the source lookup and what it learns; true where the packet is excess and dropped. -/
def bridgeLearn (d : Dom) (r : Nat) (mac : Bytes) (bd : Nat) (k : Pkt) (w : Wire) : Bool × Wire :=
  let found := if isGroup mac then none else brFind w.tabs mac bd
  let w1 := match found with
    | some (i, e) => setHit r i e w
    | none => w
  match learnPort k.ingress with
  | none => (false, w1)
  | some l =>
    let cfg := learnCfg w.io l
    let ev (isNew : Bool) : LearnEv :=
      { mac := mac, bd := bd, dest := k.ingress, owner := d.id, time := k.time, remote := false, withdraw := false, isNew := isNew, region := r }
    if cfg.2 = 0 then (false, w1)
    else if isGroup mac then (false, w1.on (bump64 0x090003 8))
    else
      match found with
      | some (_, e) =>
        if e.dest = k.ingress then (false, w1)
        else if e.static then (false, w1.on (bump64 0x090003 5))
        else (false, learnRaise (ev false) w1)
      | none =>
        if learned w1.tabs k.ingress < cfg.1 then (false, learnRaise (ev true) w1)
        else if cfg.2 = 1 then (true, learnStat k.ingress 1 (w1.on (bump64 0x090003 9)))
        else (false, learnStat k.ingress 1 w1)

/-- The BRIDGE verdict on the frame as it stood after step 6. -/
def bridge (d : Dom) (r : Nat) (six : Bytes) (act : Bytes) (k : Pkt) (w : Wire) : Option Nat × Wire :=
  let bd := bridgeDomain six
  let x := bridgeDest r (slice six 0 6) bd k.ingress (field act 2 2) w
  let y := bridgeLearn d r (slice six 6 6) bd k x.2
  match x.1 with
  | .inr n => (none, y.2.on (bump64 0x090003 n))
  | .inl v => (if y.1 then none else some v, y.2)

/-! ### The action engine (R261, R262) -/

/-- What the pipeline knows of a packet beside its stamp. -/
structure Ctx where
  key    : Bytes
  parsed : Parsed
  hash   : Nat
  deriving DecidableEq, Repr

/-- Flag `n` of an action. -/
def actFlag (a : Bytes) (n : Nat) : Bool := (field a 1 1).testBit n

/-- A copy of a packet. -/
def outOf (dest : Dest) (k : Pkt) (rxq hash mark : Nat) : Out := { dest := dest, pkt := k, rxq := rxq, hash := hash, mark := mark }

/-- R338: the home region of a QPN. -/
def homeRegion (qpn : Nat) : Nat :=
  let h := qpn ^^^ (qpn / 2 ^ 8) ^^^ (qpn / 2 ^ 16)
  (h ^^^ (h / 4) ^^^ (h / 16) ^^^ (h / 64)) % 4

/-- BTH destination QPN of a RoCEv2 frame. -/
def bthQpn (f : Bytes) : Nat := fb f ((parse [] f).outer.l4Off + 13) 3

/-- Steps 1 to 3: none where the packet is red; otherwise the mirror copies taken. -/
def stepsOneToThree (c : Cont) (x : Ctx) (act : Bytes) (k : Pkt) (w : Wire) : Option (List Out) × Wire :=
  let m := if actFlag act 2 then meter c k.region (field act 0x0E 2) k.frame.length w else (false, w)
  if m.1 then (none, m.2.on (bump64 0x080016 1))
  else
    let mark := if actFlag act 6 then field act 8 4 else 0
    let outs := if actFlag act 0 then [outOf (.vport (field act 4 2)) k 0xFFFF x.hash mark] else []
    (some outs, if actFlag act 1 then countPkt k.region (field act 0x0C 2) k.frame.length m.2 else m.2)

/-- Steps 6 to 9, from the frame after step 5. -/
def stepsSixToNine (c : Cont) (d : Dom) (x : Ctx) (act : Bytes) (outs : List Out) (k : Pkt) (w : Wire) : Wire :=
  let six := vlanOp (field act 0x17 1) (field act 0x18 2) k.frame
  let seven := match actionTemplate act with
    | some t => encap (templateAt w.pipe t) x.hash six
    | none => six
  let mark := if actFlag act 6 then field act 8 4 else 0
  let k' := { k with
    frame := seven, prio := if actFlag act 5 then field act 0x16 1 % 8 else k.prio, mark := if actFlag act 6 then field act 8 4 else k.mark }
  match field act 0 1 with
  | 1 => giveResult k (outs ++ [outOf (.vport (field act 2 2)) k' (field act 6 2) x.hash mark]) w
  | 2 =>
    match bridge d k.region six act k' w with
    | (none, w1) => giveDrop k outs w1
    | (some v, w1) => giveResult k (outs ++ [outOf (.vport v) k' (field act 6 2) x.hash mark]) w1
  | 4 => giveResult k outs (punt c (field act 2 2 % 1024) k' w)
  | 5 =>
    if !x.parsed.roce then giveDrop k outs (w.on (bump64 0x080016 2))
    else giveResult k (outs ++ [outOf (.rdma (homeRegion (bthQpn k'.frame))) k' 0xFFFF x.hash mark]) w
  | _ => giveDrop k outs w

/-- Steps 4 and 5, then the rest; a packet that finds no mask randomness waits (R322). -/
def stepsFourOn (c : Cont) (d : Dom) (x : Ctx) (act : Bytes) (outs : List Out) (k : Pkt) (w : Wire) : Wire :=
  let four := if actFlag act 4 && (field act 0x14 2).testBit 15 then decap x.parsed k.frame else k.frame
  let k4 := { k with frame := four }
  if !actFlag act 3 then stepsSixToNine c d x act outs k4 w
  else if w.burin.rng = 2 then
    { w with burin := { w.burin with starved := w.burin.starved ++ [{ pkt := k4, first := k.frame, act := act, outs := outs, at_ := w.io.now }] } }
  else
    match inlineBurin k.region (field act 0x10 4) k4 w with
    | (none, w1) => giveDrop k outs w1
    | (some f, w1) => stepsSixToNine c d x act outs { k4 with frame := f } w1

/-- An action in full. -/
def applyAction (c : Cont) (d : Dom) (x : Ctx) (act : Bytes) (outs : List Out) (k : Pkt) (w : Wire) : Wire :=
  match stepsOneToThree c x act k w with
  | (none, w1) => giveDrop k outs w1
  | (some more, w1) => stepsFourOn c d x act (outs ++ more) k w1

/-! ### Connection lookups (R286 to R288) -/

/-- Whether a region's cache holds a bucket. -/
def cached (t : Tabs) (r b : Nat) : Bool := (mgetD t.cache r []).contains b

/-- A bucket becomes the most recently used of its set of 8. -/
def cacheUse (r b : Nat) (w : Wire) : Wire :=
  let l := (mgetD w.tabs.cache r []).filter (· != b)
  let mates := (l.filter (fun x => x % 8192 == b % 8192)).take 7
  let l' := b :: l.filter (fun x => x % 8192 != b % 8192 || mates.contains x)
  { w with tabs := { w.tabs with cache := mput w.tabs.cache r l' } }

/-- R286: the further action of a CONNECTION action, after its lookup. -/
def further (c : Cont) (d : Dom) (x : Ctx) (act : Bytes) (outs : List Out) (k : Pkt) (hit : Option Nat) (w : Wire) : Wire :=
  let i := match hit with
    | some e => field (connAt w.tabs e) 0x2A 3
    | none => field act 0x10 3
  let next := actionAt w.pipe i
  if field next 0 1 = 3 then giveDrop k outs (w.on (bump64 0x090016 (k.region + 1)))
  else applyAction c d x next outs k w

/-- A lookup that read both buckets: a miss is counted. -/
def connLookup (c : Cont) (d : Dom) (x : Ctx) (act : Bytes) (outs : List Out) (k : Pkt) (w : Wire) : Wire :=
  let key := connKey x.key (field act 2 2)
  let hit := connFind w.tabs key
  let b := connBuckets key
  let w1 := cacheUse k.region b.2 (cacheUse k.region b.1 w)
  further c d x act outs k hit (if hit.isNone then w1.on (bump64 0x090015 (k.region + 1)) else w1)

/-- A packet enters the deep lane; none where the lane is full, so that the walker holds it (R259). -/
def toDeep (k : Pkt) (conn : Bool) (act : Bytes) (outs : List Out) (w : Wire) : Option Wire :=
  let q := pipeQ w.net k.region
  if 256 ≤ q.deep.length then none
  else
    some (w.onNet (pipeQPut k.region { q with
      deep := q.deep ++ [{ pkt := k, epoch := w.tabs.epoch.toNat, conn := conn, act := act, outs := outs }] }))

/-- The action a packet has been given: none where it must wait for room in the deep lane. -/
def runAction (c : Cont) (d : Dom) (x : Ctx) (act : Bytes) (k : Pkt) (w : Wire) : Option Wire :=
  if field act 0 1 ≠ 3 then some (applyAction c d x act [] k w)
  else
    match stepsOneToThree c x act k w with
    | (none, w1) => some (giveDrop k [] w1)
    | (some outs, w1) =>
      if !keyIsIp x.key then some (further c d x act outs k none w1)
      else
        let b := connBuckets (connKey x.key (field act 2 2))
        if cached w1.tabs k.region b.1 && cached w1.tabs k.region b.2 then some (connLookup c d x act outs k w1)
        else toDeep k true act outs (w1.on (bump64 0x090014 (k.region + 1)))

/-! ### A packet (R61, R245, R259, R273, R276) -/

/-- Parse and key of a packet under the plate it is stamped with. -/
def contextOf (p : Pipe) (k : Pkt) : Ctx :=
  let defs := if (mget p.headers k.slot).isSome then customsOf p k.slot else []
  let mode := if (mget p.headers k.slot).isSome then field (headerAt p k.slot) 4 1 else 0
  let q := parse defs k.frame
  let key := keyOf mode defs k.ingress k.frame q
  { key := key, parsed := q, hash := flowHash key }

/-- Whether a packet was stamped while slot 0 was SHEEPDOG. -/
def underSheepdog (p : Pipe) (k : Pkt) : Bool := (mget p.headers k.slot).isNone

/-- R61: whether a pinned action delivers to the Sheepdog receive ring. -/
def pinDelivers (a : Bytes) : Bool :=
  field a 0 1 == 1 && field a 2 2 == 0x100 && (field a 6 2 == 0 || field a 6 2 == 0xFFFF) && (field a 1 1 &&& (255 - 0x42)) == 0

/-- The broadcast address. -/
def broadcast : Bytes := List.replicate 6 0xFF

/-- A pinned hit is counted. -/
def pinCount (s : Nat) (w : Wire) : Wire := w.on (bump64 0x080032 (s + 1))

/-- R61: the Sheepdog rules. -/
def sheepdogPacket (x : Ctx) (k : Pkt) (w : Wire) : Wire :=
  match pinHit w.pipe k.region x.key with
  | some (s, a) =>
    let w1 := pinCount s w
    if pinDelivers a then
      let w2 := if actFlag a 1 then countPkt k.region (field a 0x0C 2) k.frame.length w1 else w1
      let mark := if actFlag a 6 then field a 8 4 else 0
      giveResult k [outOf .sheepdog k 0xFFFF x.hash mark] w2
    else giveDrop k [] w1
  | none =>
    let fromRing := 0x100000 ≤ k.src && k.src < 0x200000 &&
      (match ringOf w.io (k.src % 2 ^ 20) with | some r => r.sheepdog | none => false)
    if k.src = 0 && (decide (slice k.frame 0 6 = baseMac) || decide (slice k.frame 0 6 = broadcast)) then
      giveResult k [outOf .sheepdog k 0xFFFF x.hash 0] w
    else if fromRing && decide (slice k.frame 6 6 = baseMac) then giveResult k [outOf (.vport 0) k 0xFFFF x.hash 0] w
    else giveDrop k [] (w.on (bump64 0x020020 0))

/-- R296, R539: a frame of a network port that belongs to the learn arbiter or the membership unit. -/
def diverted (io : Io) (k : Pkt) : Option Dest :=
  let et := fb k.frame 12 2
  let dst := slice k.frame 0 6
  let group := let b := dgetB io (idx 0x110008 0); if b.isEmpty then [0x03, 0x00, 0x4B, 0x57, 0x00, 0x02] else b
  if 8 ≤ k.src then none
  else if (dget io (idx 0x090031 0) 255).testBit k.src && et == dget io (idx 0x090030 0) 0x88B5 && decide (dst = learnGroup io) then
    some .learn
  else if (dget io (idx 0x110006 0) 255).testBit k.src && et == dget io (idx 0x110007 0) 0x88B6 &&
      (decide (dst = group) || decide (dst = baseMac)) then some .steward
  else none

/-- The classified packet: its plate's action by the walk, or the deep lane. -/
def classify (c : Cont) (d : Dom) (x : Ctx) (k : Pkt) (lane : Bool) (w : Wire) : Option Wire :=
  let miss (w : Wire) : Option Wire :=
    runAction c d x (actionAt w.pipe (field (headerAt w.pipe k.slot) 6 3)) k (w.on (bump64 0x080012 (k.region + 1)))
  match walk w.pipe k.slot x.key lane with
  | .deep => toDeep k false [] [] (w.on (bump64 0x080013 (k.region + 1)))
  | .miss => miss w
  | .leaf v =>
    match leafWinner w.pipe v x.key with
    | none => miss w
    | some a => runAction c d x (actionAt w.pipe a) k w

/-- R276, R514: a classifier store read met an uncorrectable error. -/
def classifierUe (k : Pkt) (w : Wire) : Wire :=
  giveDrop k [] (w.on (fun io => contRecord 3 1 k.region 1 0 0 0 (bump64 0x100051 4 (bump64 0x080016 3 io))))

/-- One packet of a pipeline: none where the walker must hold it. -/
def packet (c : Cont) (d : Dom) (ue : Bool) (k : Pkt) (w : Wire) : Option Wire :=
  let x := contextOf w.pipe k
  let w1 := if x.parsed.err then w.on (bump64 0x080015 (k.region + 1)) else w
  if ue then some (classifierUe k w1)
  else if underSheepdog w.pipe k then some (sheepdogPacket x k w1)
  else if k.direct then some (giveResult k [outOf (.vport k.dest) k 0xFFFF x.hash 0] w1)
  else
    match pinHit w1.pipe k.region x.key with
    | some (s, a) => runAction c d x a k (pinCount s w1)
    | none =>
      match diverted w1.io k with
      | some dest => some (giveResult k [outOf dest k 0xFFFF x.hash 0] w1)
      | none => classify c d x k false w1

/-- The next packet dealt to a pipeline. -/
def pipelinePacket (c : Cont) (d : Dom) (r : Nat) (ue : Bool) (w : Wire) : Wire :=
  let q := pipeQ w.net r
  match q.queue with
  | [] => w
  | k :: ks => (packet c d ue k (w.onNet (pipeQPut r { q with queue := ks }))).getD w

/-- PIPELINE_PACKET (R30, R61, R233, R245 to R264, R273, R276, R284 to R291, R328, R453, R514, R559, R621). -/
def execPipelinePacket (r : RegionNo) (ue : Bool) (s : State) : Host.Outcome State Fault Refusal :=
  .next (getWake (onWire (pipelinePacket s.cont s.dom r.val ue) s))

/-- R259, R287, R288: the deep lane finishes a packet: its walk, or its connection lookup. -/
def deepResult (c : Cont) (d : Dom) (r n : Nat) (poison : Bool) (w : Wire) : Wire :=
  let q := pipeQ w.net r
  match q.deep[n]? with
  | none => w
  | some e =>
    let w1 := w.onNet (pipeQPut r { q with deep := q.deep.eraseIdx n })
    let x := contextOf w.pipe e.pkt
    if poison then giveDrop e.pkt e.outs (w1.on (bump64 0x080016 3))
    else if !e.conn then (classify c d x e.pkt true w1).getD w
    else
      let miss := (connFind w.tabs (connKey x.key (field e.act 2 2))).isNone
      let retried := miss && e.epoch != w.tabs.epoch.toNat
      connLookup c d x e.act e.outs e.pkt (if retried then w1.on (bump64 0x090013 (r + 1)) else w1)

/-- DEEP_LANE_RESULT (R259, R262, R287, R288). -/
def execDeepLaneResult (r : RegionNo) (n : Fin 256) (poison : Bool) (s : State) : Host.Outcome State Fault Refusal :=
  .next (getWake (onWire (deepResult s.cont s.dom r.val n.val poison) s))

/-! ### Mask randomness (R322) -/

/-- Packets that waited for randomness go on from step 5. -/
def starvedResume (c : Cont) (d : Dom) (w : Wire) : Wire :=
  w.burin.starved.foldl (fun w x =>
    match inlineBurin x.pkt.region (field x.act 0x10 4) x.pkt w with
    | (none, w1) => giveDrop x.pkt x.outs w1
    | (some f, w1) => stepsSixToNine c d (contextOf w.pipe { x.pkt with frame := x.first }) x.act x.outs { x.pkt with frame := f } w1)
    { w with burin := { w.burin with starved := [] } }

/-- The oldest packet of a region that waits for randomness fails with cause 0x07. -/
def starvedFail (r : Nat) (w : Wire) : Wire :=
  match w.burin.starved.find? (fun x => x.pkt.region == r) with
  | none => w
  | some x =>
    let w1 := w.on (reach (x.at_ + us (dget w.io (idx 0x0A0003 0) 100)))
    let w2 := { w1 with burin := { w1.burin with starved := w1.burin.starved.erase x } }
    giveDrop x.pkt x.outs (inlineFail 7 ((saOf w.burin (field x.act 0x10 4)).map (·.1)) 0 x.pkt w2)

end Sys2Proof.Machine
end

