-- ==== Sys2Proof/Machine/RdmaOps.lean ====
section
/-!
DEFINITION. What the RDMA engines do to queue pairs (chapter 15): packets and their headers (R336, R355), completions
(R350, R352), the move to ERROR (R343, R351), lanes and rates (R356 to R362).
Choices of the model coded here, by entry of the assumption log: DESIGN CHOICE 58, 90; DEDUCED 56, 57, 60; PRESUMED 59.
-/
namespace Sys2Proof.Machine

/-! ### Queue pairs -/

/-- The owner number of the device (R339). -/
def deviceOwner : Nat := 2000

/-- A change of the RDMA engines' own state. -/
def onRdma (f : Rdma → Rdma) (s : State) : State := { s with rdma := f s.rdma }

/-- The QP of a number. -/
def qpOf (s : State) (n : Nat) : Option Qp := mget s.rdma.qps n

/-- Storing a QP. -/
def qpPut (n : Nat) (q : Qp) (s : State) : State := onRdma (fun r => { r with qps := mput r.qps n q }) s

/-- Lane `l` of a QP. -/
def laneAt (q : Qp) (l : Nat) : RLane := mgetD q.lanes l RLane.reset

/-- Storing a lane. -/
def lanePut (l : Nat) (x : RLane) (q : Qp) : Qp := { q with lanes := mput q.lanes l x }

/-- Path MTU in bytes (R340). -/
def mtuOf (q : Qp) : Nat := 128 * 2 ^ q.mtu

/-- Lanes in use that are active. -/
def activeLanes (q : Qp) : List Nat := (List.range q.lanesUsed).filter (fun l => (laneAt q l).state == 1)

/-- Sum of the rates of the active lanes in Mb/s. -/
def rateSum (q : Qp) : Rat := ((activeLanes q).map (fun l => (laneAt q l).rate)).foldl (· + ·) 0

/-- 0B:0000, 0B:0001 and 00:0102.06 follow the QPs (R354, R368). -/
def rdmaTotals (s : State) : State :=
  let lanes := (s.rdma.qps.filter (fun p => p.2.lp && (p.2.state == 2 || p.2.state == 3))).length
  on (fun io => (List.range 4).foldl (fun io r =>
      dset (idx 0x0B0001 (r + 1)) (mgetD s.rdma.resident r []).length
        (dset (idx 0x0B0000 (r + 1)) (s.rdma.qps.filter (fun p => homeRegion p.1 == r)).length io))
    (dset (idx 0x000102 6) lanes io)) s

/-- R337: the context of a QP is resident and most recently used; the least recently used beyond 4,096 goes. -/
def makeResident (n : Nat) (s : State) : State :=
  onRdma (fun r => { r with
    resident := mupd r.resident (homeRegion n) [] (fun l => (n :: l.filter (· != n)).take 4096) }) s

/-- Whether the context of a QP is resident. -/
def isResident (s : State) (n : Nat) : Bool := (mgetD s.rdma.resident (homeRegion n) []).contains n

/-- R338: the engine of a region works. -/
def engineRuns (s : State) (r : Nat) : Bool := !s.cont.regions.contains r && !(s.cont.regionResets.any (fun x => x.1 == r))

/-! ### Packets (R336, R338, R355) -/

/-- A RoCEv2 packet as received. -/
structure Rx where
  op    : Nat
  sol   : Bool
  qpn   : Nat
  psn   : Nat
  src   : Bytes
  dst   : Bytes
  /-- it arrived marked CE -/
  ce    : Bool
  /-- everything after the BTH, without padding and ICRC -/
  body  : Bytes
  icrcOk : Bool
  deriving DecidableEq, Repr

/-- The bytes of a packet from its L3 header on with the fields the ICRC leaves out set to ones; `l4` is the offset of
UDP within them. -/
def icrcMask (v6 : Bool) (l4 : Nat) (p : Bytes) : Bytes :=
  let ones (n : Nat) : Bytes := List.replicate n 0xFF
  let a := if v6 then splice (splice p 0 (0x6F :: ones 3)) 7 (ones 1) else splice (splice (splice p 1 (ones 1)) 8 (ones 1)) 10 (ones 2)
  splice (splice a (l4 + 6) (ones 2)) (l4 + 12) (ones 1)

/-- The ICRC of a packet (R336), in transmission order. -/
def icrcOf (v6 : Bool) (l4 : Nat) (p : Bytes) : Bytes := le 4 (crc32 (List.replicate 8 0xFF ++ icrcMask v6 l4 p))

/-- What a frame released to an engine holds. -/
def rxOf (f : Bytes) : Rx :=
  let l := (parse [] f).outer
  let b := l.l4Off + 8
  let e := min f.length (l.l4Off + fb f (l.l4Off + 4) 2)
  let pad := bits (fb f (b + 1) 1) 5 4
  { op := fb f b 1, sol := (fb f (b + 1) 1).testBit 7, qpn := fb f (b + 5) 3, psn := fb f (b + 9) 3, src := be 16 l.src,
    dst := be 16 l.dst, ce := l.tclass % 4 == 3, body := slice f (b + 12) (e - 4 - pad - (b + 12)),
    icrcOk := slice f (e - 4) 4 == icrcOf (l.l3 == 2) (l.l4Off - l.l3Off) (slice f l.l3Off (e - 4 - l.l3Off)) }

/-- Where a packet of a QP goes and with which attributes. -/
structure Way where
  ip    : Bytes
  mac   : Bytes
  src   : Bytes
  qpn   : Nat
  hop   : Nat
  tclass : Nat
  prio  : Nat
  sport : Nat
  deriving DecidableEq, Repr

/-- UDP source port base (R340). -/
def portBase (qpn base : Nat) : Nat := if base = 0 then 49152 + qpn % 16384 else base

/-- The way of an RC packet on a lane. -/
def wayOf (s : State) (qpn : Nat) (q : Qp) (lane : Nat) : Way :=
  { ip := q.destIp, mac := q.destMac, src := mgetD s.rdma.gids (q.owner * 16 + q.gid) [], qpn := q.destQpn, hop := q.hop,
    tclass := q.tclass, prio := q.prio, sport := (portBase qpn q.sport + lane) % 65536 }

/-- An address is an IPv4 address: the first 12 bytes are zero (R340). -/
def isV4 (ip : Bytes) : Bool := allZero (slice ip 0 12)

/-- The BTH of a packet and what follows it, padded (IBA). -/
def bthBytes (op qpn psn : Nat) (sol ack : Bool) (rest : Bytes) : Bytes :=
  let pad := (4 - rest.length % 4) % 4
  be 1 op ++ be 1 (128 * b2n sol + 64 + 16 * pad) ++ be 2 0xFFFF ++ be 1 0 ++ be 3 qpn ++ be 1 (128 * b2n ack) ++ be 3 psn ++
    rest ++ List.replicate pad 0

/-- The lane extension header (R355). -/
def lehBytes (msg off rsn lane : Nat) (last resync : Bool) : Bytes :=
  be 8 (msg % 2 ^ 24 * 2 ^ 40 + off % 2 ^ 16 * 2 ^ 24 + rsn % 2 ^ 16 * 2 ^ 8 + lane % 8 * 32 + 16 * b2n last + 4 + 2 * b2n resync)

/-- The frame of a RoCEv2 packet with ECT(0); the IPv4 identification and the IPv6 flow label are values the spec leaves
open. -/
def roceFrame (owner : Nat) (w : Way) (bth : Bytes) (io : Io) : Bytes × Io :=
  let v := freeNat io
  let ulen := 8 + bth.length + 4
  let udp := be 2 w.sport ++ be 2 4791 ++ be 2 ulen ++ be 2 0
  let mac := w.mac ++ be 6 (Config.fnMac owner).toNat
  let tc := w.tclass / 4 * 4 + 2
  if isV4 w.ip then
    let ip := be 1 0x45 ++ be 1 tc ++ be 2 (20 + ulen) ++ be 2 (v.1 % 65536) ++ be 2 0x4000 ++ be 1 w.hop ++ be 1 17 ++ be 2 0 ++
      slice w.src 12 4 ++ slice w.ip 12 4
    (fillIpSum (mac ++ be 2 0x0800 ++ ip ++ udp ++ bth ++ icrcOf false 20 (ip ++ udp ++ bth)), v.2)
  else
    let ip := be 4 (0x60000000 + tc * 2 ^ 20 + v.1 % 2 ^ 20) ++ be 2 ulen ++ be 1 17 ++ be 1 w.hop ++ padTo 16 w.src ++ padTo 16 w.ip
    (mac ++ be 2 0x86DD ++ ip ++ udp ++ bth ++ icrcOf true 40 (ip ++ udp ++ bth), v.2)

/-- R225: the virtual port of a function instance, or 0x08FF for the device. -/
def ownerVport (owner : Nat) : Nat := if owner = deviceOwner then 0x8FF else if owner < 16 then 0x100 + owner % 4 else 0x200 + (owner - 16)

/-- A packet of a QP enters the engine's queue to the Drover (R338). -/
def sendPacket (qpn : Nat) (q : Qp) (w : Way) (bth : Bytes) (s : State) : State :=
  let r := homeRegion qpn
  onWire (fun x =>
    let (f, io) := roceFrame q.owner w bth x.io
    let (h, x1) := newHandle { x with io := io }
    let k := newPkt (0x300000 + r) w.prio (ownerVport q.owner) 0 f none h
    x1.onNet (fun n => { n with engineQ := mput n.engineQ r (mgetD n.engineQ r [] ++ [k]) })) s

/-- A packet of an RC QP that answers: an ACK, a NAK, a CNP or a READ response on a lane. -/
def sendBack (qpn : Nat) (q : Qp) (lane op psn : Nat) (leh : Bytes) (body : Bytes) (s : State) : State :=
  sendPacket qpn q (wayOf s qpn q lane) (bthBytes op q.destQpn psn false false ((if q.lp then leh else []) ++ body)) s

/-- R358: an ACK (syndrome 0x1F) or a NAK of a lane. -/
def sendAeth (qpn lane psn syndrome : Nat) (s : State) : State :=
  match qpOf s qpn with
  | none => s
  | some q =>
    sendBack qpn q lane 0x11 psn (lehBytes q.rxMsg 0 0 lane false false) (be 1 syndrome ++ be 3 (q.rxMsg % 2 ^ 24)) s

/-- R358: the lane is acknowledged up to the packet before the expected one; nothing is owed. -/
def sendAck (qpn lane : Nat) (s : State) : State :=
  match qpOf s qpn with
  | none => s
  | some q =>
    let x := laneAt q lane
    sendAeth qpn lane ((x.expect + 2 ^ 24 - 1) % 2 ^ 24) 0x1F (qpPut qpn (lanePut lane { x with owed := 0 } q) s)

/-! ### Completions (R350, R352) -/

/-- A completion of a work request. -/
def workCpl (s : State) (qpn : Nat) (q : Qp) (kind : Nat) (w : Work) (status bytes detail op flags msg imm : Nat) (src : Bytes) : Cpl :=
  { kind := kind, status := status, held := false, tag := w.tag, ring := w.ring,
    consumer := (match ringOf s.io w.ring with | some r => r.counter.toNat | none => (w.counter + 1) % 2 ^ 32),
    bytes := bytes, detail := detail, time := time64 s.io,
    extra := le 4 qpn ++ le 1 op ++ le 1 flags ++ le 1 q.lanesUsed ++ le 1 0 ++ le 4 msg ++ le 4 imm ++ padTo 16 src }

/-- A work request of the send queue ends: counted, and completed unless it is an unsignalled success. -/
def endSend (qpn : Nat) (w : Work) (status detail : Nat) (s : State) : State :=
  match qpOf s qpn with
  | none => s
  | some q =>
    let c := workCpl s qpn q 0x10 w status (if status = 0 then w.len else 0) detail w.op (2 * b2n w.sol)
      (if q.service = 1 then w.msg else 0) 0 []
    let s1 := qpPut qpn { q with sendCount := q.sendCount + 1 } s
    if w.suppress && status == 0 then s1 else on (complete q.sendCq c) s1

/-- A receive work request ends with the completion `c`. -/
def endRecv (qpn : Nat) (c : Cpl) (s : State) : State :=
  match qpOf s qpn with
  | none => s
  | some q => on (complete q.recvCq c) (qpPut qpn { q with recvCount := q.recvCount + 1 } s)

/-- A receive work request that is flushed or fails. -/
def failRecv (qpn status : Nat) (w : Work) (s : State) : State :=
  match qpOf s qpn with
  | none => s
  | some q => endRecv qpn (workCpl s qpn q 0x11 w status 0 0 w.op 0 0 0 []) s

/-- R356: every packet of a work request is sent and acknowledged, or every response placed. -/
def workDone (q : Qp) (w : Work) : Bool :=
  w.sent && (q.service == 2 || w.op == 0x1C ||
    (List.range q.lanesUsed).all (fun l => (laneAt q l).unacked.all (fun p => p.msg != w.msg)))

/-! ### Events (R364) -/

/-- An RDMA event of a QP's or SRQ's owner; for the device a NOTIFY to every firmware port. -/
def rdmaEvent (owner code number detail : Nat) (data : Bytes) (s : State) : State :=
  if owner = deviceOwner then
    on (fun io => (io.oa.assocs.filter (fun a => a.key.binding == .fwPort && a.version != 0)).foldl
      (fun io a => sendNote a.key (.notify [(idx 0x0B0100 0, .str (le 2 code ++ le 4 number ++ le 4 detail ++ data))] (time64 io)) io) io) s
  else on (eventAndPf owner code 0 number detail data) s

/-- R563: the partner field of class 4. -/
def rdmaPartner (qpn peer : Nat) : Bytes := le 4 qpn ++ le 4 peer

/-! ### ERROR and RESET (R343, R351) -/

/-- The lanes of a QP with nothing outstanding. -/
def lanesIdle (q : Qp) : List (Nat × RLane) :=
  mmap q.lanes (fun _ x => { x with unacked := [], owed := 0, nakSent := false, slowAt := none })

/-- The receives of a QP end: messages already complete with their completion, the receive `failed` (by RSN) with
`status`, the rest flushed. -/
def flushRecvs (qpn : Nat) (failed : Option Nat) (status : Nat) (q : Qp) (s : State) : State :=
  let s1 := q.bound.foldl (fun s (b : Nat × Work) =>
    match mget q.ready b.1 with
    | some c => endRecv qpn c s
    | none => failRecv qpn (if failed = some b.1 then status else 0x2B) b.2 s) s
  q.rq.foldl (fun s w => failRecv qpn 0x2B w s) s1

/-- A QP enters ERROR: the send work request at position `i` (if any) completes with `status` and `detail`, every other
unfinished one and every receive with 0x2B. -/
def qpFlush (qpn : Nat) (i : Option Nat) (failed : Option Nat) (status detail : Nat) (s : State) : State :=
  match qpOf s qpn with
  | none => s
  | some q =>
    let s1 := qpPut qpn { q with
      state := 4, sq := [], rq := [], bound := [], ready := [], asm := [], lanes := lanesIdle q, rnrHold := none } s
    let s2 := q.sq.zipIdx.foldl (fun s (w : Work × Nat) =>
      if some w.2 = i then endSend qpn w.1 status detail s
      else if workDone q w.1 then endSend qpn w.1 0 0 s
      else endSend qpn w.1 0x2B 0 s) s1
    rdmaTotals (flushRecvs qpn failed status q s2)

/-- R343: the Kwaith moves a QP to ERROR itself, with event 0x0B01. -/
def qpError (qpn : Nat) (i failed : Option Nat) (status detail : Nat) (s : State) : State :=
  match qpOf s qpn with
  | none => s
  | some q =>
    if q.state = 4 then s
    else rdmaEvent q.owner 0x0B01 qpn status (padTo 16 q.destIp ++ le 4 q.destQpn) (qpFlush qpn i failed status detail s)

/-- R343: RESET discards every work request without completions and resets PSNs and message numbers. -/
def qpBlank (q : Qp) : Qp :=
  { q with
    state := 0, lanesUsed := 1, lp := false, lanes := [], sq := [], rq := [], msgNext := 0, rsnNext := 0, rxMsg := 0,
    rxDone := [], rxOff := 0, rxSeq := 0, rxRsn := 0, rxBind := 0, bound := [], ready := [], asm := [], sendPsn := 0,
    recvPsn := 0, rnrHold := none, rnrUsed := 0 }

/-- R353: a QP one of whose completion rings is in ERROR moves to ERROR with status 0x2D. -/
def cqLoss (qpn : Nat) (s : State) : State :=
  match qpOf s qpn with
  | none => s
  | some q =>
    let bad (k : Nat) : Bool := match ringOf s.io k with | some r => r.state == .error | none => false
    if q.state ≠ 0 && (bad q.sendCq || bad q.recvCq) then qpError qpn none none 0x2D 0 s else s

/-! ### The send queue in order (R352, R366) -/

/-- Work requests that are done complete, oldest first. -/
def sqDrain (qpn : Nat) : Nat → State → State
  | 0, s => s
  | n + 1, s =>
    match qpOf s qpn with
    | none => s
    | some q =>
      match q.sq with
      | [] => s
      | w :: r => if workDone q w then sqDrain qpn n (endSend qpn w 0 0 (qpPut qpn { q with sq := r } s)) else s

/-- R366: whether a WAIT names a QP of the same function. -/
def waitTarget (s : State) (q : Qp) (w : Work) : Option Qp :=
  match qpOf s (field w.body 0 4) with
  | some t => if t.owner = q.owner then some t else none
  | none => none

/-- Position of the first work request not yet sent. -/
def sqHead (q : Qp) : Option Nat := q.sq.findIdx? (fun w => !w.sent)

/-- R366: a WAIT that has reached the head of the queue has its target checked. -/
def waitCheck (qpn : Nat) (s : State) : State :=
  match qpOf s qpn with
  | none => s
  | some q =>
    match sqHead q with
    | none => s
    | some i =>
      match q.sq[i]? with
      | none => s
      | some w => if w.op = 0x1C && q.state == 3 && (waitTarget s q w).isNone then qpError qpn (some i) none 0x25 0 s else s

/-- What is done completes, and what comes to the head is checked. -/
def sqAdvance (qpn : Nat) (s : State) : State :=
  match qpOf s qpn with
  | none => s
  | some q => waitCheck qpn (sqDrain qpn q.sq.length s)

/-- R366: whether the condition of a WAIT holds on its target. -/
def waitHolds (t : Qp) (w : Work) : Bool :=
  let c := if field w.body 4 1 = 0 then t.sendCount else t.recvCount
  decide ((c - BitVec.ofNat 32 w.value).toNat < 2 ^ 31)

/-! ### Rates (R361, R362) -/

/-- A decision of a lane is published and counted. -/
def laneDecision (qpn lane code : Nat) (s : State) : State :=
  match qpOf s qpn with
  | none => s
  | some q => on (bump64 0x0B0022 code) (qpPut qpn (lanePut lane { laneAt q lane with reason := code } q) s)

/-- RATE_MIN and RATE_MAX in Mb/s. -/
def rateMin (io : Io) : Rat := (dget io (idx 0x0B0200 0) 100 : Nat)
def rateMax (io : Io) : Rat := (dget io (idx 0x0B0201 0) 1600000 : Nat)

/-- b of R361: `sample` in nanoseconds, 0 for a CNP. -/
def cutShare (io : Io) (h : Rat) (sample : Nat) : Rat :=
  if sample = 0 then (1 + h) / 4
  else
    let c : Rat := (us (dget io (idx 0x0B0202 0) 50) : Nat)
    let x : Rat := ((sample : Nat) - c) / (sample : Nat)
    let lo : Rat := if x < 1 / 16 then 1 / 16 else x
    if (1 : Rat) / 2 < lo then 1 / 2 else lo

/-- R361, R367: a cut of a lane's rate, at most one per 0B:0205 µs; a CNP that falls in the interval of a cut gives that
cut its reason. -/
def rateCut (qpn lane sample : Nat) (s : State) : State :=
  match qpOf s qpn with
  | none => s
  | some q =>
    let x := laneAt q lane
    let wait := us (dget s.io (idx 0x0B0205 0) 50)
    let recent := match x.cutAt with | some t => decide (s.io.now < t + wait) | none => false
    if x.state ≠ 1 then s
    else if recent then (if sample = 0 then qpPut qpn (lanePut lane { x with reason := 1 } q) s else s)
    else
      let r := x.rate * (1 - cutShare s.io x.h sample)
      let r' := if r < rateMin s.io then rateMin s.io else r
      let h := x.h + 1 / 4
      let h' : Rat := if 1 < h then 1 else h
      laneDecision qpn lane (if x.rate ≤ rateMin s.io then 7 else if sample = 0 then 1 else 2)
        (qpPut qpn (lanePut lane { x with rate := r', h := h', q := 0, cutAt := some s.io.now } q) s)

/-- R361: a period without a cut ends. -/
def rateRecover (qpn lane : Nat) (s : State) : State :=
  match qpOf s qpn with
  | none => s
  | some q =>
    let x := laneAt q lane
    let step : Rat := (dget s.io (idx 0x0B0204 0) 5000 : Nat)
    let g : Rat := 1 / ((2 ^ dget s.io (idx 0x0B0203 0) 8 : Nat) : Rat)
    let n := x.q + 1
    let r := if n ≤ 3 then x.rate + step / 4 else x.rate + step * ((n - 3 : Nat) : Rat)
    let r' := if rateMax s.io < r then rateMax s.io else r
    laneDecision qpn lane (if rateMax s.io ≤ x.rate then 8 else 3)
      (qpPut qpn (lanePut lane { x with q := n, h := x.h * (1 - g), rate := r' } q) s)

/-! ### Sending on lanes (R356, R358, R359) -/

/-- R356: the lane that takes the next packet by smooth weighted round robin, the lowest of equals, and the QP with its
running values advanced. -/
def pickLane (q : Qp) : Option Nat × Qp :=
  let act := activeLanes q
  let up := act.foldl (fun q l => lanePut l { laneAt q l with turn := (laneAt q l).turn + (laneAt q l).rate } q) q
  let best := act.foldl (fun (b : Option Nat) l =>
    match b with
    | none => some l
    | some k => if (laneAt up k).turn < (laneAt up l).turn then some l else some k) none
  match best with
  | none => (none, q)
  | some k => (some k, lanePut k { laneAt up k with turn := (laneAt up k).turn - rateSum q } up)

/-- The bytes of a request packet as it leaves. -/
def packetBth (q : Qp) (lane : Nat) (p : RPkt) : Bytes :=
  bthBytes p.op q.destQpn p.psn p.sol p.last ((if q.lp then lehBytes p.msg p.off p.rsn lane p.last p.resync else []) ++ p.body)

/-- R361: the paced rate admits the next packet after the wire time of this one. -/
def pace (q : Qp) (io : Io) (bytes : Nat) : Qp :=
  let m := rateMax io
  let r := if rateSum q < m then rateSum q else m
  let mb := r.floor.toNat
  { q with paceAt := max q.paceAt io.now + (if mb = 0 then 0 else ceilDiv (bytes * 8000) mb) }

/-- A request packet leaves on its lane. -/
def launch (qpn lane : Nat) (p : RPkt) (s : State) : State :=
  match qpOf s qpn with
  | none => s
  | some q =>
    let bth := packetBth q lane p
    sendPacket qpn q (wayOf s qpn q lane) bth (qpPut qpn (pace q s.io (bth.length + 70)) s)

/-- A new packet takes the next PSNs of a lane and leaves. -/
def dealPacket (qpn lane : Nat) (p : RPkt) (s : State) : State :=
  match qpOf s qpn with
  | none => s
  | some q =>
    let x := laneAt q lane
    let p' := { p with psn := x.psn, resync := x.resync, sentAt := s.io.now }
    launch qpn lane p' (qpPut qpn (lanePut lane
      { x with psn := (x.psn + p.span) % 2 ^ 24, resync := false, unacked := x.unacked ++ [p'] } q) s)

/-- Position in the send queue of a message. -/
def sqOfMsg (q : Qp) (msg : Nat) : Option Nat := q.sq.findIdx? (fun w => w.started && w.msg == msg)

/-- R358: the packets of a lane from position `k` are resent unchanged; `charge` says that this counts against the retry
count. One beyond it fails the QP with 0x29. -/
def resend (qpn lane k : Nat) (charge : Bool) (s : State) : State :=
  match qpOf s qpn with
  | none => s
  | some q =>
    let x := laneAt q lane
    let again := (x.unacked.drop k).map (fun p => { p with tries := p.tries + b2n charge, sentAt := s.io.now })
    match again.find? (fun p => decide (q.retry < p.tries)) with
    | some p => qpError qpn (sqOfMsg q p.msg) none 0x29 0 s
    | none =>
      let s1 := qpPut qpn (lanePut lane { x with unacked := x.unacked.take k ++ again } q) s
      again.foldl (fun s p => launch qpn lane p s) (on (bumpBy 64 (idx 0x0B0023 (homeRegion qpn + 1)) again.length) s1)

/-- R359: the requester withdraws a lane, unless it is the last active one; its unacknowledged packets go to the active
lanes with new PSNs. -/
def laneWithdraw (qpn lane code : Nat) (s : State) : State :=
  match qpOf s qpn with
  | none => s
  | some q =>
    let x := laneAt q lane
    if !q.lp || x.state ≠ 1 || (activeLanes q).length ≤ 1 then s
    else
      let moved := x.unacked.map (fun p => { p with tries := p.tries + 1 })
      match moved.find? (fun p => decide (q.retry < p.tries)) with
      | some p => qpError qpn (sqOfMsg q p.msg) none 0x29 0 s
      | none =>
        let s1 := laneDecision qpn lane code (qpPut qpn (lanePut lane
          { x with state := 2, goneAt := s.io.now, unacked := [], episodes := [], slowAt := none, turn := 0 } q) s)
        moved.foldl (fun s p =>
          match qpOf s qpn with
          | none => s
          | some q =>
            match pickLane q with
            | (some l, q') => dealPacket qpn l p (qpPut qpn q' s)
            | (none, _) => s) (on (bumpBy 64 (idx 0x0B0023 (homeRegion qpn + 1)) moved.length) s1)

/-- R358, R359: a retransmission episode of a lane: everything unacknowledged is resent, or the lane is withdrawn. -/
def episode (qpn lane : Nat) (s : State) : State :=
  match qpOf s qpn with
  | none => s
  | some q =>
    let x := laneAt q lane
    let es := s.io.now :: x.episodes.filter (fun t => decide (s.io.now < t + ms 1))
    let s1 := qpPut qpn (lanePut lane { x with episodes := es } q) s
    if q.lp && decide (dget s.io (idx 0x0B0012 0) 4 ≤ es.length) && decide (1 < (activeLanes q).length) && x.state == 1 then
      laneWithdraw qpn lane 4 s1
    else resend qpn lane 0 true s1

/-- R359, R361: an RTT sample of a lane in nanoseconds. -/
def rttSample (qpn lane sample : Nat) (s : State) : State :=
  match qpOf s qpn with
  | none => s
  | some q =>
    let x := laneAt q lane
    let sm := if x.srtt = 0 then sample else Config.smoothRtt x.srtt sample
    let others := ((activeLanes q).filter (· != lane)).map (fun l => (laneAt q l).srtt) |>.filter (· != 0)
    let slow := match others.min? with
      | some m => decide (dget s.io (idx 0x0B0014 0) 4 * m < sm)
      | none => false
    let since := if slow then some (x.slowAt.getD s.io.now) else none
    let s1 := qpPut qpn (lanePut lane { x with srtt := sm, slowAt := since } q) s
    let s2 := if us (dget s.io (idx 0x0B0202 0) 50) < sample then rateCut qpn lane sample s1 else s1
    match since with
    | some t => if t + us 100 ≤ s.io.now then laneWithdraw qpn lane 5 s2 else s2
    | none => s2

/-- a is at or before b, PSNs modulo 2^24 within a window of 2^23. -/
def psnLe (a b : Nat) : Bool := decide ((b + 2 ^ 24 - a % 2 ^ 24) % 2 ^ 24 < 2 ^ 23)

/-- Position of the packet of a lane that covers a PSN. -/
def coverIdx (x : RLane) (psn : Nat) : Option Nat :=
  x.unacked.findIdx? (fun p => decide ((psn + 2 ^ 24 - p.psn) % 2 ^ 24 < p.span))

/-- R358: the packets of a lane up to a PSN are acknowledged, a READ request excepted; and what that completes. -/
def ackUpTo (qpn lane psn : Nat) (s : State) : State :=
  match qpOf s qpn with
  | none => s
  | some q =>
    let x := laneAt q lane
    let got := x.unacked.takeWhile (fun p => p.op != 0x0C && psnLe p.psn psn)
    sqAdvance qpn (qpPut qpn { lanePut lane { x with unacked := x.unacked.drop got.length } q with
      rnrUsed := if got.isEmpty then q.rnrUsed else 0 } s)

end Sys2Proof.Machine
end

