-- ==== Sys2Proof/Machine/Rdma.lean ====
section
/-!
DEFINITION. The RDMA command 0B:0100 (R339 to R345, R365), posting of work requests (R346 to R349), and WAIT (R366).
Choices of the model coded here, by entry of the assumption log: DEDUCED 56, 57, 60.
-/
namespace Sys2Proof.Machine

/-! ### The command and its answers (R339, R342) -/

/-- The 16-byte result. -/
def rdmaResult (code state lanes number detail dur : Nat) : Bytes :=
  le 1 code ++ le 1 state ++ le 1 lanes ++ le 1 0 ++ le 4 number ++ le 4 detail ++ le 4 dur

/-- 0B:0100 is answered at once; a result other than Done goes with status FAILED. -/
def rdmaAnswer (by_ : Issuer) (code : Nat) (r : Bytes) (s : State) : State :=
  on (answer by_ (idx 0x0B0100 0) (if code = 0 then 0 else 0x11) r) s

/-- A refusal of a command with its result code. -/
def rdmaFail (by_ : Issuer) (code number : Nat) (s : State) : State :=
  rdmaAnswer by_ code (rdmaResult code 0 0 number 0 0) s

/-- R339: whose object a command concerns: an owner, none where the issuer may not act for it. -/
def rdmaOwner (s : State) (by_ : Issuer) (own : Nat) : Option Nat :=
  let k := by_.assoc.key
  match principalOf by_.assoc.binding with
  | .h =>
    if k % 4 < 2 then none
    else if own = 0xFFFF then some k
    else if own < 1024 && pfOfVf s.io own == k % 4 then some (16 + own) else none
  | .v =>
    if k < 16 || vfType s.io (k - 16) < 2 then none
    else if own = 0xFFFF || own = k - 16 then some k else none
  | _ => if own = 0xFFFE then some deviceOwner else if own < 1024 then some (16 + own) else none

/-- The checks every command shares; then `f` runs with the owner. -/
def rdmaCmd (by_ : Issuer) (arg : Bytes) (op : Nat) (f : Nat → State → State) (s : State) : State :=
  match cmdGate s.start.stage by_ 0x0B0100 arg 128 op s.io with
  | some e =>
    if e = 1 then on (answer by_ (idx 0x0B0100 0) 1 (rdmaResult 6 0 0 0 0 0)) s
    else on (answer by_ (idx 0x0B0100 0) e []) s
  | none =>
    let own := field arg 2 2
    let host := principalOf by_.assoc.binding == .h || principalOf by_.assoc.binding == .v
    if !host && (own == 0xFFFF || (1024 ≤ own && own != 0xFFFE)) then rdmaFail by_ 1 0 s
    else
      match rdmaOwner s by_ own with
      | none => on (answer by_ (idx 0x0B0100 0) 3 []) s
      | some o => f o s

/-- Bytes of the argument that must be zero: offset and length of each. -/
def argZero (arg : Bytes) (zs : List (Nat × Nat)) : Bool := zs.all (fun (z : Nat × Nat) => allZero (slice arg z.1 z.2))

/-! ### Quotas -/

/-- Objects an owner may hold: `vf` the quota of a VF, `total` the whole; PFs and the device share what the VFs' quotas
leave (R337, R342). `have_` counts the objects of an owner that satisfies a test. -/
def rdmaRoom (s : State) (owner total : Nat) (vf : Nat → Nat) (have_ : (Nat → Bool) → Nat) : Bool :=
  let isVf (o : Nat) : Bool := decide (16 ≤ o) && decide (o < 1040)
  if isVf owner then decide (have_ (· == owner) < vf (owner - 16))
  else decide (have_ (fun o => !isVf o) < total - ((List.range (vfCount s.io)).map vf).sum)

/-- SRQs a VF may hold (R341). -/
def vfSrqs (io : Io) (n : Nat) : Nat := max 16 (vfQps io n / 16)

/-- MiB that a work queue pool of depth logarithms takes, in bytes (R346): 64 bytes a work request. -/
def workBytes (s : State) : Nat :=
  ((s.rdma.qps.map (fun p => 64 * 2 ^ p.2.sDepth + (if p.2.srq.isSome then 0 else 64 * 2 ^ p.2.rDepth))).sum) +
    ((s.rdma.srqs.map (fun p => 64 * 2 ^ p.2.depth)).sum)

/-- Whether the pool 0B:0002 has room for `n` bytes more. -/
def workRoom (s : State) (n : Nat) : Bool := decide (workBytes s + n ≤ s.rdma.wqPool * 2 ^ 20)

/-! ### CREATE_QP -/

/-- R340, R342: a completion ring a QP of an owner may name. -/
def rdmaCqOk (s : State) (owner k : Nat) : Bool :=
  match ringOf s.io k with
  | none => false
  | some r =>
    let used := (s.rdma.qps.foldl (fun l (p : Nat × Qp) => sadd (sadd l p.2.sendCq) p.2.recvCq) [])
    r.isCq && r.fmt == 2 && (r.owner == owner || owner == deviceOwner) && (used.contains k || decide (used.length < 262144))

/-- The lowest free QPN from `n` on whose home region is one of `rs`. -/
def qpnFrom (s : State) (rs : List Nat) : Nat → Nat → Option Nat
  | 0, _ => none
  | fuel + 1, n =>
    if 2 ^ 20 ≤ n then none
    else if (qpOf s n).isNone && rs.contains (homeRegion n) then some n else qpnFrom s rs fuel (n + 1)

/-- R338: the lowest free QPN whose home region holds the fewest QPs. -/
def pickQpn (s : State) : Option Nat :=
  let n (r : Nat) : Nat := (s.rdma.qps.filter (fun p => homeRegion p.1 == r)).length
  let least := ((List.range 4).map n).min?.getD 0
  qpnFrom s ((List.range 4).filter (fun r => n r == least)) (2 ^ 20) 2

/-- The arguments of CREATE_QP fit R340. -/
def createQpOk (owner : Nat) (arg : Bytes) : Bool :=
  let f := field arg
  let gsi := owner < 16 && owner % 4 == 2 && f 1 1 == 2 && f 4 4 == 1
  (f 1 1 == 1 || f 1 1 == 2) && (f 4 4 == 0 || gsi) && decide (4 ≤ f 0x20 1) && decide (f 0x20 1 ≤ 15) &&
  (if f 0x1C 4 = 0xFFFFFFFF then decide (4 ≤ f 0x21 1) && decide (f 0x21 1 ≤ 15) else f 0x21 1 == 0) &&
  f 0x26 1 % 4 == 0 && decide (f 0x27 1 ≤ 7) && decide (f 0x3A 1 ≤ 15) && argZero arg [(0x3F, 1), (0x56, 42)]

/-- A QP as CREATE_QP makes it: in RESET. -/
def newQp (owner : Nat) (arg : Bytes) : Qp :=
  let f := field arg
  { owner := owner, service := f 1 1, state := 0, pd := f 0x10 4, sendCq := f 0x14 4, recvCq := f 0x18 4,
    srq := if f 0x1C 4 = 0xFFFFFFFF then none else some (f 0x1C 4), sDepth := f 0x20 1, rDepth := f 0x21 1, mtu := 1,
    peerLanes := 0, peerMask := 0, retry := 0, rnrRetry := 0, ackTime := 0, rnrTimer := 0, tclass := f 0x26 1,
    prio := f 0x27 1, destQpn := 0, qkey := 0, sendPsn := 0, recvPsn := 0, readsOut := 1, readsIn := 1, gid := f 0x3A 1,
    hop := 0, sport := 0, rights := 0, destIp := [], destMac := [], lanesUsed := 1, lp := false, lanes := [], sq := [],
    rq := [], msgNext := 0, rsnNext := 0, rxMsg := 0, rxDone := [], rxOff := 0, rxSeq := 0, rxRsn := 0, rxBind := 0,
    bound := [], ready := [], asm := [], sendCount := 0, recvCount := 0, rnrHold := none, rnrUsed := 0, paceAt := 0,
    leaving := none }

/-- Op 0x01. -/
def createQp (by_ : Issuer) (arg : Bytes) (owner : Nat) (s : State) : State :=
  let q := newQp owner arg
  let srqOk := match q.srq with
    | none => true
    | some n => (match mget s.rdma.srqs n with | some x => x.owner == owner | none => false)
  let n := if field arg 4 4 = 1 then (if (qpOf s 1).isSome then none else some 1) else pickQpn s
  let room := rdmaRoom s owner (2 ^ 20) (vfQps s.io) (fun p => (s.rdma.qps.filter (fun x => p x.2.owner)).length) &&
    workRoom s (64 * 2 ^ q.sDepth + (if q.srq.isSome then 0 else 64 * 2 ^ q.rDepth))
  if !createQpOk owner arg then rdmaFail by_ 1 0 s
  else if !(rdmaCqOk s owner q.sendCq && rdmaCqOk s owner q.recvCq) then rdmaFail by_ 7 0 s
  else if !srqOk then rdmaFail by_ 3 0 s
  else if field arg 4 4 = 1 && n.isNone then rdmaFail by_ 5 1 s
  else if !room then rdmaFail by_ 2 0 s
  else
    match n with
    | none => rdmaFail by_ 2 0 s
    | some k =>
      rdmaAnswer by_ 0 (rdmaResult 0 0 1 k 0 0) (rdmaTotals (makeResident k (on (notFresh owner) (qpPut k q s))))

/-- CREATE_QP (R338 to R340, R342). -/
def execCreateQp (by_ : Issuer) (arg : Bytes) (s : State) : Host.Outcome State Fault Refusal :=
  .next (rdmaCmd by_ arg 1 (createQp by_ arg) s)

/-! ### MODIFY_QP -/

/-- The QP a command names, if it is of the owner. -/
def ownQp (s : State) (owner n : Nat) : Option Qp :=
  match qpOf s n with
  | some q => if q.owner = owner then some q else none
  | none => none

/-- R340: the values of the fields the mask selects are in range. -/
def modifyOk (arg : Bytes) (mask : Nat) : Bool :=
  let f := field arg
  let on_ (k : Nat) (p : Bool) : Bool := !mask.testBit k || p
  decide (mask < 2 ^ 15) && on_ 0 (decide (f 0x0C 1 ≤ 4)) && on_ 1 (decide (1 ≤ f 0x0D 1) && decide (f 0x0D 1 ≤ 5)) &&
  on_ 2 (decide (f 0x0E 1 ≤ 8)) && on_ 3 (decide (f 0x22 1 ≤ 7) && decide (f 0x23 1 ≤ 7)) &&
  on_ 4 (decide (1 ≤ f 0x24 1) && decide (f 0x24 1 ≤ 31)) && on_ 5 (decide (f 0x25 1 ≤ 31)) &&
  on_ 6 (f 0x26 1 % 4 == 0 && decide (f 0x27 1 ≤ 7)) && on_ 7 (decide (f 0x28 4 < 2 ^ 24)) && on_ 9 (decide (f 0x30 4 < 2 ^ 24)) &&
  on_ 10 (decide (f 0x34 4 < 2 ^ 24)) &&
  on_ 11 (decide (1 ≤ f 0x38 1) && decide (f 0x38 1 ≤ 128) && decide (1 ≤ f 0x39 1) && decide (f 0x39 1 ≤ 128)) &&
  on_ 12 (decide (f 0x3A 1 ≤ 15)) && on_ 14 (decide (f 0x3E 1 < 4)) && argZero arg [(0x3F, 1), (0x56, 42)]

/-- R343: the mask bits required to enter a state. -/
def needMask (service state : Nat) : List Nat :=
  match state with
  | 1 => [0, 14] ++ (if service = 2 then [8] else [])
  | 2 => [0, 1, 10] ++ (if service = 1 then [2, 7, 11, 12] else [])
  | 3 => [0, 9] ++ (if service = 1 then [3, 4, 11] else [])
  | _ => []

/-- R343: the transition is permitted and the mask holds what it needs. -/
def moveOk (q : Qp) (arg : Bytes) (mask : Nat) : Bool :=
  let t := field arg 0x0C 1
  let attrs := q.state != 3 || (bitsOf 15 mask).all (fun k => [0, 3, 4, 5].contains k)
  attrs && (!mask.testBit 0 ||
    ((t == 0 || t == 4 || (t == q.state + 1 && decide (t ≤ 3))) && (needMask q.service t).all (fun k => mask.testBit k)))

/-- The fields the mask selects are taken over. -/
def applyMask (q : Qp) (arg : Bytes) (mask : Nat) : Qp :=
  let f := field arg
  let m (k new old : Nat) : Nat := if mask.testBit k then new else old
  { q with
    mtu := m 1 (f 0x0D 1) q.mtu, peerLanes := m 2 (f 0x0E 1) q.peerLanes, peerMask := m 2 (f 0x0F 1) q.peerMask,
    retry := m 3 (f 0x22 1) q.retry, rnrRetry := m 3 (f 0x23 1) q.rnrRetry, ackTime := m 4 (f 0x24 1) q.ackTime,
    rnrTimer := m 5 (f 0x25 1) q.rnrTimer, tclass := m 6 (f 0x26 1) q.tclass, prio := m 6 (f 0x27 1) q.prio,
    destQpn := m 7 (f 0x28 4) q.destQpn, qkey := m 8 (f 0x2C 4) q.qkey, sendPsn := m 9 (f 0x30 4) q.sendPsn,
    recvPsn := m 10 (f 0x34 4) q.recvPsn, readsOut := m 11 (f 0x38 1) q.readsOut, readsIn := m 11 (f 0x39 1) q.readsIn,
    gid := m 12 (f 0x3A 1) q.gid, hop := m 12 (f 0x3B 1) q.hop, sport := m 13 (f 0x3C 2) q.sport,
    rights := m 14 (f 0x3E 1) q.rights, destIp := if mask.testBit 12 then slice arg 0x40 16 else q.destIp,
    destMac := if mask.testBit 12 then slice arg 0x50 6 else q.destMac }

/-- R354: lanes and whether they run, from the peer's offer. -/
def negotiateLanes (io : Io) (peerLanes peerMask : Nat) : Nat × Bool :=
  let n := min peerLanes (dget io (idx 0x0B0011 0) 8)
  if n < 2 || dget io (idx 0x000101 6) 1 &&& peerMask = 0 then (1, false) else (n, true)

/-- R354, R361: INIT to RTR: lanes are set up at the ceiling rate. -/
def toRtr (s : State) (q : Qp) : Qp :=
  let (n, lp) := if q.service = 1 then negotiateLanes s.io q.peerLanes q.peerMask else (1, false)
  let x : RLane := { RLane.reset with
    state := 1, rate := rateMax s.io, psn := q.sendPsn, expect := q.recvPsn, periodAt := s.io.now }
  { q with state := 2, lanesUsed := n, lp := lp, lanes := (List.range n).map (fun l => (l, x)) }

/-- A state change that MODIFY_QP asks for. -/
def moveQp (n : Nat) (q : Qp) (target : Nat) (s : State) : State :=
  match target with
  | 0 => qpPut n (qpBlank q) s
  | 2 =>
    let refused := q.service == 1 && q.peerMask != 0 && (dget s.io (idx 0x000101 6) 1 &&& q.peerMask) == 0
    let s1 := qpPut n (toRtr s q) s
    if refused then on (bump32 0x000104 6) s1 else s1
  | 3 => qpPut n { q with state := 3, lanes := mmap q.lanes (fun _ x => { x with psn := q.sendPsn }) } s
  | 4 => qpFlush n none none 0x2B 0 (qpPut n q s)
  | _ => qpPut n { q with state := target } s

/-- Op 0x02. -/
def modifyQp (by_ : Issuer) (arg : Bytes) (owner : Nat) (s : State) : State :=
  let n := field arg 4 4
  let mask := field arg 8 4
  match ownQp s owner n with
  | none => rdmaFail by_ 3 n s
  | some q =>
    if !modifyOk arg mask then rdmaFail by_ 1 n s
    else if !moveOk q arg mask then rdmaFail by_ 4 n s
    else
      let q1 := applyMask q arg mask
      let s1 := rdmaTotals (if mask.testBit 0 then moveQp n q1 (field arg 0x0C 1) s else qpPut n q1 s)
      match qpOf s1 n with
      | some q2 => rdmaAnswer by_ 0 (rdmaResult 0 q2.state q2.lanesUsed n 0 0) (sqAdvance n s1)
      | none => s1

/-- MODIFY_QP (R340, R343, R354). -/
def execModifyQp (by_ : Issuer) (arg : Bytes) (s : State) : Host.Outcome State Fault Refusal :=
  .next (rdmaCmd by_ arg 2 (modifyQp by_ arg) s)

/-! ### DESTROY_QP and QUERY_QP -/

/-- 0B:0100 is answered IN_PROGRESS. -/
def rdmaProgress (by_ : Issuer) (number : Nat) (s : State) : State :=
  on (answer by_ (idx 0x0B0100 0) 9 (rdmaResult 0 0 0 number 0 0)) s

/-- CMD_DONE of 0B:0100 to its issuer. -/
def rdmaDone (by_ : Issuer) (r : Bytes) (s : State) : State :=
  on (sendNote by_.assoc (.cmdDone by_.tag (idx 0x0B0100 0) 0 r)) s

/-- Op 0x03: to ERROR, flushed, and leaving. -/
def destroyQp (by_ : Issuer) (arg : Bytes) (owner : Nat) (s : State) : State :=
  let n := field arg 4 4
  match ownQp s owner n with
  | none => rdmaFail by_ 3 n s
  | some q =>
    if q.leaving.isSome then rdmaFail by_ 5 n s
    else
      let s1 := qpFlush n none none 0x2B 0 s
      match qpOf s1 n with
      | none => s1
      | some q1 => rdmaProgress by_ n (qpPut n { q1 with leaving := some (by_, s.io.now) } s1)

/-- DESTROY_QP (R343). -/
def execDestroyQp (by_ : Issuer) (arg : Bytes) (s : State) : Host.Outcome State Fault Refusal :=
  .next (rdmaCmd by_ arg 3 (destroyQp by_ arg) s)

/-- A QP is gone. -/
def qpDrop (n : Nat) (s : State) : State :=
  rdmaTotals (onRdma (fun r => { r with
    qps := mdel r.qps n, resident := mupd r.resident (homeRegion n) [] (·.filter (· != n)),
    parked := r.parked.filter (fun p => p.1 != n) }) s)

/-- The QPN of a QP that leaves is free. -/
def destroyDone (n : Nat) (s : State) : State :=
  match qpOf s n with
  | none => s
  | some q =>
    match q.leaving with
    | none => s
    | some (b, t) => rdmaDone b (rdmaResult 0 4 0 n 0 ((s.io.now - t) / 1000)) (qpDrop n s)

/-- DESTROY_QP_DONE (R343). -/
def execDestroyQpDone (qpn : Nat) (s : State) : Host.Outcome State Fault Refusal := .next (destroyDone qpn s)

/-- R340: the QP block with its eight lane records. -/
def queryBlock (n : Nat) (q : Qp) : Bytes :=
  let sum := rateSum q
  let lane (l : Nat) : Bytes :=
    let x := laneAt q l
    let w := if x.state = 1 && decide (0 < sum) then (x.rate * 256 / sum).floor.toNat % 256 else 0
    le 1 x.state ++ le 1 x.reason ++ le 1 w ++ le 1 0 ++ le 4 x.rate.floor.toNat
  le 1 4 ++ le 1 q.service ++ le 2 (if q.owner = deviceOwner then 0xFFFE else if q.owner < 16 then 0xFFFF else q.owner - 16) ++
  le 4 n ++ le 4 0 ++ le 1 q.state ++ le 1 q.mtu ++ le 1 q.lanesUsed ++ le 1 q.peerMask ++ le 4 q.pd ++ le 4 q.sendCq ++
  le 4 q.recvCq ++ le 4 (q.srq.getD 0xFFFFFFFF) ++ le 1 q.sDepth ++ le 1 q.rDepth ++ le 1 q.retry ++ le 1 q.rnrRetry ++
  le 1 q.ackTime ++ le 1 q.rnrTimer ++ le 1 q.tclass ++ le 1 q.prio ++ le 4 q.destQpn ++ le 4 q.qkey ++ le 4 q.sendPsn ++
  le 4 q.recvPsn ++ le 1 q.readsOut ++ le 1 q.readsIn ++ le 1 q.gid ++ le 1 q.hop ++ le 2 q.sport ++ le 1 q.rights ++ le 1 0 ++
  padTo 16 q.destIp ++ padTo 6 q.destMac ++ le 42 0 ++ (List.range 8).flatMap lane

/-- Op 0x04. -/
def queryQp (by_ : Issuer) (arg : Bytes) (owner : Nat) (s : State) : State :=
  let n := field arg 4 4
  match ownQp s owner n with
  | none => rdmaFail by_ 3 n s
  | some q => rdmaAnswer by_ 0 (rdmaResult 0 q.state q.lanesUsed n 0 0 ++ queryBlock n q) s

/-- QUERY_QP (R340, R342, R362). -/
def execQueryQp (by_ : Issuer) (arg : Bytes) (s : State) : Host.Outcome State Fault Refusal :=
  .next (rdmaCmd by_ arg 4 (queryQp by_ arg) s)

/-! ### SRQs, address handles, GIDs (R341) -/

/-- Op 0x08. -/
def createSrq (by_ : Issuer) (arg : Bytes) (owner : Nat) (s : State) : State :=
  let d := field arg 8 1
  if !(argZero arg [(1, 1), (9, 3), (0x10, 112)] && decide (4 ≤ d) && decide (d ≤ 15)) then rdmaFail by_ 1 0 s
  else if !(rdmaRoom s owner 65536 (vfSrqs s.io) (fun p => (s.rdma.srqs.filter (fun x => p x.2.owner)).length) &&
      decide (s.rdma.srqs.length < 65536) && workRoom s (64 * 2 ^ d)) then rdmaFail by_ 2 0 s
  else
    match pickFree (fun k => (mget s.rdma.srqs k).isSome) 0 65536 s.io with
    | (none, _) => rdmaFail by_ 2 0 s
    | (some k, io) =>
      let x : Srq := { owner := owner, pd := field arg 4 4, depth := d, limit := field arg 0xC 4, armed := true, rq := [] }
      rdmaAnswer by_ 0 (rdmaResult 0 0 0 k 0 0) (onRdma (fun r => { r with srqs := mput r.srqs k x }) { s with io := io })

/-- CREATE_SRQ (R341). -/
def execCreateSrq (by_ : Issuer) (arg : Bytes) (s : State) : Host.Outcome State Fault Refusal :=
  .next (rdmaCmd by_ arg 8 (createSrq by_ arg) s)

/-- The SRQ a command names, if it is of the owner. -/
def ownSrq (s : State) (owner n : Nat) : Option Srq :=
  match mget s.rdma.srqs n with
  | some x => if x.owner = owner then some x else none
  | none => none

/-- Op 0x09. -/
def destroySrq (by_ : Issuer) (arg : Bytes) (owner : Nat) (s : State) : State :=
  let n := field arg 4 4
  if !argZero arg [(1, 1), (8, 120)] then rdmaFail by_ 1 n s
  else
    match ownSrq s owner n with
    | none => rdmaFail by_ 3 n s
    | some _ =>
      if s.rdma.qps.any (fun p => p.2.srq == some n) then rdmaFail by_ 5 n s
      else rdmaAnswer by_ 0 (rdmaResult 0 0 0 n 0 0) (onRdma (fun r => { r with srqs := mdel r.srqs n }) s)

/-- DESTROY_SRQ (R339, R341). -/
def execDestroySrq (by_ : Issuer) (arg : Bytes) (s : State) : Host.Outcome State Fault Refusal :=
  .next (rdmaCmd by_ arg 9 (destroySrq by_ arg) s)

/-- R341: an armed SRQ whose available work requests are below its limit raises event 0x0B03 once. -/
def srqLimit (n : Nat) (s : State) : State :=
  match mget s.rdma.srqs n with
  | none => s
  | some x =>
    if x.armed && decide (x.rq.length < x.limit) then
      rdmaEvent x.owner 0x0B03 n x.rq.length [] (onRdma (fun r => { r with srqs := mput r.srqs n { x with armed := false } }) s)
    else s

/-- Op 0x0A. -/
def armSrq (by_ : Issuer) (arg : Bytes) (owner : Nat) (s : State) : State :=
  let n := field arg 4 4
  if !argZero arg [(1, 1), (0xC, 116)] then rdmaFail by_ 1 n s
  else
    match ownSrq s owner n with
    | none => rdmaFail by_ 3 n s
    | some x =>
      rdmaAnswer by_ 0 (rdmaResult 0 0 0 n 0 0)
        (onRdma (fun r => { r with srqs := mput r.srqs n { x with limit := field arg 8 4, armed := true } }) s)

/-- ARM_SRQ (R341). -/
def execArmSrq (by_ : Issuer) (arg : Bytes) (s : State) : Host.Outcome State Fault Refusal :=
  .next (rdmaCmd by_ arg 0xA (armSrq by_ arg) s)

/-- Op 0x0C. -/
def createAh (by_ : Issuer) (arg : Bytes) (owner : Nat) (s : State) : State :=
  if !(argZero arg [(1, 1), (0xA, 6), (0x26, 90)] && decide (field arg 4 1 ≤ 15) && decide (field arg 7 1 ≤ 7) && field arg 6 1 % 4 == 0) then
    rdmaFail by_ 1 0 s
  else if 262144 ≤ s.rdma.ahs.length then rdmaFail by_ 2 0 s
  else
    match pickFree (fun k => (mget s.rdma.ahs k).isSome) 0 262144 s.io with
    | (none, _) => rdmaFail by_ 2 0 s
    | (some k, io) =>
      rdmaAnswer by_ 0 (rdmaResult 0 0 0 k 0 0)
        (onRdma (fun r => { r with ahs := mput r.ahs k { owner := owner, arg := arg } }) { s with io := io })

/-- CREATE_AH (R341). -/
def execCreateAh (by_ : Issuer) (arg : Bytes) (s : State) : Host.Outcome State Fault Refusal :=
  .next (rdmaCmd by_ arg 0xC (createAh by_ arg) s)

/-- The address handle of an index, if it is of the owner. -/
def ownAh (s : State) (owner n : Nat) : Option Ah :=
  match mget s.rdma.ahs n with
  | some x => if x.owner = owner then some x else none
  | none => none

/-- Op 0x0D. -/
def destroyAh (by_ : Issuer) (arg : Bytes) (owner : Nat) (s : State) : State :=
  let n := field arg 4 4
  if !argZero arg [(1, 1), (8, 120)] then rdmaFail by_ 1 n s
  else
    match ownAh s owner n with
    | none => rdmaFail by_ 3 n s
    | some _ => rdmaAnswer by_ 0 (rdmaResult 0 0 0 n 0 0) (onRdma (fun r => { r with ahs := mdel r.ahs n }) s)

/-- DESTROY_AH (R341). -/
def execDestroyAh (by_ : Issuer) (arg : Bytes) (s : State) : Host.Outcome State Fault Refusal :=
  .next (rdmaCmd by_ arg 0xD (destroyAh by_ arg) s)

/-- Op 0x0E. -/
def setGid (by_ : Issuer) (arg : Bytes) (owner : Nat) (s : State) : State :=
  let i := field arg 4 1
  let v := field arg 5 1
  if !(argZero arg [(1, 1), (6, 10), (0x20, 96)] && decide (i ≤ 15) && decide (v ≤ 1)) then rdmaFail by_ 1 i s
  else
    rdmaAnswer by_ 0 (rdmaResult 0 0 0 i 0 0) (onRdma (fun r => { r with
      gids := if v = 1 then mput r.gids (owner * 16 + i) (slice arg 0x10 16) else mdel r.gids (owner * 16 + i) }) s)

/-- SET_GID (R337, R341). -/
def execSetGid (by_ : Issuer) (arg : Bytes) (s : State) : Host.Outcome State Fault Refusal :=
  .next (rdmaCmd by_ arg 0xE (setGid by_ arg) s)

/-! ### Memory regions (R344, R365) -/

/-- R344: the tag after `t`. -/
def nextTag (t : Nat) : Nat := if 0xFFF ≤ t then 1 else t + 1

/-- Op 0x10. -/
def regMr (by_ : Issuer) (arg : Bytes) (owner : Nat) (s : State) : State :=
  let len := field arg 0x18 8
  if !(argZero arg [(0x20, 96)] && decide (field arg 1 1 < 4) && decide (1 ≤ len) && decide (len ≤ 2 ^ 40)) then rdmaFail by_ 1 0 s
  else if !rdmaRoom s owner (2 ^ 20) (vfMrs s.io) (fun p => (s.rdma.mrs.filter (fun x => p x.2.owner)).length) then rdmaFail by_ 2 0 s
  else
    match pickFrom (fun k => (mget s.rdma.mrs k).isSome) 0 (2 ^ 20) 0 (2 ^ 20) with
    | none => rdmaFail by_ 2 0 s
    | some k =>
      let t := nextTag (mgetD s.rdma.tags k 0)
      let x : Mr := { owner := owner, tag := t, pd := field arg 4 4, va := field arg 8 8, host := field arg 0x10 8, len := len,
                      rights := field arg 1 1, closing := none }
      rdmaAnswer by_ 0 (rdmaResult 0 0 0 (t * 2 ^ 20 + k) 0 0)
        (on (notFresh owner) (onRdma (fun r => { r with mrs := mput r.mrs k x, tags := mput r.tags k t }) s))

/-- REG_MR (R341, R344). -/
def execRegMr (by_ : Issuer) (arg : Bytes) (s : State) : Host.Outcome State Fault Refusal :=
  .next (rdmaCmd by_ arg 0x10 (regMr by_ arg) s)

/-- The region a key names, if it is of the owner. -/
def ownMr (s : State) (owner key : Nat) : Option Mr :=
  match mget s.rdma.mrs (key % 2 ^ 20) with
  | some x => if x.owner = owner && x.tag == key / 2 ^ 20 then some x else none
  | none => none

/-- Op 0x11: the region is closing in every engine. -/
def revokeMr (by_ : Issuer) (arg : Bytes) (owner : Nat) (s : State) : State :=
  let key := field arg 4 4
  if !argZero arg [(1, 1), (8, 120)] then rdmaFail by_ 1 key s
  else
    match ownMr s owner key with
    | none => rdmaFail by_ 3 key s
    | some x =>
      if x.closing.isSome then rdmaFail by_ 5 key s
      else rdmaProgress by_ key
        (onRdma (fun r => { r with mrs := mput r.mrs (key % 2 ^ 20) { x with closing := some (by_, s.io.now) } }) s)

/-- REVOKE_MR (R365, steps 1 and 2). -/
def execRevokeMr (by_ : Issuer) (arg : Bytes) (s : State) : Host.Outcome State Fault Refusal :=
  .next (rdmaCmd by_ arg 0x11 (revokeMr by_ arg) s)

/-- R365 step 4: the index is free; the tag stays as issued. -/
def revokeDone (key : Nat) (s : State) : State :=
  match mget s.rdma.mrs (key % 2 ^ 20) with
  | none => s
  | some x =>
    match x.closing with
    | none => s
    | some (b, t) =>
      if x.tag ≠ key / 2 ^ 20 then s
      else rdmaDone b (rdmaResult 0 2 0 key 0 ((s.io.now - t) / 1000))
        (onRdma (fun r => { r with mrs := mdel r.mrs (key % 2 ^ 20) }) s)

/-- REVOKE_MR_DONE (R365, step 4). -/
def execRevokeMrDone (key : Nat) (s : State) : Host.Outcome State Fault Refusal := .next (revokeDone key s)

/-- Op 0x12. -/
def queryMr (by_ : Issuer) (arg : Bytes) (owner : Nat) (s : State) : State :=
  let key := field arg 4 4
  if !argZero arg [(1, 1), (8, 120)] then rdmaFail by_ 1 key s
  else
    match ownMr s owner key with
    | none => rdmaFail by_ 3 key s
    | some x =>
      let block := le 1 0x10 ++ le 1 x.rights ++ slice arg 2 2 ++ le 4 x.pd ++ le 8 x.va ++ le 8 x.host ++ le 8 x.len ++ le 96 0
      rdmaAnswer by_ 0 (rdmaResult 0 (b2n x.closing.isSome) 0 key 0 0 ++ block) s

/-- QUERY_MR (R342, R365). -/
def execQueryMr (by_ : Issuer) (arg : Bytes) (s : State) : Host.Outcome State Fault Refusal :=
  .next (rdmaCmd by_ arg 0x12 (queryMr by_ arg) s)

/-! ### Posting (R346 to R349) -/

/-- The opcodes R348 defines. -/
def workOps : List Nat := [0x10, 0x11, 0x12, 0x13, 0x14, 0x18, 0x1C]

/-- Data elements an opcode may have on a service, least and most (R348). -/
def workElems (op service : Nat) : Nat × Nat :=
  match op with
  | 0x12 => (0, 2)
  | 0x13 => (0, 2)
  | 0x14 => (1, 2)
  | 0x18 => (1, 3)
  | 0x1C => (0, 0)
  | _ => (0, if service = 2 then 2 else 3)

/-- The elements of a work request. -/
def workData (f : Fetched) : List (Nat × Nat) :=
  if (field f.entry 2 1).testBit 1 then f.elems
  else (List.range (min (field f.entry 3 1) 3)).map (fun k => ((elemAt f.entry 0x10 k).1, (elemAt f.entry 0x10 k).2.1))

/-- R348: counts and lengths fit. -/
def workFits (f : Fetched) (op service mtu : Nat) : Bool :=
  let sgl := (field f.entry 2 1).testBit 1
  let n := field f.entry 3 1
  let d := workData f
  let len : Nat := (d.map (fun (e : Nat × Nat) => e.2)).sum
  (if sgl then n == 0 && op != 0x1C else decide ((workElems op service).1 ≤ n) && decide (n ≤ (workElems op service).2)) &&
  d.all (fun e => e.2 != 0) && decide (len ≤ 2 ^ 31) && (service != 2 || op == 0x18 || op == 0x1C || decide (len ≤ mtu))

/-- R347, R348: every reserved field is zero. -/
def workClean (f : Fetched) (op service : Nat) : Bool :=
  let b := f.entry
  let sgl := (field b 2 1).testBit 1
  let n := if sgl then 1 else min (field b 3 1) 3
  let tail := if op = 0x10 || op = 0x11 then (if service = 2 then 2 else 0) else if op = 0x18 then 0 else if op = 0x1C then 0 else 1
  bits (field b 0 1) 3 1 == 0 && field b 2 1 / 4 == 0 && field b 0xB 1 / 8 == 0 &&
  (List.range n).all (fun k => (elemAt b 0x10 k).2.2.2 == 0) &&
  (if op = 0x1C then decide (field b 0x14 1 ≤ 1) && allZero (slice b 0x15 43)
   else
     allZero (slice b (0x10 + 16 * n) ((if tail = 0 then 48 else 32) - 16 * n)) && (tail == 0 || allZero (slice b 0x3C 4)))

/-- The work request an entry holds. -/
def workOf (ring : Nat) (f : Fetched) : Work :=
  let d := workData f
  { ring := ring, counter := f.counter, op := f.opcode, tag := f.tag, suppress := f.suppress,
    fence := (field f.entry 0xB 1).testBit 0, sol := (field f.entry 0xB 1).testBit 1, value := field f.entry 0xC 4, elems := d,
    body := slice f.entry 0x10 48, len := (d.map (·.2)).sum, msg := 0, rsn := 0, started := false, next := 0, sent := false,
    got := 0 }

/-- The post-ring entry ends: consumed without a completion, or with a posting fault. -/
def postEnd (ring : Nat) (r : Ring) (f : Fetched) (status : Nat) (s : State) : State :=
  if status ≠ 0 then on (finish ring f.counter (cplOf ring r f status 0 0 (time64 s.io) (le 4 (field f.entry 8 3) ++ le 1 f.opcode))) s
  else
    on (fun io => deliver ring (ringPut ring { r with fetched := r.fetched.map (fun g =>
      if g.counter == f.counter && g.done.isNone then { g with started := true, done := some none } else g) } io)) s

/-- R349: the checks of a work request for a QP in their order, after the first. -/
def qpPostStatus (r : Ring) (f : Fetched) (q : Qp) : Nat :=
  let op := f.opcode
  let recv := op == 0x18
  let kindOk := workOps.contains op && r.kind == (if recv then 0x11 else 0x10) &&
    (q.service == 1 || !([0x12, 0x13, 0x14].contains op)) && !(recv && q.srq.isSome)
  let stateOk := if recv then decide (1 ≤ q.state) else decide (3 ≤ q.state)
  let room := q.state == 4 || (if recv then decide (q.rq.length < 2 ^ q.rDepth) else decide (q.sq.length < 2 ^ q.sDepth))
  if !kindOk then 0x21 else if !stateOk then 0x22 else if !room then 0x23
  else if !workFits f op q.service (mtuOf q) then 2 else if !workClean f op q.service then 9 else 0

/-- A work request joins its QP; in ERROR it is flushed at once (R343). -/
def postQp (n : Nat) (q : Qp) (w : Work) (s : State) : State :=
  if w.op = 0x18 then
    if q.state = 4 then failRecv n 0x2B w s else qpPut n { q with rq := q.rq ++ [w] } s
  else if q.state = 4 then endSend n w 0x2B 0 s
  else sqAdvance n (qpPut n { q with sq := q.sq ++ [w] } s)

/-- R346, R349: a fetched work request is checked and queued. The row of an opcode takes its entries; an opcode R348
does not define is refused by any of them. -/
def post (op ring counter : Nat) (s : State) : State :=
  match ringOf s.io ring with
  | none => s
  | some r =>
    match fetchedAt r counter with
    | none => s
    | some f =>
      if r.kind < 0x10 || f.opcode = 0 || (f.opcode ≠ op && workOps.contains f.opcode) then s
      else
        let n := field f.entry 8 3
        if (field f.entry 0xB 1).testBit 2 then
          match ownSrq s r.owner n with
          | none => postEnd ring r f 0x20 s
          | some x =>
            if f.opcode ≠ 0x18 || r.kind ≠ 0x11 then postEnd ring r f 0x21 s
            else if 2 ^ x.depth ≤ x.rq.length then postEnd ring r f 0x23 s
            else if !workFits f 0x18 1 0 then postEnd ring r f 2 s
            else if !workClean f 0x18 1 then postEnd ring r f 9 s
            else postEnd ring r f 0 (onRdma (fun e => { e with srqs := mput e.srqs n { x with rq := x.rq ++ [workOf ring f] } }) s)
        else
          let s0 := cqLoss n s
          match ownQp s0 r.owner n with
          | none => postEnd ring r f 0x20 s
          | some q =>
            let st := qpPostStatus r f q
            if st ≠ 0 then postEnd ring r f st s0
            else
              match ringOf s0.io ring with
              | some r0 => postQp n q (workOf ring f) (postEnd ring r0 f 0 s0)
              | none => s0

/-- SEND (R348). -/
def execRdmaSend (ring : Nat) (counter : Word32) (s : State) : Host.Outcome State Fault Refusal :=
  .next (post 0x10 ring counter.toNat s)

/-- SEND_IMM (R348). -/
def execRdmaSendImm (ring : Nat) (counter : Word32) (s : State) : Host.Outcome State Fault Refusal :=
  .next (post 0x11 ring counter.toNat s)

/-- RDMA_WRITE (R348). -/
def execRdmaWrite (ring : Nat) (counter : Word32) (s : State) : Host.Outcome State Fault Refusal :=
  .next (post 0x12 ring counter.toNat s)

/-- RDMA_WRITE_IMM (R348). -/
def execRdmaWriteImm (ring : Nat) (counter : Word32) (s : State) : Host.Outcome State Fault Refusal :=
  .next (post 0x13 ring counter.toNat s)

/-- RDMA_READ (R348). -/
def execRdmaRead (ring : Nat) (counter : Word32) (s : State) : Host.Outcome State Fault Refusal :=
  .next (post 0x14 ring counter.toNat s)

/-- RECV (R348). -/
def execRdmaRecv (ring : Nat) (counter : Word32) (s : State) : Host.Outcome State Fault Refusal :=
  .next (post 0x18 ring counter.toNat s)

/-- WAIT (R348, R366). -/
def execRdmaWait (ring : Nat) (counter : Word32) (s : State) : Host.Outcome State Fault Refusal :=
  .next (post 0x1C ring counter.toNat s)

/-- R366: the WAIT at the head of a send queue whose condition holds completes, and the queue resumes. -/
def waitEnds (qpn : Nat) (s : State) : State :=
  match qpOf s qpn with
  | none => s
  | some q =>
    match sqHead q with
    | none => s
    | some i =>
      match q.sq[i]? with
      | none => s
      | some w =>
        if w.op ≠ 0x1C || q.state ≠ 3 then s
        else
          match waitTarget s q w with
          | none => qpError qpn (some i) none 0x25 0 s
          | some t =>
            if waitHolds t w then sqAdvance qpn (qpPut qpn { q with sq := q.sq.set i { w with sent := true, started := true } } s) else s

/-- WAIT_SATISFIED (R366). -/
def execWaitSatisfied (qpn : Nat) (s : State) : Host.Outcome State Fault Refusal := .next (waitEnds qpn (cqLoss qpn s))

end Sys2Proof.Machine
end

