-- ==== Sys2Proof/Machine/RdmaPackets.lean ====
section
/-!
DEFINITION. The requester and the responder of the RDMA engines: packets sent and received (R338, R345, R353 to R360), and
their timers.
Choices of the model coded here, by entry of the assumption log: DEDUCED 57, 60; PRESUMED 59.
-/
namespace Sys2Proof.Machine

/-! ### The requester (R356, R361) -/

/-- Whether a work request consumes a receive at the peer. -/
def consumes (op : Nat) : Bool := op == 0x10 || op == 0x11 || op == 0x13

/-- A completion ring is in OVERFLOW. -/
def cqFull (s : State) (k : Nat) : Bool := match ringOf s.io k with | some r => r.state == .overflow | none => false

/-- R347, R353, R356: a work request may start now. -/
def mayStart (s : State) (q : Qp) (i : Nat) (w : Work) : Bool :=
  let before := q.sq.take i
  !cqFull s q.sendCq && (!w.fence || before.all (fun v => v.op != 0x14 || workDone q v)) &&
  decide (((before.filter (fun v => v.started && v.op != 0x1C)).length) < 16384) &&
  (w.op != 0x14 || decide ((before.filter (fun v => v.op == 0x14 && !workDone q v)).length < q.readsOut))

/-- Packets of a message. -/
def packetsOf (q : Qp) (len : Nat) : Nat := max 1 (ceilDiv len (mtuOf q))

/-- BTH opcode of packet `k` of `n` of a request. -/
def reqOpcode (op k n : Nat) : Nat :=
  let imm := b2n (op == 0x11 || op == 0x13)
  if op = 0x14 then 0x0C
  else if op = 0x10 || op = 0x11 then (if n = 1 then 4 + imm else if k = 0 then 0 else if k + 1 = n then 2 + imm else 1)
  else (if n = 1 then 0xA + imm else if k = 0 then 6 else if k + 1 = n then 8 + imm else 7)

/-- The RETH of a work request (R347). -/
def rethOf (w : Work) : Bytes := be 8 (field w.body 0x20 8) ++ be 4 (field w.body 0x28 4) ++ be 4 w.len

/-- Packet `k` of a started work request, before it has a PSN. -/
def reqPacket (q : Qp) (w : Work) (k : Nat) (data : Bytes) : RPkt :=
  let n := if w.op = 0x14 then 1 else packetsOf q w.len
  let last := decide (k + 1 = n)
  let reth := w.op == 0x14 || ((w.op == 0x12 || w.op == 0x13) && (q.lp || k == 0))
  let imm := last && (w.op == 0x11 || w.op == 0x13)
  { psn := 0, span := if w.op = 0x14 then packetsOf q w.len else 1, msg := w.msg, off := k, rsn := w.rsn, last := last,
    sol := last && w.sol, resync := false, op := reqOpcode w.op k n,
    body := (if reth then rethOf w else []) ++ (if imm then be 4 w.value else []) ++ data, tries := 0, sentAt := 0 }

/-- The work request at position `i` starts: it takes its message number and RSN. -/
def startWork (q : Qp) (i : Nat) (w : Work) : Qp × Work :=
  let w' := { w with started := true, msg := q.msgNext, rsn := q.rsnNext }
  ({ q with
     sq := q.sq.set i w', msgNext := (q.msgNext + 1) % 2 ^ 24,
     rsnNext := if consumes w.op then (q.rsnNext + 1) % 2 ^ 16 else q.rsnNext }, w')

/-- A UD message leaves as one packet and ends with it (R336). -/
def sendUd (qpn i : Nat) (w : Work) (data : Bytes) (s : State) : State :=
  match qpOf s qpn with
  | none => s
  | some q =>
    let n := field w.body 0x20 4
    match ownAh s q.owner n with
    | none => qpError qpn (some i) none 0x24 0 s
    | some h =>
      let way : Way := {
        ip := slice h.arg 0x10 16, mac := slice h.arg 0x20 6, src := mgetD s.rdma.gids (q.owner * 16 + field h.arg 4 1) [],
        qpn := field w.body 0x24 4 % 2 ^ 24, hop := field h.arg 5 1, tclass := field h.arg 6 1, prio := field h.arg 7 1,
        sport := portBase qpn (field h.arg 8 2) }
      let imm := w.op == 0x11
      let deth := be 4 (field w.body 0x28 4) ++ be 4 qpn
      let bth := bthBytes (if imm then 0x65 else 0x64) way.qpn q.sendPsn w.sol false (deth ++ (if imm then be 4 w.value else []) ++ data)
      let q' := pace { q with sendPsn := (q.sendPsn + 1) % 2 ^ 24, sq := q.sq.set i { w with sent := true } } s.io (bth.length + 70)
      sqAdvance qpn (sendPacket qpn q way bth (qpPut qpn q' s))

/-- The next packet of the started work request at position `i`, with its data. -/
def sendRc (qpn i : Nat) (w : Work) (data : Bytes) (s : State) : State :=
  match qpOf s qpn with
  | none => s
  | some q =>
    let n := if w.op = 0x14 then 1 else packetsOf q w.len
    let w' := { w with next := w.next + 1, sent := decide (n ≤ w.next + 1) }
    match pickLane { q with sq := q.sq.set i w' } with
    | (none, _) => s
    | (some l, q') => waitCheck qpn (dealPacket qpn l (reqPacket q w w.next data) (qpPut qpn q' s))

/-- R356, R361: the requester sends the next packet of the QP, at its paced rate. -/
def requestSend (qpn : Nat) (mem : HostRead) (s : State) : State :=
  match qpOf s qpn with
  | none => s
  | some q =>
    match sqHead q with
    | none => s
    | some i =>
      match q.sq[i]? with
      | none => s
      | some w =>
        if q.state ≠ 3 || q.rnrHold.isSome || w.op = 0x1C || frozen s.io q.owner || !engineRuns s (homeRegion qpn) ||
            !(w.started || mayStart s q i w) then s
        else
          let s1 := on (reach q.paceAt) s
          let (q1, w1) := if w.started then (q, w) else startWork q i w
          let s2 := makeResident qpn (qpPut qpn q1 s1)
          let here := if w.op = 0x14 then 0 else min (mtuOf q) (w.len - w.next * mtuOf q)
          match (if here = 0 then HostRead.data [] else mem) with
          | .fail c => qpError qpn (some i) none (if c = 1 then 4 else 5) 0 s2
          | .data d => if q.service = 2 then sendUd qpn i w1 (padTo here d) s2 else sendRc qpn i w1 (padTo here d) s2

/-- REQUEST_PACKET_SEND (R336, R337, R353, R355, R356, R360, R361). -/
def execRequestPacketSend (qpn : Nat) (mem : HostRead) (s : State) : Host.Outcome State Fault Refusal :=
  .next (requestSend qpn mem (cqLoss qpn s))

/-! ### Packets that reach an engine (R337, R338) -/

/-- The oldest packet released to engine `r`. -/
def rdmaHead (s : State) (r : Nat) : Option Pkt := (mgetD s.net.rdmaQ r []).head?

/-- It is taken from the queue. -/
def rdmaTake (r : Nat) (s : State) : State :=
  { s with net := { s.net with rdmaQ := mupd s.net.rdmaQ r [] (·.drop 1) } }

/-- R338, R343, R367: why a packet is dropped before it is looked at: an element of 0B:0020, 0 for a drop that is not
counted; none where it goes on. -/
def rxDrop (s : State) (r : Nat) (x : Rx) : Option Nat :=
  if !engineRuns s r then some 8
  else if !x.icrcOk then some 1
  else
    match qpOf s x.qpn with
    | none => some 2
    | some q =>
      if !((List.range 16).any (fun i => mget s.rdma.gids (q.owner * 16 + i) == some x.dst)) then some 3
      else if q.state = 2 || q.state = 3 then (if frozen s.io q.owner then some 0 else none)
      else some 4

/-- The packet is dropped and, but for element 0, counted. -/
def rxCount (e : Nat) (s : State) : State := if e = 0 then s else on (bump64 0x0B0020 e) s

/-- What a packet is for: request 0, ACK 1, NAK 2, READ response 3, CNP 4; the AETH follows the lane header. -/
def rxKind (q : Qp) (x : Rx) : Nat :=
  if x.op = 0x81 then 4
  else if x.op = 0x11 then (if fb x.body (if q.lp then 8 else 0) 1 / 32 % 4 = 0 then 1 else 2)
  else if 0x0D ≤ x.op && x.op ≤ 0x10 then 3 else 0

/-- A row takes the oldest packet of engine `r`. A packet R338 drops is dropped whichever row it is; a packet whose
context is not resident is set aside; one of another kind stays. -/
def rdmaRow (r kind : Nat) (f : Nat → Qp → Rx → Pkt → State → State) (s : State) : State :=
  match rdmaHead s r with
  | none => s
  | some k =>
    let x := rxOf k.frame
    let s0 := cqLoss x.qpn s
    match rxDrop s0 r x with
    | some e => rxCount e (rdmaTake r s0)
    | none =>
      match qpOf s0 x.qpn with
      | none => s0
      | some q =>
        if !isResident s0 x.qpn then
          onRdma (fun e => { e with parked := e.parked ++ [(x.qpn, k)] }) (rdmaTake r s0)
        else if rxKind q x ≠ kind then s
        else f x.qpn q x k (rdmaTotals (makeResident x.qpn (rdmaTake r s0)))

/-- R337: a context arrives; the packets that waited for it stand before the engine again. -/
def contextFetched (qpn : Nat) (s : State) : State :=
  if (qpOf s qpn).isNone || isResident s qpn then s
  else
    let mine := s.rdma.parked.filter (fun p => p.1 == qpn)
    let s1 := onRdma (fun e => { e with parked := e.parked.filter (fun p => p.1 != qpn) }) (rdmaTotals (makeResident qpn s))
    { s1 with net := { s1.net with rdmaQ := mupd s1.net.rdmaQ (homeRegion qpn) [] (fun l => mine.map (·.2) ++ l) } }

/-- CONTEXT_FETCH_DONE (R337). -/
def execContextFetchDone (qpn : Nat) (s : State) : Host.Outcome State Fault Refusal := .next (contextFetched qpn s)

/-! ### The lane header of a packet -/

/-- Lane header and body of a packet of a QP; on a plain connection the header it stands for. -/
structure Leh where
  msg  : Nat
  off  : Nat
  rsn  : Nat
  lane : Nat
  last : Bool
  resync : Bool
  /-- it is malformed (R363) -/
  bad  : Bool
  body : Bytes
  deriving DecidableEq, Repr

/-- Whether a request opcode ends its message. -/
def lastOp (op : Nat) : Bool := [2, 3, 4, 5, 8, 9, 0xA, 0xB, 0xC].contains op

/-- R355, R360: the header of a packet. -/
def lehOf (q : Qp) (x : Rx) : Leh :=
  if q.lp then
    let v := fb x.body 0 8
    { msg := bits v 63 40, off := bits v 39 24, rsn := bits v 23 8, lane := bits v 7 5, last := v.testBit 4, resync := v.testBit 1,
      bad := bits v 3 2 != 1 || v.testBit 0 || decide (q.lanesUsed ≤ bits v 7 5) || decide (x.body.length < 8), body := x.body.drop 8 }
  else
    { msg := q.rxMsg, off := q.rxOff, rsn := q.rxSeq, lane := 0, last := lastOp x.op, resync := false, bad := false, body := x.body }

/-! ### Violations at the responder (R363) -/

/-- An invalid request: NAK, ERROR, event, journal, 0B:0021.06. `failed` is a receive that ends with 0x24. -/
def rxInvalid (qpn lane psn op reason : Nat) (failed : Option Nat) (s : State) : State :=
  match qpOf s qpn with
  | none => s
  | some q =>
    let st := if reason = 4 then 0x24 else 0x27
    qpError qpn none failed st 0
      (on (violate 0x0403 (rdmaPartner qpn q.destQpn) (le 1 reason ++ le 1 op)) (on (bump64 0x0B0021 6) (sendAeth qpn lane psn 0x61 s)))

/-- A remote access violation: NAK, ERROR, event 0x0B02, journal, 0B:0021 by cause. -/
def rxAccess (qpn lane psn cause key : Nat) (src : Bytes) (s : State) : State :=
  match qpOf s qpn with
  | none => s
  | some q =>
    let s1 := on (bump64 0x0B0021 cause) (sendAeth qpn lane psn 0x62 s)
    let s2 := on (violate 0x0401 (rdmaPartner qpn q.destQpn) (le 4 key ++ le 1 cause)) s1
    rdmaEvent q.owner 0x0B02 qpn cause (src ++ le 4 q.destQpn ++ le 4 key) (qpFlush qpn none none 0x26 cause s2)

/-- A placement the host refused or failed: NAK Remote Operational Error. -/
def rxOperational (qpn lane psn : Nat) (s : State) : State :=
  qpError qpn none none 0x28 0 (sendAeth qpn lane psn 0x63 s)

/-! ### Memory regions (R344, R345) -/

/-- R345: the cause of a refusal of `n` bytes at offset `off` of a message's RETH range, if any. -/
def mrCheck (s : State) (q : Qp) (key va len off n : Nat) (write : Bool) : Option Nat :=
  match mget s.rdma.mrs (key % 2 ^ 20) with
  | none => if mget s.rdma.tags (key % 2 ^ 20) = some (key / 2 ^ 20) then some 2 else some 1
  | some m =>
    let bit := if write then 1 else 0
    if m.tag ≠ key / 2 ^ 20 then some 1
    else if m.closing.isSome then some 2
    else if m.owner ≠ q.owner || m.pd ≠ q.pd then some 3
    else if !(m.rights.testBit bit && q.rights.testBit (1 - bit)) then some 4
    else if len < off + n || va + off < m.va || m.va + m.len < va + off + n then some 5
    else none

/-- The host address of an offset of a RETH range. -/
def mrAddr (s : State) (key va off : Nat) : Nat :=
  match mget s.rdma.mrs (key % 2 ^ 20) with
  | some m => m.host + (va - m.va) + off
  | none => 0

/-- Placing data at an address of the QP's owner: host memory, or attached memory for the device. False where it is
refused. -/
def placeAt (q : Qp) (a : Nat) (d : Bytes) (mem : HostRead) (s : State) : Bool × State :=
  if d.isEmpty then (true, s)
  else if q.owner = deviceOwner then
    let r := coreWrite a d s
    (r.1.isNone, r.2)
  else
    match mem with
    | .fail _ => (false, s)
    | .data _ => (true, on (hostWrite q.owner a d) s)

/-- The elements of a buffer from byte `off` on. -/
def elemsFrom : List (Nat × Nat) → Nat → List (Nat × Nat)
  | [], _ => []
  | (a, n) :: es, off => if n ≤ off then elemsFrom es (off - n) else (a + off, n - off) :: es

/-- Placing data at an offset of a buffer's concatenated elements. -/
def placeBuf (q : Qp) (es : List (Nat × Nat)) (off : Nat) (d : Bytes) (mem : HostRead) (s : State) : Bool × State :=
  if d.isEmpty then (true, s)
  else match mem with
    | .fail _ => (false, s)
    | .data _ => (true, on (writeElems q.owner (elemsFrom es off) d) s)

/-! ### Receives (R352, R357) -/

/-- The receives a QP draws from. -/
def rqOf (s : State) (q : Qp) : List Work :=
  match q.srq with
  | none => q.rq
  | some n => match mget s.rdma.srqs n with | some x => x.rq | none => []

/-- RSN order modulo 2^16. -/
def rsnBelow (a b : Nat) : Bool := let d := (b + 2 ^ 16 - a % 2 ^ 16) % 2 ^ 16; decide (0 < d) && decide (d < 2 ^ 15)

/-- R357: receives are bound, in order, to every RSN up to `rsn`; false where there are too few, and then none is. -/
def bindUpTo (qpn rsn : Nat) (s : State) : Bool × State :=
  match qpOf s qpn with
  | none => (false, s)
  | some q =>
    if rsnBelow rsn q.rxBind then (true, s)
    else
      let n := (rsn + 2 ^ 16 - q.rxBind) % 2 ^ 16 + 1
      let l := rqOf s q
      if l.length < n then (false, s)
      else
        let add := (l.take n).zipIdx.foldl (fun (m : List (Nat × Work)) (w : Work × Nat) => mput m ((q.rxBind + w.2) % 2 ^ 16) w.1) q.bound
        let q' := { q with bound := add, rxBind := (rsn + 1) % 2 ^ 16, rq := if q.srq.isNone then l.drop n else q.rq }
        let s1 := qpPut qpn q' s
        match q.srq with
        | none => (true, s1)
        | some k =>
          match mget s1.rdma.srqs k with
          | none => (true, s1)
          | some x => (true, srqLimit k (onRdma (fun e => { e with srqs := mput e.srqs k { x with rq := l.drop n } }) s1))

/-- R352: receive completions whose turn has come. -/
def recvDrain (qpn : Nat) : Nat → State → State
  | 0, s => s
  | n + 1, s =>
    match qpOf s qpn with
    | none => s
    | some q =>
      match mget q.ready q.rxRsn with
      | none => s
      | some c =>
        recvDrain qpn n (endRecv qpn c (qpPut qpn { q with
          ready := mdel q.ready q.rxRsn, bound := mdel q.bound q.rxRsn, rxRsn := (q.rxRsn + 1) % 2 ^ 16 } s))

/-- The cumulative complete number moves past the messages that are complete. -/
def msgAdvance : Nat → Qp → Qp
  | 0, q => q
  | n + 1, q =>
    if q.rxDone.contains q.rxMsg then
      msgAdvance n { q with rxMsg := (q.rxMsg + 1) % 2 ^ 24, rxDone := q.rxDone.filter (· != q.rxMsg) }
    else q

/-- A message is complete. -/
def msgComplete (qpn msg : Nat) (s : State) : State :=
  match qpOf s qpn with
  | none => s
  | some q => qpPut qpn (msgAdvance (q.rxDone.length + 1) { q with rxDone := sadd q.rxDone msg, asm := mdel q.asm msg }) s

/-- Whether a message is a duplicate: below the cumulative number, or complete above it. -/
def msgOld (q : Qp) (msg : Nat) : Bool :=
  let d := (q.rxMsg + 2 ^ 24 - msg % 2 ^ 24) % 2 ^ 24
  (decide (0 < d) && decide (d < 2 ^ 23)) || q.rxDone.contains msg

/-- The expected PSN advances, and the packet is owed an acknowledgement, sent at the 32nd (R358). -/
def inSequence (qpn lane psn span : Nat) (s : State) : State :=
  match qpOf s qpn with
  | none => s
  | some q =>
    let x := laneAt q lane
    let x' := { x with
      expect := (psn + span) % 2 ^ 24, nakSent := false, owed := x.owed + 1, owedAt := if x.owed = 0 then s.io.now else x.owedAt }
    let s1 := qpPut qpn (lanePut lane x' q) s
    if 32 ≤ x'.owed then sendAck qpn lane s1 else s1

/-- R353, R357: no receive for a message: RNR NAK of the expected packet. -/
def rnrNak (qpn lane psn : Nat) (s : State) : State :=
  match qpOf s qpn with
  | none => s
  | some q => sendAeth qpn lane psn (0x20 + q.rnrTimer) s

/-! ### SEND and WRITE packets (R357) -/

/-- Fields of a SEND or WRITE packet after the lane header. -/
structure Data where
  reth : Option (Nat × Nat × Nat)
  imm  : Option Nat
  data : Bytes
  deriving DecidableEq, Repr

/-- What a SEND or WRITE packet carries: RETH on the first packet of a WRITE, on every one of a lane connection. -/
def dataOf (q : Qp) (op : Nat) (b : Bytes) : Data :=
  let hasReth := op == 6 || op == 0xA || op == 0xB || (q.lp && 6 ≤ op && op ≤ 0xB)
  let b1 := if hasReth then b.drop 16 else b
  let hasImm := [3, 5, 9, 0xB].contains op
  { reth := if hasReth then some (fb b 0 8, fb b 8 4, fb b 12 4) else none, imm := if hasImm then some (fb b1 0 4) else none,
    data := if hasImm then b1.drop 4 else b1 }

/-- The assembly record of a message: the one it has, or a new one. -/
def asmFor (q : Qp) (h : Leh) (op : Nat) (d : Data) : Asm :=
  match mget q.asm h.msg with
  | some a => a
  | none =>
    { base := if op < 6 then 0 else 6, rsn := h.rsn, va := (d.reth.map (·.1)).getD 0, key := (d.reth.map (·.2.1)).getD 0,
      len := (d.reth.map (·.2.2)).getD 0, got := [], count := none, bytes := 0, imm := none, sol := false }

/-- R357, R363: offset, count or length of a packet do not fit its message. -/
def inconsistent (q : Qp) (h : Leh) (op : Nat) (d : Data) (a : Asm) : Bool :=
  let first := [0, 4, 5, 6, 0xA, 0xB].contains op
  a.base != (if op < 6 then 0 else 6) || lastOp op != h.last || (first != (h.off == 0)) ||
  (if h.last then decide (mtuOf q < d.data.length) else d.data.length != mtuOf q) ||
  (match a.count with | some c => decide (c ≤ h.off) | none => false) ||
  (h.last && a.got.any (fun o => decide (h.off < o))) ||
  (6 ≤ op && q.lp && (match d.reth with | some t => decide (t ≠ (a.va, a.key, a.len)) | none => true))

/-- R357: a message whose every packet is placed completes; one that consumes a receive hands its completion over in RSN
order. -/
def dataComplete (qpn msg : Nat) (a : Asm) (s : State) : State :=
  match qpOf s qpn with
  | none => s
  | some q =>
    let s1 := msgComplete qpn msg s
    let takes := a.base == 0 || a.imm.isSome
    let plain (s : State) : State :=
      match qpOf s qpn with
      | some q => if q.lp then s else qpPut qpn { q with rxOff := 0, rxSeq := if takes then (q.rxSeq + 1) % 2 ^ 16 else q.rxSeq } s
      | none => s
    if !takes then plain s1
    else
      match mget q.bound a.rsn, qpOf s1 qpn with
      | some w, some q1 =>
        let op := if a.base = 6 then 0x13 else if a.imm.isSome then 0x11 else 0x10
        let c := workCpl s1 qpn q1 0x11 w 0 a.bytes 0 op (b2n a.imm.isSome + 2 * b2n a.sol) msg (a.imm.getD 0) []
        plain (recvDrain qpn (q1.ready.length + 1) (qpPut qpn { q1 with ready := mput q1.ready a.rsn c } s1))
      | _, _ => s1

/-- Records in use against the pool 0B:0003: 8 KiB hold one bit per offset. -/
def asmRoom (s : State) (q : Qp) (h : Leh) : Bool :=
  !q.lp || (mget q.asm h.msg).isSome ||
  decide ((s.rdma.qps.map (fun p => if p.2.lp then p.2.asm.length else 0)).sum < s.rdma.asmPool * 128)

/-- A data packet in sequence is placed. -/
def rxPlace (qpn psn : Nat) (h : Leh) (op : Nat) (d : Data) (a : Asm) (sol : Bool) (mem : HostRead) (s : State) : State :=
  match qpOf s qpn with
  | none => s
  | some q =>
    let off := h.off * mtuOf q
    let w := mget q.bound h.rsn
    let size := (w.map (fun w => w.len)).getD 0
    if op < 6 && size < off + d.data.length then rxInvalid qpn h.lane psn op 4 (some h.rsn) s
    else
      let r := if op < 6 then placeBuf q ((w.map (·.elems)).getD []) off d.data mem s
               else placeAt q (mrAddr s a.key a.va off) d.data mem s
      if !r.1 then rxOperational qpn h.lane psn r.2
      else
        let a' : Asm := { a with
          got := sadd a.got h.off, count := if h.last then some (h.off + 1) else a.count, bytes := a.bytes + d.data.length,
          imm := if d.imm.isSome then d.imm else a.imm, sol := a.sol || sol, rsn := h.rsn }
        let s1 := inSequence qpn h.lane psn 1 r.2
        match qpOf s1 qpn with
        | none => s1
        | some q1 =>
          let s2 := qpPut qpn { q1 with asm := mput q1.asm h.msg a', rxOff := if q1.lp then q1.rxOff else q1.rxOff + 1 } s1
          if a'.count = some a'.got.length then dataComplete qpn h.msg a' s2 else s2

/-- A SEND or WRITE packet in sequence on its lane. -/
def rxData (qpn psn : Nat) (x : Rx) (h : Leh) (mem : HostRead) (s : State) : State :=
  match qpOf s qpn with
  | none => s
  | some q =>
    let d := dataOf q x.op h.body
    let a := asmFor q h x.op d
    let takes := decide (x.op < 6) || d.imm.isSome
    if q.lp && (msgOld q h.msg || a.got.contains h.off) then inSequence qpn h.lane psn 1 (rxCount 6 s)
    else if inconsistent q h x.op d a then rxInvalid qpn h.lane psn x.op 3 none s
    else if !asmRoom s q h then rxCount 5 s
    else
      let off := h.off * mtuOf q
      let firstPlain := !q.lp && h.off == 0
      let cause := if x.op < 6 then none
        else if q.lp then mrCheck s q a.key a.va a.len off d.data.length true
        else if firstPlain then mrCheck s q a.key a.va a.len 0 a.len true
        else (match mrCheck s q a.key a.va a.len 0 0 true with
              | some 1 => some 1
              | some 2 => some 2
              | _ => if a.len < off + d.data.length then some 5 else none)
      match cause with
      | some c => rxAccess qpn h.lane psn c a.key x.src s
      | none =>
        if !takes then rxPlace qpn psn h x.op d a x.sol mem s
        else if cqFull s q.recvCq then rnrNak qpn h.lane psn s
        else
          let b := bindUpTo qpn h.rsn s
          if b.1 then rxPlace qpn psn h x.op d a x.sol mem b.2 else rnrNak qpn h.lane psn s

/-! ### READ requests (R345, R356, R358) -/

/-- The responses of a READ leave on its lane, their PSNs from the request's on. -/
def readResponses (qpn psn : Nat) (h : Leh) (data : Bytes) (s : State) : State :=
  match qpOf s qpn with
  | none => s
  | some q =>
    let n := packetsOf q data.length
    (List.range n).foldl (fun s k =>
      let op := if n = 1 then 0x10 else if k = 0 then 0x0D else if k + 1 = n then 0x0F else 0x0E
      let aeth := if op = 0x0E then [] else be 1 0x1F ++ be 3 (q.rxMsg % 2 ^ 24)
      let part := (data.drop (k * mtuOf q)).take (mtuOf q)
      sendBack qpn q h.lane op ((psn + k) % 2 ^ 24) (lehBytes h.msg k h.rsn h.lane (k + 1 == n) false) (aeth ++ part) s) s

/-- What the READ of a region's bytes gives. -/
def readMem (q : Qp) (a n : Nat) (mem : HostRead) (s : State) : Option Bytes × State :=
  if q.owner = deviceOwner then
    match coreRead a n s with
    | (.ok b, s1) => (some b, s1)
    | (.err _, s1) => (none, s1)
  else match mem with
    | .data b => (some (padTo n b), s)
    | .fail _ => (none, s)

/-- A READ request: in sequence, or a duplicate executed again. -/
def rxRead (qpn psn : Nat) (x : Rx) (h : Leh) (dup : Bool) (mem : HostRead) (s : State) : State :=
  match qpOf s qpn with
  | none => s
  | some q =>
    let va := fb h.body 0 8
    let key := fb h.body 8 4
    let len := fb h.body 12 4
    match mrCheck s q key va len 0 len false with
    | some c => rxAccess qpn h.lane psn c key x.src s
    | none =>
      match readMem q (mrAddr s key va 0) len mem s with
      | (none, s1) => rxOperational qpn h.lane psn s1
      | (some b, s1) =>
        if dup then readResponses qpn psn h b s1
        else
          let s2 := msgComplete qpn h.msg (inSequence qpn h.lane psn (packetsOf q len) s1)
          match qpOf s2 qpn with
          | some q2 => readResponses qpn psn h b (qpPut qpn (lanePut h.lane { laneAt q2 h.lane with owed := 0 } q2) s2)
          | none => s2

/-! ### Request packets (R357, R358, R360) -/

/-- R361: a packet that arrives marked CE is answered with a CNP on its lane, at most one per 0B:0205 µs. -/
def notifyCe (qpn lane : Nat) (x : Rx) (s : State) : State :=
  match qpOf s qpn with
  | none => s
  | some q =>
    let l := laneAt q lane
    let recent := match l.cnpAt with
      | some t => decide (s.io.now < t + us (dget s.io (idx 0x0B0205 0) 50))
      | none => false
    if !x.ce || recent || q.service ≠ 1 then s
    else
      sendBack qpn q lane 0x81 0 (lehBytes 0 0 0 lane false false) (List.replicate 16 0)
        (qpPut qpn (lanePut lane { l with cnpAt := some s.io.now } q) s)

/-- An RC request packet. -/
def rxRequest (qpn : Nat) (x : Rx) (mem : HostRead) (s : State) : State :=
  match qpOf s qpn with
  | none => s
  | some q =>
    let h := lehOf q x
    let lane := if h.bad then h.lane % max 1 q.lanesUsed else h.lane
    let s1 := notifyCe qpn lane x s
    let l := laneAt q lane
    let want := if h.resync then x.psn else l.expect
    if h.bad then rxInvalid qpn lane x.psn x.op 2 none s1
    else if x.psn = want then
      if x.op ≤ 0xB then rxData qpn x.psn x h mem s1
      else if x.op = 0xC then rxRead qpn x.psn x h false mem s1
      else rxInvalid qpn lane x.psn x.op 1 none s1
    else if psnLe x.psn want then
      if x.op = 0xC then rxRead qpn x.psn x h true mem (rxCount 6 s1) else sendAck qpn lane (rxCount 6 s1)
    else
      let s2 := rxCount 7 s1
      match qpOf s2 qpn with
      | none => s2
      | some q2 =>
        if l.nakSent then s2 else sendAeth qpn lane want 0x60 (qpPut qpn (lanePut lane { laneAt q2 lane with nakSent := true } q2) s2)

/-- A UD packet (R336, R350, R363). -/
def rxUd (qpn : Nat) (x : Rx) (mem : HostRead) (s : State) : State :=
  match qpOf s qpn with
  | none => s
  | some q =>
    let imm := x.op == 0x65
    let data := x.body.drop (if imm then 12 else 8)
    if x.op ≠ 0x64 && x.op ≠ 0x65 then s
    else if fb x.body 0 4 ≠ q.qkey then on (bump64 0x0B0021 7) s
    else if cqFull s q.recvCq then s
    else
      let b := bindUpTo qpn q.rxRsn s
      if !b.1 then s
      else
        match qpOf b.2 qpn with
        | none => b.2
        | some q1 =>
          match mget q1.bound q1.rxRsn with
          | none => b.2
          | some w =>
            if w.len < data.length then qpError qpn none (some q1.rxRsn) 0x24 0 b.2
            else
              let r := placeBuf q1 w.elems 0 data mem b.2
              if !r.1 then qpError qpn none (some q1.rxRsn) 4 0 r.2
              else
                let c := workCpl r.2 qpn q1 0x11 w 0 data.length 0 (if imm then 0x11 else 0x10) (b2n imm + 2 * b2n x.sol)
                  (fb x.body 5 3) (if imm then fb x.body 8 4 else 0) x.src
                endRecv qpn c (qpPut qpn { q1 with bound := mdel q1.bound q1.rxRsn, rxRsn := (q1.rxRsn + 1) % 2 ^ 16 } r.2)

/-- ROCE_PACKET_RECEIVED (R336, R338, R341, R345, R350 to R353, R355, R357, R358, R360, R361, R363, R364). -/
def execRocePacketReceived (r : RegionNo) (mem : HostRead) (s : State) : Host.Outcome State Fault Refusal :=
  .next (rdmaRow r.val 0 (fun n q x _ s => if q.service = 2 then rxUd n x mem s else rxRequest n x mem s) s)

/-! ### What comes back to the requester (R356, R358, R361, R363) -/

/-- Lane and AETH of an answer. -/
def answerLane (q : Qp) (x : Rx) : Nat × Nat :=
  if q.lp then (bits (fb x.body 0 8) 7 5, fb x.body 8 1) else (0, fb x.body 0 1)

/-- An ACK. -/
def rxAck (qpn : Nat) (q : Qp) (x : Rx) (s : State) : State :=
  let lane := (answerLane q x).1
  let l := laneAt q lane
  let s1 := match l.unacked.find? (fun p => p.psn == x.psn && p.op != 0x0C) with
    | some p => rttSample qpn lane (s.io.now - p.sentAt) s
    | none => s
  match q.state with
  | 3 => ackUpTo qpn lane x.psn s1
  | _ => s

/-- ACK_RECEIVED (R350, R352, R356, R358, R361). -/
def execAckReceived (r : RegionNo) (s : State) : Host.Outcome State Fault Refusal :=
  .next (rdmaRow r.val 1 (fun n q x _ s => rxAck n q x s) s)

/-- The RNR timer codes of the InfiniBand Architecture, in nanoseconds. -/
def rnrNs (code : Nat) : Nat :=
  10000 * (([65536, 1, 2, 3, 4, 6, 8, 12, 16, 24, 32, 48, 64, 96, 128, 192, 256, 384, 512, 768, 1024, 1536, 2048, 3072, 4096, 6144,
    8192, 12288, 16384, 24576, 32768, 49152] : List Nat)[code]?.getD 0)

/-- An RNR NAK holds the QP. -/
def rxRnr (qpn lane psn code : Nat) (s : State) : State :=
  match qpOf s qpn with
  | none => s
  | some q =>
    match (coverIdx (laneAt q lane) psn).bind (fun i => (laneAt q lane).unacked[i]?) with
    | none => s
    | some p =>
      if q.rnrRetry ≠ 7 && q.rnrRetry ≤ q.rnrUsed then qpError qpn (sqOfMsg q p.msg) none 0x2A 0 s
      else qpPut qpn { q with rnrHold := some (s.io.now + rnrNs code, p.msg), rnrUsed := q.rnrUsed + 1 } s

/-- A NAK that ends the connection: the message's work request completes with `status`. -/
def rxFatal (qpn lane psn status syndrome : Nat) (s : State) : State :=
  match qpOf s qpn with
  | none => s
  | some q =>
    match (coverIdx (laneAt q lane) psn).bind (fun i => (laneAt q lane).unacked[i]?) with
    | none => s
    | some p =>
      let i := sqOfMsg q p.msg
      let key := match i.bind (fun k => q.sq[k]?) with | some w => field w.body 0x28 4 | none => 0
      let part := rdmaPartner qpn q.destQpn
      let s1 := if status = 0x26 then on (violate 0x0402 part (le 4 key ++ le 4 p.msg)) s
        else if status = 0x27 then on (violate 0x0404 part (le 4 p.msg)) s else s
      qpError qpn i none status syndrome s1

/-- A NAK. -/
def rxNak (qpn : Nat) (q : Qp) (x : Rx) (s : State) : State :=
  let (lane, syn) := answerLane q x
  if q.state ≠ 3 then s
  else if syn / 32 % 4 = 1 then rxRnr qpn lane x.psn (syn % 32) (ackUpTo qpn lane ((x.psn + 2 ^ 24 - 1) % 2 ^ 24) s)
  else
    match syn % 32 with
    | 0 => episode qpn lane (ackUpTo qpn lane ((x.psn + 2 ^ 24 - 1) % 2 ^ 24) s)
    | 1 => rxFatal qpn lane x.psn 0x27 syn s
    | 2 => rxFatal qpn lane x.psn 0x26 syn s
    | 3 => rxFatal qpn lane x.psn 0x28 syn s
    | _ => s

/-- NAK_RECEIVED (R351, R358, R359, R363, R364). -/
def execNakReceived (r : RegionNo) (s : State) : Host.Outcome State Fault Refusal :=
  .next (rdmaRow r.val 2 (fun n q x _ s => rxNak n q x s) s)

/-- R356: the READ whose PSNs cover a response, if its next bytes are these: position in the send queue, the work
request. Earlier packets of the lane are acknowledged by it. -/
def rxResponse (qpn : Nat) (q : Qp) (x : Rx) (mem : HostRead) (s : State) : State :=
  let lane := (answerLane q x).1
  let body := if q.lp then x.body.drop 8 else x.body
  let data := if x.op = 0x0E then body else body.drop 4
  match (coverIdx (laneAt q lane) x.psn).bind (fun i => (laneAt q lane).unacked[i]?) with
  | none => s
  | some p =>
    let k := (x.psn + 2 ^ 24 - p.psn) % 2 ^ 24
    let s1 := ackUpTo qpn lane ((p.psn + 2 ^ 24 - 1) % 2 ^ 24) s
    match qpOf s1 qpn with
    | none => s1
    | some q1 =>
      match (sqOfMsg q1 p.msg).bind (fun i => (q1.sq[i]?).map (fun w => (i, w))) with
      | none => s1
      | some (i, w) =>
        if p.op ≠ 0x0C || q1.state ≠ 3 || k * mtuOf q1 ≠ w.got || data.length ≠ min (mtuOf q1) (w.len - w.got) then s1
        else
          match mem with
          | .fail c => qpError qpn (some i) none (if c = 1 then 4 else 5) 0 s1
          | .data _ =>
            let s2 := on (writeElems q1.owner (elemsFrom w.elems w.got) data) s1
            let l := laneAt q1 lane
            let full := decide (w.len ≤ w.got + data.length)
            let l' := if full then { l with unacked := l.unacked.filter (fun p' => p'.psn != p.psn) } else l
            sqAdvance qpn (qpPut qpn { lanePut lane l' q1 with sq := q1.sq.set i { w with got := w.got + data.length } } s2)

/-- READ_RESPONSE_RECEIVED (R350, R356). -/
def execReadResponseReceived (r : RegionNo) (mem : HostRead) (s : State) : Host.Outcome State Fault Refusal :=
  .next (rdmaRow r.val 3 (fun n q x _ s => rxResponse n q x mem s) s)

/-- CNP_RECEIVED (R355, R361, R362, R367). -/
def execCnpReceived (r : RegionNo) (s : State) : Host.Outcome State Fault Refusal :=
  .next (rdmaRow r.val 4 (fun n q x _ s => rateCut n (answerLane q x).1 0 s) s)

/-! ### Timers -/

/-- A QP whose timers run: its engine works and its function is not frozen. -/
def timed (s : State) (qpn : Nat) : Option Qp :=
  match qpOf s qpn with
  | some q => if engineRuns s (homeRegion qpn) && !frozen s.io q.owner then some q else none
  | none => none

/-- ACK_SEND_TIMER (R358). -/
def execAckSendTimer (qpn : Nat) (lane : Fin 8) (s : State) : Host.Outcome State Fault Refusal :=
  .next (match timed s qpn with
    | some q => if (laneAt q lane.val).owed = 0 then s else sendAck qpn lane.val (on (reach ((laneAt q lane.val).owedAt + us 4)) s)
    | none => s)

/-- R340: the ACK timeout in nanoseconds. -/
def ackNs (q : Qp) : Nat := 4096 * 2 ^ q.ackTime

/-- ACK_TIMEOUT (R340, R351, R358, R359). -/
def execAckTimeout (qpn : Nat) (lane : Fin 8) (s : State) : Host.Outcome State Fault Refusal :=
  .next (match timed s qpn with
    | some q =>
      match (laneAt q lane.val).unacked with
      | [] => s
      | p :: _ => if q.state = 3 && q.rnrHold.isNone then episode qpn lane.val (on (reach (p.sentAt + ackNs q)) s) else s
    | none => s)

/-- LANE_READMIT (R359, R361, R362). -/
def execLaneReadmit (qpn : Nat) (lane : Fin 8) (s : State) : Host.Outcome State Fault Refusal :=
  .next (match timed s qpn with
    | some q =>
      let x := laneAt q lane.val
      if x.state ≠ 2 then s
      else
        let s1 := on (reach (x.goneAt + ms (dget s.io (idx 0x0B0013 0) 10))) s
        laneDecision qpn lane.val 6 (qpPut qpn (lanePut lane.val
          { x with state := 1, rate := rateMin s.io, h := 0, q := 0, resync := true, srtt := 0, periodAt := s1.io.now } q) s1)
    | none => s)

/-- RNR_TIMER_EXPIRY (R358): the held message, and what was sent behind it, is resent. -/
def execRnrTimerExpiry (qpn : Nat) (s : State) : Host.Outcome State Fault Refusal :=
  .next (match timed s qpn with
    | some q =>
      match q.rnrHold with
      | none => s
      | some (t, m) =>
        let s1 := qpPut qpn { q with rnrHold := none } (on (reach t) s)
        (List.range q.lanesUsed).foldl (fun s l =>
          match (laneAt q l).unacked.findIdx? (fun p => p.msg == m) with
          | some k => resend qpn l k false s
          | none => s) s1
    | none => s)

/-- RATE_RECOVERY_PERIOD (R361, R362). -/
def execRateRecoveryPeriod (qpn : Nat) (lane : Fin 8) (s : State) : Host.Outcome State Fault Refusal :=
  .next (match timed s qpn with
    | some q =>
      let x := laneAt q lane.val
      if x.state ≠ 1 then s
      else
        let s1 := on (reach (x.periodAt + us (dget s.io (idx 0x0B0206 0) 40))) s
        let s2 := qpPut qpn (lanePut lane.val { x with periodAt := s1.io.now } q) s1
        let quiet := match x.cutAt with | some t => decide (t < x.periodAt) | none => true
        if quiet then rateRecover qpn lane.val s2 else s2
    | none => s)

/-! ### Losses (R172, R367) -/

/-- FLR, PERST#, hot reset or link down of a function: its QPs, SRQs, address handles, GIDs and regions are gone, with no
completions. -/
def rdmaDropFn (fn : Nat) (s : State) : State :=
  rdmaTotals (onRdma (fun r => { r with
    qps := mfilter r.qps (fun _ q => q.owner != fn), srqs := mfilter r.srqs (fun _ x => x.owner != fn),
    ahs := mfilter r.ahs (fun _ x => x.owner != fn), gids := mfilter r.gids (fun k _ => k / 16 != fn),
    mrs := mfilter r.mrs (fun _ x => x.owner != fn),
    resident := mmap r.resident (fun _ l => l.filter (fun n => match mget r.qps n with | some q => q.owner != fn | none => false)),
    parked := r.parked.filter (fun p => match mget r.qps p.1 with | some q => q.owner != fn | none => false) }) s)

end Sys2Proof.Machine
end

