-- ==== Sys2Proof/Machine/Tables.lean ====
section
/-!
DEFINITION. The commands of chapter 13: the learn arbiter, ageing and learn messages (R292 to R301), table-command lists
(R302 to R305) and the proof pass (R306 to R309).
Choices of the model coded here, by entry of the assumption log: DEDUCED 51, 52, 80.
-/
namespace Sys2Proof.Machine

/-! ### Learning -/

/-- LEARN_ARBITER_EVENT (R290 to R292, R300, R301). -/
def execLearnArbiterEvent (s : State) : Host.Outcome State Fault Refusal := .next (onWire (arbiterStep s.dom) s)

/-- AGER_SWEEP (R293, R294). -/
def execAgerSweep (s : State) : Host.Outcome State Fault Refusal := .next (onWire (ageAll s.cont s.dom) s)

/-- LEARN_BATCH_SEND (R296 to R299, R301). -/
def execLearnBatchSend (s : State) : Host.Outcome State Fault Refusal := .next (onWire (batchSend s.dom) s)

/-- The oldest learn message released to the arbiter. -/
def learnTake (d : Dom) (w : Wire) : Wire :=
  match w.net.learnRx with
  | [] => w
  | k :: ks => learnReceive d k (w.onNet (fun n => { n with learnRx := ks }))

/-- LEARN_FRAME_RECEIVED (R296 to R300). -/
def execLearnFrameReceived (s : State) : Host.Outcome State Fault Refusal := .next (onWire (learnTake s.dom) s)

/-- R301: every owned entry is announced again, where the refresh is not turned off. -/
def learnRefresh (d : Dom) (w : Wire) : Wire :=
  let n := dget w.io (idx 0x090034 0) 300
  if n = 0 then w
  else
    let w1 := w.on (reach (w.tabs.refreshAt + sec n))
    reannounce d true { w1 with tabs := { w1.tabs with refreshAt := w1.io.now } }

/-- LEARN_REFRESH_TIMER (R301). -/
def execLearnRefreshTimer (s : State) : Host.Outcome State Fault Refusal := .next (onWire (learnRefresh s.dom) s)

/-! ### Table-command lists (R302 to R305) -/

/-- The object that holds the list of principal M or F. -/
def listObj (origin : Nat) : Nat := if origin = 2 then 0x090202 else 0x090200

/-- The engine asks for the next record of the list at the head, where it lies in host memory. -/
def listFetch (w : Wire) : Wire :=
  match w.tabs.lists with
  | [] => w
  | l :: _ => if l.origin = 0 && l.done < l.records then w.on (hostRead l.fn (l.addr + 128 * l.done) 128) else w

/-- The list at the head ends with a cause, 0 where it ran to its end. -/
def listEnd (cause : Nat) (w : Wire) : Wire :=
  match w.tabs.lists with
  | [] => w
  | l :: ls =>
    let w1 := { w with tabs := { w.tabs with lists := ls } }
    listFetch (w1.on (fun io =>
      if l.origin = 0 then
        let io1 := regOff .tblCmdStatus l.fn 0 (regOn .tblCmdStatus l.fn 1 io)
        if cause = 0 then regOff .tblCmdStatus l.fn 2 io1
        else regPut .tblCmdStatus l.fn 15 8 cause (regOn .tblCmdStatus l.fn 2 io1)
      else endCmd 0x090201 (if cause = 0 then 0 else 0x11) (le 4 l.done ++ le 1 cause ++ le 3 0) io))

/-- A list is accepted; a list without records ends at once when its turn comes. -/
def listTake (l : TblList) (w : Wire) : Wire :=
  let first := w.tabs.lists.isEmpty
  let w1 := { w with tabs := { w.tabs with lists := w.tabs.lists ++ [l] } }
  if !first then w1 else if l.records = 0 then listEnd 0 w1 else listFetch w1

/-- TBL_CMD_GO written 1: discarded with OVERRUN while BUSY. -/
def listRegs (stage fn : Nat) (w : Wire) : Wire :=
  if regBit .tblCmdStatus fn 0 w.io then w.on (regOn .tblCmdStatus fn 3)
  else
    let len := regField .tblCmdLen fn 24 0 w.io
    let cause := if stage < 3 then 8 else if len % 128 ≠ 0 || 2 ^ 24 < len then 1 else 0
    let w1 := w.on (regPut .tblCmdProgress fn 31 0 0)
    if cause ≠ 0 then
      w1.on (fun io => regPut .tblCmdStatus fn 15 8 cause (regOn .tblCmdStatus fn 2 (regOn .tblCmdStatus fn 1 io)))
    else
      listTake { origin := 0, fn := fn, addr := regField .tblCmdAddr fn 63 7 w.io * 128, records := len / 128, done := 0 }
        (w1.on (regOn .tblCmdStatus fn 0))

/-- 09:0201 written. -/
def listCmd (stage : Nat) (by_ : Issuer) (arg : Bytes) (w : Wire) : Wire :=
  let fw := principalOf by_.assoc.binding == .f
  let st := match gate stage by_ 0x090201 w.io with
    | some e => e
    | none =>
      if cmdRuns w.io 0x090201 then 0x08
      else if arg.length ≠ 4 || 1 < field arg 0 1 || field arg 1 3 ≠ 0 then 0x05
      else if (field arg 0 1 == 1) != fw then 0x03
      else 0
  if st ≠ 0 then w.on (answer by_ (idx 0x090201 0) st [])
  else
    let origin := if fw then 2 else 1
    let len := (dgetB w.io (idx (listObj origin) 0)).length
    let w1 := w.on (beginCmd by_ 0x090201)
    if len % 128 ≠ 0 then w1.on (endCmd 0x090201 0x11 (le 4 0 ++ le 1 1 ++ le 3 0))
    else listTake { origin := origin, fn := 0, addr := 0, records := len / 128, done := 0 } w1

/-- TBL_LIST_START (R304, R305). -/
def execTblListStart (src : TblSrc) (s : State) : Host.Outcome State Fault Refusal :=
  .next (match src with
    | .regs l go => if go then onWire (listRegs s.start.stage (4 * l.val)) s else s
    | .cmd b arg => onWire (listCmd s.start.stage b arg) s)

/-- What a record's execution gives: status, moves path, count. -/
structure RecRes where
  status : Nat
  path   : List Nat
  count  : Nat
  deriving DecidableEq, Repr

/-- Bytes 0x50 to 0x7F of a finished record. -/
def recResult (x : RecRes) : Bytes :=
  le 1 (128 + x.status) ++ le 1 (x.path.length - 1) ++ le 2 0 ++
  (List.range 9).flatMap (fun k => le 4 ((x.path[k]?).getD 0)) ++ le 8 x.count

/-- R302: a record's flags and reserved fields. -/
def recordOk (r : Bytes) : Bool :=
  let op := field r 0 1
  let fl := field r 1 1
  allZero (slice r 2 14) &&
  (if op = 0x12 then decide (fl ≤ 1) else if op = 0x13 then decide (fl ≤ 15) else fl == 0) &&
  (if op < 0x10 then
    decide (field r 0x35 1 < 4) && decide (field r 0x38 1 ≤ 1) && field r 0x39 1 == 0 && field r 0x3D 3 == 0 && allZero (slice r 0x48 8)
  else
    decide (field r 0x16 2 < 4096) && decide (field r 0x1C 1 < 8) && field r 0x1D 3 == 0 && allZero (slice r 0x20 48))

/-- CONN_INSERT: R289. -/
def recConnInsert (r : Bytes) (w : Wire) : RecRes × Wire :=
  let e := slice r 0x10 64
  let k := field e 0x25 1
  if 16384 ≤ field e 0x2A 3 || !(k == 1 || k == 2) then (⟨5, [], 0⟩, w)
  else
    let x := connInsert e w
    (⟨x.1, x.2.1, 0⟩, x.2.2)

/-- CONN_MODIFY: bytes 0x28 to 0x3F of the entry with the same key. -/
def recConnModify (r : Bytes) (w : Wire) : RecRes × Wire :=
  let e := slice r 0x10 64
  let k := field e 0x25 1
  if 16384 ≤ field e 0x2A 3 || !(k == 1 || k == 2) then (⟨5, [], 0⟩, w)
  else
    match connFind w.tabs (e.take 40) with
    | none => (⟨3, [], 0⟩, w)
    | some i => (⟨0, [i], 0⟩, connReport (connPut i (splice e 0x28 (le 1 1)) w))

/-- CONN_DELETE: the entry with the same key is cleared. -/
def recConnDelete (r : Bytes) (w : Wire) : RecRes × Wire :=
  let e := slice r 0x10 64
  let k := field e 0x25 1
  if !(k == 1 || k == 2) then (⟨5, [], 0⟩, w)
  else
    match connFind w.tabs (e.take 40) with
    | none => (⟨3, [], 0⟩, w)
    | some i => (⟨0, [i], 0⟩, connReport (connClear i w))

/-- BR_INSERT: through the learn arbiter, at the instant of install (R303, R549). -/
def recBrInsert (d : Dom) (r : Bytes) (w : Wire) : RecRes × Wire :=
  let b := slice r 0x10 16
  let fl := field b 0x0C 1
  let e : BrEntry :=
    { mac := slice b 0 6, bd := field b 6 2, dest := field b 8 2, owner := field b 0x0A 2, static := fl.testBit 1, remote := fl.testBit 2,
      hit := [], time := time64 w.io, idle := 0, stale := false }
  if e.dest = 0xFFFF && !e.static then (⟨5, [], 0⟩, w)
  else
    match brFind w.tabs e.mac e.bd with
    | some (i, o) => if d.state = 2 && o.owner ≠ d.id then (⟨7, [], 0⟩, w) else (⟨0, [i], 0⟩, install d i e w)
    | none =>
      match brPlace w.tabs e.mac e.bd with
      | none => (⟨4, [], 0⟩, w)
      | some i => (⟨0, [i], 0⟩, install d i e w)

/-- BR_DELETE: a compare-and-delete, or with FORCE a delete without comparison (R295, R549). -/
def recBrDelete (c : Cont) (d : Dom) (r : Bytes) (w : Wire) : RecRes × Wire :=
  let b := slice r 0x10 16
  match brFind w.tabs (slice b 0 6) (field b 6 2) with
  | none => (⟨3, [], 0⟩, w)
  | some (i, e) =>
    if d.state = 2 && e.owner ≠ d.id then (⟨7, [], 0⟩, w)
    else if !(field r 1 1).testBit 0 && e.hit.any (fun x => (inService c).contains x) then (⟨6, [], 0⟩, w)
    else (⟨0, [i], 0⟩, withdraw d e (brRemove i e w))

/-- Whether a BR_FLUSH record matches an entry. -/
def flushMatch (r : Bytes) (e : BrEntry) : Bool :=
  let b := slice r 0x10 16
  let fl := field r 1 1
  (!fl.testBit 0 || e.bd == field b 6 2) && (!fl.testBit 1 || e.dest == field b 8 2) && (!fl.testBit 2 || e.owner == field b 0x0A 2) &&
  (fl.testBit 3 || !e.static)

/-- BR_FLUSH: every matching entry goes, or none where this device is isolated and one has another owner (R303, R549). -/
def recBrFlush (d : Dom) (r : Bytes) (w : Wire) : RecRes × Wire :=
  let m := w.tabs.br.filter (fun e => flushMatch r e.2)
  if d.state = 2 && m.any (fun e => e.2.owner != d.id) then (⟨7, [], 0⟩, w)
  else (⟨0, [], m.length⟩, m.foldl (fun w e => withdraw d e.2 (brRemove e.1 e.2 w)) w)

/-- A finished record's result goes back to the list, and the list goes on. -/
def recDone (l : TblList) (r : Bytes) (x : RecRes) (w : Wire) : Wire :=
  let res := recResult x
  let w1 := w.on (fun io =>
    if l.origin = 0 then
      regPut .tblCmdProgress l.fn 31 0 (l.done + 1)
        (hostWrite l.fn (l.addr + 128 * l.done + 0x50) (slice res 0 1)
          (hostWrite l.fn (l.addr + 128 * l.done + 0x51) (res.drop 1) io))
    else
      let o := idx (listObj l.origin) 0
      dsetB o (splice (dgetB io o) (128 * l.done) (splice r 0x50 res)) io)
  let lists := match w1.tabs.lists with
    | [] => []
    | h :: t => { h with done := l.done + 1 } :: t
  let w2 := { w1 with tabs := { w1.tabs with lists := lists } }
  if l.records ≤ l.done + 1 then listEnd 0 w2 else listFetch w2

/-- Whether an op is one of R303. -/
def knownOp (op : Nat) : Bool := [1, 2, 3, 0x11, 0x12, 0x13].contains op

/-- The next record of the running list, where its op is `op` or none the Kwaith knows. -/
def tblStep (op : Nat) (run : Bytes → Wire → RecRes × Wire) (rec : Option Bytes) (w : Wire) : Wire :=
  match w.tabs.lists with
  | [] => w
  | l :: _ =>
    let r := if l.origin = 0 then rec.map (padTo 128) else some (slice (dgetB w.io (idx (listObj l.origin) 0)) (128 * l.done) 128)
    match r with
    | none => listEnd 5 w
    | some r =>
      let o := field r 0 1
      if o ≠ op && knownOp o then w
      else if o ≠ op || !recordOk r then recDone l r ⟨1, [], 0⟩ w
      else
        let x := run r w
        recDone l r x.1 x.2

/-- CONN_INSERT (R289, R302 to R305). -/
def execConnInsert (rec : Option Bytes) (s : State) : Host.Outcome State Fault Refusal :=
  .next (onWire (tblStep 0x01 recConnInsert rec) s)

/-- CONN_MODIFY (R302 to R305). -/
def execConnModify (rec : Option Bytes) (s : State) : Host.Outcome State Fault Refusal :=
  .next (onWire (tblStep 0x02 recConnModify rec) s)

/-- CONN_DELETE (R302 to R305). -/
def execConnDelete (rec : Option Bytes) (s : State) : Host.Outcome State Fault Refusal :=
  .next (onWire (tblStep 0x03 recConnDelete rec) s)

/-- BR_INSERT (R292, R302 to R305, R549). -/
def execBrInsert (rec : Option Bytes) (s : State) : Host.Outcome State Fault Refusal :=
  .next (onWire (tblStep 0x11 (recBrInsert s.dom) rec) s)

/-- BR_DELETE (R295, R302 to R305, R549). -/
def execBrDelete (rec : Option Bytes) (s : State) : Host.Outcome State Fault Refusal :=
  .next (onWire (tblStep 0x12 (recBrDelete s.cont s.dom) rec) s)

/-- BR_FLUSH (R302 to R305, R549). -/
def execBrFlush (rec : Option Bytes) (s : State) : Host.Outcome State Fault Refusal :=
  .next (onWire (tblStep 0x13 (recBrFlush s.dom) rec) s)

/-- R310: FLR of PF0, or a reset of its link, ends a list of its registers with cause 6, and its registers reset. -/
def tblLinkReset (fn : Nat) (w : Wire) : Wire :=
  let w1 := w.on (regReset [.tblCmdAddr, .tblCmdLen, .tblCmdStatus, .tblCmdProgress] fn)
  let was := match w1.tabs.lists with
    | l :: _ => l.origin == 0 && l.fn == fn
    | [] => false
  let w2 := { w1 with tabs := { w1.tabs with lists := w1.tabs.lists.filter (fun l => !(l.origin == 0 && l.fn == fn)) } }
  if was then listFetch w2 else w2

/-! ### The proof pass (R306 to R309) -/

/-- 09:0301. -/
def proofBytes (p : Proof) : Bytes :=
  le 1 p.state ++ le 1 p.table ++ le 2 0 ++ le 4 p.cursor ++ le 4 p.compared ++ le 4 p.mismatches ++ le 4 p.firstMis ++
  le 4 p.lastMis ++ le 8 p.began ++ le 8 p.ended

/-- The pass changes, and 09:0301 with it. -/
def proofPut (p : Proof) (w : Wire) : Wire :=
  { w with io := dsetB (idx 0x090301 0) (proofBytes p) w.io, tabs := { w.tabs with proof := p } }

/-- Whether a pass runs. -/
def proofRuns (p : Proof) : Bool := p.state == 1 || p.state == 2

/-- The pass ends in a state: CMD_DONE follows (R306, R309). -/
def proofEnd (st : Nat) (w : Wire) : Wire :=
  let p := w.tabs.proof
  let gone := st == 5 || st == 6
  let p' := { p with
    state := st, ended := time64 w.io, waiting := [], compared := if gone then 0 else p.compared,
    mismatches := if gone then 0 else p.mismatches, firstMis := if gone then 0 else p.firstMis, lastMis := if gone then 0 else p.lastMis }
  (proofPut p' w).on (endCmd 0x090300 (if st = 3 then 0 else 0x11) [])

/-- R306: the argument of START or RESUME is in range. -/
def proofArgOk (a : Bytes) : Bool :=
  let t := field a 1 1
  let f := field a 2 1
  (t == 1 || t == 2) && (f == 0 || (f == 1 && t == 1)) && field a 3 1 == 0 && decide (field a 4 4 ≤ field a 8 4) &&
  decide (field a 8 4 ≤ (if t = 1 then 135167 else 16777215)) && decide (4 ≤ field a 0x0C 1) && decide (field a 0x0C 1 ≤ 16) &&
  field a 0x0D 3 == 0 && field a 0x18 8 % 4096 == 0 && field a 0x20 8 % 64 == 0 && field a 0x2C 4 == 0

/-- 09:0300 written: the checks before its op. -/
def proofGate (stage : Nat) (by_ : Issuer) (a : Bytes) (io : Io) : Option Nat :=
  match gate stage by_ 0x090300 io with
  | some e => some e
  | none =>
    if by_.assoc.binding == .pfMailbox && by_.assoc.key % 4 != 0 then some 0x03
    else if a.length ≠ 48 || field a 0 1 < 1 || 3 < field a 0 1 then some 0x05 else none

/-- The shadow entry at the cursor is asked for. -/
def shadowFetch (w : Wire) : Wire :=
  let p := w.tabs.proof
  let n := if p.table = 1 then 16 else 64
  if p.state = 1 && p.cursor ≤ p.last then w.on (hostRead (activeTwin w.io 0) (p.shadow + (p.cursor - p.first) * n) n) else w

/-- START, and RESUME from the cursor. -/
def proofBegin (resume : Bool) (stage : Nat) (by_ : Issuer) (a : Bytes) (w : Wire) : Wire :=
  match proofGate stage by_ a w.io with
  | some e => w.on (answer by_ (idx 0x090300 0) e [])
  | none =>
    if proofRuns w.tabs.proof then w.on (answer by_ (idx 0x090300 0) 0x08 [])
    else if !proofArgOk a then w.on (answer by_ (idx 0x090300 0) 0x05 [])
    else
      let o := w.tabs.proof
      let s := BitVec.ofNat 32 (field a 0x28 4)
      let p : Proof :=
        { state := 1, table := field a 1 1, staticOnly := field a 2 1 == 1, first := field a 4 4, last := field a 8 4,
          cursor := if resume then max o.cursor (field a 4 4) else field a 4 4, shadow := field a 0x10 8, ring := field a 0x18 8,
          log2n := field a 0x0C 1, ctlblk := field a 0x20 8, counter := s, seen := s,
          compared := if resume then o.compared else 0, mismatches := if resume then o.mismatches else 0,
          firstMis := if resume then o.firstMis else 0, lastMis := if resume then o.lastMis else 0,
          began := time64 w.io, ended := 0, waiting := [] }
      shadowFetch (proofPut p (w.on (beginCmd by_ 0x090300)))

/-- PROOF_START (R306). -/
def execProofStart (by_ : Issuer) (arg : Bytes) (s : State) : Host.Outcome State Fault Refusal :=
  .next (onWire (proofBegin false s.start.stage by_ arg) s)

/-- PROOF_RESUME (R306). -/
def execProofResume (by_ : Issuer) (arg : Bytes) (s : State) : Host.Outcome State Fault Refusal :=
  .next (onWire (proofBegin true s.start.stage by_ arg) s)

/-- ABORT: accepted while a pass runs. -/
def proofAbort (stage : Nat) (by_ : Issuer) (a : Bytes) (w : Wire) : Wire :=
  match proofGate stage by_ a w.io with
  | some e => w.on (answer by_ (idx 0x090300 0) e [])
  | none =>
    if proofRuns w.tabs.proof then proofEnd 4 (w.on (answer by_ (idx 0x090300 0) 0 []))
    else w.on (answer by_ (idx 0x090300 0) 0x11 [])

/-- PROOF_ABORT (R306, R309). -/
def execProofAbort (by_ : Issuer) (arg : Bytes) (s : State) : Host.Outcome State Fault Refusal :=
  .next (onWire (proofAbort s.start.stage by_ arg) s)

/-- The hardware entry at an index. -/
def hardwareEntry (t : Tabs) (table i : Nat) : Bytes :=
  if table = 1 then
    match mget t.br i with
    | some e => brBytes e
    | none => List.replicate 16 0
  else connAt t i

/-- The compared bytes of an entry (R307); an invalid entry compares as nothing. -/
def compared (table : Nat) (b : Bytes) : Bytes :=
  if table = 1 then slice b 0 12 ++ le 1 (field b 0x0C 1 % 8) else padTo 64 b

/-- Whether an entry is valid. -/
def entryValid (table : Nat) (b : Bytes) : Bool := (field b (if table = 1 then 0x0C else 0x28) 1).testBit 0

/-- R307: kind of the mismatch of two entries, 0 for none. -/
def mismatchKind (table : Nat) (hw sh : Bytes) : Nat :=
  match entryValid table hw, entryValid table sh with
  | true, false => 1
  | false, true => 2
  | false, false => 0
  | true, true => if compared table hw = compared table sh then 0 else 3

/-- R308: bytes 0x01 to 0x1F of a mismatch record. -/
def mismatchRec (table kind index time : Nat) (hw sh : Bytes) : Bytes :=
  le 1 table ++ le 1 kind ++ le 1 0 ++ le 4 index ++ le 4 (crc32c (compared table hw)) ++ le 4 (crc32c (compared table sh)) ++
  le 8 time ++ le 8 0

/-- A mismatch record is written: bytes 0x08 to 0x1F first, the phase byte's half last. -/
def proofWrite (body : Bytes) (w : Wire) : Wire :=
  let p := w.tabs.proof
  let fn := activeTwin w.io 0
  let a := p.ring + 32 * (p.counter.toNat % 2 ^ p.log2n)
  let rec_ := le 1 (b2n (phaseAt p.log2n p.counter)) ++ body
  let w1 := w.on (fun io => hostWrite fn a (slice rec_ 0 8) (hostWrite fn (a + 8) (slice rec_ 8 24) io))
  { w1 with tabs := { w1.tabs with proof := { p with counter := p.counter + 1 } } }

/-- Whether the mismatch ring is full. -/
def proofFull (p : Proof) : Bool := decide (2 ^ p.log2n ≤ (p.counter - p.seen).toNat)

/-- R307: the next entry is compared with its shadow, and the cursor moves past it. -/
def proofCompare (shadow : Option Bytes) (w : Wire) : Wire :=
  let p := w.tabs.proof
  if p.state ≠ 1 || p.last < p.cursor then w
  else
    match shadow with
    | none => proofEnd 6 w
    | some sh =>
      let hw := hardwareEntry w.tabs p.table p.cursor
      let skip := p.staticOnly && !(field hw 0x0C 1).testBit 1 && !(field sh 0x0C 1).testBit 1
      let k := if skip then 0 else mismatchKind p.table hw sh
      let p1 := { p with cursor := p.cursor + 1, compared := if skip then p.compared else p.compared + 1 }
      if k = 0 then shadowFetch (proofPut p1 w)
      else
        let p2 := { p1 with
          mismatches := p1.mismatches + 1, firstMis := if p1.mismatches = 0 then p.cursor else p1.firstMis, lastMis := p.cursor }
        let body := mismatchRec p.table k p.cursor (time64 w.io) hw sh
        if proofFull p2 then
          (proofPut { p2 with state := 2, waiting := [(p.cursor, body)] } w).on (hostRead (activeTwin w.io 0) p.ctlblk 8)
        else
          let w1 := proofWrite body (proofPut p2 w)
          shadowFetch (proofPut w1.tabs.proof w1)

/-- PROOF_COMPARE (R307 to R309). -/
def execProofCompare (shadow : Option Bytes) (s : State) : Host.Outcome State Fault Refusal :=
  .next (onWire (proofCompare shadow) s)

/-- R308: the control block read of a paused pass returns. -/
def proofPoll (consumer : Option Word32) (w : Wire) : Wire :=
  let p := w.tabs.proof
  if p.state ≠ 2 then w
  else
    match consumer with
    | none => proofEnd 6 w
    | some c =>
      let p1 := { p with seen := if (p.counter - c).toNat ≤ 2 ^ p.log2n then c else p.seen }
      if proofFull p1 then
        { w with
          io := hostRead (activeTwin w.io 0) p.ctlblk 8 (reach (w.io.now + us (dget w.io (idx 0x060003 0) 100)) w.io)
          tabs := { w.tabs with proof := p1 } }
      else
        let w1 := { w with tabs := { w.tabs with proof := { p1 with state := 1, waiting := [] } } }
        let w2 := p.waiting.foldl (fun w x => proofWrite x.2 w) w1
        shadowFetch (proofPut w2.tabs.proof w2)

/-- PROOF_RING_POLL (R308). -/
def execProofRingPoll (consumer : Option Word32) (s : State) : Host.Outcome State Fault Refusal :=
  .next (onWire (proofPoll consumer) s)

/-- PROOF_PASS_END (R306, R309). -/
def execProofPassEnd (s : State) : Host.Outcome State Fault Refusal :=
  .next (onWire (fun w => if w.tabs.proof.state = 1 && w.tabs.proof.last < w.tabs.proof.cursor then proofEnd 3 w else w) s)

end Sys2Proof.Machine
end

