-- ==== Sys2Proof/Machine/FnOps.lean ====
section
/-!
DEFINITION. What the resets of functions do: FLR of a PF (R54, R139), PERST#, hot reset and link down of a link (R54, R137,
R158, R160), the reset of a VF (R167, R172), and the end of a migration operation (R175 to R177, R184).
Choices of the model coded here, by entry of the assumption log: DESIGN CHOICE 34, 38; DEDUCED 21, 36, 37.
-/
namespace Sys2Proof.Machine

/-! ### Completion timeouts (R155) -/

/-- The period in force for a value of the Completion Timeout Value field, in nanoseconds. -/
def ctoPeriod (v : Nat) : Nat :=
  match v with
  | 1 => us 90
  | 2 => ms 9
  | 5 => ms 50
  | 6 => ms 200
  | 9 => ms 850
  | 10 => ms 3300
  | 13 => sec 12
  | 14 => sec 60
  | _ => ms 40

/-- 04:0022 of a link follows its quarantined tags. -/
def tagsReport (l : Nat) (io : Io) : Io :=
  let n := (linkAt io l).quarantined.length
  if dget io (idx 0x040022 (l + 1)) 0 = n then io else dset (idx 0x040022 (l + 1)) n io

/-- R157: the outstanding reads of the functions that satisfy `p` are abandoned and their tags quarantined for twice the
period in force; waiting ones are dropped. -/
def readsAbandon (l : Nat) (p : Nat → Bool) (io : Io) : Io :=
  let k := linkAt io l
  let q := (k.reqs.filter (fun r => p r.fn)).map (fun r : HostReq =>
    { tag := r.tag, fn := r.fn, ends := io.now + 2 * ctoPeriod (fnCfg io r.fn).cto, abandoned := true : Quarantine })
  tagsReport l (linkPut l { k with
    reqs := k.reqs.filter (fun r => !p r.fn), quarantined := k.quarantined ++ q, waiting := k.waiting.filter (fun w => !p w.1) } io)

/-- R154, R158: the outstanding reads of a link that goes down fail with host error, and every tag is free. -/
def readsFail (l : Nat) (io : Io) : Io :=
  let k := linkAt io l
  tagsReport l (linkPut l { k with reqs := [], quarantined := [], waiting := [], done := k.done ++ k.reqs.map (fun r => (r.tag, 1)) } io)

/-! ### Migration operations (R175 to R177, R183 to R185) -/

/-- SAVE and RESTORE operations that run: 05:0101. -/
def migRunning (io : Io) : Nat :=
  (io.vf.vfs.filter (fun p => match p.2.op with
    | some o => (o.op == 3 || o.op == 4) && !o.waits
    | none => false)).length

/-- 05:0101 follows them. -/
def migReport (io : Io) : Io :=
  if dget io (idx 0x050101 0) 0 = migRunning io then io else dset (idx 0x050101 0) (migRunning io) io

/-- Bytes a SAVE needs: the header and its sections (R180). -/
def blobSize (v : VfState) : Nat := 64 + (v.sections.map (fun x => 16 + x.2)).sum

/-- Bytes of one bank of a tracked range. -/
def bankBytes (t : Track) : Nat := ceilDiv (t.len / t.granule) 8

/-- R175: the 16-byte result of an operation. -/
def migResult (res st bytes required dur : Nat) : Bytes :=
  le 1 res ++ le 1 st ++ le 2 0 ++ le 4 bytes ++ le 4 required ++ le 4 (dur / 1000)

/-- Required: SAVE gives the blob size, HARVEST the bitmap size. -/
def migRequired (op : Nat) (v : VfState) : Nat :=
  match op with
  | 3 => blobSize v
  | 8 => (v.track.map bankBytes).getD 0
  | _ => 0

/-- An operation of VF `n` ends with a result code; `v` is the VF as it leaves it. Its outcome goes to its issuer. -/
def migOver (n res bytes : Nat) (v : VfState) (io : Io) : Io :=
  match (vfAt io n).op with
  | none => io
  | some o =>
    let v' := { v with op := none, lastOp := o.op, lastResult := res }
    sendNote o.by_.assoc
      (.cmdDone o.by_.tag (idx 0x050100 0) (if res = 0 then 0 else 0x11)
        (migResult res v'.state.ctorIdx bytes (migRequired o.op v) (io.now - o.at_)))
      (vfPut n v' { io with vf := { io.vf with queue := io.vf.queue.filter (· != n) } })

/-- R178 steps 4 and 5, R182: a SAVE whose buffer is large enough writes zero to the valid word and is SAVING; a RESTORE is
RESTORING. -/
def migBegin (n : Nat) (io : Io) : Io :=
  let v := vfAt io n
  match v.op with
  | none => io
  | some o =>
    if o.op = 3 then
      if o.len < blobSize v then migOver n 3 0 v io
      else hostWrite (activeTwin io (pfOfVf io n)) (o.addr + 0x3C) (le 4 0)
        (vfPut n { v with state := .saving, op := some { o with waits := false } } io)
    else vfPut n { v with state := .restoring, op := some { o with waits := false } } io

/-- R177: waiting SAVE and RESTORE operations start, oldest first, while fewer than eight run. -/
def migStart (io : Io) : Io :=
  migReport (io.vf.queue.foldl (fun io n =>
    if migRunning io < 8 then migBegin n { io with vf := { io.vf with queue := io.vf.queue.filter (· != n) } } else io) io)

/-- An operation of VF `n` ends, and a waiting one may start. -/
def migEnd (n res bytes : Nat) (v : VfState) (io : Io) : Io := migStart (migOver n res bytes v io)

/-- R183: a HARVEST that ends early ORs its bank back. -/
def bankBack (v : VfState) : VfState :=
  { v with track := v.track.map (fun t => match t.retired with
      | some r => { t with live := r.foldl sadd t.live, retired := none }
      | none => t) }

/-! ### The reset of a VF (R167, R172) -/

/-- Rings, engines' work, mailbox and window of a function instance end. -/
def fnWorkEnds (fn : Nat) (s : State) : State :=
  let k := { binding := if fn < 16 then .pfMailbox else .vfMailbox, key := fn, session := none : AssocKey }
  let s1 := rdmaDropFn fn (on (ringsDropFn fn) s)
  let s2 := onWire (keyWinReset fn) s1
  on (fun io =>
    let io1 := assocsEnd (fun a => a.binding == k.binding && a.key == fn) io
    regReset [.mboxStatus, .mboxCfg] fn { io1 with
      oa := { io1.oa with mboxes := mdel io1.oa.mboxes fn }
      host := { io1.host with atc := io1.host.atc.filter (fun x => x.1 != fn), pageFaults := io1.host.pageFaults.filter (fun x => x.1 != fn) } }) s2

/-- The registers of an NVMe controller return to reset, as CC.EN written 0 (R372). -/
def ctlFnReset (c : Nat) (s : State) : State :=
  if ctlExists s c then on (regReset [.nvCc, .nvAqa, .nvAsq, .nvAcq] c) (ctlDown c s) else s

/-- Steps 3 and 4 of R172: the VF's work and everything that belonged to it end; an operation ends with `res`. It is fresh
afterwards, in state `st`. -/
def vfWipeTo (st : MigState) (n res : Nat) (s : State) : State :=
  let s1 := fnWorkEnds (16 + n) (ctlFnReset (4 + n) s)
  on (fun io =>
    let io1 := readsAbandon (linkOf io (16 + n)) (· == 16 + n) io
    let v := { VfState.reset with up := (vfAt io1 n).up, state := st }
    let c := fnCfg io1 (16 + n)
    let io2 := fnPut (16 + n) { FnCfg.reset with mps := c.mps } io1
    match (vfAt io2 n).op with
    | none => vfPut n v io2
    | some _ => migEnd n res 0 v io2) s1

/-- The reset of a VF. -/
def vfWipe (n res : Nat) (s : State) : State := vfWipeTo .running n res s

/-- First chip-wide number of the VFs of a PF (R166). -/
def vfBase (io : Io) (p : Nat) : Nat := ((List.range p).map (vfTotal io)).sum

/-- VFs of a PF that are up. -/
def vfsUp (io : Io) (p : Nat) : List Nat := (span (vfBase io p) (vfTotal io p)).filter (fun n => (vfAt io n).up)

/-- 05:0002 follows the VFs. -/
def vfReport (p : Nat) (io : Io) : Io := dset (idx 0x050002 (p + 1)) (vfsUp io p).length io

/-- R152: the function map is built anew. -/
def mapRebuild (io : Io) : Io :=
  let g := if io.host.mapGen = 0xFFFFFFFF then 1 else io.host.mapGen + 1
  dset (idx 0x040050 0) g.toNat { io with host := { io.host with mapGen := g } }

/-- Every VF of a PF is reset and gone; VF Enable reads 0. -/
def vfsGone (p res : Nat) (s : State) : State :=
  let ns := vfsUp s.io p
  let s1 := ns.foldl (fun s n => vfWipe n res s) s
  on (fun io =>
    let fn := activeTwin io p
    let io1 := ns.foldl (fun io n => vfPut n { vfAt io n with up := false } io) io
    let io2 := fnPut fn { fnCfg io1 fn with vfEnable := false } io1
    if ns.isEmpty then io2 else mapRebuild (vfReport p io2)) s1

/-! ### The reset of a PF twin (R54, R139, R160, R162) -/

/-- Unit of a peer-window register: window `w` of twin `fn`. -/
def peerUnit (fn w : Nat) : Nat := 8 * fn + w

/-- The active windows of a twin. -/
def winsAt (io : Io) (fn : Nat) : Peer := mgetD io.host.peers fn Peer.reset

/-- Storing them. -/
def winsPut (fn : Nat) (x : Peer) (io : Io) : Io := { io with host := { io.host with peers := mput io.host.peers fn x } }

/-- R160, R162: every window of a twin is disabled and its registers reset. -/
def peersReset (fn : Nat) (io : Io) : Io :=
  let io1 := (List.range 8).foldl (fun io w => regReset [.peerOffset, .peerTarget, .peerCtrl] (peerUnit fn w) io) io
  regReset [.peerStatus] fn { io1 with host := { io1.host with peers := mdel io1.host.peers fn } }

/-- R65: a reset of PF0 during adoption: there is no queue pair left to adopt, and what was held for it is dropped. -/
def adoptionVoid (s : State) : State :=
  let held := s.net.adoptHeld
  let s1 := { s with
    net := { s.net with adoptHeld := [] }, start := { s.start with heldAdmin := [] }
    io := { s.io with rings := { s.io.rings with adopting := false } } }
  held.foldl (fun s o => onWire (fun w => dropPkt o.pkt (w.on (bump64 0x020020 0))) s) s1

/-- The reset of a twin of PF `fn mod 4`, by FLR or with its link. -/
def pfReset (fn : Nat) (s : State) : State :=
  let p := fn % 4
  let active := decide (activeTwin s.io p = fn)
  let s1 := if active then ctlFnReset p (vfsGone p 0x0C s) else s
  let s2 := fnWorkEnds fn s1
  let s3 := if p = 0 then onWire (fun w =>
      let w1 := tblLinkReset fn (plateLinkReset fn w)
      if active && (w1.tabs.proof.state == 1 || w1.tabs.proof.state == 2) then proofEnd 5 w1 else w1) s2 else s2
  let s4 := if p = 0 && s3.io.rings.adopting && !(s3.io.rings.rings.any (fun r => r.2.sheepdog)) then adoptionVoid s3 else s3
  let s5 := { s4 with drives := { s4.drives with slots := mmap s4.drives.slots (fun _ x => { x with
    reqs := x.reqs.map (fun r => (r.1, r.2.filter (fun o => o.1 != fn))) }) } }
  on (fun io => fnPut fn FnCfg.reset (peersReset fn io)) s5

/-- PFs presented on a link. -/
def pfsOn (io : Io) (l : Nat) : List Nat := (List.range 4).filter (fun p => (pfLinks io p).contains l)

/-- R54, R137: every function instance on a link is reset, and its outstanding reads have failed. -/
def linkFnsReset (l : Nat) (s : State) : State :=
  (pfsOn s.io l).foldl (fun s p => pfReset (4 * l + p) s) (on (readsFail l) s)

/-- 04:0010 of a link. -/
def linkReport (l : Nat) (io : Io) : Io :=
  let k := linkAt io l
  dset (idx 0x040010 (l + 1)) (b2n k.up + 2 * b2n k.flit + 4 * k.rate + 32 * k.width) io

/-- A link is in DL_Down. -/
def linkDownSet (l : Nat) (io : Io) : Io :=
  linkReport l (linkPut l { linkAt io l with up := false, flit := false, rate := 0, width := 0 } io)

/-- Links of a host port (R134). -/
def portLinks (io : Io) (p : Nat) : List Nat := if (io.host.split[p]?).getD 0 = 1 then [p, p + 2] else [p]

end Sys2Proof.Machine
end

