-- ==== Sys2Proof/Machine/Lookaside.lean ====
section
/-!
DEFINITION. The lookaside Burins (R330 to R332) and the source of their mask randomness (R322).
Choices of the model coded here, by entry of the assumption log: DEDUCED 55.
-/
namespace Sys2Proof.Machine

/-! ### Job queues -/

/-- Key of a queue. -/
def laKey (r q : Nat) : Nat := 32 * r + q

/-- Storing a queue. -/
def laPut (r q : Nat) (x : LaQueue) (s : State) : State :=
  { s with burin := { s.burin with queues := mput s.burin.queues (laKey r q) x } }

/-- The region whose SRAM an address lies in, by its window. -/
def sramRegion (a : Nat) : Nat :=
  if a < regionBase 0 then (a - blockBase 0) / 0x4000000 else (a - regionBase 0) / 0x4000000

/-- R187, R330: base aligned to 4 KiB, in one SRAM of the region. -/
def laBaseOk (m : MemTile) (r base n : Nat) : Bool :=
  base % 4096 == 0 && sramRange m base (64 * 2 ^ n) && sramRegion base == r &&
  (match coreArea m true base with | some (_, hi) => decide (base + 64 * 2 ^ n ≤ hi + 1) | none => false)

/-- 0A:0200 is answered. -/
def laAnswer (by_ : Issuer) (st : Nat) (s : State) : State := on (answer by_ (idx 0x0A0200 0) st []) s

/-- Op 1. -/
def laCreate (by_ : Issuer) (arg : Bytes) (s : State) : State :=
  match cmdGate s.start.stage by_ 0x0A0200 arg 24 1 s.io with
  | some e => laAnswer by_ e s
  | none =>
    let r := field arg 1 1
    let q := field arg 2 1
    let n := field arg 3 1
    if 4 ≤ r || 32 ≤ q || n < 4 || 12 < n || !allZero (slice arg 0x10 8) || !laBaseOk s.mem r (field arg 8 8) n then
      laAnswer by_ 5 s
    else if (mget s.burin.queues (laKey r q)).isSome then laAnswer by_ 0x11 s
    else
      laAnswer by_ 0 (laPut r q
        { log2n := n, base := field arg 8 8, counter := BitVec.ofNat 32 (field arg 4 4), jobs := [] } s)

/-- LA_QUEUE_CREATE (R330). -/
def execLaQueueCreate (by_ : Issuer) (arg : Bytes) (s : State) : Host.Outcome State Fault Refusal :=
  .next (laCreate by_ arg s)

/-- Op 2; a queue whose jobs the Burin has taken is busy. -/
def laDelete (by_ : Issuer) (arg : Bytes) (s : State) : State :=
  match cmdGate s.start.stage by_ 0x0A0200 arg 24 2 s.io with
  | some e => laAnswer by_ e s
  | none =>
    let k := laKey (field arg 1 1) (field arg 2 1)
    if 4 ≤ field arg 1 1 || 32 ≤ field arg 2 1 then laAnswer by_ 5 s
    else
      match mget s.burin.queues k with
      | none => laAnswer by_ 0x11 s
      | some x =>
        if !x.jobs.isEmpty then laAnswer by_ 8 s
        else laAnswer by_ 0 { s with burin := { s.burin with queues := mdel s.burin.queues k } }

/-- LA_QUEUE_DELETE (R330). -/
def execLaQueueDelete (by_ : Issuer) (arg : Bytes) (s : State) : Host.Outcome State Fault Refusal :=
  .next (laDelete by_ arg s)

/-- R188, R330: up to `fuel` entries are taken, while their PHASE fits. -/
def laScan (r q : Nat) : Nat → State → State
  | 0, s => s
  | fuel + 1, s =>
    match mget s.burin.queues (laKey r q) with
    | none => s
    | some x =>
      let a := x.base + 64 * (x.counter.toNat % 2 ^ x.log2n)
      match coreRead a 64 s with
      | (.err _, s1) => s1
      | (.ok b, s1) =>
        if (field b 0 1).testBit 0 = phaseAt x.log2n x.counter then
          laScan r q fuel (laPut r q { x with counter := x.counter + 1,
                                              jobs := x.jobs ++ [{ addr := a, entry := b, at_ := s1.io.now }] } s1)
        else s1

/-- A visit of the Burin to a queue: a batch of up to eight jobs, once those of the last batch are done. -/
def laVisit (r q : Nat) (s : State) : State :=
  match mget s.burin.queues (laKey r q) with
  | none => s
  | some x => if x.jobs.isEmpty then laScan r q 8 s else s

/-- LA_DOORBELL (R188, R190, R330, R440). -/
def execLaDoorbell (r : RegionNo) (q : Fin 32) (s : State) : Host.Outcome State Fault Refusal :=
  .next (laVisit r.val q.val s)

/-! ### Jobs (R331) -/

/-- Bytes of a job's data unit. -/
def laUnit (a : Sa) : Nat := if field a.desc 0x30 1 = 1 then 4096 else 512

/-- Whether a kind of SA fits an op. -/
def laFits (op kind : Nat) : Bool :=
  if op ≤ 2 then kind == 6 || kind == 7 else if op ≤ 4 then kind == 5 else kind == 8

/-- Cause 0x0C: a malformed entry. -/
def laMalformed (b : Bytes) : Bool :=
  let op := field b 1 1
  bits (field b 0 1) 7 1 != 16 || op == 0 || decide (6 < op) ||
  (field b 2 2 != 0xFFFF && bits (field b 2 2) 15 12 != 0) || !allZero (slice b 0x3A 6) ||
  (decide (5 ≤ op) && field b 0x10 8 != 0) || (decide (3 ≤ op) && field b 0x1C 4 != 0) ||
  (!(op == 3 || op == 4) && field b 0x20 8 != 0)

/-- Cause 0x08: a length invalid for the op. -/
def laLengthBad (b : Bytes) (a : Sa) : Bool :=
  let op := field b 1 1
  let n := field b 0x18 4
  n == 0 || decide (16777216 < n) || ((op == 3 || op == 4) && n % laUnit a != 0) || decide (n < field b 0x1C 4)

/-- XTS over the units of a string, the tweak rising by one per unit. -/
def xtsUnits (enc : Bool) (key : Bytes) (unit : Nat) : Nat → Nat → Bytes → Bytes
  | 0, _, _ => []
  | fuel + 1, n, b =>
    if b.isEmpty then [] else xts enc key n (b.take unit) ++ xtsUnits enc key unit fuel (n + 1) (b.drop unit)

/-- The outcome of a job: a cause, 0 for success, and the counter value used. -/
structure LaEnd where
  cause : Nat
  used  : Nat

/-- A string written for a job; cause 0x0A where it fails. -/
def laStore (a : Nat) (d : Bytes) (used : Nat) (s : State) : LaEnd × State :=
  match coreWrite a d s with
  | (some _, s1) => ({ cause := 0x0A, used := used }, s1)
  | (none, s1) => ({ cause := 0, used := used }, s1)

/-- Two strings written for a job. -/
def laStore2 (a : Nat) (d : Bytes) (b : Nat) (e : Bytes) (used : Nat) (s : State) : LaEnd × State :=
  match laStore a d used s with
  | (x, s1) => if x.cause ≠ 0 then (x, s1) else laStore b e used s1

/-- Op 1: AEAD encryption under the next counter value. -/
def laSeal (i : Nat) (a : Sa) (key : KeySlot) (b data : Bytes) (s : State) : LaEnd × State :=
  match saGrant i a (wireOf s) with
  | (none, w) => ({ cause := 3, used := 0 }, withWire w s)
  | (some v, w) =>
    let n := field b 0x1C 4
    let ct := aeadSeal (if saKind a = 7 then 3 else 1) key.key (slice a.desc 0x0C 4 ++ be 8 v) (data.take n) (data.drop n)
    let len := data.length - n
    laStore2 (field b 0x10 8) (slice ct 0 len) (field b 0x28 8) (slice ct len 16) v (withWire w s)

/-- Op 2: AEAD decryption under the counter value the entry carries. Where it fails the destination is undefined. -/
def laOpen (a : Sa) (key : KeySlot) (b data : Bytes) (s : State) : LaEnd × State :=
  let v := field b 0x30 8
  let n := field b 0x1C 4
  match coreRead (field b 0x28 8) 16 s with
  | (.err _, s1) => ({ cause := 0x0A, used := v }, s1)
  | (.ok tag, s1) =>
    match aeadOpen (if saKind a = 7 then 3 else 1) key.key (slice a.desc 0x0C 4 ++ be 8 v) (data.take n)
        (data.drop n ++ tag) with
    | some pt => laStore (field b 0x10 8) pt v s1
    | none =>
      let (junk, io) := freeBytes (data.length - n) s1.io
      ({ cause := 4, used := v }, (coreWrite (field b 0x10 8) junk { s1 with io := io }).2)

/-- Op 6: the MAC is compared. -/
def laVerify (key : KeySlot) (b data : Bytes) (s : State) : LaEnd × State :=
  match coreRead (field b 0x28 8) 32 s with
  | (.err _, s1) => ({ cause := 0x0A, used := 0 }, s1)
  | (.ok mac, s1) => ({ cause := if mac = hmac key.key data then 0 else 4, used := 0 }, s1)

/-- A job whose SA and key are known. -/
def laDo (i : Nat) (a : Sa) (key : KeySlot) (b : Bytes) (s : State) : LaEnd × State :=
  match coreRead (field b 8 8) (field b 0x18 4) s with
  | (.err _, s1) => ({ cause := 0x0A, used := 0 }, s1)
  | (.ok data, s1) =>
    match field b 1 1 with
    | 1 => laSeal i a key b data s1
    | 2 => laOpen a key b data s1
    | 3 => laStore (field b 0x10 8) (xtsUnits true key.key (laUnit a) (data.length / laUnit a) (field b 0x20 8) data) 0 s1
    | 4 => laStore (field b 0x10 8) (xtsUnits false key.key (laUnit a) (data.length / laUnit a) (field b 0x20 8) data) 0 s1
    | 5 => laStore (field b 0x28 8) (hmac key.key data) 0 s1
    | _ => laVerify key b data s1

/-- R331, R332: a job carried out. -/
def laJob (r : Nat) (b : Bytes) (s : State) : LaEnd × State :=
  if laMalformed b then ({ cause := 0x0C, used := 0 }, s)
  else
    match saOf s.burin (field b 4 4) with
    | none => ({ cause := 1, used := 0 }, s)
    | some (i, a) =>
      if !laFits (field b 1 1) (saKind a) then ({ cause := 2, used := 0 }, s)
      else if laLengthBad b a then ({ cause := 8, used := 0 }, s)
      else
        let slot := field a.desc 8 4
        match saKey (wireOf s) a slot with
        | none => ({ cause := 6, used := 0 }, s)
        | some key => laDo i a key b (withWire (keyTouch r a.pool slot (wireOf s)) s)

/-- R331: the end of a job: counter used and status, then Done, then the event. -/
def laFinish (r q : Nat) (j : LaJob) (e : LaEnd) (s : State) : State :=
  let op := field j.entry 1 1
  let s1 := if op = 1 || op = 2 then (coreWrite (j.addr + 0x30) (le 8 e.used ++ le 1 e.cause) s).2
    else (coreWrite (j.addr + 0x38) (le 1 e.cause) s).2
  let s2 := (coreWrite (j.addr + 0x39) (le 1 1) s1).2
  let s3 := if e.cause = 0 then s2 else on (bump64 0x0A0011 e.cause) s2
  let ev := field j.entry 2 2
  let s4 := if ev = 0xFFFF || bits ev 15 12 ≠ 0 then s3 else evAdd (4 * r + bits ev 11 10) (bits ev 9 0) 1 s3
  match mget s4.burin.queues (laKey r q) with
  | none => s4
  | some x => laVisit r q (laPut r q { x with jobs := x.jobs.drop 1 } s4)

/-- Whether a job needs mask randomness: all but HMAC (R321). -/
def laMasked (b : Bytes) : Bool := decide (field b 1 1 < 5)

/-- The oldest job of a queue ends; one that lacks mask randomness waits. -/
def laComplete (r q : Nat) (s : State) : State :=
  match mget s.burin.queues (laKey r q) with
  | none => s
  | some x =>
    match x.jobs with
    | [] => s
    | j :: _ =>
      if s.burin.rng = 2 && laMasked j.entry then s
      else
        let e := laJob r j.entry s
        laFinish r q j e.1 e.2

/-- LA_JOB_COMPLETE (R326, R331, R332, R461). -/
def execLaJobComplete (r : RegionNo) (q : Fin 32) (s : State) : Host.Outcome State Fault Refusal :=
  .next (laComplete r.val q.val s)

/-- R38, R334: every job of a region, taken or still in its queue, ends with cause 0x0B. -/
def laRegionEnd (r : Nat) (s : State) : State :=
  (List.range 32).foldl (fun s0 q =>
    let s := laScan r q (2 ^ (((mget s0.burin.queues (laKey r q)).map (·.log2n)).getD 0)) s0
    match mget s.burin.queues (laKey r q) with
    | none => s
    | some x =>
      x.jobs.foldl (fun s j =>
        let s1 := (coreWrite (j.addr + 0x38) (le 1 0x0B) s).2
        let s2 := (coreWrite (j.addr + 0x39) (le 1 1) s1).2
        let ev := field j.entry 2 2
        let s3 := on (bump64 0x0A0011 0x0B) s2
        if ev = 0xFFFF || bits ev 15 12 ≠ 0 then s3 else evAdd (4 * r + bits ev 11 10) (bits ev 9 0) 1 s3)
        (laPut r q { x with jobs := [] } s)) s

/-! ### Mask randomness (R322) -/

/-- The oldest job of a region that lacks randomness. -/
def laStarved (r : Nat) (s : State) : Option (Nat × LaJob) :=
  (List.range 32).findSome? (fun q =>
    match mget s.burin.queues (laKey r q) with
    | none => none
    | some x => match x.jobs with
      | [] => none
      | j :: _ => if laMasked j.entry then some (q, j) else none)

/-- A packet, or else a job, of a region fails with cause 0x07. -/
def starveTimeout (r : Nat) (s : State) : State :=
  if s.burin.rng ≠ 2 then s
  else if s.burin.starved.any (fun x => x.pkt.region == r) then onWire (starvedFail r) s
  else
    match laStarved r s with
    | none => s
    | some (q, j) =>
      laFinish r q j { cause := 7, used := 0 } (on (reach (j.at_ + us (dget s.io (idx 0x0A0003 0) 100))) s)

/-- MASK_STARVE_TIMEOUT (R322, R332). -/
def execMaskStarveTimeout (r : RegionNo) (s : State) : Host.Outcome State Fault Refusal :=
  .next (starveTimeout r.val s)

/-- 0A:0004 changes. -/
def rngSet (v : Nat) (s : State) : State :=
  on (dset (idx 0x0A0004 0) v) { s with burin := { s.burin with rng := v } }

/-- The DRBG stops. -/
def trngFail (s : State) : State :=
  let s1 := rngSet 2 s
  on (contRecord 4 0x0B 0 1 0 0 0) { s1 with burin := { s1.burin with passes := 0, testAt := s1.io.now } }

/-- TRNG_HEALTH_FAIL (R322). -/
def execTrngHealthFail (s : State) : Host.Outcome State Fault Refusal := .next (trngFail s)

/-- A retest; after three passes in a row the DRBG restarts and what waited goes on. -/
def trngRetest (pass : Bool) (s : State) : State :=
  if s.burin.rng ≠ 2 then s
  else
    let s1 := on (reach (s.burin.testAt + sec 1)) s
    let n := if pass then s.burin.passes + 1 else 0
    let s2 := { s1 with burin := { s1.burin with passes := n, testAt := s1.io.now } }
    if n < 3 then s2
    else onWire (starvedResume s.cont s.dom) (rngSet 0 { s2 with burin := { s2.burin with passes := 0 } })

/-- TRNG_RETEST (R322). -/
def execTrngRetest (pass : Bool) (s : State) : Host.Outcome State Fault Refusal := .next (getWake (trngRetest pass s))

/-- A reseed: 0A:0004 reads 1 while it lasts. -/
def drbgReseed (s : State) : State := if s.burin.rng = 2 then s else rngSet 0 (rngSet 1 s)

/-- DRBG_RESEED (R322). -/
def execDrbgReseed (s : State) : Host.Outcome State Fault Refusal := .next (getWake (drbgReseed s))

end Sys2Proof.Machine
end

