-- ==== Sys2Proof/Machine/ContOps.lean ====
section
/-!
DEFINITION. Cell, block and region resets and isolations (R36 to R39, R452), and the escalation ladder (R33 to R35) up to
the chip level.
Choices of the model coded here, by entry of the assumption log: DESIGN CHOICE 9, 16, 86; DEDUCED 15.
-/
namespace Sys2Proof.Machine

/-! ### Cells (R36, R452) -/

/-- Threads of cell `c`, as a test. -/
def inCell (c t : Nat) : Bool := t / 8 == c

/-- R452 step 3: packets the threads had got and not put are freed and counted in 0E:0002. -/
def packetsFree (c : Nat) (s : State) : State :=
  let gone := s.net.got.filter (fun g => inCell c g.2.1)
  let s1 := onWire (fun w => gone.foldl (fun w g => dropPkt g.2.2 w) (w.onNet (fun n => { n with got := n.got.filter (fun g => !inCell c g.2.1) }))) s
  if gone.isEmpty then s1 else on (bumpBy 64 (idx 0x0E0002 0) gone.length) s1

/-- What a cell's threads held is lost: waits, locks, channels, halts, NVMe commands (R36, R383). -/
def threadsLost (c : Nat) (s : State) : State :=
  let s1 := leCellLost c s
  let s2 := (cellThreads c).foldl (fun s t => haltEnds t s) s1
  nvThreadsLost (inCell c) s2

/-- A thread at reset: mcycle counts from here. -/
def threadAtReset (s : State) (t : Nat) : Thread :=
  { Thread.reset with mcycle := 0 - BitVec.ofNat 64 (cyclesNow s (t / 256)) }

/-- The threads of a cell stop: state 0, every register at reset, loads abandoned. -/
def threadsReset (c : Nat) (s : State) : State :=
  let s1 := { s with dbg := { s.dbg with stepping := s.dbg.stepping.filter (fun t => !inCell c t), traces := mdel s.dbg.traces c } }
  (cellThreads c).foldl (fun s t => threadPut t (threadAtReset s t) s) s1

/-- The start address of thread 0 after a cell reset (0E:0011). -/
def resetVector (s : State) : Nat := dget s.io (idx 0x0E0011 0) s.boot.entries.2

/-- Thread 0 of a cell starts in M mode (R452 step 5, R78 step 8). -/
def cellStart (c : Nat) (s : State) : State :=
  threadPut (8 * c) { threadAt s (8 * c) with st := 1, pc := BitVec.ofNat 64 (resetVector s) } s

/-- Bytes of cell SRAM of a cell, first and one past the last. -/
def cellSram (c : Nat) : Nat × Nat :=
  let a := blockBase (c / 8) + 0x800000 + 0x40000 * (c % 8)
  (a, a + 0x40000)

/-- R35: a unit's reset lasts a time the spec bounds by 20 µs for a cell. -/
def resettingFor (level unit : Nat) (s : State) : State :=
  let r := freeNat s.io
  let left := s.cont.resetting.filter (fun x => decide (s.io.now < x.time) && !(x.level == level && x.unit == unit))
  { s with io := r.2, cont := { s.cont with resetting := { level := level, unit := unit, time := s.io.now + r.1 % 20001 } :: left } }

/-- R452: a cell reset. It lasts a time the spec bounds by 20 µs. -/
def cellReset (c : Nat) (s : State) : State :=
  let s1 := threadsReset c (packetsFree c (threadsLost c s))
  let s2 := cellPut c { Cell.reset with wdogAt := s1.io.now, resetAt := some s1.io.now }
    { s1 with mem := sramZero (cellSram c).1 (cellSram c).2 s1.mem }
  let s3 := cellStart c s2
  resettingFor 1 c s3

/-- R36, R37: a cell stops for good: what its threads held is lost and its punts are dropped. -/
def cellStop (c : Nat) (s : State) : State :=
  onWire (puntsDrop (inCell c)) (threadsReset c (threadsLost c s))

/-- R36: a cell is isolated. -/
def cellIsolate (c : Nat) (s : State) : State :=
  let s1 := cellStop c s
  contPut { s1.cont with cells := sadd s1.cont.cells c } s1

/-! ### Blocks (R37, R41) -/

/-- Cells of a block and of a region; blocks of a region. -/
def blockCells (b : Nat) : List Nat := span (8 * b) 8
def regionBlocks (r : Nat) : List Nat := span (4 * r) 4

/-- The steward-facing parts of a block at reset: lock-and-event unit, Bellwether queue, firmware port (R96, R449, R475). -/
def blockUnits (b : Nat) (s : State) : State :=
  let s1 := { s with le := mdel s.le b, cpu := { s.cpu with bws := mdel s.cpu.bws b } }
  on (fun io =>
    let io1 := assocsEnd (fun a => a.binding == .fwPort && a.key == b) io
    regReset [.mboxStatus, .mboxCfg] (2000 + b)
      { io1 with oa := { io1.oa with mboxes := mdel io1.oa.mboxes (2000 + b) }, evAdds := io1.evAdds.filter (fun x => x.1 != b) }) s1

/-- A block reset: its cells are reset, isolated ones return, and the cache takes its size from 0E:0012. -/
def blockReset (b : Nat) (s : State) : State :=
  let s0 := contPut { s.cont with cells := s.cont.cells.filter (fun c => c / 8 != b) } (onMem (cacheFlush b) s)
  let s1 := (blockCells b).foldl (fun s c => cellReset c s) s0
  let s2 := resettingFor 2 b (blockUnits b s1)
  { s2 with
    mem := { s2.mem with sram := memClear s2.mem.sram (blockBase b) (blockBase b + 0x200000)
                         bad := s2.mem.bad.filter (fun w => decide (w < blockBase b) || decide (blockBase b + 0x200000 ≤ w))
                         sizes := mput s2.mem.sizes b (dget s2.io (idx 0x0E0012 (b + 1)) 2) } }

/-- R37: a block is isolated: dirty lines are written back, and its cells stop. -/
def blockIsolate (b : Nat) (s : State) : State :=
  let s1 := (blockCells b).foldl (fun s c => cellStop c s) (onMem (cacheFlush b) s)
  contPut { s1.cont with blocks := sadd s1.cont.blocks b } s1

/-! ### Regions (R38, R39) -/

/-- R184: a reset or isolation of any region ends what the mover does: a VF being saved stays DRAINED, one being restored is
fresh and FROZEN, a drain leaves it FROZEN, a harvest gives its bank back. -/
def migRegionEnd (s : State) : State :=
  (s.io.vf.vfs.filter (fun p => p.2.op.isSome)).foldl (fun s p =>
    match p.2.op with
    | none => s
    | some o =>
      match o.op with
      | 2 => on (fun io => migEnd p.1 0x0D 0 { vfAt io p.1 with state := .frozen } io) s
      | 3 => on (fun io =>
          let r := freeNat io
          migEnd p.1 0x0D r.1 { vfAt r.2 p.1 with state := .drained } r.2) s
      | 8 => on (fun io => migEnd p.1 0x0D 0 (bankBack (vfAt io p.1)) io) s
      | _ => vfWipeTo .frozen p.1 0x0D s) s

/-- R231, R237, R334, R338: what leaves a region that enters reset or isolation. -/
def regionLeaves (r : Nat) (s : State) : State :=
  let s1 := contPut { s.cont with withdrawn := sadd s.cont.withdrawn r } s
  let s2 := laRegionEnd r (onWire (regionLosses r) s1)
  let s3 := { s2 with
    burin := { s2.burin with starved := s2.burin.starved.filter (fun x => x.pkt.region != r)
                             resident := s2.burin.resident.filter (fun k => k / 2 ^ 32 != r) }
    tabs := { s2.tabs with cache := mdel s2.tabs.cache r, filters := mdel s2.tabs.filters r }
    rdma := { s2.rdma with resident := mdel s2.rdma.resident r, parked := s2.rdma.parked.filter (fun p => homeRegion p.1 != r) } }
  migRegionEnd s3

/-- R38: the engine of an isolated region stops. -/
def dmaIsolate (r : Nat) (s : State) : State :=
  let e := dmaAt s r
  dmaPut r { e with chans := (List.range 32).foldl (fun m c =>
    let x := mgetD m c DmaCh.reset
    mput m c { x with state := .stopped, cause := 4, desc := none, ending := none, reading := false, allowed := 0, kicked := false }) e.chans } s

/-- R343, R353: a QP whose context fails its check moves to ERROR with status 0x2C. -/
def ctxLost (qs : List Nat) (s : State) : State := qs.foldl (fun s q => qpError q none none 0x2C 0 s) s

/-- R38: a region is isolated. -/
def regionIsolate (r : Nat) (ctxBad : List Nat) (s : State) : State :=
  let s1 := ctxLost (ctxBad.filter (fun q => homeRegion q == r && isResident s q)) s
  let s2 := dmaIsolate r (regionLeaves r s1)
  let s3 := (regionBlocks r).foldl (fun s b => blockIsolate b s) s2
  let s4 := clkSet (r + 5) 0 (clkSet (r + 1) 0 (railWrite r 620 false s3))
  let s5 := { s4 with clk := { s4.clk with target := mdel s4.clk.target r } }
  let s6 := xingsHeld (regionXings r) regionInner s5
  contPut { s6.cont with regions := sadd s6.cont.regions r, regionResets := s6.cont.regionResets.filter (·.1 != r) }
    (shepPut r { ShepR.reset with rail := 620 } s6)

/-- R39, step 1: a region reset begins: the rail and clock are released at P7, and everything in it is reset. -/
def regionResetStart (r : Nat) (commanded : Bool) (s : State) : State :=
  let s1 := regionLeaves r s
  let s2 := contPut { s1.cont with
    blocks := s1.cont.blocks.filter (fun b => b / 4 != r)
    regionResets := s1.cont.regionResets.filter (·.1 != r) ++ [(r, (s1.io.now, commanded))] } s1
  let s3 := (regionBlocks r).foldl (fun s b => blockReset b s) { s2 with dma := mdel s2.dma r }
  let s4 := clkSet (r + 5) 1250000 (clkSet (r + 1) 1400000 (railWrite r 620 false s3))
  let s5 := { s4 with clk := { s4.clk with target := mdel s4.clk.target r } }
  let s6 := (regionXings r).foldl (fun s x => xingDown x .reset (regionInner x) [] s) s5
  let w := regionBase r
  { shepPut r { ShepR.reset with rail := 620 } s6 with
    mem := { s6.mem with sram := memClear s6.mem.sram w (w + 0x4000000), bad := s6.mem.bad.filter (fun a => decide (a < w) || decide (w + 0x4000000 ≤ a)) } }

/-! ### The ladder (R33 to R35, R40) -/

/-- The limit of a level (0E:0401). -/
def resetLimit (s : State) (level : Nat) : Nat := dget s.io (idx 0x0E0401 level) 3

/-- A containment reset is counted in the sliding window of its unit. -/
def countReset (level unit : Nat) (s : State) : State :=
  let left := s.cont.resets.filter (fun x => decide (s.io.now < x.time + sec 86400))
  { s with cont := { s.cont with resets := { level := level, unit := unit, time := s.io.now } :: left } }

/-- A record of R40 with the unit's count. -/
def ladderRecord (level cause unit action addr detail : Nat) (s : State) : State :=
  on (contRecord level cause unit action (resetsIn s level unit % 256) addr detail) s

/-- The chip is to be reset by the containment ladder: what the caller still has to do. -/
inductive Ladder where
  | done (s : State)
  /-- a chip-level fault with its cause, address and detail -/
  | chip (s : State) (cause addr detail : Nat)

/-- R33, R35, R38: a region fault: reset, or isolation once its limit is reached; all four isolated is a chip fault. -/
def containRegion (r cause addr detail : Nat) (ctxBad : List Nat) (s : State) : Ladder :=
  if s.cont.regions.contains r && !(s.cont.regionResets.any (·.1 == r)) then .done s
  else if s.cont.regionResets.any (·.1 == r) then .done (ladderRecord 3 cause r 1 addr detail s)
  else
    let s1 := countReset 3 r s
    if resetsIn s1 3 r < resetLimit s1 3 then .done (ladderRecord 3 cause r 7 addr detail (regionResetStart r false s1))
    else
      let s2 := ladderRecord 3 cause r 8 addr detail (regionIsolate r ctxBad s1)
      if (List.range 4).all s2.cont.regions.contains then .chip s2 0x0C 0 0 else .done s2

/-- R33, R37: a block fault: reset, or isolation once its limit is reached. -/
def containBlock (b cause addr detail : Nat) (s : State) : State :=
  if s.cont.regions.contains (b / 4) || s.cont.blocks.contains b then s
  else if unitResetting s.cont s.io.now 2 b || s.cont.regionResets.any (·.1 == b / 4) then ladderRecord 2 cause b 1 addr detail s
  else
    let s1 := countReset 2 b s
    if resetsIn s1 2 b < resetLimit s1 2 then ladderRecord 2 cause b 5 addr detail (blockReset b s1)
    else ladderRecord 2 cause b 6 addr detail (blockIsolate b s1)

/-- R33, R34, R36: a containment cell reset, or isolation once its limit is reached. Cell 8 × b is handled at block level. -/
def containCell (c cause addr detail : Nat) (s : State) : State :=
  if c % 8 = 0 then containBlock (c / 8) cause addr detail s
  else if s.cont.cells.contains c || s.cont.blocks.contains (c / 8) || s.cont.regions.contains (c / 32) then s
  else if cellOff s c then ladderRecord 1 cause c 1 addr detail s
  else
    let s1 := countReset 1 c s
    if resetsIn s1 1 c < resetLimit s1 1 then ladderRecord 1 cause c 3 addr detail (cellReset c s1)
    else ladderRecord 1 cause c 4 addr detail (cellIsolate c s1)

/-- R450: a fault of a cell goes to its Bellwether, with the chip-wide thread concerned or 0xFFFF for the whole cell: an SRAM error needs its decision, one of the instruction cache is reported
only; one found during the cell's reset is absorbed and recorded. A fault of the Bellwether's own cell is a block fault. -/
def cellFault (c cause thread addr detail store : Nat) (s : State) : State :=
  if c % 8 = 0 then containBlock (c / 8) cause addr detail s
  else if s.cont.cells.contains c || s.cont.blocks.contains (c / 8) || s.cont.regions.contains (c / 32) then s
  else if cellOff s c then ladderRecord 1 cause c 1 addr detail s
  else if store = 2 then bwRaise 2 0 thread c addr [] s
  else bwRaise 1 1 thread c addr (padTo 8 (le 3 detail)) s

end Sys2Proof.Machine
end

