-- ==== Sys2Proof/Machine/Domain.lean ====
section
/-!
DEFINITION. The fabric domain (chapter 24): roster, membership, quorum, isolation and healing.
Choices of the model coded here, by entry of the assumption log: DESIGN CHOICE 22; DEDUCED 62, 80.
-/
namespace Sys2Proof.Machine

/-! ### The roster (R536 to R538) -/

/-- Roster entries of a byte string: ID, weight, flags. -/
def rosterEntries (b : Bytes) : List (Nat × Nat × Nat) :=
  (List.range (b.length / 4)).map (fun k => (field b (4 * k) 2, field b (4 * k + 2) 1, field b (4 * k + 3) 1))

/-- The active roster. -/
def roster (io : Io) : List (Nat × Nat × Nat) := rosterEntries (dgetB io (idx 0x110013 0))

/-- R537: entries ascend, IDs are assigned ones, weights are not zero, reserved flags are. -/
def rosterOk (b : Bytes) : Bool :=
  let es := rosterEntries b
  b.length % 4 == 0 && !es.isEmpty && decide (b.length ≤ 262136) &&
  es.all (fun e => decide (1 ≤ e.1) && decide (e.1 ≤ 0xFFFE) && decide (1 ≤ e.2.1) && decide (e.2.2 ≤ 1)) &&
  (es.zip (es.drop 1)).all (fun p => decide (p.1.1 < p.2.1))

/-- The roster's entry of an ID. -/
def rosterOf (io : Io) (id : Nat) : Option (Nat × Nat × Nat) := (roster io).find? (fun e => e.1 == id)

/-- W. -/
def rosterWeight (es : List (Nat × Nat × Nat)) : Nat := (es.map (·.2.1)).sum

/-- The lowest anchor; 0 for none. -/
def lowestAnchor (es : List (Nat × Nat × Nat)) : Nat := ((es.find? (fun e => e.2.2.testBit 0)).map (·.1)).getD 0

/-- R536: the device belongs to its domain. -/
def belongs (s : State) : Bool := s.dom.id != 0 && (rosterOf s.io s.dom.id).isSome

/-! ### Peers (R542, R543) -/

/-- Storing a peer. -/
def peerPut (id : Nat) (x : DomPeer) (s : State) : State := { s with dom := { s.dom with peers := mput s.dom.peers id x } }

/-- Peers in a state. -/
def peersIn (s : State) (st : Nat) : Nat := (s.dom.peers.filter (fun p => p.2.state == st)).length

/-- 11:0021 and 00:0102.05. -/
def peerCounts (s : State) : State :=
  on (fun io => dfollow (idx 0x000102 5) (peersIn s 1 + peersIn s 2)
    ([1, 2, 3, 4].foldl (fun io k => dfollow (idx 0x110021 k) (peersIn s k) io) io)) s

/-- A counter of 11:0030. -/
def domCount (e : Nat) (s : State) : State := on (bump64 0x110030 e) s

/-- R553: an event to PF0, repeated in 11:0005. -/
def domEvent (code consumer detail : Nat) (data : Bytes) (s : State) : State :=
  on (fun io => dsetM (idx 0x110005 0) (le 2 code ++ le 2 detail ++ le 2 consumer ++ le 2 0 ++ padTo 8 data ++ le 8 (time64 io))
    (eventPf0 code 0 consumer detail data io)) s

/-- R553: event 0x1102, once per peer and cause until the peer is admitted. -/
def refuseEvent (id cause : Nat) (s : State) : State :=
  let x := domPeer s.dom id
  if x.raised.contains cause then s else domEvent 0x1102 id cause [] (peerPut id { x with raised := cause :: x.raised } s)

/-! ### Quorum (R546 to R549) -/

/-- S: this device and its reachable peers that the roster lists. -/
def reachable (s : State) : List (Nat × Nat × Nat) := (roster s.io).filter (fun e => e.1 == s.dom.id || isMember s.dom e.1)

/-- R546, R548: whether the device qualifies, and the reason. -/
def quorum (s : State) : Bool × Nat :=
  let w := rosterWeight (reachable s)
  let all := rosterWeight (roster s.io)
  let a := lowestAnchor (roster s.io)
  if all < 2 * w then (true, 1)
  else if 2 * w = all then (if a ≠ 0 && (reachable s).any (fun e => e.1 == a) then (true, 2) else (false, 4))
  else (false, 3)

/-- 11:0002 and 11:0003. -/
def domPublish (s : State) : State :=
  let st := s.dom.state
  let b := le 1 st ++ le 1 s.dom.reason ++ le 2 ((reachable s).filter (fun e => e.1 != s.dom.id)).length ++ le 4 (rosterWeight (reachable s)) ++
    le 4 (rosterWeight (roster s.io)) ++ le 2 (lowestAnchor (roster s.io)) ++ le 2 0 ++ le 8 (time64 s.io)
  on (fun io => dsetB (idx 0x110003 0) b (dfollow (idx 0x110002 0) st (modeBump (dget io (idx 0x110002 0) 0) st io))) s

/-- R386, R549: namespaces whose state follows the domain's have changed. -/
def domNamespaces (s : State) : State :=
  s.store.nss.foldl (fun s p => if p.2.state = 0 && (p.2.kind == 2 || p.2.copies == 2) then nsChanged p.1 p.2.attached s else s) s

/-- The device's state becomes `st` for a reason: learn records queued are discarded at isolation (R301), namespaces follow,
and a change of state is raised. -/
def domState (st reason : Nat) (s : State) : State :=
  let old := s.dom.state
  let s1 := domPublish { s with dom := { s.dom with state := st, reason := reason } }
  if old = st then s1
  else
    let s2 := if st = 2 then { s1 with tabs := { s1.tabs with outbox := [], sweepQueued := false } } else s1
    let s3 := if old = 2 || st = 2 then domNamespaces s2 else s2
    domEvent 0x1101 st reason (le 4 (rosterWeight (reachable s3)) ++ le 4 (rosterWeight (roster s3.io))) s3

/-- R544, R547, R550: quorum is evaluated. -/
def domEval (s : State) : State :=
  if !belongs s then domState 0 0 { s with dom := { s.dom with startAt := none, healAt := none } }
  else if s.dom.conflict then domState 2 6 { s with dom := { s.dom with healAt := none } }
  else if s.dom.startAt.isSome then domState 2 5 s
  else
    let q := quorum s
    if s.dom.state = 1 then
      (if q.1 then domState 1 q.2 s else domState 2 q.2 (domCount 7 { s with dom := { s.dom with healAt := none } }))
    else if q.1 then domState 2 7 { s with dom := { s.dom with healAt := some (s.dom.healAt.getD s.io.now) } }
    else domState 2 q.2 { s with dom := { s.dom with healAt := none } }

/-- R547: at stage 3 entry and after a roster activation. -/
def domStart (s : State) : State :=
  domEval { s with dom := { s.dom with startAt := some s.io.now, healAt := none } }

/-- R536, R542, R543: a chip warm reset: the ID and domain written take effect, every peer is ABSENT. -/
def domWarm (s : State) : State :=
  let s1 := { s with dom := { Dom.reset with id := dget s.io (idx 0x110000 0) 0, domain := dget s.io (idx 0x110001 0) 0 } }
  { s1 with dom := { s1.dom with state := if belongs s1 then 2 else 0, reason := if belongs s1 then 5 else 0 } }

/-! ### Merge (R551) -/

/-- REMOTE entries that satisfy a test are marked stale. -/
def markStale (p : BrEntry → Bool) (s : State) : State :=
  { s with tabs := { s.tabs with br := mmap s.tabs.br (fun _ e => if e.remote && !e.static && p e then { e with stale := true } else e) } }

/-- A peer is not, or no longer, reachable: its sequences are forgotten, and its departure ends its associations. -/
def peerOut (id st : Nat) (s : State) : State :=
  let x := domPeer s.dom id
  let was := isMember s.dom id
  let s1 := peerPut id { x with state := st, seqHb := none, seqObj := none } s
  let s2 := if was then on (assocsEnd (fun k => k.binding == .fabric && k.key == id)) s1 else s1
  let s3 := peerCounts s2
  if was then domEval s3 else s3

/-! ### Heartbeats (R539 to R541, R545) -/

/-- 11:0008. -/
def memberGroup (io : Io) : Bytes :=
  let b := dgetB io (idx 0x110008 0)
  if b.isEmpty then [0x03, 0x00, 0x4B, 0x57, 0x00, 0x02] else b

/-- Membership ports that are up. -/
def memberPorts (s : State) : List Nat :=
  (List.range 8).filter (fun p => portExists s.net p && (portAt s.net p).up && (dget s.io (idx 0x110006 0) 255).testBit p)

/-- The 48 bytes of a heartbeat. -/
def heartbeatBytes (s : State) : Bytes :=
  let info := dgetB s.io (idx 0x110012 0)
  le 1 1 ++ le 1 1 ++ le 2 s.dom.id ++ le 4 s.dom.domain ++ le 4 s.dom.seqHb ++ le 8 (time64 s.io) ++ le 8 serialNo ++ slice info 0 4 ++
  slice info 4 4 ++ le 1 s.dom.state ++ le 1 (dget s.io (idx 0x000101 4) 3) ++ le 2 0 ++ le 4 (rosterWeight (reachable s)) ++ le 4 0

/-- HEARTBEAT_SEND (R539, R540, R542, R545, R547). -/
def execHeartbeatSend (s : State) : Host.Outcome State Fault Refusal :=
  .next (if s.start.stage < 3 || !belongs s || s.dom.conflict then s
    else
      let s1 := on (reach (s.dom.sentAt + ms 10)) s
      let f := memberGroup s1.io ++ baseMac ++ be 2 (dget s1.io (idx 0x110007 0) 0x88B6) ++ heartbeatBytes s1
      let s2 := onWire (fun w => (memberPorts s1).foldl (fun w p => engineSend 5 7 p f w) w) s1
      domCount 1 { s2 with dom := { s2.dom with seqHb := (s2.dom.seqHb + 1) % 2 ^ 32, sentAt := s2.io.now } })

/-- R545: an ID is heard under two serials. -/
def idConflict (id port domain a b : Nat) (s : State) : State :=
  on (violate 0x0502 (fabricPartner id port domain) (le 4 (min a b) ++ le 4 (max a b))) s

/-- R541: a membership frame's form. -/
def memberFormed (b : Bytes) : Bool :=
  if field b 1 1 = 1 then b.length == 48 && allZero (slice b 0x26 2) && allZero (slice b 0x2C 4) && (field b 0x24 1 == 1 || field b 0x24 1 == 2)
  else field b 1 1 == 2 && decide (16 ≤ b.length) && allZero (slice b 0x0E 2)

/-- The checks common to both types; none where the frame goes on. -/
def memberCheck (k : Pkt) (b : Bytes) (s : State) : Option State :=
  let id := field b 2 2
  let x := domPeer s.dom id
  let last := if field b 1 1 = 1 then x.seqHb else x.seqObj
  if !memberFormed b then
    some (on (violate 0x0501 (fabricPartner id k.ingress (field b 4 4)) (le 1 (field b 1 1) ++ le 1 0 ++ le 2 b.length)) (domCount 3 s))
  else if field b 4 4 ≠ s.dom.domain then some (domCount 4 s)
  else if field b 0 1 ≠ 1 then
    let s1 := refuseEvent id 2 (peerOut id 4 s)
    let y := domPeer s1.dom id
    some (if y.counted then s1 else on (bump32 0x000104 5) (peerPut id { y with counted := true } s1))
  else if id = s.dom.id || (rosterOf s.io id).isNone then
    let s1 := domCount 4 s
    if id = s.dom.id && field b 1 1 = 1 && field b 0x14 8 ≠ serialNo then
      let s2 := refuseEvent id 3 (idConflict id k.ingress (field b 4 4) serialNo (field b 0x14 8) s1)
      some (if field b 0x14 8 < serialNo then domEval { s2 with dom := { s2.dom with conflict := true } } else s2)
    else some s1
  else
    match last with
    | some l => if laterSeq (field b 8 4) l then none else some (domCount 5 s)
    | none => none

/-- Rival serials of an ID, with the instant each was last heard. -/
def rivalHeard (serial now : Nat) (l : List (Nat × Nat)) : List (Nat × Nat) := (serial, now) :: l.filter (fun r => r.1 != serial)

/-- A heartbeat that has passed the common checks. -/
def heartbeatTake (k : Pkt) (b : Bytes) (s : State) : State :=
  let id := field b 2 2
  let x := domPeer s.dom id
  let serial := field b 0x14 8
  let digest := field b 0x20 4
  let digestOk := digest == field (dgetB s.io (idx 0x110012 0)) 4 4 ||
    (match s.dom.prev with | some p => p.1 == digest && decide (s.io.now < p.2) | none => false)
  if !digestOk then domCount 6 (refuseEvent id 1 (peerOut id 4 s))
  else if !x.rivals.isEmpty then domCount 6 (peerPut id { x with rivals := rivalHeard serial s.io.now x.rivals } s)
  else
    match x.serial with
    | some old =>
      if old ≠ serial then
        let s1 := idConflict id k.ingress (field b 4 4) old serial (domCount 6 (refuseEvent id 3 (peerOut id 4 s)))
        peerPut id { domPeer s1.dom id with rivals := [(serial, s.io.now), (old, x.heard)] } s1
      else heartbeatAdmit id serial x s
    | none => heartbeatAdmit id serial x s
where
  /-- It refreshes the peer's entry, and admits a peer that was not a member. -/
  heartbeatAdmit (id serial : Nat) (x : DomPeer) (s : State) : State :=
    let new := !isMember s.dom id
    let up := !new && x.peerState == 2 && field b 0x24 1 == 1
    let x1 := { x with
      state := 1, heard := s.io.now, heardTime := time64 s.io, port := k.ingress, mac := slice k.frame 6 6, serial := some serial,
      learn := field b 0x25 1, peerState := field b 0x24 1, seqHb := some (field b 8 4), raised := if new then [] else x.raised,
      counted := if new then false else x.counted }
    let s1 := domCount 2 (peerCounts (peerPut id x1 s))
    let s2 := if new && s1.dom.state = 1 then markStale (fun e => e.owner == id) s1 else s1
    let s3 := if new || up then onWire (startSweep s2.dom) s2 else s2
    if new then domEval s3 else s3

/-- HEARTBEAT_RECEIVED (R539 to R545, R551, R564). -/
def execHeartbeatReceived (s : State) : Host.Outcome State Fault Refusal :=
  .next (match s.net.stewardRx.find? (fun k => field (k.frame.drop 14) 1 1 != 2) with
    | none => s
    | some k =>
      let s1 := { s with net := { s.net with stewardRx := s.net.stewardRx.erase k } }
      let b := k.frame.drop 14
      if s1.start.stage < 3 || !belongs s1 then s1
      else
        match memberCheck k b s1 with
        | some s2 => s2
        | none => heartbeatTake k b s1)

/-- CONFLICT_CLEAR (R545). -/
def execConflictClear (id : Half) (s : State) : Host.Outcome State Fault Refusal :=
  .next (let x := domPeer s.dom id.toNat
    match x.rivals with
    | [] => s
    | _ :: old =>
      let s1 := on (reach ((old.map (·.2)).foldl max 0 + ms 50)) s
      peerCounts (peerPut id.toNat { x with rivals := [], state := 0, serial := none } s1))

/-- PEER_SUSPECT (R543). -/
def execPeerSuspect (id : Half) (s : State) : Host.Outcome State Fault Refusal :=
  .next (let x := domPeer s.dom id.toNat
    if x.state ≠ 1 then s else peerCounts (peerPut id.toNat { x with state := 2 } (on (reach (x.heard + ms 50)) s)))

/-- PEER_UNREACHABLE (R542 to R544, R547). -/
def execPeerUnreachable (id : Half) (s : State) : Host.Outcome State Fault Refusal :=
  .next (let x := domPeer s.dom id.toNat
    if x.state ≠ 2 then s else peerOut id.toNat 3 (on (reach (x.heard + ms 100)) s))

/-! ### Activation and holds (R538, R547, R550) -/

/-- The new roster is in force. -/
def rosterActivate (gen : Nat) (b : Bytes) (s : State) : State :=
  let es := rosterEntries b
  let old := dgetB s.io (idx 0x110013 0)
  let grace := s.io.now + sec (dget s.io (idx 0x110009 0) 60)
  let gone (k : AssocKey) : Bool := k.binding == .fabric && es.all (fun e => e.1 != k.key)
  let s1 := { s with dom := { s.dom with
    prev := if old.isEmpty then none else some (crc32c old, grace),
    peers := mmap s.dom.peers (fun _ x => { x with state := 0, seqHb := none, seqObj := none }) } }
  let s2 := on (fun io => storedSetB (idx 0x110012 0) (le 4 gen ++ le 4 (crc32c b) ++ le 4 es.length ++ le 4 (rosterWeight es))
    (storedSetB (idx 0x110013 0) b (assocsEnd gone io))) s1
  domStart (peerCounts s2)

/-- ROSTER_COMMIT (R537, R538, R547, R549, R552). -/
def execRosterCommit (by_ : Issuer) (arg : Bytes) (s : State) : Host.Outcome State Fault Refusal :=
  .next (let ans (e : Nat) (s : State) : State := on (answer by_ (idx 0x110011 0) e []) s
    match gate s.start.stage by_ 0x110011 s.io with
    | some e => ans e s
    | none =>
      let b := dgetB s.io (idx 0x110010 0)
      if arg.length ≠ 8 || field arg 0 4 = 0 || 1 < field arg 4 1 || !allZero (slice arg 5 3) then ans 5 s
      else if !rosterOk b || (s.dom.id ≠ 0 && (rosterEntries b).all (fun e => e.1 != s.dom.id)) then ans 5 s
      else if s.dom.state = 2 && !(field arg 4 1).testBit 0 then ans 0x11 s
      else ans 0 (rosterActivate (field arg 0 4) b s))

/-- ROSTER_GRACE_EXPIRY (R538). -/
def execRosterGraceExpiry (s : State) : Host.Outcome State Fault Refusal :=
  .next (match s.dom.prev with
    | none => s
    | some p => let s1 := on (reach p.2) s; { s1 with dom := { s1.dom with prev := none } })

/-- DOMAIN_START_HOLD_EXPIRY (R547). -/
def execDomainStartHold (s : State) : Host.Outcome State Fault Refusal :=
  .next (match s.dom.startAt with
    | none => s
    | some t => let s1 := on (reach (t + ms 100)) s; domEval { s1 with dom := { s1.dom with startAt := none } })

/-- HEAL_HOLD_EXPIRY (R550, R551). -/
def execHealHold (s : State) : Host.Outcome State Fault Refusal :=
  .next (match s.dom.state, s.dom.healAt with
    | 2, some t =>
      let q := quorum s
      if !q.1 then domEval s
      else
        let s1 := on (reach (t + ms (dget s.io (idx 0x110004 0) 100))) s
        let s2 := domCount 8 (domState 1 q.2 { s1 with dom := { s1.dom with healAt := none } })
        onWire (startSweep s2.dom) (markStale (fun _ => true) s2)
    | _, _ => s)

/-- DOM_PEER_QUERY (R554). -/
def execDomPeerQuery (by_ : Issuer) (id : Half) (s : State) : Host.Outcome State Fault Refusal :=
  .next (let ans (e : Nat) (r : Bytes) (s : State) : State := on (answer by_ (idx 0x110020 0) e r) s
    match gate s.start.stage by_ 0x110020 s.io with
    | some e => ans e [] s
    | none =>
      if id = 0 || id = 0xFFFF then ans 5 [] s
      else
        let x := domPeer s.dom id.toNat
        let e := (rosterOf s.io id.toNat).getD (0, 0, 0)
        ans 0 (le 1 x.state ++ le 1 e.2.1 ++ le 1 e.2.2 ++ le 1 x.learn ++ le 1 x.port ++ le 3 0 ++ le 8 (x.serial.getD 0) ++ le 8 x.heardTime) s)

/-- R545: 11:0000 is written, which ends a lost conflict. -/
def domIdWritten (s : State) : State := if s.dom.conflict then domEval { s with dom := { s.dom with conflict := false } } else s

end Sys2Proof.Machine
end

