-- ==== Sys2Proof/Machine/StoreOps.lean ====
section
/-!
DEFINITION. What the back-end unit, the data mover and the sealed-zone unit do (chapter 17): encryption (R399), zones and
chains (R406 to R410), the write intent log (R401 to R404), and back ends that go and return (R400, R405).
Choices of the model coded here, by entry of the assumption log: DEDUCED 64.
-/
namespace Sys2Proof.Machine

/-! ### Back ends, namespaces, logs -/

/-- A back end that has been defined. -/
def beAt (s : State) (k : Nat) : Option Be := mget s.store.bes k

/-- Storing a back end. -/
def bePut (k : Nat) (x : Be) (s : State) : State := { s with store := { s.store with bes := mput s.store.bes k x } }

/-- Whether a back end is present. -/
def bePresent (s : State) (k : Nat) : Bool := match beAt s k with | some x => x.st == 1 | none => false

/-- 0C:1020: back end, slots and base LBA of a log, if it is configured. -/
def wilCfg (io : Io) (k : Nat) : Option (Nat × Nat × Nat) :=
  let b := dgetB io (idx 0x0C1020 (k + 1))
  if b.isEmpty then none else some (field b 0 1, field b 4 4, field b 8 8)

/-- A log. -/
def wilAt (s : State) (k : Nat) : Wil := mgetD s.store.logs k Wil.reset

/-- Storing a log. -/
def wilPut (k : Nat) (x : Wil) (s : State) : State := { s with store := { s.store with logs := mput s.store.logs k x } }

/-- Slots of a log. -/
def wilSlots (s : State) (k : Nat) : Nat := match wilCfg s.io k with | some c => c.2.1 | none => 256

/-- A store-counter element of 0C:1030. -/
def storeCount (e n : Nat) (s : State) : State := on (bumpBy 64 (idx 0x0C1030 e) n) s

/-! ### Encryption (R399) -/

/-- The XTS key and data unit of a namespace: none where it has no SA, an error where the key cannot be used. -/
def nsCipher (s : State) (x : Ns) : Except Unit (Option (Bytes × Nat)) :=
  if x.xts = 0 then .ok none
  else
    match saOf s.burin x.xts with
    | none => .error ()
    | some (_, a) =>
      match saKey (wireOf s) a (field a.desc 8 4) with
      | none => .error ()
      | some k => .ok (some (k.key, laUnit a))

/-- Data of a namespace from LBA `lba` on, encrypted or decrypted. -/
def nsCrypt (enc : Bool) (x : Ns) (cipher : Option (Bytes × Nat)) (lba : Nat) (d : Bytes) : Bytes :=
  match cipher with
  | none => d
  | some (key, unit) => xtsUnits enc key unit (d.length / unit + 1) (lba * (lbaBytes x.fmt / unit)) d

/-! ### Zones and chains (R406 to R410) -/

/-- A zone of a namespace. -/
def zoneAt (x : Ns) (z : Nat) : Zone := mgetD x.zones z Zone.reset

/-- Storing a zone. -/
def zonePut (z : Nat) (y : Zone) (x : Ns) : Ns := { x with zones := mput x.zones z y }

/-- The zone of an LBA, and its first LBA. -/
def zoneOf (x : Ns) (lba : Nat) : Nat := lba / max 1 x.zoneSize
def zoneStart (x : Ns) (z : Nat) : Nat := z * x.zoneSize

/-- The chain key of a namespace, if its slot is KEYED. -/
def chainKey (s : State) (x : Ns) : Option Bytes :=
  let k := slotAt s.burin devicePool x.chainKey
  if k.state = .keyed then some k.key else none

/-- L0 (R408): "KWSZ", the NGUID and the zone start. -/
def linkZero (key : Bytes) (x : Ns) (z : Nat) : Bytes :=
  hmac key ([75, 87, 83, 90] ++ padTo 16 x.nguid ++ le 8 (zoneStart x z))

/-- Active zones of a namespace: open or closed. -/
def zonesActive (x : Ns) : Nat := (x.zones.filter (fun p => p.2.st == 2 || p.2.st == 4 || p.2.st == 5)).length

/-- A zone that takes a write is open; false where too many zones are active. -/
def zoneOpen (x : Ns) (z : Nat) (explicit : Bool) : Bool × Ns :=
  let y := zoneAt x z
  if y.st = 1 && x.active ≤ zonesActive x then (false, x)
  else (true, zonePut z { y with st := if explicit || y.st = 5 then 5 else 4 } x)

/-- R407: the record header H_k. -/
def recHead (k blocks lba time flags : Nat) : Bytes := le 4 k ++ le 4 blocks ++ le 8 lba ++ le 8 time ++ le 1 flags ++ le 7 0

/-- R406, R409: an append of `n` blocks to a zone takes its LBA, record number and time. -/
def zoneAssign (s : State) (x : Ns) (z n : Nat) : Nat × Ns :=
  let y := zoneAt x z
  let lba := zoneStart x z + y.wp
  let steps := dget s.io (idx 0x070023 0) 0
  let stepped := decide (y.count ≠ 0) && decide (steps ≠ y.steps)
  let flags := b2n (dget s.io (idx 0x010003 0) 0 == 1) + 2 * b2n stepped
  let full := decide (x.zoneSize ≤ y.wp + n)
  (lba, zonePut z { y with
    wp := y.wp + n, count := y.count + 1, heads := y.heads ++ [(y.count, recHead y.count n lba (time64 s.io) flags)], steps := steps,
    stepped := y.stepped || stepped, st := if full then 3 else y.st } x)

/-- R408: the link of record `k` once its data is known and every earlier link is; the zone and the chain entry. -/
def zoneLink (key : Bytes) (x : Ns) (z k : Nat) (d : Bytes) : Option (Bytes × Ns) :=
  let y := zoneAt x z
  match y.heads.find? (fun h => h.1 == k) with
  | none => none
  | some h =>
    if y.linked ≠ k then none
    else
      let prev := if k = 0 then linkZero key x z else y.link
      let l := hmac key (prev ++ h.2 ++ d)
      some (h.2 ++ padTo 32 l, zonePut z { y with linked := k + 1, link := l, heads := y.heads.filter (fun g => g.1 != k) } x)

/-- R410: the seal record of a zone. -/
def sealRecord (s : State) (key : Bytes) (x : Ns) (z : Nat) : Bytes :=
  let y := zoneAt x z
  let b := le 4 0x535A574B ++ le 1 1 ++ le 1 (b2n (dget s.io (idx 0x010003 0) 0 == 1) + 2 * b2n y.stepped) ++ le 2 0 ++
    le 8 (zoneStart x z) ++ le 4 y.count ++ le 4 0 ++ le 8 (time64 s.io) ++ le 8 serialNo ++ padTo 16 x.nguid ++ le 8 0 ++
    padTo 32 (if y.count = 0 then linkZero key x z else y.link)
  let c := b ++ padTo 32 (hmac key b)
  c ++ padTo 32 (hmac Config.zoneTagKey c)

/-! ### The write intent log (R401 to R403) -/

/-- The header block of a record (R402). -/
def recBytes (x : Ns) (r : LogRec) : Bytes :=
  let a := le 4 0x4C57574B ++ le 1 1 ++ le 1 r.kind ++ le 1 x.fmt ++ le 1 0 ++ le 8 r.seq ++ le 4 r.ns ++ le 4 (if r.kind = 5 then 0 else r.blocks) ++
    le 8 r.lba ++ le 4 r.data.length ++ le 4 (crc32c r.data) ++ le 8 r.time ++ le 12 0
  let b := padTo 64 r.entry ++ padTo 160 r.sealRec
  a ++ le 4 (crc32c (a ++ b)) ++ b ++ le 3808 0

/-- The log write of a record, with FUA, to its slot. -/
def logWrite (k : Nat) (r : LogRec) (s : State) : State :=
  match wilCfg s.io k, (wilCfg s.io k).bind (fun c => beAt s c.1) with
  | some c, some b =>
    on (emit (.backend c.1 true (c.2.2 + (8192 + 69632 * (r.seq % max 1 c.2.1)) / lbaBytes b.fmt)
      (ceilDiv (4096 + ceilDiv r.data.length 4096 * 4096) (lbaBytes b.fmt)))) s
  | _, _ => s

/-- R403 step 2: a record takes the next sequence; its log write is issued, or waits for W. -/
def logAppend (k : Nat) (r : LogRec) (s : State) : State :=
  let w := wilAt s k
  let r1 := { r with seq := w.next, time := time64 s.io, stage := if w.w + wilSlots s k < w.next then 0 else 1 }
  let s1 := wilPut k { w with next := w.next + 1, recs := w.recs ++ [r1] } s
  if r1.stage = 0 then storeCount 1 1 s1 else logWrite k r1 s1

/-- Two records touch the same blocks. -/
def recOverlap (a b : LogRec) : Bool := a.ns == b.ns && decide (a.lba < b.lba + b.blocks) && decide (b.lba < a.lba + a.blocks)

/-- R403 step 4: a record may go home: its log write is complete, earlier overlapping records are retired, and a copy is
there to take it. -/
def homeReady (s : State) (w : Wil) (r : LogRec) : Bool :=
  r.stage == 2 && w.recs.all (fun o => !decide (o.seq < r.seq) || !recOverlap o r || o.stage == 4) &&
  (match nsAt s r.ns with
   | some x => (x.curA && bePresent s x.beA) || (x.copies == 2 && x.curB && bePresent s x.beB)
   | none => false)

/-- The home writes of a record, to every copy that is current or being written again. -/
def homeWrite (r : LogRec) (s : State) : State :=
  match nsAt s r.ns with
  | none => s
  | some x =>
    let n := if r.kind = 5 then 0 else r.blocks
    let s1 := if (x.curA || x.resync) && bePresent s x.beA then on (emit (.backend x.beA true (x.baseA + r.lba) n)) s else s
    if x.copies = 2 && (x.curB || x.resync) && bePresent s1 x.beB then on (emit (.backend x.beB true (x.baseB + r.lba) n)) s1 else s1

/-- Every record that may go home goes. -/
def homesIssue (k : Nat) (s : State) : State :=
  let w := wilAt s k
  let go := (w.recs.filter (homeReady s w)).map (·.seq)
  let s1 := wilPut k { w with recs := w.recs.map (fun r => if go.contains r.seq then { r with stage := 3 } else r) } s
  (w.recs.filter (fun r => go.contains r.seq)).foldl (fun s r => homeWrite r s) s1

/-- W moves past the records retired at its head. -/
def wAdvance : Nat → Wil → Wil
  | 0, w => w
  | n + 1, w =>
    match w.recs.find? (fun r => r.seq == w.w + 1) with
    | some r => if r.stage = 4 then wAdvance n { w with w := w.w + 1, recs := w.recs.filter (fun o => o.seq != r.seq) } else w
    | none => if w.w + 1 < w.next then wAdvance n { w with w := w.w + 1 } else w

/-- Records that waited for W get their slot. -/
def slotsIssue (k : Nat) (s : State) : State :=
  let w := wilAt s k
  let free (r : LogRec) : Bool := r.stage == 0 && decide (r.seq ≤ w.w + wilSlots s k)
  let s1 := wilPut k { w with recs := w.recs.map (fun r => if free r then { r with stage := 1 } else r) } s
  (w.recs.filter free).foldl (fun s r => logWrite k { r with stage := 1 } s) s1

/-- W advances as far as it can; a checkpoint is due within 1 ms (R401). -/
def wilSettle (k : Nat) (s : State) : State :=
  let w := wilAt s k
  let w1 := wAdvance (w.next - w.w) w
  let w2 := if w1.w = w.w then w1 else { w1 with dueAt := some (w.dueAt.getD s.io.now) }
  homesIssue k (slotsIssue k (wilPut k w2 s))

/-- What a record does to its namespace's zones once it is home (R403 step 4, R406). -/
def recZone (r : LogRec) (s : State) : State :=
  match nsAt s r.ns with
  | none => s
  | some x =>
    let z := zoneOf x r.lba
    let y := zoneAt x z
    if x.kind = 0 then s
    else if r.kind = 5 then nsPut r.ns (zonePut z { y with sealed := true, sealing := true, st := 3 } x) s
    else if r.kind = 4 then
      let n := field r.entry 0 4 + 1
      let t := if y.tab.2.1 < n then (r.lba - zoneStart x z + r.blocks, n, slice r.entry 0x20 32) else y.tab
      nsPut r.ns (zonePut z { y with done := y.done + 1, tab := t } x) s
    else nsPut r.ns (zonePut z { y with tab := (max y.tab.1 (r.lba - zoneStart x z + r.blocks), y.tab.2.1, y.tab.2.2) } x) s

/-- A piece of a command has ended; with its last piece the command's completion is posted (R403 step 5). -/
def pieceDone (key : Nat × Nat × Nat) (s : State) : State :=
  match cmdAt s key.1 key.2.1 key.2.2 with
  | none => s
  | some m =>
    let m1 := { m with out := m.out - 1 }
    if m1.out = 0 && m1.pieces.isEmpty then
      match m1.ended with
      | some e => nvEnd key.1 m1 e.1 e.2 s
      | none => nvEnd key.1 m1 0 false s
    else cmdPut key.1 m1 s

/-- A namespace whose pending records are all home, and whose back ends are present, is READY again (R405). -/
def nsRecovered (n : Nat) (s : State) : State :=
  match nsAt s n with
  | none => s
  | some x =>
    let pending := (wilAt s x.log).recs.any (fun r => r.ns == n && r.stage != 4)
    let there := bePresent s x.beA || (x.copies == 2 && bePresent s x.beB)
    let logThere := match wilCfg s.io x.log with | some c => bePresent s c.1 | none => false
    if x.state = 2 && !pending && there && logThere then nsSet n 0 s else s

/-- A record is retired. -/
def recRetire (k seq : Nat) (s : State) : State :=
  let w := wilAt s k
  match w.recs.find? (fun r => r.seq == seq) with
  | none => s
  | some r =>
    let s1 := recZone r (wilPut k { w with recs := w.recs.map (fun o => if o.seq = seq then { o with stage := 4, cmd := none } else o) } s)
    let s2 := match r.cmd with | some key => pieceDone key s1 | none => s1
    nsRecovered r.ns (wilSettle k s2)

/-- Records of a namespace are discarded: retired without going home, and counted (R398, R405). -/
def recsDiscard (k n : Nat) (s : State) : State :=
  let w := wilAt s k
  let gone := (w.recs.filter (fun r => r.ns == n && r.stage != 4)).length
  wilSettle k (storeCount 3 gone (wilPut k { w with recs := w.recs.map (fun r => if r.ns = n then { r with stage := 4, cmd := none } else r) } s))

/-! ### Back ends that go and return (R400, R405) -/

/-- The commands of a namespace that have been handed to firmware and satisfy a test end with 0/21h. -/
def nsCmdsEnd (n : Nat) (p : Nat → NvCmd → Bool) (s : State) : State :=
  s.nvme.ctls.foldl (fun s (x : Nat × NvCtl) =>
    x.2.cmds.foldl (fun s m =>
      if m.sq ≠ 0 && m.thread.isSome && m.ended.isNone && entryNs m.entry = n && p x.1 m then
        storeCount 4 1 (nvEndAt x.1 m.sq m.cid 0x21 false s)
      else s) s) s

/-- A namespace loses what it needs: it waits, or goes on with its other copy. -/
def nsLoses (be_ n : Nat) (quiet : Bool) (s : State) : State :=
  match nsAt s n with
  | none => s
  | some x =>
    let logOn := match wilCfg s.io x.log with | some c => c.1 == be_ | none => false
    let other := x.copies == 2 && (if x.beA = be_ then x.curB && bePresent s x.beB else x.curA && bePresent s x.beA)
    let home := x.beA == be_ || (x.copies == 2 && x.beB == be_)
    let drop (s : State) : State :=
      let w := wilAt s x.log
      wilPut x.log { w with recs := w.recs.map (fun r => if r.ns = n then { r with cmd := none } else r) } s
    if x.state = 4 || x.state = 1 then s
    else if logOn then
      let w := wilAt s x.log
      let early (c : Nat) (m : NvCmd) : Bool :=
        !m.pieces.isEmpty || w.recs.any (fun r => decide (r.stage ≤ 1) && r.cmd == some (c, m.sq, m.cid))
      nsSet n 2 (if quiet then s else nsCmdsEnd n early s)
    else if !home then s
    else if other then
      nsPut n (if x.beA = be_ then { x with curA := false, resync := false } else { x with curB := false, resync := false }) s
    else nsSet n 2 (if quiet then s else drop (nsCmdsEnd n (fun _ _ => true) s))

/-- R411: a back-end loss ends a verification of a namespace on it. -/
def verLost (be_ : Nat) (s : State) : State :=
  let v := s.store.ver
  match nsAt s v.ns with
  | some x =>
    if v.st = 1 && (x.beA == be_ || (x.copies == 2 && x.beB == be_)) then
      on (endCmd 0x0C1040 0x11 []) { s with store := { s.store with ver := { v with st := 6 } } }
    else s
  | none => s

/-- R405: a back end is gone: lost (3), or absent (2) after an orderly power-off, which ends no command. -/
def beGone (be_ st : Nat) (s : State) : State :=
  match beAt s be_ with
  | none => s
  | some b =>
    if b.st ≠ 1 then s
    else
      let s1 := bePut be_ { b with st := st } s
      verLost be_ ((s1.store.nss.map (·.1)).foldl (fun s n => nsLoses be_ n (st == 2) s) s1)

/-- R400, R405: a back end returns: pending records go home, stale copies are written again. -/
def beBack (be_ : Nat) (s : State) : State :=
  match beAt s be_ with
  | none => s
  | some b =>
    if b.st = 1 then s
    else
      let s1 := bePut be_ { b with st := 1 } s
      let s2 := (s1.store.nss.map (·.1)).foldl (fun s n =>
        match nsAt s n with
        | none => s
        | some x =>
          let stale := x.copies == 2 && ((x.beA == be_ && !x.curA && x.curB) || (x.beB == be_ && !x.curB && x.curA))
          if stale then nsPut n { x with resync := true } s
          else if x.beA = be_ || (x.copies = 2 && x.beB = be_) then
            let w := wilAt s x.log
            let s3 := wilPut x.log { w with recs := w.recs.map (fun r => if r.ns = n && r.stage = 3 then { r with stage := 2 } else r) } s
            nsRecovered n (homesIssue x.log s3)
          else s) s1
      s2

end Sys2Proof.Machine
end

