-- ==== Sys2Proof/Machine/NvmeIo.lean ====
section
/-!
DEFINITION. I/O commands handed to firmware (R379, R383, R385, R388, R399, R409) and namespace attachment (R385, R393).
Choices of the model coded here, by entry of the assumption log: DEDUCED 62, 64.
-/
namespace Sys2Proof.Machine

/-- The fetched I/O command under its IDs, not yet handed to firmware, if it has this opcode: it is handed to thread `th`,
and `f` carries it out with its namespace. -/
def ioRow (c sq cid op th : Nat) (f : NvCmd → Ns → State → State) (s : State) : State :=
  match cmdAt s c sq cid with
  | none => s
  | some m =>
    if m.sq = 0 || m.thread.isSome || field m.entry 0 1 ≠ op then s
    else
      let m1 := { m with thread := some th }
      match nsAt s (entryNs m.entry) with
      | some x => f m1 x (cmdPut c m1 s)
      | none => s

/-- A command has come to its status; its completion follows with NVME_COMMAND_COMPLETE. -/
def cmdEnded (c : Nat) (m : NvCmd) (st : Nat) (s : State) : State := cmdPut c { m with ended := some (st, dnrOf st) } s

/-- R388: a command of up to 64 KiB is one piece; a larger one is cut at every multiple of 64 KiB from LBA 0. -/
def cutPieces (kind per : Nat) : Nat → Nat → Nat → List (Nat × Nat × Nat)
  | 0, _, _ => []
  | fuel + 1, lba, n =>
    if n = 0 then []
    else
      let k := min n (per - lba % per)
      (kind, lba, k) :: cutPieces kind per fuel (lba + k) (n - k)

/-- The pieces of a range. -/
def piecesOf (kind fmt lba n : Nat) : List (Nat × Nat × Nat) :=
  let per := 65536 / lbaBytes fmt
  if n ≤ per then [(kind, lba, n)] else cutPieces kind per (n / per + 2) lba n

/-- FLUSH (R379): every earlier completed write is durable already (R388). -/
def execNvmFlush (c : CtlNo) (sq cid : Nat) (th : ThreadNo) (s : State) : Host.Outcome State Fault Refusal :=
  .next (match cmdAt s c.val sq cid with
    | none => s
    | some m =>
      if m.sq = 0 || m.thread.isSome || field m.entry 0 1 ≠ 0 then s
      else cmdEnded c.val { m with thread := some th.val } 0 s)

/-- R385 and the Zoned Namespace command set: what a Write of a zoned namespace does to its zone, or its status. -/
def zoneWrite (x : Ns) (lba n : Nat) : Except Nat Ns :=
  let z := zoneOf x lba
  let y := zoneAt x z
  if x.zoneSize < lba - zoneStart x z + n then .error 0x1B8
  else if y.st = 3 then .error 0x1B9
  else if lba ≠ zoneStart x z + y.wp then .error 0x1BC
  else
    match zoneOpen x z false with
    | (false, _) => .error 0x1BD
    | (true, x1) =>
      let y1 := zoneAt x1 z
      .ok (zonePut z { y1 with wp := y1.wp + n, st := if x.zoneSize ≤ y1.wp + n then 3 else y1.st } x1)

/-- A Write: its data pointer is walked and its pieces are ready for the back-end unit. -/
def writeCmd (c : Nat) (lists : List Segment) (m : NvCmd) (x : Ns) (s : State) : State :=
  let lba := entryLba m.entry
  let n := entryBlocks m.entry
  match dataSegs m.entry lists (ctlPage s.io c) (n * lbaBytes x.fmt) with
  | .error e => cmdEnded c m e s
  | .ok segs =>
    let go (s : State) : State := cmdPut c { m with segs := segs, pieces := piecesOf 1 x.fmt lba n } s
    if x.kind = 0 then go s
    else
      match zoneWrite x lba n with
      | .error e => cmdEnded c m e s
      | .ok x1 => go (nsPut (entryNs m.entry) x1 s)

/-- NVM_WRITE (R379, R383, R388). -/
def execNvmWrite (c : CtlNo) (sq cid : Nat) (th : ThreadNo) (lists : List Segment) (s : State) : Host.Outcome State Fault Refusal :=
  .next (ioRow c.val sq cid 1 th.val (writeCmd c.val lists) s)

/-- R403: a range has a home write pending. -/
def rangePending (s : State) (n lba blocks : Nat) : Bool :=
  match nsAt s n with
  | none => false
  | some x => (wilAt s x.log).recs.any (fun r => r.ns == n && r.stage != 4 && decide (lba < r.lba + r.blocks) && decide (r.lba < lba + blocks))

/-- A Read: from copy A when it is current, else copy B; decrypted, and written to the host. -/
def readCmd (c : Nat) (lists : List Segment) (media : HostRead) (m : NvCmd) (x : Ns) (s : State) : State :=
  let lba := entryLba m.entry
  let len := entryBlocks m.entry * lbaBytes x.fmt
  match dataSegs m.entry lists (ctlPage s.io c) len with
  | .error e => cmdEnded c m e s
  | .ok segs =>
    let a := x.curA && bePresent s x.beA
    let s1 := on (emit (.backend (if a then x.beA else x.beB) false ((if a then x.baseA else x.baseB) + lba) (entryBlocks m.entry))) s
    match media with
    | .fail _ => cmdEnded c m 0x281 s1
    | .data d =>
      match nsCipher s1 x with
      | .error _ => cmdEnded c m 6 (storeCount 6 1 s1)
      | .ok k =>
        cmdEnded c { m with segs := segs } 0
          (on (segsWrite (ctlFn s.io c) segs (nsCrypt false x k lba (padTo len d))) s1)

/-- NVM_READ (R379, R383, R399, R400, R403): a read of a range with a home write pending waits for it. -/
def execNvmRead (c : CtlNo) (sq cid : Nat) (th : ThreadNo) (lists : List Segment) (media : HostRead) (s : State) :
    Host.Outcome State Fault Refusal :=
  .next (match cmdAt s c.val sq cid with
    | none => s
    | some m =>
      if rangePending s (entryNs m.entry) (entryLba m.entry) (entryBlocks m.entry) then s
      else ioRow c.val sq cid 2 th.val (readCmd c.val lists media) s)

/-- WRITE_ZEROES (R379, R388). -/
def execNvmWriteZeroes (c : CtlNo) (sq cid : Nat) (th : ThreadNo) (s : State) : Host.Outcome State Fault Refusal :=
  .next (ioRow c.val sq cid 8 th.val (fun m x s =>
    let kind := if (field m.entry 51 1).testBit 1 then 3 else 2
    cmdPut c.val { m with pieces := piecesOf kind x.fmt (entryLba m.entry) (entryBlocks m.entry) } s) s)

/-- The ranges of a Dataset Management command: first LBA, blocks. -/
def dsmRanges (b : Bytes) (n : Nat) : List (Nat × Nat) := (List.range n).map (fun k => (field b (16 * k + 8) 8, field b (16 * k + 4) 4))

/-- DATASET_MANAGEMENT (R379, R403): Deallocate only; each range is a record of its own. -/
def execDatasetManagement (c : CtlNo) (sq cid : Nat) (th : ThreadNo) (ranges : HostRead) (s : State) : Host.Outcome State Fault Refusal :=
  .next (ioRow c.val sq cid 9 th.val (fun m x s =>
    let n := field m.entry 40 1 + 1
    match ranges with
    | .fail _ => cmdEnded c.val m 4 s
    | .data b =>
      let rs := (dsmRanges b n).filter (fun r => r.2 != 0)
      if !(field m.entry 44 4).testBit 2 || rs.isEmpty then cmdEnded c.val m 0 s
      else if rs.any (fun r => decide (x.size < r.1 + r.2)) then cmdEnded c.val m 0x80 s
      else cmdPut c.val { m with pieces := rs.flatMap (fun r => piecesOf 3 x.fmt r.1 r.2) } s) s)

/-! ### Zone management -/

/-- Zone Send Action and Select All. -/
def zsa (m : NvCmd) : Nat := field m.entry 52 1
def zoneAll (m : NvCmd) : Bool := (field m.entry 53 1).testBit 0

/-- One action on one zone: close 1, finish 2, open 3, reset 4. A Finish of a sealed zone makes it full; its seal follows. -/
def zoneAct (act z : Nat) (x : Ns) : Except Nat Ns :=
  let y := zoneAt x z
  match act with
  | 1 => if y.st = 4 || y.st = 5 then .ok (zonePut z { y with st := if y.wp = 0 then 1 else 2 } x) else if y.st = 2 then .ok x else .error 0x1BF
  | 2 => .ok (zonePut z { y with st := 3 } x)
  | 3 =>
    if y.st = 3 then .error 0x1BF
    else match zoneOpen x z true with
      | (true, x1) => .ok x1
      | (false, _) => .error 0x1BD
  | 4 => if x.kind = 2 then .error 0x1BF else .ok (zonePut z { Zone.reset with tab := (0, 0, []) } x)
  | 5 => .error 0x1BF
  | _ => .error 2

/-- The zones an action with Select All touches. -/
def zonesFor (act : Nat) (x : Ns) : List Nat :=
  (x.zones.filter (fun p => match act with
    | 1 => p.2.st == 4 || p.2.st == 5
    | 2 => p.2.st == 2 || p.2.st == 4 || p.2.st == 5
    | 3 => p.2.st == 2
    | 4 => p.2.st != 1
    | _ => false)).map (·.1)

/-- The action over a list of zones, up to the first that refuses. -/
def zoneActs (act : Nat) : List Nat → Ns → Except Nat Ns
  | [], x => .ok x
  | z :: zs, x =>
    match zoneAct act z x with
    | .error e => .error e
    | .ok x1 => zoneActs act zs x1

/-- Zone Management Send. -/
def zoneSendCmd (c : Nat) (m : NvCmd) (x : Ns) (s : State) : State :=
  let n := entryNs m.entry
  let z := zoneOf x (entryLba m.entry)
  let act := zsa m
  if !zoneAll m && entryLba m.entry ≠ zoneStart x z then cmdEnded c m 2 s
  else
    match zoneActs act (if zoneAll m then zonesFor act x else [z]) x with
    | .error e => cmdEnded c m e s
    | .ok x1 =>
      let waits := x.kind == 2 && act == 2 && !zoneAll m && !(zoneAt x z).sealed
      if waits then nsPut n (zonePut z { zoneAt x1 z with finisher := some (c, m.sq, m.cid) } x1) s
      else cmdEnded c m 0 (nsPut n x1 s)

/-- ZONE_MANAGEMENT_SEND (R379, R383, R409). -/
def execZoneSend (c : CtlNo) (sq cid : Nat) (th : ThreadNo) (s : State) : Host.Outcome State Fault Refusal :=
  .next (ioRow c.val sq cid 0x79 th.val (zoneSendCmd c.val) s)

/-- The Zone State field of a descriptor, in the codes of the Zoned Namespace command set. -/
def znsState (st : Nat) : Nat := if st = 1 then 1 else if st = 2 then 4 else if st = 3 then 14 else if st = 4 then 2 else 3

/-- A zone descriptor. -/
def zoneDesc (x : Ns) (z : Nat) : Bytes :=
  let y := zoneAt x z
  le 1 2 ++ le 1 (16 * znsState y.st) ++ le 6 0 ++ le 8 x.zoneSize ++ le 8 (zoneStart x z) ++
  le 8 (if y.st = 3 then 2 ^ 64 - 1 else zoneStart x z + y.wp) ++ le 32 0

/-- Report Zones: the reporting options select states; the report is cut at the buffer. -/
def zoneReport (x : Ns) (first opts len : Nat) (partial_ : Bool) : Bytes :=
  let want (z : Nat) : Bool := match opts with
    | 0 => true
    | 1 => (zoneAt x z).st == 1
    | 2 => (zoneAt x z).st == 4
    | 3 => (zoneAt x z).st == 5
    | 4 => (zoneAt x z).st == 2
    | 5 => (zoneAt x z).st == 3
    | _ => false
  let zs := (span first (x.size / max 1 x.zoneSize - first)).filter want
  let fit := zs.take ((len - 64) / 64)
  le 8 (if partial_ then fit.length else zs.length) ++ le 56 0 ++ fit.flatMap (zoneDesc x)

/-- ZONE_MANAGEMENT_RECEIVE (R379). -/
def execZoneReceive (c : CtlNo) (sq cid : Nat) (th : ThreadNo) (lists : List Segment) (s : State) : Host.Outcome State Fault Refusal :=
  .next (ioRow c.val sq cid 0x7A th.val (fun m x s =>
    let len := (field m.entry 48 4 + 1) * 4
    if field m.entry 52 1 ≠ 0 || 2 ^ 20 < len then cmdEnded c.val m 2 s
    else
      match dataSegs m.entry lists (ctlPage s.io c.val) len with
      | .error e => cmdEnded c.val m e s
      | .ok segs =>
        let r := zoneReport x (zoneOf x (entryLba m.entry)) (field m.entry 53 1) len ((field m.entry 54 1).testBit 0)
        cmdEnded c.val m 0 (on (segsWrite (ctlFn s.io c.val) segs (r.take len)) s)) s)

/-- Zone Append: LBA, record number and time are assigned in the order of hand-over (R409). -/
def appendCmd (c : Nat) (lists : List Segment) (m : NvCmd) (x : Ns) (s : State) : State :=
  let n := entryBlocks m.entry
  let z := zoneOf x (entryLba m.entry)
  let y := zoneAt x z
  match dataSegs m.entry lists (ctlPage s.io c) (n * lbaBytes x.fmt) with
  | .error e => cmdEnded c m e s
  | .ok segs =>
    if entryLba m.entry ≠ zoneStart x z then cmdEnded c m 2 s
    else if y.st = 3 then cmdEnded c m 0x1B9 s
    else if x.zoneSize < y.wp + n then cmdEnded c m 0x1B8 s
    else
      match zoneOpen x z false with
      | (false, _) => cmdEnded c m 0x1BD s
      | (true, x1) =>
        let r := zoneAssign s x1 z n
        cmdPut c { m with segs := segs, pieces := [(4, r.1, n)], result := r.1 } (nsPut (entryNs m.entry) r.2 s)

/-- ZONE_APPEND (R379, R409, R413). -/
def execZoneAppend (c : CtlNo) (sq cid : Nat) (th : ThreadNo) (lists : List Segment) (s : State) : Host.Outcome State Fault Refusal :=
  .next (ioRow c.val sq cid 0x7D th.val (appendCmd c.val lists) s)

/-! ### Attachment (R385, R393) -/

/-- 0C:0020 is answered. -/
def attachAnswer (by_ : Issuer) (st : Nat) (r : Bytes) (s : State) : State := on (answer by_ (idx 0x0C0020 0) st r) s

/-- R385: principal H acts through the mailbox of PF1 or PF3, on that PF's controller or those of its VFs. -/
def attachMay (io : Io) (by_ : Issuer) (c : Nat) : Bool :=
  if principalOf by_.assoc.binding == .h then
    let p := by_.assoc.key % 4
    (p == 1 || p == 3) && (c == p || (decide (4 ≤ c) && pfOfVf io (c - 4) == p))
  else true

/-- The checks of 0C:0020; then `f` with the controller and the namespace. -/
def attachCmd (by_ : Issuer) (arg : Bytes) (op : Nat) (f : Nat → Nat → Ns → State → State) (s : State) : State :=
  match cmdGate s.start.stage by_ 0x0C0020 arg 16 op s.io with
  | some e => attachAnswer by_ e [] s
  | none =>
    let c := field arg 2 2
    if field arg 1 1 ≠ 0 || !allZero (slice arg 8 8) || 1028 ≤ c || !ctlExists s c then attachAnswer by_ 5 [] s
    else if !attachMay s.io by_ c then attachAnswer by_ 3 [] s
    else
      match nsAt s (field arg 4 4) with
      | none => attachAnswer by_ 5 [] s
      | some x => f c (field arg 4 4) x s

/-- NS_ATTACH (R385): up to 1,024 per controller. -/
def execNsAttach (by_ : Issuer) (arg : Bytes) (s : State) : Host.Outcome State Fault Refusal :=
  .next (attachCmd by_ arg 1 (fun c n x s =>
    if x.attached.contains c then attachAnswer by_ 0x11 [] s
    else if 1024 ≤ (s.store.nss.filter (fun p => p.2.attached.contains c)).length then attachAnswer by_ 0x10 [] s
    else attachAnswer by_ 0 [] (nsChanged n [c] (nsPut n { x with attached := sadd x.attached c } s))) s)

/-- NS_DETACH (R385, R392): admitted commands complete. -/
def execNsDetach (by_ : Issuer) (arg : Bytes) (s : State) : Host.Outcome State Fault Refusal :=
  .next (attachCmd by_ arg 2 (fun c n x s =>
    if !x.attached.contains c then attachAnswer by_ 0x11 [] s
    else attachAnswer by_ 0 [] (nsChanged n [c] (nsPut n { x with attached := sdel x.attached c } s))) s)

/-- NS_ATTACH_QUERY (R393). -/
def execNsAttachQuery (by_ : Issuer) (arg : Bytes) (s : State) : Host.Outcome State Fault Refusal :=
  .next (attachCmd by_ arg 3 (fun _ _ x s => attachAnswer by_ 0 (le 1 x.kind ++ le 1 (nsState s x) ++ le 2 x.attached.length) s) s)

end Sys2Proof.Machine
end

