-- ==== Sys2Proof/Machine/Store.lean ====
section
/-!
DEFINITION. Back ends, namespaces, the write intent log and sealed zones: their commands (R394 to R413).
Choices of the model coded here, by entry of the assumption log: DESIGN CHOICE 22, 63; DEDUCED 64.
-/
namespace Sys2Proof.Machine

/-! ### Back ends (R395) -/

/-- 0C:1010 is answered. -/
def beAnswer (by_ : Issuer) (st : Nat) (r : Bytes) (s : State) : State := on (answer by_ (idx 0x0C1010 0) st r) s

/-- The checks of 0C:1010. -/
def beCmd (by_ : Issuer) (arg : Bytes) (op : Nat) (f : Nat → State → State) (s : State) : State :=
  match cmdGate s.start.stage by_ 0x0C1010 arg 32 op s.io with
  | some e => beAnswer by_ e [] s
  | none => if 64 ≤ field arg 1 1 || !allZero (slice arg 5 3) || !allZero (slice arg 0x1A 6) then beAnswer by_ 5 [] s else f (field arg 1 1) s

/-- The fields of DEFINE fit R395. -/
def defineOk (s : State) (arg : Bytes) : Bool :=
  let kind := field arg 2 1
  let qp := match qpOf s (field arg 0x0C 4) with | some q => q.owner == deviceOwner && q.service == 1 && q.state == 3 | none => false
  (kind == 1 || kind == 2) && decide (field arg 3 1 < 2) && allZero (slice arg 0x10 10) &&
  (if kind = 1 then decide (field arg 4 1 < 8) && field arg 0x0C 4 == 0 else field arg 4 1 == 0 && qp)

/-- DEFINE. -/
def beDefine (by_ : Issuer) (arg : Bytes) (ident : Option BeIdent) (k : Nat) (s : State) : State :=
  if principalOf by_.assoc.binding == .m && field arg 2 1 ≠ 1 then beAnswer by_ 3 [] s
  else if !defineOk s arg then beAnswer by_ 5 [] s
  else if (beAt s k).isSome then beAnswer by_ 0x11 [] s
  else
    match ident with
    | none => beAnswer by_ 0x11 [] s
    | some d =>
      if d.metadata ≠ 0 || (d.lba ≠ 512 && d.lba ≠ 4096) then beAnswer by_ 0x11 [] s
      else
        let b : Be := { kind := field arg 2 1, plp := (field arg 3 1).testBit 0, port := field arg 4 1, nsid := field arg 8 4,
                        qpn := field arg 0x0C 4, blocks := d.blocks, fmt := if d.lba = 512 then 0 else 1, st := 1, serial := d.serial,
                        nguid := d.nguid }
        beAnswer by_ 0 [] (bePut k b s)

/-- BE_DEFINE (R394, R395). -/
def execBeDefine (by_ : Issuer) (arg : Bytes) (ident : Option BeIdent) (s : State) : Host.Outcome State Fault Refusal :=
  .next (beCmd by_ arg 1 (beDefine by_ arg ident) s)

/-- A namespace or a log names a back end. -/
def beNamed (s : State) (k : Nat) : Bool :=
  s.store.nss.any (fun p => p.2.beA == k || (p.2.copies == 2 && p.2.beB == k)) ||
  (List.range 8).any (fun l => match wilCfg s.io l with | some c => c.1 == k | none => false)

/-- BE_REMOVE (R395). -/
def execBeRemove (by_ : Issuer) (arg : Bytes) (s : State) : Host.Outcome State Fault Refusal :=
  .next (beCmd by_ arg 2 (fun k s =>
    if (beAt s k).isNone || beNamed s k then beAnswer by_ 0x11 [] s
    else beAnswer by_ 0 [] { s with store := { s.store with bes := mdel s.store.bes k } }) s)

/-- The block QUERY answers. -/
def beBlock (k : Nat) : Option Be → Bytes
  | none => le 1 3 ++ le 1 k ++ le 30 0
  | some b => le 1 3 ++ le 1 k ++ le 1 b.kind ++ le 1 (b2n b.plp) ++ le 1 b.port ++ le 3 0 ++ le 4 b.nsid ++ le 4 b.qpn ++ le 8 b.blocks ++
      le 1 b.fmt ++ le 1 b.st ++ le 6 0

/-- BE_QUERY (R395). -/
def execBeQuery (by_ : Issuer) (arg : Bytes) (s : State) : Host.Outcome State Fault Refusal :=
  .next (beCmd by_ arg 3 (fun k s => beAnswer by_ 0 (beBlock k (beAt s k)) s) s)

/-! ### Namespaces (R396 to R398) -/

/-- The 16-byte result. -/
def nsResult (s : State) (code n : Nat) : Bytes :=
  match nsAt s n with
  | none => le 1 code ++ le 3 0 ++ le 4 n ++ le 8 0
  | some x =>
    let area := 256 * (if x.kind = 0 then 0 else x.size / max 1 x.zoneSize) + (if x.kind = 2 then 64 * x.size else 0)
    le 1 code ++ le 1 (nsState s x) ++ le 1 (b2n x.curA + 2 * b2n x.curB) ++ le 1 0 ++ le 4 n ++
    le 4 (ceilDiv area (2 ^ 20) * 2 ^ 20 / lbaBytes x.fmt) ++ le 4 x.replayed

/-- 0C:1000 is answered with a result. -/
def nsAnswer (by_ : Issuer) (code n : Nat) (s : State) : State :=
  on (answer by_ (idx 0x0C1000 0) (if code = 0 then 0 else 0x11) (nsResult s code n)) s

/-- The checks of 0C:1000. -/
def nsCmd (by_ : Issuer) (arg : Bytes) (op : Nat) (f : Nat → State → State) (s : State) : State :=
  match cmdGate s.start.stage by_ 0x0C1000 arg 80 op s.io with
  | some e => if e = 1 then on (answer by_ (idx 0x0C1000 0) 1 (nsResult s 8 0)) s else on (answer by_ (idx 0x0C1000 0) e []) s
  | none => f (field arg 4 4) s

/-- 0C:1001 follows. -/
def nsTotal (s : State) : State := on (dset (idx 0x0C1001 0) s.store.nss.length) s

/-- A namespace as CREATE describes it. -/
def nsOf (arg : Bytes) : Ns :=
  let f := field arg
  { kind := f 1 1, fmt := f 2 1, copies := f 3 1, size := f 8 8, nguid := slice arg 0x10 16, beA := f 0x20 1, beB := f 0x21 1,
    log := f 0x22 1, xts := f 0x24 4, baseA := f 0x28 8, baseB := f 0x30 8, zoneSize := f 0x38 8, chainKey := f 0x40 4,
    active := f 0x44 2, state := 0, curA := true, curB := f 3 1 == 2, resync := false, waitAt := none, replayed := 0, zones := [],
    attached := [] }

/-- A zone size is a power of two from 2^12 to 2^20. -/
def zoneSizeOk (z : Nat) : Bool := (span 12 9).any (fun k => z == 2 ^ k)

/-- R396: the arguments are valid. -/
def nsArgsOk (arg : Bytes) (x : Ns) : Bool :=
  let n := field arg 4 4
  decide (x.kind ≤ 2) && decide (x.fmt ≤ 1) && (x.copies == 1 || x.copies == 2) && decide (1 ≤ n) && decide (n ≤ 4096) && decide (1 ≤ x.size) &&
  decide (x.beA < 64) && (if x.copies = 1 then x.beB == 0xFF && x.baseB == 0 else decide (x.beB < 64) && x.beB != x.beA) && decide (x.log < 8) &&
  field arg 0x23 1 == 0 && allZero (slice arg 0x46 10) && (x.kind == 2 || x.chainKey == 0) &&
  (if x.kind = 0 then x.zoneSize == 0 && x.active == 0
   else zoneSizeOk x.zoneSize && x.size % x.zoneSize == 0 && decide (1 ≤ x.active) && decide (x.active ≤ 4096))

/-- R397: blocks a copy takes, reserved area included. -/
def copyBlocks (x : Ns) : Nat :=
  let area := 256 * (if x.kind = 0 then 0 else x.size / max 1 x.zoneSize) + (if x.kind = 2 then 64 * x.size else 0)
  x.size + ceilDiv area (2 ^ 20) * 2 ^ 20 / lbaBytes x.fmt

/-- Extents taken on a back end: first LBA, blocks. -/
def beExtents (s : State) (k : Nat) : List (Nat × Nat) :=
  s.store.nss.flatMap (fun p =>
    (if p.2.beA = k then [(p.2.baseA, copyBlocks p.2)] else []) ++ (if p.2.copies = 2 && p.2.beB = k then [(p.2.baseB, copyBlocks p.2)] else [])) ++
  (List.range 8).flatMap (fun l => match wilCfg s.io l with
    | some c => if c.1 = k then [(c.2.2, ceilDiv (8192 + c.2.1 * 69632) (match beAt s k with | some b => lbaBytes b.fmt | none => 512))] else []
    | none => [])

/-- R396, R397: a copy fits its back end. -/
def copyFits (s : State) (x : Ns) (k base : Nat) : Bool :=
  match beAt s k with
  | none => false
  | some b => b.st == 1 && b.fmt == x.fmt && decide (base + copyBlocks x ≤ b.blocks) &&
      (beExtents s k).all (fun e => decide (base + copyBlocks x ≤ e.1) || decide (e.1 + e.2 ≤ base))

/-- The log is configured, on a back end declared PLP. -/
def logOk (s : State) (k : Nat) : Bool :=
  match wilCfg s.io k with
  | some c => (match beAt s c.1 with | some b => b.plp | none => false)
  | none => false

/-- R396, R397: the chain key and the XTS SA are usable. -/
def nsKeysOk (s : State) (x : Ns) : Bool :=
  let slot := slotAt s.burin devicePool x.chainKey
  (x.kind != 2 || (slot.state == .keyed && slot.usage == 6)) &&
  (x.xts == 0 || (match saOf s.burin x.xts with
    | some (_, a) => saKind a == 5 && a.pool == devicePool && decide (laUnit a ≤ lbaBytes x.fmt)
    | none => false))

/-- The key references a namespace holds, taken or given back. -/
def nsRefs (x : Ns) (up : Bool) (s : State) : State :=
  let xts := match saOf s.burin x.xts with | some (_, a) => if x.xts = 0 then [] else [field a.desc 8 4] | none => []
  onWire (saRefs devicePool ((if x.kind = 2 then [x.chainKey] else []) ++ xts) up) s

/-- CREATE. -/
def nsCreate (by_ : Issuer) (arg : Bytes) (n : Nat) (s : State) : State :=
  let x := nsOf arg
  if !nsArgsOk arg x then nsAnswer by_ 1 n s
  else if (nsAt s n).isSome then nsAnswer by_ 2 n s
  else if !(copyFits s x x.beA x.baseA && (x.copies == 1 || copyFits s x x.beB x.baseB)) then nsAnswer by_ 3 n s
  else if !logOk s x.log then nsAnswer by_ 4 n s
  else if !nsKeysOk s x then nsAnswer by_ 5 n s
  else nsAnswer by_ 0 n (nsTotal (nsPut n x (nsRefs x true s)))

/-- NS_CREATE (R396, R397, R398). -/
def execNsCreate (by_ : Issuer) (arg : Bytes) (s : State) : Host.Outcome State Fault Refusal := .next (nsCmd by_ arg 1 (nsCreate by_ arg) s)

/-- Whether principal M lacks the session DELETE of a sealed namespace and RECOVER need. -/
def lacksSession (s : State) (by_ : Issuer) : Bool := principalOf by_.assoc.binding == .m && !inSession s.io by_.assoc

/-- DELETE. -/
def nsDelete (by_ : Issuer) (n : Nat) (s : State) : State :=
  match nsAt s n with
  | none => nsAnswer by_ 2 n s
  | some x =>
    if x.kind = 2 && principalOf by_.assoc.binding == .f then on (answer by_ (idx 0x0C1000 0) 3 []) s
    else if x.kind = 2 && lacksSession s by_ then nsAnswer by_ 7 n s
    else if !x.attached.isEmpty then nsAnswer by_ 6 n s
    else if s.store.ver.st = 1 && s.store.ver.ns = n then nsAnswer by_ 0xA n s
    else
      nsAnswer by_ 0 n (nsTotal (nsRefs x false { s with store := { s.store with nss := mdel s.store.nss n } }))

/-- NS_DELETE (R398, R413). -/
def execNsDelete (by_ : Issuer) (arg : Bytes) (s : State) : Host.Outcome State Fault Refusal := .next (nsCmd by_ arg 2 (nsDelete by_) s)

/-- NS_QUERY (R398). -/
def execNsQuery (by_ : Issuer) (arg : Bytes) (s : State) : Host.Outcome State Fault Refusal :=
  .next (nsCmd by_ arg 3 (fun n s => nsAnswer by_ (if (nsAt s n).isSome then 0 else 2) n s) s)

/-- RECOVER: a FAILED namespace is READY, its unreplayed records discarded. -/
def nsRecover (by_ : Issuer) (n : Nat) (s : State) : State :=
  match nsAt s n with
  | none => nsAnswer by_ 2 n s
  | some x =>
    if lacksSession s by_ then nsAnswer by_ 7 n s
    else if x.state ≠ 4 then nsAnswer by_ 9 n s
    else nsAnswer by_ 0 n (nsSet n 0 (recsDiscard x.log n s))

/-- NS_RECOVER (R398). -/
def execNsRecover (by_ : Issuer) (arg : Bytes) (s : State) : Host.Outcome State Fault Refusal := .next (nsCmd by_ arg 4 (nsRecover by_) s)

/-! ### Pieces and records (R403) -/

/-- A record not yet numbered. -/
def recNew (kind n lba blocks : Nat) (data entry sealRec : Bytes) (cmd : Option (Nat × Nat × Nat)) : LogRec :=
  { seq := 0, kind := kind, ns := n, lba := lba, blocks := blocks, data := data, time := 0, entry := entry, sealRec := sealRec, stage := 0, cmd := cmd }

/-- The command's next piece, staged and encrypted; a sealed append is linked first, and waits while an earlier link of its
zone is not known. -/
def pieceHand (c : Nat) (m : NvCmd) (kind lba blocks : Nat) (mem : HostRead) (s : State) : State :=
  let n := entryNs m.entry
  match nsAt s n with
  | none => s
  | some x =>
    let len := if kind = 2 || kind = 3 then 0 else blocks * lbaBytes x.fmt
    let m1 := { m with pieces := m.pieces.drop 1, out := m.out + 1 }
    let key := some (c, m.sq, m.cid)
    let fail (st : Nat) (s : State) : State := cmdPut c { m with pieces := [], ended := some (st, dnrOf st) } s
    if len = 0 then logAppend x.log (recNew kind n lba blocks [] [] [] key) (cmdPut c m1 s)
    else
      match mem with
      | .fail _ => fail 4 s
      | .data d0 =>
        let d := padTo len d0
        match nsCipher s x with
        | .error _ => fail 6 (storeCount 6 1 s)
        | .ok k =>
          let put (x1 : Ns) (entry : Bytes) : State :=
            logAppend x.log (recNew kind n lba blocks (nsCrypt true x k lba d) entry [] key) (cmdPut c m1 (nsPut n x1 s))
          if kind = 4 && x.kind = 2 then
            match chainKey s x with
            | none => fail 6 (storeCount 6 1 s)
            | some ck =>
              let z := zoneOf x lba
              match (zoneAt x z).heads.find? (fun h => field h.2 8 8 == lba) with
              | none => s
              | some h =>
                match zoneLink ck x z h.1 d with
                | none => s
                | some r => put r.2 r.1
          else put x []

/-- ATOMIC_PIECE (R388, R399, R402, R403, R409, R413). -/
def execAtomicPiece (c : CtlNo) (sq cid : Nat) (mem : HostRead) (s : State) : Host.Outcome State Fault Refusal :=
  .next (match cmdAt s c.val sq cid with
    | none => s
    | some m =>
      match m.pieces with
      | [] => s
      | (kind, lba, blocks) :: _ => if m.ended.isSome then s else pieceHand c.val m kind lba blocks mem s)

/-- The record of a log under a sequence. -/
def recAt (s : State) (k seq : Nat) : Option LogRec := (wilAt s k).recs.find? (fun r => r.seq == seq)

/-- A command one of whose writes the back end reports as a write fault ends with 2/80h. -/
def recFault (key : Option (Nat × Nat × Nat)) (s : State) : State :=
  match key with
  | none => s
  | some k => match cmdAt s k.1 k.2.1 k.2.2 with
    | some m => cmdPut k.1 { m with pieces := [], ended := some (0x280, true) } s
    | none => s

/-- LOG_WRITE_COMPLETE (R403 steps 3 and 4). -/
def execLogWriteComplete (log : Fin 8) (seq : Nat) (ok : Bool) (s : State) : Host.Outcome State Fault Refusal :=
  .next (match recAt s log.val seq with
    | none => s
    | some r =>
      if r.stage ≠ 1 then s
      else if !ok then recRetire log.val seq (recFault r.cmd s)
      else
        let w := wilAt s log.val
        homesIssue log.val (wilPut log.val { w with recs := w.recs.map (fun o => if o.seq = seq then { o with stage := 2 } else o) } s))

/-- HOME_WRITE_COMPLETE (R400, R403 step 5). -/
def execHomeWriteComplete (log : Fin 8) (seq : Nat) (ok : Bool) (s : State) : Host.Outcome State Fault Refusal :=
  .next (match recAt s log.val seq with
    | none => s
    | some r => if r.stage ≠ 3 then s else recRetire log.val seq (if ok then s else recFault r.cmd s))

/-- A checkpoint block (R401). -/
def checkpoint (gen w slots : Nat) : Bytes :=
  let b := le 4 0x4357574B ++ le 1 1 ++ le 3 0 ++ le 8 gen ++ le 8 w ++ le 4 slots ++ le 32 0
  b ++ le 4 (crc32c b)

/-- The next checkpoint of a log is written, to the block of the lower generation. -/
def checkpointNow (k : Nat) (s : State) : State :=
  let w := wilAt s k
  match wilCfg s.io k, (wilCfg s.io k).bind (fun c => beAt s c.1) with
  | some c, some b =>
    on (emit (.backend c.1 true (c.2.2 + (w.gen + 1) % 2 * (4096 / lbaBytes b.fmt)) (4096 / lbaBytes b.fmt)))
      (wilPut k { w with gen := w.gen + 1, cpW := w.w, dueAt := none } s)
  | _, _ => s

/-- CHECKPOINT_WRITE (R401, R403 step 6). -/
def execCheckpointWrite (log : Fin 8) (s : State) : Host.Outcome State Fault Refusal :=
  .next (match (wilAt s log.val).dueAt with | some _ => checkpointNow log.val s | none => s)

/-! ### Replay (R404) -/

/-- Generation, W and slots of an intact checkpoint. -/
def cpRead (b : Bytes) : Option (Nat × Nat) :=
  if field b 0 4 = 0x4357574B && field b 4 1 = 1 && field b 0x3C 4 = crc32c (slice b 0 0x3C) then some (field b 8 8, field b 0x10 8) else none

/-- R402: a slot's header checks, and its data matches. -/
def slotWhole (h d : Bytes) : Bool :=
  field h 0 4 == 0x4C57574B && field h 4 1 == 1 && field h 0x3C 4 == crc32c (slice h 0 0x3C ++ slice h 0x40 0xE0) &&
  field h 0x24 4 == crc32c (slice d 0 (field h 0x20 4))

/-- A record as its slot holds it. -/
def slotRec (h d : Bytes) : LogRec :=
  { seq := field h 8 8, kind := field h 5 1, ns := field h 0x10 4, lba := field h 0x18 8, blocks := field h 0x14 4,
    data := slice d 0 (field h 0x20 4), time := field h 0x28 8, entry := slice h 0x40 64, sealRec := slice h 0x80 160, stage := 2, cmd := none }

/-- Records in ascending sequence. -/
def recSort (l : List LogRec) : List LogRec := sortBy (fun a b => decide (a.seq ≤ b.seq)) l

/-- R404 step 2: a record found complete is applied; it stays pending where its home is absent. -/
def recApply (k : Nat) (r : LogRec) (s : State) : State :=
  match nsAt s r.ns with
  | none => s
  | some x =>
    let z := zoneOf x r.lba
    let y := zoneAt x z
    let zoned (x : Ns) : Ns :=
      if x.kind = 0 then x
      else if r.kind = 5 then zonePut z { y with st := 3, sealed := true, sealing := true } x
      else
        let wp := max y.wp (r.lba - zoneStart x z + r.blocks)
        let n := if r.kind = 4 && x.kind = 2 then max y.count (field r.entry 0 4 + 1) else y.count
        let l := if r.kind = 4 && x.kind = 2 && y.count ≤ field r.entry 0 4 then slice r.entry 0x20 32 else y.link
        zonePut z { y with
          wp := wp, st := if x.zoneSize ≤ wp then 3 else 2, count := n, linked := n, done := n, link := l, heads := [], tab := (wp, n, l),
          stepped := y.stepped || (field r.entry 0x18 1).testBit 1 } x
    let there := (x.curA && bePresent s x.beA) || (x.copies == 2 && x.curB && bePresent s x.beB)
    let s1 := nsPut r.ns { zoned x with replayed := x.replayed + 1 } s
    if there then homeWrite r s1
    else
      let w := wilAt s1 k
      wilPut k { w with recs := w.recs ++ [r] } s1

/-- The log is replayed, and its namespaces leave REPLAYING. -/
def replay (k : Nat) (cps : List Bytes) (slots : List (Bytes × Bytes)) (s : State) : State :=
  let n := wilSlots s k
  let cp := (cps.filterMap cpRead).foldl (fun (b : Nat × Option Nat) (c : Nat × Nat) => if b.2.isNone || b.1 < c.1 then (c.1, some c.2) else b) (0, none)
  let whole := slots.zipIdx.filterMap (fun (x : (Bytes × Bytes) × Nat) =>
    if slotWhole x.1.1 x.1.2 && field x.1.1 8 8 % max 1 n == x.2 then some (slotRec x.1.1 x.1.2) else none)
  let torn := (slots.filter (fun x => field x.1 0 4 == 0x4C57574B && !slotWhole x.1 x.2)).length
  let w0 := match cp.2 with
    | some w => w
    | none => (((whole.map (·.seq)).min?).getD 1) - 1
  let rs := recSort (whole.filter (fun r => decide (w0 < r.seq) && decide (r.seq ≤ w0 + n)))
  let top := ((rs.map (·.seq)).max?).getD w0
  let s1 := storeCount 2 torn (wilPut k { Wil.reset with w := w0, next := top + 1, gen := cp.1, cpW := w0, replayed := rs.length } s)
  let mine := (s1.store.nss.filter (fun p => p.2.log == k && (p.2.state == 1 || p.2.state == 2))).map (·.1)
  let s2 := mine.foldl (fun s m => match nsAt s m with | some x => nsPut m { x with replayed := 0 } s | none => s) s1
  let s3 := rs.foldl (fun s r => recApply k r s) s2
  let w3 := wilAt s3 k
  let low := ((w3.recs.map (·.seq)).min?).getD (top + 1)
  let s4 := checkpointNow k (wilPut k { w3 with w := low - 1 } s3)
  mine.foldl (fun s m =>
    match nsAt s m with
    | none => s
    | some x =>
      let there := (x.curA && bePresent s x.beA) || (x.copies == 2 && x.curB && bePresent s x.beB)
      nsSet m (if there then 0 else 2) s) s4

/-- LOG_REPLAY (R386, R401, R402, R404, R413): once the log's back end is present. -/
def execLogReplay (log : Fin 8) (cps : List Bytes) (slots : List (Bytes × Bytes)) (s : State) : Host.Outcome State Fault Refusal :=
  .next (match wilCfg s.io log.val with
    | some c =>
      if bePresent s c.1 && s.store.nss.any (fun p => p.2.log == log.val && (p.2.state == 1 || p.2.state == 2)) then replay log.val cps slots s else s
    | none => s)

/-! ### Loss and return (R400, R405) -/

/-- BACKEND_LOST (R386, R400, R405). -/
def execBackendLost (be_ : Fin 64) (s : State) : Host.Outcome State Fault Refusal := .next (beGone be_.val 3 s)

/-- BACKEND_RETURN (R400, R405). -/
def execBackendReturn (be_ : Fin 64) (s : State) : Host.Outcome State Fault Refusal := .next (beBack be_.val s)

/-- RESYNC_COMPLETE (R400). -/
def execResyncComplete (ns : Nat) (s : State) : Host.Outcome State Fault Refusal :=
  .next (match nsAt s ns with
    | some x => if x.resync then storeCount 5 1 (nsPut ns { x with resync := false, curA := true, curB := true } s) else s
    | none => s)

/-- BE_WAIT_LIMIT_EXPIRY (R405): its records are discarded, and it is FAILED. -/
def execBeWaitLimit (ns : Nat) (s : State) : Host.Outcome State Fault Refusal :=
  .next (match nsAt s ns with
    | some x =>
      match x.state, x.waitAt with
      | 2, some t => nsSet ns 4 (recsDiscard x.log ns (on (reach (t + sec (dget s.io (idx 0x0C1003 0) 30))) s))
      | _, _ => s
    | none => s)

/-! ### Sealing (R409, R410) -/

/-- The seal record of a full zone is written once every assigned append has completed. -/
def zoneSeal (n z : Nat) (s : State) : State :=
  match nsAt s n with
  | none => s
  | some x =>
    let y := zoneAt x z
    if x.kind ≠ 2 || y.st ≠ 3 || y.sealing || y.done < y.count || decide (x.state ≠ 0) then s
    else
      match chainKey s x with
      | none => s
      | some k =>
        let r := recNew 5 n (zoneStart x z) 0 [] [] (sealRecord s k x z) y.finisher
        let s1 := nsPut n (zonePut z { y with sealing := true, finisher := none } x) s
        let s2 := match y.finisher with
          | some f => (match cmdAt s1 f.1 f.2.1 f.2.2 with | some m => cmdPut f.1 { m with out := m.out + 1 } s1 | none => s1)
          | none => s1
        logAppend x.log r s2

/-- ZONE_SEAL (R409, R410, R413). -/
def execZoneSeal (ns zone : Nat) (s : State) : Host.Outcome State Fault Refusal := .next (zoneSeal ns zone s)

/-! ### Verification and export (R411, R412) -/

/-- 0C:1040 is answered. -/
def verAnswer (by_ : Issuer) (st : Nat) (s : State) : State := on (answer by_ (idx 0x0C1040 0) st []) s

/-- Storing the verification. -/
def verPut (v : SealVer) (s : State) : State := { s with store := { s.store with ver := v } }

/-- R411: principal H acts through PF1 or PF3, on a namespace attached to that PF's controller. -/
def verMay (s : State) (by_ : Issuer) (n : Nat) : Bool :=
  if principalOf by_.assoc.binding == .h then
    let p := by_.assoc.key % 4
    (p == 1 || p == 3) && (match nsAt s n with | some x => x.attached.contains p | none => false)
  else true

/-- START. -/
def verStart (by_ : Issuer) (arg : Bytes) (s : State) : State :=
  match cmdGate s.start.stage by_ 0x0C1040 arg 16 1 s.io with
  | some e => verAnswer by_ e s
  | none =>
    let n := field arg 4 4
    let z := field arg 8 4
    let k := field arg 0xC 4
    if !verMay s by_ n then verAnswer by_ 3 s
    else if s.store.ver.st = 1 then verAnswer by_ 8 s
    else
      match nsAt s n with
      | none => verAnswer by_ 5 s
      | some x =>
        if !allZero (slice arg 1 3) || x.kind ≠ 2 || k = 0 || x.size / max 1 x.zoneSize < z + k then verAnswer by_ 5 s
        else on (beginCmd by_ 0x0C1040) (verPut { SealVer.reset with st := 1, ns := n, stop := z + k, zone := z, paceAt := s.io.now } s)

/-- SEAL_VERIFY_START (R411). -/
def execSealVerifyStart (by_ : Issuer) (arg : Bytes) (s : State) : Host.Outcome State Fault Refusal := .next (verStart by_ arg s)

/-- RESUME from the cursor of the run that ended. -/
def verResume (by_ : Issuer) (arg : Bytes) (s : State) : State :=
  match cmdGate s.start.stage by_ 0x0C1040 arg 16 2 s.io with
  | some e => verAnswer by_ e s
  | none =>
    let v := s.store.ver
    if !verMay s by_ v.ns then verAnswer by_ 3 s
    else if v.st = 1 then verAnswer by_ 8 s
    else if (v.st ≠ 4 && v.st ≠ 5 && v.st ≠ 6) || (nsAt s v.ns).isNone then verAnswer by_ 0x11 s
    else on (beginCmd by_ 0x0C1040) (verPut { v with st := 1, paceAt := s.io.now } s)

/-- SEAL_VERIFY_RESUME (R411). -/
def execSealVerifyResume (by_ : Issuer) (arg : Bytes) (s : State) : Host.Outcome State Fault Refusal := .next (verResume by_ arg s)

/-- ABORT. -/
def verAbort (by_ : Issuer) (arg : Bytes) (s : State) : State :=
  match cmdGate s.start.stage by_ 0x0C1040 arg 16 3 s.io with
  | some e => verAnswer by_ e s
  | none =>
    if !verMay s by_ s.store.ver.ns then verAnswer by_ 3 s
    else if s.store.ver.st ≠ 1 then verAnswer by_ 0x11 s
    else verAnswer by_ 0 (on (endCmd 0x0C1040 0x11 []) (verPut { s.store.ver with st := 4 } s))

/-- SEAL_VERIFY_ABORT (R411). -/
def execSealVerifyAbort (by_ : Issuer) (arg : Bytes) (s : State) : Host.Outcome State Fault Refusal := .next (verAbort by_ arg s)

/-- A failure is counted; the first is kept. -/
def verFail (kind : Nat) (v : SealVer) : SealVer :=
  if v.fails = 0 then { v with fails := 1, failZone := v.zone, failRec := v.rec_, failKind := kind } else { v with fails := v.fails + 1 }

/-- What a record's check finds: a failure kind, or 0. -/
def verRecord (s : State) (x : Ns) (v : SealVer) (r : SealRead) : Nat :=
  match chainKey s x, nsCipher s x, r.data, r.entry with
  | some key, .ok k, some d, some e =>
    let lba := field e 8 8
    let n := field e 4 4
    if field e 0 4 ≠ v.rec_ || n = 0 || d.length ≠ n * lbaBytes x.fmt || lba < zoneStart x v.zone || zoneStart x (v.zone + 1) < lba + n ||
        !allZero (slice e 0x19 7) then 5
    else
      let prev := if v.rec_ = 0 then some (linkZero key x v.zone) else r.prev.map (fun p => slice p 0x20 32)
      match prev with
      | none => 4
      | some p => if padTo 32 (hmac key (p ++ slice e 0 32 ++ nsCrypt false x k lba d)) = slice e 0x20 32 then 0 else 1
  | _, _, _, _ => 4

/-- What the check of a full zone finds. -/
def verZone (s : State) (x : Ns) (v : SealVer) (r : SealRead) : List Nat :=
  match chainKey s x, r.table with
  | some key, some t =>
    let sl := slice t 0x60 160
    let last := if v.rec_ = 0 then some (linkZero key x v.zone) else r.prev.map (fun p => slice p 0x20 32)
    (if some (slice t 0x20 32) = last.map (padTo 32) then [] else [1]) ++
    (if padTo 32 (hmac key (slice sl 0 0x60)) = slice sl 0x60 32 then [] else [2]) ++
    (if padTo 32 (hmac Config.zoneTagKey (slice sl 0 0x80)) = slice sl 0x80 32 then [] else [3]) ++
    (if field sl 0x10 4 = v.rec_ && field t 0x10 4 = v.rec_ then [] else [5])
  | _, _ => [4]

/-- R411: the verifier's next read: a record, or the end of a zone. -/
def verRead (r : SealRead) (s : State) : State :=
  let v := s.store.ver
  if v.st ≠ 1 || v.stop ≤ v.zone then s
  else
    match nsAt s v.ns with
    | none => s
    | some x =>
      let y := zoneAt x v.zone
      let s1 := on (reach v.paceAt) s
      if v.rec_ < y.tab.2.1 then
        let k := verRecord s1 x v r
        let bytes := (r.data.map (·.length)).getD 0
        let v1 := if k = 0 then v else verFail k v
        verPut { v1 with
          records := v.records + 1, rec_ := v.rec_ + 1,
          paceAt := s1.io.now + bytes * 1000 / max 1 (dget s.io (idx 0x0C1042 0) 200) } s1
      else
        let fs := if y.st = 3 && y.sealed then verZone s1 x v r else []
        verPut { fs.foldl (fun v k => verFail k v) v with zones := v.zones + 1, zone := v.zone + 1, rec_ := 0 } s1

/-- SEAL_VERIFY_READ (R411). -/
def execSealVerifyRead (x : SealRead) (s : State) : Host.Outcome State Fault Refusal := .next (verRead x s)

/-- SEAL_VERIFY_END (R411). -/
def execSealVerifyEnd (s : State) : Host.Outcome State Fault Refusal :=
  .next (let v := s.store.ver
    if v.st = 1 && decide (v.stop ≤ v.zone) then on (endCmd 0x0C1040 0 []) (verPut { v with st := 3 } s) else s)

/-- 0C:1041 as it reads. -/
def verBytes (v : SealVer) : Bytes :=
  le 1 v.st ++ le 3 0 ++ le 4 v.ns ++ le 4 v.zone ++ le 4 v.rec_ ++ le 4 v.zones ++ le 8 v.records ++ le 4 v.fails ++ le 4 v.failZone ++
  le 4 v.failRec ++ le 1 v.failKind ++ le 7 0

/-- R412: the export fills 0C:1051 with entries and the seal record of a full zone. -/
def sealExport (by_ : Issuer) (arg : Bytes) (chain : Option Bytes) (s : State) : State :=
  let ans (st : Nat) (s : State) : State := on (answer by_ (idx 0x0C1050 0) st []) s
  match gate s.start.stage by_ 0x0C1050 s.io with
  | some e => ans e s
  | none =>
    let n := field arg 0 4
    let z := field arg 4 4
    let first := field arg 8 4
    let k := field arg 0xC 4
    if arg.length ≠ 16 then ans 5 s
    else if !verMay s by_ n then ans 3 s
    else
      match nsAt s n with
      | none => ans 5 s
      | some x =>
        let y := zoneAt x z
        if x.kind ≠ 2 || k = 0 || 16384 < k || x.size / max 1 x.zoneSize ≤ z || y.tab.2.1 < first + k then ans 5 s
        else
          match chain with
          | none => ans 0x11 s
          | some b => ans 0 (on (dsetB (idx 0x0C1051 0)
              (slice b 0 (64 * k) ++ (if y.st = 3 && y.sealed then slice b (64 * k + 0x60) 160 else List.replicate 160 0))) s)

/-- SEAL_EXPORT (R412). -/
def execSealExport (by_ : Issuer) (arg : Bytes) (chain : Option Bytes) (s : State) : Host.Outcome State Fault Refusal :=
  .next (sealExport by_ arg chain s)

/-! ### Losses (R404, R411, R413) -/

/-- A chip warm reset: on-chip zone state and records are lost; every namespace replays; a verification ends. -/
def storeWarm (s : State) : State :=
  let zone (y : Zone) : Zone :=
    { y with
      st := if y.sealed || y.st == 3 then 3 else if y.tab.1 = 0 then 1 else 2, wp := if y.st = 3 then y.wp else y.tab.1, count := y.tab.2.1,
      linked := y.tab.2.1, done := y.tab.2.1, link := y.tab.2.2, heads := [], sealing := y.sealed, finisher := none }
  let v := s.store.ver
  { s with store := { s.store with
      logs := s.store.logs.map (fun p => (p.1, { p.2 with recs := [], dueAt := none })),
      nss := mmap s.store.nss (fun _ x => { x with state := if x.state = 4 then 4 else 1, waitAt := none, zones := mmap x.zones (fun _ y => zone y) }),
      ver := if v.st = 1 then { v with st := 5 } else v } }

end Sys2Proof.Machine
end

