-- ==== Sys2Proof/Machine/Slots.lean ====
section
/-!
DEFINITION. Drive slots and downstream root ports (chapter 18): power sequences, the attention button, containment, TLPs
from a drive.
Choices of the model coded here, by entry of the assumption log: DESIGN CHOICE 22, 66; DEDUCED 65.
-/
namespace Sys2Proof.Machine

/-! ### Slots and what they report -/

/-- A slot. -/
def bayOf (s : State) (k : Nat) : Slot := mgetD s.drives.slots k Slot.reset

/-- Storing a slot. -/
def bayPut (k : Nat) (x : Slot) (s : State) : State := { s with drives := { s.drives with slots := mput s.drives.slots k x } }

/-- R415: root ports of the split in force. -/
def portCount (s : State) : Nat := 2 ^ s.drives.split

/-- 0D:0030. -/
def slotCount (e : Nat) (s : State) : State := on (bump64 0x0D0030 e) s

/-- The back end defined on a root port, if any. -/
def beOfPort (s : State) (k : Nat) : Option Nat := (s.store.bes.find? (fun p => p.2.kind == 1 && p.2.port == k)).map (·.1)

/-- R563, class 2. -/
def drivePartner (s : State) (k : Nat) : Bytes :=
  le 1 k ++ le 1 0 ++ le 2 (Config.driveId k).toNat ++ le 1 ((beOfPort s k).getD 0xFF) ++ le 3 0

/-- Bits of Slot Status and of their enables in Slot Control, per the PCIe Base Specification: a slot event reaches the
thread of 0D:0011 where its enable and the hot-plug interrupt enable (bit 5) are set. -/
def slotEvent (k status enable : Nat) (s : State) : State :=
  let c := (bayOf s k).control
  if c.testBit enable && c.testBit 5 then on (fun io => emit (.threadEvent (dget io (idx 0x0D0011 (k + 1)) 0) status k) io) s else s

/-- Attention Button Pressed, Power Fault Detected, Presence Detect Changed, Command Completed, Data Link Layer State
Changed. -/
def setAbp (k : Nat) (s : State) : State := slotEvent k 0 0 (bayPut k { bayOf s k with abp := true } s)
def setPfd (k : Nat) (s : State) : State := slotEvent k 1 1 (bayPut k { bayOf s k with pfd := true } s)
def setPdc (k : Nat) (s : State) : State := slotEvent k 3 3 (bayPut k { bayOf s k with pdc := true } s)
def setCc (k : Nat) (s : State) : State := slotEvent k 4 4 (bayPut k { bayOf s k with cc := true } s)
def setDllsc (k : Nat) (s : State) : State := slotEvent k 8 12 (bayPut k { bayOf s k with dllsc := true } s)

/-- Slot Status (R419). -/
def slotStatus (x : Slot) : Nat :=
  b2n x.abp + 2 * b2n x.pfd + 8 * b2n x.pdc + 16 * b2n x.cc + 64 * b2n x.present + 256 * b2n x.dllsc

/-- Slot Control's indicator code: 1 On, 2 Blink, 3 Off. -/
def ledCode (n : Nat) : Nat := if n = 0 then 3 else n

/-- Slot Control as it reads: indicators and power as the pins stand. -/
def slotControlBits (x : Slot) : Nat :=
  x.control % 64 + 64 * ledCode x.atnLed + 256 * ledCode x.pwrLed + 1024 * b2n (!x.pwren) + 2048 * (x.control / 2048)

/-- Slot Capabilities (R419): indicators, button, power controller, hot-plug surprise and capable, limit in watts, number. -/
def slotCaps (io : Io) (k : Nat) : Nat := 0x7B + 128 * dget io (idx 0x0D0010 (k + 1)) 25 + 2 ^ 19 * (k + 1)

/-- 0D:0020. -/
def slotBytes (s : State) (k : Nat) : Bytes :=
  let x := bayOf s k
  le 1 (if x.contained && x.pwren then 4 else x.st) ++ le 1 (if x.contained then x.cause else 0) ++ le 1 x.rate ++ le 1 x.width ++
  le 1 ((beOfPort s k).getD 0xFF) ++ le 3 0

/-! ### Power sequences (R420, R421) -/

/-- Step 2 of R420. -/
def powerUp (k : Nat) (s : State) : State :=
  bayPut k { bayOf s k with st := 2, pwren := true, pwrLed := 2, phase := 1, at_ := s.io.now, window := none } s

/-- R420 step 1: 0 done, 2 no drive, 3 power fault present. A slot that is powered, or on its way, is left as it is. -/
def powerOn (k : Nat) (s : State) : Nat × State :=
  let x := bayOf s k
  if !x.present then (2, s) else if x.fault then (3, s) else if x.pwren || x.phase ≠ 0 then (0, s) else (0, powerUp k s)

/-- R420 step 3: SLOTk_PERST_N is released and training starts. -/
def perstRelease (k : Nat) (s : State) : State := bayPut k { bayOf s k with perst := false, phase := 2, at_ := s.io.now } s

/-- The link of a root port is down. -/
def linkGone (k : Nat) (s : State) : State :=
  let x := bayOf s k
  let s1 := bayPut k { x with link := false, rate := 0, width := 0 } s
  if x.link then setDllsc k s1 else s1

/-- R421 step 1. -/
def powerDown (k : Nat) (s : State) : State :=
  let x := bayOf s k
  if !x.pwren || x.phase = 3 then s
  else
    let s1 := linkGone k s
    bayPut k { bayOf s1 k with perst := true, phase := 3, at_ := s.io.now, window := none } s1

/-- R421, R423: before an orderly power-off the back end becomes absent, no command ending with an error. -/
def orderlyOff (k : Nat) (s : State) : State :=
  powerDown k (match beOfPort s k with | some b => beGone b 2 s | none => s)

/-! ### Containment (R422) -/

/-- Outstanding requests of a root port end with "link down"; one forwarded for a peer window ends as R162 gives. -/
def requestsEnd (k : Nat) (s : State) : State :=
  let x := bayOf s k
  x.reqs.foldl (fun s r => match r.2 with
    | some (fn, _) => on (fun io => hostError 6 fn true (emit (.completion fn 4 []) io)) s
    | none => s) (bayPut k { x with reqs := [] } s)

/-- R422: a port is contained, counted and journalled; its back end is lost. -/
def contain (k cause : Nat) (detail : Bytes) (s : State) : State :=
  if (bayOf s k).contained then s
  else
    let s1 := slotCount cause (linkGone k s)
    let s2 := on (violate (0x200 + cause) (drivePartner s1 k) detail) (bayPut k { bayOf s1 k with contained := true, cause := cause, window := none } s1)
    let s3 := requestsEnd k s2
    match beOfPort s3 k with
    | some b => beGone b 3 s3
    | none => s3

/-- Cause 0x02: PWREN off, PERST asserted, attention indicator On; the wait of R421 step 3 follows. -/
def faultOff (k : Nat) (s : State) : State :=
  let x := bayOf s k
  bayPut k { x with
    pwren := false, perst := true, atnLed := 1, window := none, phase := if x.pwren then 4 else x.phase,
    at_ := if x.pwren then s.io.now else x.at_ } s

/-! ### The rows -/

/-- A presence level accepted. -/
def presenceSet (k : Nat) (present : Bool) (s : State) : State :=
  let x := bayOf s k
  if x.present = present then s
  else
    let s1 := setPdc k (bayPut k { x with present := present } s)
    if !present then
      if x.pwren && x.phase ≠ 3 then powerDown k (contain k 1 [] s1)
      else bayPut k { bayOf s1 k with st := if x.pwren || x.phase = 4 then x.st else 0, window := none, pwrLed := if x.window.isSome then 0 else x.pwrLed } s1
    else
      let s2 := if x.pwren || x.phase ≠ 0 then s1 else bayPut k { bayOf s1 k with st := 1 } s1
      if !x.pwren && decide (2 ≤ s.start.stage) && (dget s.io (idx 0x0D0015 0) 0xFF).testBit k then (powerOn k s2).2 else s2

/-- SLOT_PRESENCE_CHANGE (R418, R422, R424, R426). -/
def execSlotPresence (k : SlotNo) (present : Bool) (s : State) : Host.Outcome State Fault Refusal :=
  .next (if portCount s ≤ k.val then s else presenceSet k.val present s)

/-- SLOT_POWER_FAULT (R418, R422, R426). -/
def execSlotPowerFault (k : SlotNo) (low : Bool) (s : State) : Host.Outcome State Fault Refusal :=
  .next (if portCount s ≤ k.val then s
    else
      let s1 := bayPut k.val { bayOf s k.val with fault := low } s
      if low then faultOff k.val (contain k.val 2 [] (setPfd k.val s1)) else s1)

/-- R423: a press. -/
def press (k : Nat) (s : State) : State :=
  let s1 := setAbp k s
  let x := bayOf s1 k
  if !(dget s.io (idx 0x0D0014 0) 0xFF).testBit k then s1
  else if x.window.isSome then bayPut k { x with window := none, pwrLed := if x.pwren then 1 else 0 } s1
  else if x.phase ≠ 0 || (!x.pwren && !x.present) then s1
  else bayPut k { x with window := some s1.io.now, pwrLed := 2 } s1

/-- SLOT_ATTENTION_PRESS (R418, R423, R426). -/
def execSlotAttention (k : SlotNo) (s : State) : Host.Outcome State Fault Refusal :=
  .next (if portCount s ≤ k.val then s else press k.val s)

/-- ATTENTION_WINDOW_EXPIRY (R423). -/
def execAttentionWindow (k : SlotNo) (s : State) : Host.Outcome State Fault Refusal :=
  .next (match (bayOf s k.val).window with
    | none => s
    | some t =>
      let s1 := on (reach (t + sec 5)) s
      let s2 := bayPut k.val { bayOf s1 k.val with window := none } s1
      if (bayOf s2 k.val).pwren then orderlyOff k.val s2 else (powerOn k.val s2).2)

/-- 0D:0100 is answered: its result, and status 0 only where that is "done". -/
def slotAnswer (by_ : Issuer) (res : Nat) (s : State) : State :=
  on (answer by_ (idx 0x0D0100 0) (if res = 0 then 0 else if res = 4 then 1 else 0x11) (le 1 res)) s

/-- The checks of 0D:0100. -/
def slotCmd (by_ : Issuer) (k : Nat) (f : State → Nat × State) (s : State) : State :=
  match gate s.start.stage by_ 0x0D0100 s.io with
  | some e => if e = 1 then slotAnswer by_ 4 s else on (answer by_ (idx 0x0D0100 0) e []) s
  | none => if portCount s ≤ k then slotAnswer by_ 1 s else let r := f s; slotAnswer by_ r.1 r.2

/-- SLOT_POWER_ON (R420, R427): by 0D:0100, or by firmware through Slot Control. -/
def execSlotPowerOn (k : SlotNo) (by_ : Option Issuer) (s : State) : Host.Outcome State Fault Refusal :=
  .next (match by_ with
    | some b => slotCmd b k.val (powerOn k.val) s
    | none => if portCount s ≤ k.val then s else (powerOn k.val s).2)

/-- SLOT_SETTLE_TIMER (R420 step 3). -/
def execSlotSettle (k : SlotNo) (s : State) : Host.Outcome State Fault Refusal :=
  .next (let x := bayOf s k.val
    if x.phase ≠ 1 then s
    else perstRelease k.val (on (reach (x.at_ + ms (dget s.io (idx 0x0D0012 0) 100))) s))

/-- R424: the drive is offered to the back end defined on its port. -/
def offer (k : Nat) (ident : Option BeIdent) (s : State) : State :=
  match beOfPort s k, ident with
  | some b, some d =>
    match beAt s b with
    | some x =>
      if x.serial = d.serial && x.nguid = d.nguid then beBack b s
      else on (violate 0x0205 (drivePartner s k) (le 4 (crc32c d.serial))) (slotCount 7 s)
    | none => s
  | _, _ => s

/-- DL_ACTIVE (R416, R420, R424); none while a lane of the port is tested (R585). -/
def execDlActive (k : SlotNo) (rate : Fin 6) (width : Fin 17) (ident : Option BeIdent) (s : State) : Host.Outcome State Fault Refusal :=
  .next (let x := bayOf s k.val
    if x.phase ≠ 2 || lanesTested s.dbg (fun l => laneKind l == some 2 && laneRoot s l == k.val) then s
    else
      let s1 := setDllsc k.val (bayPut k.val { x with
        st := 3, phase := 0, link := true, rate := rate.val, width := width.val, pwrLed := 1, contained := false, cause := 0 } s)
      offer k.val ident (on (emit (.identifyDrive k.val)) s1))

/-- SLOT_TRAINING_TIMEOUT (R420). -/
def execSlotTrainingTimeout (k : SlotNo) (s : State) : Host.Outcome State Fault Refusal :=
  .next (let x := bayOf s k.val
    if x.phase ≠ 2 then s else powerDown k.val (slotCount 5 (on (reach (x.at_ + ms 100)) s)))

/-- SLOT_POWER_OFF (R421, R427). -/
def execSlotPowerOff (k : SlotNo) (by_ : Option Issuer) (s : State) : Host.Outcome State Fault Refusal :=
  .next (match by_ with
    | some b => slotCmd b k.val (fun s => (0, orderlyOff k.val s)) s
    | none => if portCount s ≤ k.val then s else orderlyOff k.val s)

/-- SLOT_PWREN_OFF_TIMER (R421 step 2). -/
def execSlotPwrenOff (k : SlotNo) (s : State) : Host.Outcome State Fault Refusal :=
  .next (let x := bayOf s k.val
    if x.phase ≠ 3 then s
    else
      let s1 := on (reach (x.at_ + ms 1)) s
      bayPut k.val { x with pwren := false, phase := 4, at_ := s1.io.now } s1)

/-- SLOT_POWER_OFF_WAIT (R421 step 3). -/
def execSlotOffWait (k : SlotNo) (s : State) : Host.Outcome State Fault Refusal :=
  .next (let x := bayOf s k.val
    if x.phase ≠ 4 then s
    else bayPut k.val { x with phase := 0, pwrLed := 0, st := 1 } (on (reach (x.at_ + ms (dget s.io (idx 0x0D0013 0) 1000))) s))

/-- An attention indicator is set. -/
def atnSet (k v : Nat) (s : State) : Nat × State := (0, bayPut k { bayOf s k with atnLed := v } s)

/-- SLOT_ATN_OFF (R427). -/
def execSlotAtnOff (k : SlotNo) (by_ : Issuer) (s : State) : Host.Outcome State Fault Refusal := .next (slotCmd by_ k.val (atnSet k.val 0) s)

/-- SLOT_ATN_ON (R427). -/
def execSlotAtnOn (k : SlotNo) (by_ : Issuer) (s : State) : Host.Outcome State Fault Refusal := .next (slotCmd by_ k.val (atnSet k.val 1) s)

/-- SLOT_ATN_BLINK (R427). -/
def execSlotAtnBlink (k : SlotNo) (by_ : Issuer) (s : State) : Host.Outcome State Fault Refusal := .next (slotCmd by_ k.val (atnSet k.val 2) s)

/-- An indicator field of Slot Control: 1 On, 2 Blink, 3 Off; 0 leaves it. -/
def ledOf (code old : Nat) : Nat := if code = 0 then old else if code = 3 then 0 else code

/-- Firmware writes Slot Control; power follows its Power Controller Control, and Command Completed sets. -/
def controlWrite (k : Nat) (v clear : Nat) (s : State) : State :=
  let x := bayOf s k
  let s1 := bayPut k { x with
    control := v, atnLed := ledOf (bits v 7 6) x.atnLed, pwrLed := ledOf (bits v 9 8) x.pwrLed, abp := x.abp && !clear.testBit 0,
    pfd := x.pfd && !clear.testBit 1, pdc := x.pdc && !clear.testBit 3, cc := x.cc && !clear.testBit 4, dllsc := x.dllsc && !clear.testBit 8 } s
  let s2 := if !v.testBit 10 && !x.pwren then (powerOn k s1).2 else if v.testBit 10 && x.pwren then orderlyOff k s1 else s1
  setCc k s2

/-- SLOT_CONTROL_WRITE (R419). -/
def execSlotControl (k : SlotNo) (v clear : Half) (s : State) : Host.Outcome State Fault Refusal :=
  .next (if portCount s ≤ k.val then s else controlWrite k.val v.toNat clear.toNat s)

/-- DRIVE_LINK_DOWN (R422). -/
def execDriveLinkDown (k : SlotNo) (ltssm : Byte) (s : State) : Host.Outcome State Fault Refusal :=
  .next (if (bayOf s k.val).link then contain k.val 3 [ltssm] s else s)

/-- DRIVE_ERROR_MESSAGE (R422). -/
def execDriveError (k : SlotNo) (kind : Fin 3) (s : State) : Host.Outcome State Fault Refusal :=
  .next (if !(bayOf s k.val).link then s
    else if kind.val = 0 then slotCount 6 s else contain k.val 4 (le 1 kind.val) s)

/-- DRIVE_COMPLETION_TIMEOUT (R417, R422). -/
def execDriveTimeout (k : SlotNo) (tag : Fin 1024) (s : State) : Host.Outcome State Fault Refusal :=
  .next (if (bayOf s k.val).link then contain k.val 4 (le 1 3 ++ le 2 tag.val) s else s)

/-- DPC_CLEAR (R422): for cause 0x01 only once the slot is powered again. A powered slot trains again. -/
def execDpcClear (k : SlotNo) (s : State) : Host.Outcome State Fault Refusal :=
  .next (let x := bayOf s k.val
    let powered := x.pwren && (x.phase == 0 || x.phase == 1 || x.phase == 2)
    if !x.contained || (x.cause = 1 && !powered) then s
    else if x.pwren && x.phase = 0 then bayPut k.val { x with contained := false, cause := 0, st := 2, phase := 2, at_ := s.io.now } s
    else bayPut k.val { x with contained := false, cause := 0 } s)

/-! ### TLPs from a drive (R416) -/

/-- Whether a run of core physical addresses lies in attached memory. -/
def attachedRun (m : MemTile) (a n : Nat) : Bool :=
  match spotAt m a, spotAt m (a + max 1 n - 1) with
  | .attached c _, .attached d _ => c == d
  | _, _ => false

/-- A poisoned write into attached memory: each line it touches carries the poison marking (R162, R499). -/
def poisonWrite : Nat → Nat → Bytes → MemIo → MemIo
  | 0, _, _, w => w
  | fuel + 1, a, d, w =>
    if d.isEmpty then w
    else
      let k := min d.length (64 - a % 64)
      let r := memRead (a / 64) [] w
      poisonWrite fuel (a + k) (d.drop k)
        (memWriteLine (a / 64) true (splice (r.1.getD (List.replicate 64 0)) (a % 64) (d.take k)) (if k = 64 then w else r.2))

/-- A posted write from outside lands in attached memory. -/
def memPosted (a : Nat) (d : Bytes) (poisoned : Bool) (w : MemIo) : MemIo :=
  if poisoned then poisonWrite (d.length / 64 + 2) a d w else (attachedWrite (d.length / 64 + 2) a d w).2

/-- A TLP of a drive whose link is up. -/
def driveTlp (k : Nat) (t : DriveTlp) (s : State) : State :=
  match t with
  | .write a d p =>
    if attachedRun s.mem a d.length then onMem (memPosted (a % 0x80000000000) d p) s else s
  | .read a n =>
    if attachedRun s.mem a n then
      let r := attachedRead (n / 64 + 2) (a % 0x80000000000) n { io := s.io, mem := s.mem }
      let s1 := { s with io := r.2.io, mem := r.2.mem }
      on (emit (match r.1 with | some b => .driveCompletion k 0 b | none => .driveCompletion k 4 [])) s1
    else on (emit (.driveCompletion k 1 [])) s
  | .completion tag st d p =>
    let x := bayOf s k
    match x.reqs.find? (fun r => r.1 == tag) with
    | none => s
    | some (_, o) =>
      let s1 := bayPut k { x with reqs := x.reqs.filter (fun r => r.1 != tag) } s
      match o with
      | some (fn, _) => on (emit (.completion fn (if st ≠ 0 then st else if p then 2 else 0) d)) s1
      | none => s1
  | .toDrive => on (emit (.driveCompletion k 1 [])) s

/-- DOWNSTREAM_TLP (R416). -/
def execDownstreamTlp (k : SlotNo) (t : DriveTlp) (s : State) : Host.Outcome State Fault Refusal :=
  .next (if (bayOf s k.val).link then driveTlp k.val t s else s)

/-! ### Resets (R425) -/

/-- Every back end is absent until its drive or its connection returns. -/
def besAbsent (s : State) : State := { s with store := { s.store with bes := mmap s.store.bes (fun _ b => { b with st := 2 }) } }

/-- A chip warm reset: each PWREN keeps its level, every PERST is asserted, and the split of 0D:0000 takes effect. -/
def slotsWarm (s : State) : State :=
  let s1 := { s with drives := { slots := mmap s.drives.slots (fun _ x => { x with
      perst := true, phase := if x.phase = 1 || x.phase = 2 then 0 else x.phase, window := none, link := false, rate := 0, width := 0, contained := false, cause := 0, reqs := [] }), split := dget s.io (idx 0x0D0000 0) 2 } }
  besAbsent ((span (2 ^ dget s.io (idx 0x0D0000 0) 2) 8).foldl (fun s k => powerDown k s) s1)

/-- Stage 2 entry: PERST of powered slots is released, and every present slot is powered. -/
def slotsStage2 (s : State) : State :=
  (List.range (portCount s)).foldl (fun s k =>
    let x := bayOf s k
    if x.pwren && x.phase = 0 then perstRelease k s else if x.present then (powerOn k s).2 else s) s

/-- R425: DRV_REFCLK is lost: every root port is contained with cause 0x03. -/
def slotsRefLost (s : State) : State :=
  (List.range (portCount s)).foldl (fun s k =>
    let r := freeNat s.io
    if (bayOf s k).pwren then contain k 3 [BitVec.ofNat 8 r.1] { s with io := r.2 } else s) s

end Sys2Proof.Machine
end

