-- ==== Sys2Proof/Machine/ResetOps.lean ====
section
/-!
DEFINITION. Resets of the whole device: power-on reset (R54, R58, R78), the chip warm reset (R54, R55), everything held in
reset (R52, R523, R593), and what a start does to the dictionary, the flash and the journal (R15, R16, R59, R68, R567).
Choices of the model coded here, by entry of the assumption log: DESIGN CHOICE 7, 16, 20, 22, 23, 88; DEDUCED 21, 83.
-/
namespace Sys2Proof.Machine

/-! ### The dictionary across a reset (R15) -/

/-- Volatile objects that report units which run through a chip warm reset, and so keep their value: monitor readings, host
links and their tags, the key lock, the fused epoch, the totals of the store. -/
def warmLive (k : Nat) : Bool :=
  [0x030000, 0x030001, 0x030002, 0x030003, 0x030004, 0x030005, 0x040010, 0x040022, 0x040050, 0x020102, 0x020109, 0x0C1001].contains k

/-- Whether the value at an index is kept through a chip warm reset. -/
def warmKeeps (i : Nat) : Bool :=
  warmLive (i / 256) || (match objOf i with | some o => o.pers == .kept | none => false)

/-- Stored values as the parameter area holds them enter the dictionary. -/
def paramsLoad (io : Io) : Io := { io with dic := io.params.foldl (fun m p => mput m p.1 p.2) io.dic }

/-! ### The flash and the journal at a start -/

/-- Address of a parameter-area copy, 0 or 1 (R69). -/
def paramCopy (k : Nat) : Nat := 0x10000 + 0x100000 * k

/-- R16, R59, R68: the ROM brings up the flash and reads both copies of the parameter area. -/
def flashUp (f : FlashStart) (io : Io) : Io :=
  let io1 := if f.octal = 0 then io
    else violate 0x0705 (flashPartner 0xFF 0) [BitVec.ofNat 8 f.octal.val] (dset (idx 0x020111 0) 1 io)
  let io2 := (bitsOf 2 f.damaged.val).foldl (fun io k => violate 0x0704 (flashPartner 0xFF (paramCopy k)) [BitVec.ofNat 8 (k + 1)] io) io1
  if f.damaged = 3 then { io2 with params := [], paramsLost := true } else { io2 with paramsLost := false }

/-- R567: the journal goes live, and the entries held so far are written; they are never suppressed. -/
def journalLive (io : Io) : Io :=
  let j := io.journal
  let io1 := j.early.foldl (fun io e => jWrite e io) { io with journal := { j with live := true, early := [], gap := false } }
  jEvent { io1 with journal := { io1.journal with gap := j.gap } }

/-! ### Stages (R56, R60, R66) -/

/-- Microseconds since PWROK or the last chip warm reset, as 02:0002 shows them. -/
def stageTime (s : State) : Nat := (s.io.now - s.start.origin) / 1000 % 2 ^ 32

/-- The stage is `n`: 02:0000 follows. At a change M and PF0 are told (R60), and the function map is built anew (R152). -/
def stageSet (n : Nat) (s : State) : State :=
  let s1 := on (dset (idx 0x020000 0) n) (startPut { s.start with stage := n } s)
  if n = s.start.stage then s1
  else on (fun io => eventPf0 0x0201 0 0 n [] (mapRebuild (builtinNote (idx 0x020000 0) (.num n) io))) s1

/-- 02:0010 holds start at the stage now reached (R66). -/
def holdCheck (s : State) : State :=
  let v := dget s.io (idx 0x020010 0) 0
  if v ≠ 0 && v = s.start.stage + 1 && !s.start.held then startHeld 1 s else s

/-! ### Clocks at a start -/

/-- Frequencies once the PLLs have locked, by element of 01:0200. -/
def startFreqs (c : Clk) : List (Nat × Nat) :=
  [(1, 1400000), (2, 1400000), (3, 1400000), (4, 1400000), (5, 1250000), (6, 1250000), (7, 1250000), (8, 1250000), (9, 1600000),
   (10, 1600000)] ++ (if c.refEth then [(11, 1250000)] else []) ++ (if c.refPcie0 then [(12, 1000000)] else []) ++
  (if c.refDrv then [(13, 1000000)] else []) ++ [(14, 400000)]

/-- The clocks run, every region at P7, and each crossing stands in RUN, or HELD where a side of it is stopped. -/
def clocksStart (s : State) : State :=
  let s1 := { s with
    clk := { s.clk with freq := startFreqs s.clk, holdAll := false, target := [], crossings := [] }
    cpu := { s.cpu with cycles := (List.range 4).map (fun r => (r, (0, s.io.now))) } }
  (List.range 24).foldl (fun s x => if xingReady s x then s else xingPut x .held s) s1

/-! ### Units whose settings a start puts in force -/

/-- Port 0 comes up by itself (R58 step 5); the port mode is that of 07:0000 (R59, R218). -/
def netStart (s : State) : State :=
  let n : Net := { Net.reset with mode := dget s.io (idx 0x070000 0) 3, trimAt := s.net.trimAt, frozen := !s.clk.refEth }
  onWire (portReport 0) { s with net := portPut 0 { PortSt.reset with training := true } n }

/-- Block caches take their sizes from 0E:0012. -/
def cacheSizes (io : Io) : List (Nat × Nat) := (List.range 16).map (fun b => (b, dget io (idx 0x0E0012 (b + 1)) 2))

/-- Stage 0 begins: the security core prechecks the slots (R78 step 4); start may be held, or the recovery loader runs. -/
def stage0Enter (s : State) : State :=
  let s1 := on (dset (idx 0x020102 0) (fusedEpoch s.boot.blown)) (slotsPrecheck s)
  let s2 := stageSet 0 s1
  if s2.boot.recover then
    let s3 := startPut { s2.start with recovery := true } (reasonSet 3 s2)
    on (fun io => dset (idx 0x020104 0) 5 (dset (idx 0x020109 0) 1 io))
      { s3 with boot := { s3.boot with recover := false, loader := { Loader.reset with
                  active := true, rate := dget s3.io (idx 0x020114 0) 115200, helloAt := s3.io.now } } }
  else if s2.cont.held then startHeld 2 s2
  else holdCheck s2

/-- The Shepherd's regions at P7, where their clocks already stand. -/
def shepStart (s : State) : State :=
  let s1 := shepWarm s
  { s1 with clk := { s1.clk with target := [] } }

/-! ### Power-on reset (R54, R58) -/

/-- What stands outside the Kwaith, or is fused or in flash, and no reset touches: the queue, the pins, the flash, the fuses,
the drives and what is recorded of them, and the regulators' settings. -/
def coldBase (s : State) : State :=
  { State.reset with
    pending := s.pending
    io := { Io.reset with
      now := s.io.now, free := s.io.free, sent := s.io.sent, params := s.io.params, paramsLost := s.io.paramsLost
      host := { HostIf.reset with ports := s.io.host.ports } }
    clk := { Clk.reset with refSys := s.clk.refSys, refEth := s.clk.refEth, refPcie0 := s.clk.refPcie0, refPcie1 := s.clk.refPcie1, refDrv := s.clk.refDrv }
    start := { Start.reset with pwrok := s.start.pwrok, origin := s.io.now }
    store := (storeWarm { s with store := { s.store with ver := SealVer.reset } }).store
    drives := { Drives.reset with slots := mmap s.drives.slots (fun _ x => { Slot.reset with present := x.present, fault := x.fault }) }
    mon := { Mon.reset with vrSet := s.mon.vrSet, trip := s.mon.trip, tripCool := s.mon.tripCool, failed := s.mon.failed }
    boot := { Boot.reset with flash := s.boot.flash, revoked := s.boot.revoked, blown := s.boot.blown }
    dbg := { Dbg.reset with testmode := s.dbg.testmode, ir := if s.start.pwrok then s.dbg.ir else 1, boundary := s.dbg.boundary } }

/-- R575: the instructions that hold every domain in reset: EXTEST, HIGHZ, CLAMP, EXTEST_PULSE, EXTEST_TRAIN. -/
def extestClass (ir : Nat) : Bool := ir == 0 || (decide (3 ≤ ir) && decide (ir ≤ 6))

/-- R52, R523, R593: everything but CLK_AON and the monitors is held in reset. -/
def holdReset (s : State) : State :=
  let b := coldBase s
  { b with io := { b.io with dic := s.io.dic.filter (fun p => [0x030000, 0x030001, 0x030002, 0x030003, 0x030004, 0x030005].contains (p.1 / 256)) } }

/-- Settings that take effect at power-on reset only (R134, R138, R148, R166, R369), and the rest of stage 0. -/
def settingsCold (s : State) : State :=
  let g (obj k d : Nat) : Nat := dget s.io (idx obj k) d
  let io := { s.io with
    host := { s.io.host with
      placement := g 0x040000 0 1, split := [g 0x040001 1 0, g 0x040001 2 0]
      pfPort := [0, g 0x040002 2 0, g 0x040002 3 1, g 0x040002 4 1]
      bar2Log2 := (List.range 4).map (fun p => g 0x040051 (p + 1) 34) }
    vf := { s.io.vf with total := (List.range 4).map (fun p => g 0x050001 (p + 1) 256) } }
  { s with io := io, nvme := { s.nvme with hosts := g 0x0C0000 0 10 }, drives := { s.drives with split := g 0x0D0000 0 2 }
           mem := { s.mem with sizes := cacheSizes s.io } }

/-- A power-on reset and its sequence, with the cause 02:0004 shows. Without power good or REFCLK_SYS, under a thermal trip, in
production test or under an EXTEST-class instruction, everything stays in reset. -/
def coldStart (cause : Nat) (f : FlashStart) (s : State) : State :=
  if !s.start.pwrok || !s.clk.refSys || s.mon.trip || s.dbg.testmode || extestClass s.dbg.ir then holdReset s
  else
    let b := coldBase s
    let s1 := on (fun io => dset (idx 0x020004 0) cause (paramsLoad (flashUp f io))) { b with mon := { b.mon with failed := [], beatAt := s.io.now } }
    let s2 := on journalLive (clocksStart (settingsCold s1))
    let s3 := shepStart (besAbsent (domWarm (netStart s2)))
    stage0Enter s3

/-! ### Chip warm reset (R54, R55) -/

/-- A function's configuration space through a chip warm reset: VF Enable and the pending bits clear. -/
def fnWarm (c : FnCfg) : FnCfg := { c with vfEnable := false, pending := [], inFlr := false }

/-- The host tile through a chip warm reset: links stay up, reads are abandoned (R157), VFs and peer windows are gone. -/
def hostWarm (io : Io) : Io :=
  let io1 := (List.range 4).foldl (fun io l => readsAbandon l (fun _ => true) io) io
  { io1 with
    host := { io1.host with
      links := mmap io1.host.links (fun _ k => { k with done := [] })
      fns := mmap (io1.host.fns.filter (fun p => decide (p.1 < 16))) (fun _ c => fnWarm c), peers := [], atc := [], pageFaults := [] }
    vf := { Vfs.reset with total := io1.vf.total } }

/-- The reporting side through a chip warm reset: Kept values stay, Stored ones are read again. -/
def ioWarm (f : FlashStart) (io : Io) : Io :=
  let io1 := hostWarm io
  let io2 := { io1 with
    dic := io1.dic.filter (fun p => warmKeeps p.1), regs := [], oa := Oa.reset, rings := Rings.reset, evAdds := [], nvSpill := 0 }
  paramsLoad (flashUp f io2)

/-- The bytes of 14:0000 that 14:0001 counts (R560). -/
def modeBytes (s : State) : List Nat :=
  [startBits s.start, contBits s.cont, dget s.io (idx 0x110002 0) 0, plateBits s.pipe.live (slotState s.pipe), s.net.mode]

/-- 14:0001 over a whole reset: one for each byte that differs. -/
def modeDiff (old new : State) : State :=
  on (fun io => ((modeBytes old).zip (modeBytes new)).foldl (fun io p => modeBump p.1 p.2 io) io) new

/-- Units reset by a chip warm reset, apart from those with rules of their own. -/
def unitsWarm (f : FlashStart) (s : State) : State :=
  let io := ioWarm f s.io
  let scrub := s.mem.scrub
  let kept : Scrub := { Scrub.reset with state := if scrub.state = 1 then 5 else scrub.state, cursor := scrub.cursor, first := scrub.first, length := scrub.length, flags := scrub.flags }
  { s with
    io := io
    cont := { Cont.reset with resets := s.cont.resets, held := s.cont.held }
    start := { Start.reset with stage := s.start.stage, pwrok := s.start.pwrok, origin := s.io.now, count := s.start.count + 1 }
    net := { Net.reset with trimAt := s.net.trimAt }
    pipe := Pipe.reset, tabs := Tabs.reset
    burin := { Burin.reset with rng := s.burin.rng, passes := s.burin.passes, testAt := s.burin.testAt }
    mem := { MemTile.reset with scrub := kept, sizes := cacheSizes io }
    cpu := Cpu.reset, le := [], dma := [], rdma := Rdma.reset, nvme := { Nvme.reset with hosts := s.nvme.hosts }
    boot := { s.boot with steward := [], entries := (0, 0), commit := none, waiting := [], loader := Loader.reset, pldm := Pldm.reset }
    dbg := { s.dbg with stepping := [], traces := [], serdes := [] } }

/-- The code of 02:0004 for what starts a chip warm reset. -/
def warmCode : WarmCause → Nat
  | .containment => 2
  | .commanded => 3
  | .watchdog => 4

/-- R55: a chip warm reset. Stage 0 begins anew; no host link goes down. -/
def chipWarm (cause : WarmCause) (f : FlashStart) (s : State) : State :=
  let s1 := unitsWarm f s
  let s2 := on (fun io => dset (idx 0x020005 0) s1.start.count.toNat (dset (idx 0x020004 0) (warmCode cause) io)) s1
  let s3 := clocksStart s2
  let s4 := [0, 1, 2, 3, 4, 5, 6, 7, 8, 9, 10, 11, 12, 13, 14, 15, 16, 17, 20, 21, 22, 23].foldl (fun s x =>
    if xingAt s x = .run then on (bump32 0x010212 (x + 1)) s else s) s3
  let s5 := netStart s4
  let s6 := onMem scrubReport (domWarm (slotsWarm (storeWarm (shepStart s5))))
  let s7 := on (dset (idx 0x110002 0) s6.dom.state) s6
  stage0Enter (modeDiff s { s7 with start := { s7.start with recovery := false } })

/-- The flash as a start finds it that no operand describes: it works, and both copies pass. -/
def flashFine : FlashStart := { octal := 0, damaged := 0 }

/-- R33, R57: a chip-level containment action: a chip warm reset, after which the Kwaith stays at stage 0 once the limit is reached. -/
def containChip (cause addr detail : Nat) (by_ : WarmCause) (s : State) : State :=
  let s1 := countReset 4 0 s
  let full := decide (resetLimit s1 4 ≤ resetsIn s1 4 0)
  let s2 := ladderRecord 4 cause 0 (if full then 0x0A else 9) addr detail s1
  chipWarm by_ flashFine (if full then { s2 with cont := { s2.cont with held := true } } else s2)

/-- What the ladder leaves to the chip level is carried out. -/
def Ladder.run : Ladder → State
  | .done s => s
  | .chip s cause addr detail => containChip cause addr detail .containment s

end Sys2Proof.Machine
end

