-- ==== Sys2Proof/Machine/Boot.lean ====
section
/-!
DEFINITION. The commands of chapter 05: those of the security core (R77, R80, R83, R86, R93, R94), programming and erasing the
flash (R70), the recovery loader (R86 to R91), and the PLDM firmware update (R92). The loader's OBJECT frame is in `Cores.lean`.
Choices of the model coded here, by entry of the assumption log: DESIGN CHOICE 23; DEDUCED 21, 24, 25; PRESUMED 26.
-/
namespace Sys2Proof.Machine

/-! ### Programming the flash (R70) -/

/-- Who may program or erase an address; none below the parameter areas or beyond 128 MiB. -/
def flashMay (booted : Nat) (erase : Bool) (m : FlashMaster) (a : Nat) : Bool :=
  if a < 0x10000 || 0x08000000 ≤ a then false
  else if a < 0x210000 then m != .cells
  else if 0x01000000 ≤ a ∧ a < 0x07000000 then
    let slot := (a - 0x01000000) / slotSpan
    if slot = booted then m == .security
    else if 0x02FF0000 ≤ (a - 0x01000000) % slotSpan then erase || m == .security
    else true
  else true

/-- Number of a master in the detail of 0x0703. -/
def masterNo : FlashMaster → Nat
  | .steward => 0
  | .cells => 1
  | .security => 2

/-- The slot an address lies in, 0xFF for none. -/
def slotOfAddr (a : Nat) : Nat := if 0x01000000 ≤ a ∧ a < 0x07000000 then (a - 0x01000000) / slotSpan else 0xFF

/-- 02:0100 and 02:0101 follow what the flash now holds of a slot that did not boot. -/
def slotFollow (slot : Nat) (s : State) : State :=
  if 2 ≤ slot || slot = bootedSlot s.io then s
  else on (slotReport slot (slotPrecheck s.boot s.mem slot) (slotSeq s.boot.flash slot)) s

/-- A program or erase fails in the device: class 7. -/
def flashFailed (erase : Bool) (m a : Nat) (io : Io) : Io :=
  violate 0x0703 (flashPartner (slotOfAddr a) a) (le 1 (if erase then 2 else 1) ++ le 1 m) io

/-- An operation over `n` bytes from `a`: refused and counted, failed, or done by `f`. -/
def flashDo (m : FlashMaster) (erase : Bool) (a n : Nat) (ok : Bool) (f : Mem → Mem) (s : State) : State :=
  if s.clk.holdAll then s
  else if !((span a n).all (flashMay (bootedSlot s.io) erase m)) then on (fun io => emit (.flashDone false) (bump32 0x020112 0 io)) s
  else if !ok then on (fun io => emit (.flashDone false) (flashFailed erase (masterNo m) a io)) s
  else slotFollow (slotOfAddr a) (on (emit (.flashDone true)) { s with boot := { s.boot with flash := f s.boot.flash } })

/-- FLASH_PROGRAM (R70). -/
def execFlashProgram (m : FlashMaster) (addr : Nat) (data : Bytes) (ok : Bool) (s : State) : Host.Outcome State Fault Refusal :=
  .next (flashDo m false addr data.length ok (flashWrite addr data) s)

/-- FLASH_ERASE (R70). -/
def execFlashErase (m : FlashMaster) (addr : Nat) (ok : Bool) (s : State) : Host.Outcome State Fault Refusal :=
  let a := addr / 0x10000 * 0x10000
  .next (flashDo m true a 0x10000 ok (fun f => memClear f a (a + 0x10000)) s)

/-! ### Commands of the security core (R93) -/

/-- A slot is retired: the one that did not boot (R77). -/
def retireDo (slot : Nat) (s : State) : Nat × State :=
  if 2 ≤ slot || slot = bootedSlot s.io then (5, s)
  else
    match retireSlot slot (time64 s.io) s.boot.flash with
    | none => (0x11, s)
    | some f => (0, on (slotReport slot 6 (slotSeq f slot)) { s with boot := { s.boot with flash := f } })

/-- A root key is revoked, but not that of the booted image. -/
def revokeDo (k : Nat) (s : State) : Nat × State :=
  let b := bootedSlot s.io
  if 4 ≤ k || (b < 2 && field (slotHeader s.boot.flash b) 6 1 == k) then (5, s)
  else (0, { s with boot := { s.boot with revoked := sadd s.boot.revoked k } })

/-- The booted slot is sealed anew, above both sequences (R77). -/
def resequenceDo (slot : Nat) (s : State) : Nat × State :=
  if slot ≠ bootedSlot s.io then (5, s)
  else
    match sealSlot slot (topSeq s.boot.flash + 1) (time64 s.io) s.boot.flash with
    | none => (0x11, s)
    | some f =>
      (0, on (slotReport slot (dget s.io (idx 0x020100 (slot + 1)) 0) (slotSeq f slot)) { s with boot := { s.boot with flash := f } })

/-- The fused epoch advances to `n` (R83); without VDD_FUSE in range nothing is blown. -/
def epochDo (n : Nat) (vdd : Bool) (s : State) : Nat × State :=
  let b := bootedSlot s.io
  let e := fusedEpoch s.boot.blown
  if n ≤ e || 2 ≤ b || field (slotHeader s.boot.flash b) 8 2 < n then (5, s)
  else if !vdd then (0x11, s)
  else (0, on (dset (idx 0x020102 0) n) { s with boot := { s.boot with blown := (span e (n - e)).foldl sadd s.boot.blown } })

/-- A command of R93 other than a commit or a recovery: its status. The argument of 02:0110 carries VDD_FUSE in bit 16. -/
def secDo (obj arg : Nat) (s : State) : Nat × State :=
  match obj with
  | 0x020106 => retireDo arg s
  | 0x020107 => revokeDo arg s
  | 0x020108 => resequenceDo arg s
  | _ => epochDo (arg % 65536) (arg.testBit 16) s

/-- R86: a restart into the recovery loader. -/
def recoverDo (s : State) : State := chipWarm .commanded flashFine { s with boot := { s.boot with recover := true } }

/-- A command runs at once, or waits for the commit under way. -/
def secCmd (by_ : Issuer) (obj arg : Nat) (s : State) : State :=
  match gate s.start.stage by_ obj s.io with
  | some e => on (answer by_ (idx obj 0) e []) s
  | none =>
    if cmdRuns s.io obj then on (answer by_ (idx obj 0) 8 []) s
    else if s.boot.commit.isSome then
      on (beginCmd by_ obj) { s with boot := { s.boot with waiting := s.boot.waiting ++ [(obj, (by_, arg))] } }
    else
      let r := secDo obj arg s
      on (answer by_ (idx obj 0) r.1 []) r.2

/-- 02:0106 with 0x80, for principal M alone: its status, and whether the restart follows the answer at once. -/
def recoverCheck (by_ : Issuer) (s : State) : Nat × Bool :=
  match gate s.start.stage by_ 0x020106 s.io with
  | some e => (e, false)
  | none =>
    if principalOf by_.assoc.binding ≠ .m then (3, false)
    else if cmdRuns s.io 0x020106 then (8, false)
    else if s.boot.commit.isSome then (9, false)
    else (0, true)

/-- The same command: it is answered, waits for a commit under way (R93), or restarts the Kwaith. -/
def recoverCmd (by_ : Issuer) (s : State) : State :=
  let c := recoverCheck by_ s
  if c.1 = 9 then on (beginCmd by_ 0x020106) { s with boot := { s.boot with waiting := s.boot.waiting ++ [(0x020106, (by_, 0x80))] } }
  else
    let s1 := on (answer by_ (idx 0x020106 0) c.1 []) s
    if c.2 then recoverDo s1 else s1

/-- 02:0105: refused for the booted slot, and where no sequence is left. -/
def slotCommitCmd (by_ : Issuer) (slot : Nat) (s : State) : State :=
  match gate s.start.stage by_ 0x020105 s.io with
  | some e => on (answer by_ (idx 0x020105 0) e []) s
  | none =>
    if cmdRuns s.io 0x020105 then on (answer by_ (idx 0x020105 0) 8 []) s
    else if 2 ≤ slot || slot = bootedSlot s.io then on (answer by_ (idx 0x020105 0) 5 []) s
    else if 0xFFFFFFFE < topSeq s.boot.flash + 1 then on (answer by_ (idx 0x020105 0) 0x11 []) s
    else on (beginCmd by_ 0x020105) { s with boot := { s.boot with commit := some (by_, slot) } }

/-- Commands that waited run in arrival order; `fuel` bounds them. A recovery ends the rest with the reset. -/
def secDrain : Nat → State → State
  | 0, s => s
  | fuel + 1, s =>
    match s.boot.waiting with
    | [] => s
    | (obj, (_, arg)) :: rest =>
      let s1 := { s with boot := { s.boot with waiting := rest } }
      if obj = 0x020106 && arg = 0x80 then recoverDo (on (endCmd obj 0 []) s1)
      else
        let r := secDo obj arg s1
        secDrain fuel (on (endCmd obj r.1 []) r.2)

/-- Steps 5 and 6 of R80 on a slot that has verified: whether it was sealed. The other slot is retired where it booted and is valid. -/
def sealDo (slot : Nat) (s : State) : Bool × State :=
  let b := 1 - slot
  let other := bootedSlot s.io == b && stateValid (dget s.io (idx 0x020100 (b + 1)) 0)
  match sealAndRetire slot other (time64 s.io) s.boot.flash with
  | none => (false, s)
  | some f =>
    let s1 := on (slotReport slot 5 (slotSeq f slot)) { s with boot := { s.boot with flash := f } }
    (true, if other && slotRetired f b then on (slotReport b 6 (slotSeq f b)) s1 else s1)

/-- Step 4 of R80: 02:0100 shows a failure. -/
def verifyDo (slot : Nat) (s : State) : Bool × State :=
  let st := slotVerify s.boot s.mem slot false
  if stateValid st then (true, s) else (false, on (slotReport slot st (slotSeq s.boot.flash slot)) s)

/-- The verification of the committed slot ends. -/
def slotCommitEnd (s : State) : State :=
  match s.boot.commit with
  | none => s
  | some (_, slot) =>
    let v := verifyDo slot { s with boot := { s.boot with commit := none } }
    let r := if v.1 then sealDo slot v.2 else (false, v.2)
    secDrain r.2.boot.waiting.length (on (endCmd 0x020105 (if r.1 then 0 else 0x11) []) r.2)

/-- SLOT_COMMIT (R80, R94). -/
def execSlotCommit (by_ : Issuer) (arg : Byte) (s : State) : Host.Outcome State Fault Refusal := .next (slotCommitCmd by_ arg.toNat s)

/-- SLOT_VERIFY_DONE (R80, R93). -/
def execSlotVerifyDone (s : State) : Host.Outcome State Fault Refusal := .next (slotCommitEnd s)

/-- SLOT_RETIRE (R77, R94). -/
def execSlotRetire (by_ : Issuer) (arg : Byte) (s : State) : Host.Outcome State Fault Refusal :=
  .next (secCmd by_ 0x020106 arg.toNat s)

/-- ENTER_RECOVERY (R86, R93). -/
def execEnterRecovery (by_ : Issuer) (s : State) : Host.Outcome State Fault Refusal := .next (recoverCmd by_ s)

/-- ROOT_KEY_REVOKE (R71, R94). -/
def execRootKeyRevoke (by_ : Issuer) (arg : Byte) (s : State) : Host.Outcome State Fault Refusal :=
  .next (secCmd by_ 0x020107 arg.toNat s)

/-- SLOT_RESEQUENCE (R77). -/
def execSlotResequence (by_ : Issuer) (arg : Byte) (s : State) : Host.Outcome State Fault Refusal :=
  .next (secCmd by_ 0x020108 arg.toNat s)

/-- EPOCH_ADVANCE (R82, R83). -/
def execEpochAdvance (by_ : Issuer) (n : Half) (vddFuse : Bool) (s : State) : Host.Outcome State Fault Refusal :=
  .next (secCmd by_ 0x020110 (n.toNat + 65536 * b2n vddFuse) s)

/-! ### The recovery loader (R86 to R91) -/

/-- Storing the loader. -/
def ldrPut (x : Loader) (s : State) : State := { s with boot := { s.boot with loader := x } }

/-- A change of it. -/
def ldr (f : Loader → Loader) (s : State) : State := ldrPut (f s.boot.loader) s

/-- An answer: type and payload. -/
def ldrAck : Nat × Bytes := (0x20, [0])
def ldrNak (status detail : Nat) : Nat × Bytes := (0x21, le 1 status ++ le 4 detail)

/-- HELLO's payload. -/
def helloBytes (s : State) : Bytes :=
  le 1 3 ++ le 2 0x9416 ++ le 1 0xB0 ++ le 1 s.start.reason ++ le 1 (dget s.io (idx 0x020100 1) 0) ++
  le 1 (dget s.io (idx 0x020100 2) 0) ++ le 8 serialNo

/-- The loader returns to sending HELLO: its association ends (R96), and a version 1 transfer is discarded. -/
def ldrHello (s : State) : State :=
  let x := s.boot.loader
  let y : Loader := { x with version := 0, last := none, probeAt := none, newRate := none, helloAt := s.io.now }
  on (assocsEnd (fun k => k.binding == .uart0)) (ldrPut (if x.keeps then y else { y with phase := 0, got := [], total := 0 }) s)

/-- A frame of the host: answered exactly once; a repeated sequence gets the previous answer. Before an accepted HELLO_ACK
every other frame is refused, as are types the version lacks. -/
def ldrFrame (seq : Nat) (ack v2 : Bool) (f : State → (Nat × Bytes) × State) (s : State) : State :=
  let x := s.boot.loader
  if !x.active then s
  else
    let s0 := ldr (fun x => { x with frameAt := s.io.now, probeAt := none }) s
    match x.last with
    | some (q, a) =>
      if q = seq then on (emit (.loader a.1 seq a.2)) s0
      else
        let r := if (!ack && x.version == 0) || (v2 && x.version < 2) then (ldrNak 1 0, s0) else f s0
        on (emit (.loader r.1.1 seq r.1.2)) (ldr (fun y => { y with last := some (seq, r.1) }) r.2)
    | none =>
      let r := if (!ack && x.version == 0) || (v2 && x.version < 2) then (ldrNak 1 0, s0) else f s0
      on (emit (.loader r.1.1 seq r.1.2)) (ldr (fun y => { y with last := some (seq, r.1) }) r.2)

/-- HELLO_TIMER (R89): a HELLO each second until HELLO_ACK is accepted; its sequence is the loader's own. -/
def execHelloTimer (s : State) : Host.Outcome State Fault Refusal :=
  .next (let x := s.boot.loader
    if !x.active || x.version ≠ 0 then s
    else
      let s1 := on (reach x.helloAt) s
      let q := freeNat s1.io
      ldr (fun y => { y with helloAt := q.2.now + sec 1 }) { s1 with io := emit (.loader 1 (q.1 % 65536) (helloBytes s1)) q.2 })

/-- LOADER_FRAME_DISCARD (R87). -/
def execLoaderFrameDiscard (s : State) : Host.Outcome State Fault Refusal :=
  .next (if s.boot.loader.active then on (bump32 0x020115 0) s else s)

/-- HELLO_ACK (R88, R89). -/
def execHelloAck (seq : Half) (version : Byte) (s : State) : Host.Outcome State Fault Refusal :=
  .next (ldrFrame seq.toNat true false (fun s =>
    let v := version.toNat
    if v = 1 ∨ v = 2 then (ldrAck, ldr (fun x => { x with version := v }) s) else (ldrNak 2 0, s)) s)

/-- BAUD (R88, R89). -/
def execLoaderBaud (seq : Half) (rate : Word32) (s : State) : Host.Outcome State Fault Refusal :=
  .next (ldrFrame seq.toNat false true (fun s =>
    let r := rate.toNat
    if 115200 ≤ r ∧ r ≤ 3000000 then (ldrAck, ldr (fun x => { x with newRate := some (r, s.io.now) }) s)
    else (ldrNak 0x0E 0, s)) s)

/-- BAUD_SWITCH (R89). -/
def execBaudSwitch (s : State) : Host.Outcome State Fault Refusal :=
  .next (match s.boot.loader.newRate with
    | none => s
    | some (r, t) =>
      let s1 := on (reach (t + ms 20)) s
      ldr (fun x => { x with rate := r, newRate := none, probeAt := some s1.io.now }) s1)

/-- BAUD_TIMEOUT (R89). -/
def execBaudTimeout (s : State) : Host.Outcome State Fault Refusal :=
  .next (match s.boot.loader.probeAt with
    | none => s
    | some t =>
      let s1 := on (reach (t + sec 2)) s
      ldr (fun x => { x with rate := dget s1.io (idx 0x020114 0) 115200 }) (ldrHello s1))

/-- LOADER_IDLE_TIMEOUT (R89). -/
def execLoaderIdleTimeout (s : State) : Host.Outcome State Fault Refusal :=
  .next (let x := s.boot.loader
    if !x.active || x.version = 0 then s else ldrHello (on (reach (x.frameAt + sec 60)) s))

/-- BEGIN's effect. -/
def beginDo (slot flags total : Nat) (s : State) : (Nat × Bytes) × State :=
  let x := s.boot.loader
  let resume := flags.testBit 1
  if x.phase = 1 then (ldrNak 5 0, s)
  else if 4 ≤ flags || (resume && x.version < 2) then (ldrNak 1 0, s)
  else if 2 ≤ slot || total < 4097 || 0x02FF0000 < total then (ldrNak 4 0, s)
  else if !flags.testBit 0 && stateValid (slotVerify s.boot s.mem slot true) then (ldrNak 3 0, s)
  else if resume then
    if (x.phase = 2 || x.phase = 3) && x.slot = slot && x.total = total then
      (ldrAck, ldr (fun y => { y with phase := 2, keeps := true }) s)
    else (ldrNak 1 0, s)
  else (ldrAck, ldr (fun y => { y with phase := 1, slot := slot, total := total, got := [], keeps := decide (y.version = 2) }) s)

/-- BEGIN (R90). -/
def execLoaderBegin (seq : Half) (slot flags : Byte) (total : Word32) (s : State) : Host.Outcome State Fault Refusal :=
  .next (ldrFrame seq.toNat false false (beginDo slot.toNat flags.toNat total.toNat) s)

/-- LOADER_ERASE_DONE (R90). -/
def execLoaderEraseDone (s : State) : Host.Outcome State Fault Refusal :=
  .next (let x := s.boot.loader
    if x.phase ≠ 1 then s
    else
      let a := slotBase x.slot
      on (slotReport x.slot 0 0)
        (ldr (fun y => { y with phase := 2 }) { s with boot := { s.boot with flash := memClear s.boot.flash a (a + slotSpan) } }))

/-- A range enters a list of disjoint ranges in ascending order; adjoining ones merge. -/
def rangeAdd (o n : Nat) : List (Nat × Nat) → List (Nat × Nat)
  | [] => [(o, n)]
  | (a, k) :: r =>
    if o + n < a then (o, n) :: (a, k) :: r
    else if a + k < o then (a, k) :: rangeAdd o n r
    else rangeAdd (min o a) (max (o + n) (a + k) - min o a) r

/-- Whether the bytes of a range already programmed are the same as those given. -/
def sameBytes (f : Mem) (base o : Nat) (d : Bytes) (got : List (Nat × Nat)) : Bool :=
  got.all (fun g =>
    let lo := max o g.1
    let hi := min (o + d.length) (g.1 + g.2)
    decide (hi ≤ lo) || flashRead f (base + lo) (hi - lo) == slice d (lo - o) (hi - lo))

/-- DATA's effect. -/
def dataDo (o : Nat) (d : Bytes) (fail : Option Word32) (s : State) : (Nat × Bytes) × State :=
  let x := s.boot.loader
  let base := slotBase x.slot
  if x.phase = 1 then (ldrNak 5 0, s)
  else if x.phase ≠ 2 ∧ x.phase ≠ 3 then (ldrNak 1 0, s)
  else if x.total < o + d.length then (ldrNak 4 0, s)
  else if !sameBytes s.boot.flash base o d x.got then (ldrNak 6 0, s)
  else
    match fail with
    | some a => (ldrNak 0x0C a.toNat, on (flashFailed false 2 a.toNat) s)
    | none =>
      let s1 := { s with boot := { s.boot with flash := flashWrite (base + o) d s.boot.flash } }
      (ldrAck, slotFollow x.slot (ldr (fun y => { y with phase := 2, got := if d.isEmpty then y.got else rangeAdd o d.length y.got }) s1))

/-- DATA (R88, R90). A frame longer than its version allows is discarded (R87). -/
def execLoaderData (seq : Half) (offset : Word32) (data : Bytes) (flashFail : Option Word32) (s : State) :
    Host.Outcome State Fault Refusal :=
  .next (if s.boot.loader.active && (if s.boot.loader.version = 2 then 8192 else 1024) < data.length then on (bump32 0x020115 0) s
    else ldrFrame seq.toNat false false (dataDo offset.toNat data flashFail) s)

/-- The first offset not yet programmed. -/
def firstMissing (total : Nat) (got : List (Nat × Nat)) : Option Nat :=
  match got with
  | [(0, n)] => if n < total then some n else none
  | (0, n) :: _ => some n
  | _ => some 0

/-- The NAK of a slot that fails verification. -/
def verifyNak (s : State) (slot : Nat) : Option (Nat × Bytes) :=
  let h := slotHeader s.boot.flash slot
  match headerFault s.mem h with
  | some o => some (ldrNak 7 o)
  | none =>
    if !headerKey s.boot.revoked h || !headerSig h then some (ldrNak 8 0)
    else if field h 8 2 < fusedEpoch s.boot.blown then some (ldrNak 9 0)
    else if slotProve s.boot slot = 8 then some (ldrNak 0x0A 0) else none

/-- END's effect. -/
def endDo (s : State) : (Nat × Bytes) × State :=
  let x := s.boot.loader
  if x.phase = 1 then (ldrNak 5 0, s)
  else if x.phase ≠ 2 ∧ x.phase ≠ 3 then (ldrNak 1 0, s)
  else
    match firstMissing x.total x.got with
    | some o => (ldrNak 0x0B o, s)
    | none =>
      let s1 := on (slotReport x.slot (slotVerify s.boot s.mem x.slot true) (slotSeq s.boot.flash x.slot)) s
      match verifyNak s x.slot with
      | some n => (n, ldr (fun y => { y with phase := 2 }) s1)
      | none => (ldrAck, ldr (fun y => { y with phase := 3 }) s1)

/-- END (R90). -/
def execLoaderEnd (seq : Half) (s : State) : Host.Outcome State Fault Refusal :=
  .next (ldrFrame seq.toNat false false endDo s)

/-- COMMIT's effect. -/
def loaderCommitDo (fail : Option Word32) (s : State) : (Nat × Bytes) × State :=
  let x := s.boot.loader
  if x.phase ≠ 3 then (ldrNak 0x0D 0, s)
  else
    match fail with
    | some a => (ldrNak 0x0C a.toNat, on (flashFailed false 2 a.toNat) s)
    | none =>
      let r := sealDo x.slot s
      if r.1 then (ldrAck, ldr (fun y => { y with phase := 4 }) r.2) else (ldrNak 0x0C (recordAt x.slot 0), r.2)

/-- COMMIT (R90). -/
def execLoaderCommit (seq : Half) (flashFail : Option Word32) (s : State) : Host.Outcome State Fault Refusal :=
  .next (ldrFrame seq.toNat false false (loaderCommitDo flashFail) s)

/-- STATUS (R88). -/
def execLoaderStatus (seq : Half) (s : State) : Host.Outcome State Fault Refusal :=
  .next (ldrFrame seq.toNat false false (fun s =>
    let x := s.boot.loader
    ((0x15, le 1 x.phase ++ le 1 (dget s.io (idx 0x020100 1) 0) ++ le 1 (dget s.io (idx 0x020100 2) 0) ++
      le 4 ((x.got.map (·.2)).sum) ++ le 4 (dget s.io (idx 0x020115 0) 0)), s)) s)

/-- BOOT (R88, R90): the ACK leaves, then the chip warm reset. -/
def execLoaderBoot (seq : Half) (s : State) : Host.Outcome State Fault Refusal :=
  .next (let boots := s.boot.loader.active && s.boot.loader.version != 0 && !(s.boot.loader.last.any (fun l => l.1 == seq.toNat))
    let s1 := ldrFrame seq.toNat false false (fun s => (ldrAck, s)) s
    if boots then chipWarm .commanded flashFine s1 else s1)

/-! ### PLDM firmware update (R92) -/

/-- A PLDM response. -/
def pldmSay (cmd code : Nat) (b : Bytes) (s : State) : State := on (emit (.pldm cmd code b)) s

/-- Storing the update. -/
def pldmPut (x : Pldm) (s : State) : State := { s with boot := { s.boot with pldm := x } }

/-- The slot that did not boot. -/
def pldmSlot (s : State) : Option Nat := if bootedSlot s.io < 2 then some (1 - bootedSlot s.io) else none

/-- REQUEST_UPDATE (R92). -/
def execPldmRequestUpdate (s : State) : Host.Outcome State Fault Refusal :=
  .next (if s.clk.holdAll then s
    else if s.boot.pldm.phase ≠ 0 then pldmSay 0x10 0x81 [] s
    else if (pldmSlot s).isNone then pldmSay 0x10 0x8A [] s
    else pldmSay 0x10 0 [] (pldmPut { Pldm.reset with phase := 1 } s))

/-- UPDATE_COMPONENT (R92): the one component is the image; its slot is erased. -/
def execPldmUpdateComponent (component : Half) (size : Word32) (s : State) : Host.Outcome State Fault Refusal :=
  .next (match s.boot.pldm.phase, pldmSlot s with
    | 0, _ => if s.clk.holdAll then s else pldmSay 0x14 0x80 [] s
    | 1, some k =>
      if component ≠ 1 || 0x02FF0000 < size.toNat then pldmSay 0x14 0 [1, 6] s
      else
        let s1 := { s with boot := { s.boot with flash := memClear s.boot.flash (slotBase k) (slotBase k + slotSpan) } }
        pldmSay 0x14 0 [0, 0] (on (slotReport k 0 0) (pldmPut { phase := 2, size := size.toNat, got := [] } s1))
    | _, _ => pldmSay 0x14 0x84 [] s)

/-- REQUEST_FIRMWARE_DATA (R92). -/
def execPldmFirmwareData (offset : Word32) (data : Bytes) (s : State) : Host.Outcome State Fault Refusal :=
  .next (let x := s.boot.pldm
    match x.phase, pldmSlot s with
    | 2, some k =>
      if data.isEmpty || x.size < offset.toNat + data.length then s
      else
        let s1 := { s with boot := { s.boot with flash := flashWrite (slotBase k + offset.toNat) data s.boot.flash } }
        slotFollow k (pldmPut { x with got := rangeAdd offset.toNat data.length x.got } s1)
    | _, _ => s)

/-- VERIFY_COMPLETE (R80 step 4, R92). -/
def execPldmVerifyComplete (s : State) : Host.Outcome State Fault Refusal :=
  .next (let x := s.boot.pldm
    match x.phase, pldmSlot s with
    | 2, some k =>
      if (firstMissing x.size x.got).isSome then s
      else
        let v := verifyDo k s
        if v.1 then pldmSay 0x17 0 [] (pldmPut { x with phase := 3 } v.2) else pldmSay 0x17 1 [] v.2
    | _, _ => s)

/-- ACTIVATE_FIRMWARE (R80 steps 5 and 6, R92): there is no self-contained activation. -/
def execPldmActivate (selfContained : Bool) (s : State) : Host.Outcome State Fault Refusal :=
  .next (match s.boot.pldm.phase, pldmSlot s with
    | 0, _ => if s.clk.holdAll then s else pldmSay 0x1A 0x80 [] s
    | 3, some k =>
      if selfContained then pldmSay 0x1A 0x8C [] s
      else
        let r := sealDo k s
        if r.1 then pldmSay 0x1A 0 [0, 0] (pldmPut Pldm.reset r.2) else pldmSay 0x1A 1 [] r.2
    | _, _ => pldmSay 0x1A 0x85 [] s)

/-- CANCEL_UPDATE (R92): the slot stays unsealed. -/
def execPldmCancel (s : State) : Host.Outcome State Fault Refusal :=
  .next (if s.clk.holdAll then s
    else if s.boot.pldm.phase = 0 then pldmSay 0x1D 0x80 [] s
    else pldmSay 0x1D 0 (le 1 0 ++ le 8 0) (pldmPut Pldm.reset s))

end Sys2Proof.Machine
end

