-- ==== Sys2Proof/Machine/Containment.lean ====
section
/-!
DEFINITION. The commands of chapters 02 and 03: faults and the ladder (R33 to R40), commanded region and block resets (R39,
R41), operating-point switches (R43) and crossings (R49 to R51).
Choices of the model coded here, by entry of the assumption log: DESIGN CHOICE 16, 18, 19; DEDUCED 17, 71, 77.
-/
namespace Sys2Proof.Machine

/-! ### Faults (R33 to R38) -/

/-- An uncorrectable word of an SRAM that threads reach is poisoned (R513). -/
def faultPoison (f : FaultReport) (s : State) : State :=
  if f.cause = 1 then
    match spotAt s.mem f.address.toNat with
    | .sram a => { s with mem := sramPoison a s.mem }
    | _ => s
  else s

/-- HARDWARE_FAULT_DETECTED (R33 to R38, R40, R450). -/
def execHardwareFault (f : FaultReport) (s : State) : Host.Outcome State Fault Refusal :=
  .next (if s.clk.holdAll then s
    else
      let s1 := faultPoison f s
      let a := f.address.toNat
      let d := f.detail.toNat
      match f.unit with
      | .cell c => cellFault c.val f.cause.val (f.thread.elim 0xFFFF (fun k => 8 * c.val + k.val)) a d f.store.val s1
      | .block b => containBlock b.val f.cause.val a d s1
      | .region r => (containRegion r.val f.cause.val a d f.ctxBad s1).run
      | .chip => containChip f.cause.val a d .containment s1)

/-- CE_RATE_EXCEEDED (R33, R450): reported only. -/
def execCeRateExceeded (c : CellNo) (count : Nat) (s : State) : Host.Outcome State Fault Refusal :=
  .next (if s.clk.holdAll || count ≤ dget s.io (idx 0x0E0400 0) 64 then s
    else
      let s1 := ladderRecord 1 2 c.val 1 0 0 s
      if c.val % 8 = 0 || cellOff s1 c.val then s1 else bwRaise 3 0 0xFFFF c.val 0 [] s1)

/-- MESH_LINK_FAILED (R33). -/
def execMeshLinkFailed (link : Fin 16) (s : State) : Host.Outcome State Fault Refusal :=
  .next (if s.clk.holdAll then s else containChip 0x0A 0 link.val .containment s)

/-- The oldest record of a queue whose acknowledgement is waited for, written or waiting (R449). For a watchdog record nothing
follows where none comes: its reset has already run (R450). -/
def oldestOwed (x : Bw) : Option BwRec :=
  ((x.unacked.map (·.2)) ++ x.waiting.filter (fun r => r.flags % 2 == 1)).find? (fun r => r.kind != 4)

/-- BW_ACK_TIMEOUT (R34, R450): the unresponsive Bellwether is a block-level fault, which supersedes the reset of the record's
cell (R35). Nothing runs out while the Bellwether is halted by the debugger. -/
def execBwAckTimeout (b : BlockNo) (s : State) : Host.Outcome State Fault Refusal :=
  .next (match oldestOwed (bwAt s b.val) with
    | none => s
    | some r =>
      if (threadAt s (64 * b.val)).st = 3 then s
      else
        let s1 := on (reach (r.raised + us (dget s.io (idx 0x0E0403 0) 1000))) s
        containBlock b.val 4 0 0 s1)

/-! ### Commanded resets (R35, R39, R41) -/

/-- CONT_REGION_RESET (R39, R41): the action lasts until the region serves again, so its outcome follows (R95). -/
def execContRegionReset (by_ : Issuer) (arg : Byte) (s : State) : Host.Outcome State Fault Refusal :=
  .next (match gate s.start.stage by_ 0x0E0420 s.io with
    | some e => on (answer by_ (idx 0x0E0420 0) e []) s
    | none =>
      if cmdRuns s.io 0x0E0420 then on (answer by_ (idx 0x0E0420 0) 8 []) s
      else if 4 ≤ arg.toNat then on (answer by_ (idx 0x0E0420 0) 5 []) s
      else on (beginCmd by_ 0x0E0420) (regionResetStart arg.toNat true s))

/-- CONT_BLOCK_RESET (R41): refused for a block isolated, or whose region is; those return by a reset of their region. -/
def execContBlockReset (by_ : Issuer) (arg : Byte) (s : State) : Host.Outcome State Fault Refusal :=
  .next (match gate s.start.stage by_ 0x0E0421 s.io with
    | some e => on (answer by_ (idx 0x0E0421 0) e []) s
    | none =>
      let b := arg.toNat
      if 16 ≤ b || s.cont.blocks.contains b || s.cont.regions.contains (b / 4) then on (answer by_ (idx 0x0E0421 0) 5 []) s
      else on (answer by_ (idx 0x0E0421 0) 0 []) (blockReset b s))

/-- A region reset ends: its crossings run, its pinned slots return, and the Drover re-admits it. -/
def regionReturn (r : Nat) (s : State) : State :=
  match mget s.cont.regionResets r with
  | none => s
  | some (_, commanded) =>
    let s1 := (regionXings r).foldl (fun s x => if xingReady s x then xingResync x s else s) s
    let s2 := onWire (pinsRestore r) { s1 with tabs := { s1.tabs with br := mmap s1.tabs.br (fun _ e => { e with hit := sdel e.hit r }) } }
    let s3 := contPut { s2.cont with
      regions := sdel s2.cont.regions r, withdrawn := sdel s2.cont.withdrawn r, regionResets := s2.cont.regionResets.filter (·.1 != r) } s2
    if commanded then
      let v := freeNat s3.io
      on (endCmd 0x0E0420 0 []) (ladderRecord 3 (v.1 % 256) r 7 0 0 { s3 with io := v.2 })
    else s3

/-- REGION_RESET_COPY_DONE (R39, steps 2 to 4). -/
def execRegionResetCopyDone (r : RegionNo) (s : State) : Host.Outcome State Fault Refusal := .next (regionReturn r.val s)

/-- REGION_RESET_INCOMPLETE (R39): the region stays isolated. -/
def execRegionResetIncomplete (r : RegionNo) (s : State) : Host.Outcome State Fault Refusal :=
  .next (match mget s.cont.regionResets r.val with
    | none => s
    | some (t, commanded) =>
      let s1 := regionIsolate r.val [] (on (reach (t + ms 200)) s)
      let s2 := on (if commanded then endCmd 0x0E0420 0x11 [] else id) (ladderRecord 3 0x0D r.val 8 0 0 s1)
      if (List.range 4).all s2.cont.regions.contains then containChip 0x0C 0 0 .containment s2 else s2)

/-- CONT_RELEASE_STAGE0 (R33, R41). -/
def execContReleaseStage0 (by_ : Issuer) (arg : Byte) (s : State) : Host.Outcome State Fault Refusal :=
  .next (match gate s.start.stage by_ 0x0E0422 s.io with
    | some e => on (answer by_ (idx 0x0E0422 0) e []) s
    | none =>
      if arg ≠ 1 || !s.cont.held then on (answer by_ (idx 0x0E0422 0) 5 []) s
      else
        let s1 := on (answer by_ (idx 0x0E0422 0) 0 []) { s with cont := { s.cont with held := false } }
        holdCheck (if s1.start.held then startUnheld s1 else s1))

/-! ### Operating points (R43, R519) -/

/-- The idle PLL of a region has locked and the clock switches: towards a slower point the rail follows. -/
def pointSwitch (r f : Nat) (s : State) : State :=
  let s1 := clkSet (r + 1) f { s with clk := { s.clk with target := mdel s.clk.target r } }
  let x := shepAt s1 r
  match x.change with
  | some (true, _, _) => shepPut r { x with change := none } s1
  | some (false, _, _) => railWrite r (railOf s1.io r x.point) false (shepPut r { x with change := none } s1)
  | none => s1

/-- OPERATING_POINT_SWITCH (R43, R519, R522). -/
def execOperatingPointSwitch (r : RegionNo) (s : State) : Host.Outcome State Fault Refusal :=
  .next (match mget s.clk.target r.val with
    | none => s
    | some f => if s.cont.regions.contains r.val || s.clk.holdAll then s else pointSwitch r.val f s)

/-! ### Crossings (R49 to R51) -/

/-- CROSSING_RESET (R49, R51). -/
def execCrossingReset (x : Fin 24) (inner : Bool) (traffic : List XTransfer) (s : State) : Host.Outcome State Fault Refusal :=
  .next (xingDown x.val .reset inner traffic s)

/-- CROSSING_HELD (R49, R51). -/
def execCrossingHeld (x : Fin 24) (inner : Bool) (traffic : List XTransfer) (s : State) : Host.Outcome State Fault Refusal :=
  .next (xingDown x.val .held inner traffic s)

/-- CROSSING_RESYNC (R50, R51). -/
def execCrossingResync (x : Fin 24) (s : State) : Host.Outcome State Fault Refusal :=
  .next (if xingReady s x.val then xingResync x.val s else s)

end Sys2Proof.Machine
end

