-- ==== Sys2Proof/Machine/Rv.lean ====
section
/-!
DEFINITION. The instruction set of a thread (R428): what the RISC-V unprivileged specification gives each RV64IMAC, Zba and Zbb
instruction, as a function of its word and the registers it reads; the expansion of compressed instructions.
Choices of the model coded here, by entry of the assumption log: PRESUMED 67.
-/
namespace Sys2Proof.Machine

/-! ### Values -/

/-- Sign extension of the low `n` bits of a number to 64 bits. -/
def sxt (n v : Nat) : Word64 := BitVec.ofInt 64 (toSigned n v)

/-- The low 32 bits, and their sign extension. -/
def lo32 (a : Word64) : Word32 := a.setWidth 32
def sx32 (a : Word32) : Word64 := a.signExtend 64
def zx32 (a : Word64) : Word64 := (lo32 a).zeroExtend 64

/-- Zeros above the highest set bit of the low `n` bits of a number. -/
def clzNat : Nat → Nat → Nat
  | 0, _ => 0
  | n + 1, v => if v.testBit n then 0 else clzNat n v + 1

/-- Zeros below the lowest set bit; `n` where none is set. -/
def ctzNat (n v : Nat) : Nat := ((List.range n).find? (fun k => v.testBit k)).getD n

/-- Set bits. -/
def popNat (n v : Nat) : Nat := ((List.range n).filter (fun k => v.testBit k)).length

/-- ORC.B: each byte all ones where any bit of it is set. -/
def orcB (a : Word64) : Word64 := BitVec.ofNat 64 (leVal ((le 8 a.toNat).map (fun b => if b = 0 then 0 else 0xFF)))

/-- REV8. -/
def rev8 (a : Word64) : Word64 := BitVec.ofNat 64 (beVal (le 8 a.toNat))

/-- High half of a product of two integers. -/
def mulHigh (a b : Int) : Word64 := BitVec.ofInt 64 (a * b / (2 ^ 64 : Int))

/-- DIV and REM of n-bit values, with the corners RISC-V fixes: division by zero, and overflow. -/
def divS {n : Nat} (a b : BitVec n) : BitVec n := if b = 0 then BitVec.allOnes n else a.sdiv b
def remS {n : Nat} (a b : BitVec n) : BitVec n := if b = 0 then a else a.srem b
def divU {n : Nat} (a b : BitVec n) : BitVec n := if b = 0 then BitVec.allOnes n else a.udiv b
def remU {n : Nat} (a b : BitVec n) : BitVec n := if b = 0 then a else a.umod b

/-- The smaller and the larger, signed and unsigned. -/
def minS (a b : Word64) : Word64 := if a.slt b then a else b
def maxS (a b : Word64) : Word64 := if a.slt b then b else a
def minU (a b : Word64) : Word64 := if a.ult b then a else b
def maxU (a b : Word64) : Word64 := if a.ult b then b else a

/-- Whether an instruction reads a truth value as 1. -/
def flagW (b : Bool) : Word64 := if b then 1 else 0

/-! ### Register-register instructions -/

/-- OP: by funct7 and funct3. -/
def opReg (f7 f3 : Nat) (a b : Word64) : Option Word64 :=
  let sh := b.toNat % 64
  match f7, f3 with
  | 0x00, 0 => some (a + b)
  | 0x00, 1 => some (a <<< sh)
  | 0x00, 2 => some (flagW (a.slt b))
  | 0x00, 3 => some (flagW (a.ult b))
  | 0x00, 4 => some (a ^^^ b)
  | 0x00, 5 => some (a >>> sh)
  | 0x00, 6 => some (a ||| b)
  | 0x00, 7 => some (a &&& b)
  | 0x20, 0 => some (a - b)
  | 0x20, 4 => some (~~~(a ^^^ b))
  | 0x20, 5 => some (a.sshiftRight sh)
  | 0x20, 6 => some (a ||| ~~~b)
  | 0x20, 7 => some (a &&& ~~~b)
  | 0x01, 0 => some (a * b)
  | 0x01, 1 => some (mulHigh a.toInt b.toInt)
  | 0x01, 2 => some (mulHigh a.toInt b.toNat)
  | 0x01, 3 => some (mulHigh a.toNat b.toNat)
  | 0x01, 4 => some (divS a b)
  | 0x01, 5 => some (divU a b)
  | 0x01, 6 => some (remS a b)
  | 0x01, 7 => some (remU a b)
  | 0x10, 2 => some ((a <<< 1) + b)
  | 0x10, 4 => some ((a <<< 2) + b)
  | 0x10, 6 => some ((a <<< 3) + b)
  | 0x05, 4 => some (minS a b)
  | 0x05, 5 => some (minU a b)
  | 0x05, 6 => some (maxS a b)
  | 0x05, 7 => some (maxU a b)
  | 0x30, 1 => some (a.rotateLeft sh)
  | 0x30, 5 => some (a.rotateRight sh)
  | _, _ => none

/-- OP-32: by funct7, funct3 and the rs2 field. -/
def opReg32 (f7 f3 rs2 : Nat) (a b : Word64) : Option Word64 :=
  let x := lo32 a
  let y := lo32 b
  let sh := b.toNat % 32
  match f7, f3 with
  | 0x00, 0 => some (sx32 (x + y))
  | 0x00, 1 => some (sx32 (x <<< sh))
  | 0x00, 5 => some (sx32 (x >>> sh))
  | 0x20, 0 => some (sx32 (x - y))
  | 0x20, 5 => some (sx32 (x.sshiftRight sh))
  | 0x01, 0 => some (sx32 (x * y))
  | 0x01, 4 => some (sx32 (divS x y))
  | 0x01, 5 => some (sx32 (divU x y))
  | 0x01, 6 => some (sx32 (remS x y))
  | 0x01, 7 => some (sx32 (remU x y))
  | 0x04, 0 => some (zx32 a + b)
  | 0x04, 4 => if rs2 = 0 then some (a &&& 0xFFFF) else none
  | 0x10, 2 => some ((zx32 a <<< 1) + b)
  | 0x10, 4 => some ((zx32 a <<< 2) + b)
  | 0x10, 6 => some ((zx32 a <<< 3) + b)
  | 0x30, 1 => some (sx32 (x.rotateLeft sh))
  | 0x30, 5 => some (sx32 (x.rotateRight sh))
  | _, _ => none

/-! ### Register-immediate instructions -/

/-- OP-IMM with funct3 1: by the 12-bit immediate. -/
def opImmLeft (imm : Nat) (a : Word64) : Option Word64 :=
  if imm < 64 then some (a <<< imm)
  else match imm with
    | 0x600 => some (BitVec.ofNat 64 (clzNat 64 a.toNat))
    | 0x601 => some (BitVec.ofNat 64 (ctzNat 64 a.toNat))
    | 0x602 => some (BitVec.ofNat 64 (popNat 64 a.toNat))
    | 0x604 => some (sxt 8 a.toNat)
    | 0x605 => some (sxt 16 a.toNat)
    | _ => none

/-- OP-IMM with funct3 5. -/
def opImmRight (imm : Nat) (a : Word64) : Option Word64 :=
  let sh := imm % 64
  match imm / 64 with
  | 0x00 => some (a >>> sh)
  | 0x10 => some (a.sshiftRight sh)
  | 0x18 => some (a.rotateRight sh)
  | _ => if imm = 0x287 then some (orcB a) else if imm = 0x6B8 then some (rev8 a) else none

/-- OP-IMM. -/
def opImm (f3 imm : Nat) (a : Word64) : Option Word64 :=
  let i := sxt 12 imm
  match f3 with
  | 0 => some (a + i)
  | 1 => opImmLeft imm a
  | 2 => some (flagW (a.slt i))
  | 3 => some (flagW (a.ult i))
  | 4 => some (a ^^^ i)
  | 5 => opImmRight imm a
  | 6 => some (a ||| i)
  | _ => some (a &&& i)

/-- OP-IMM-32. -/
def opImm32 (f3 imm : Nat) (a : Word64) : Option Word64 :=
  let x := lo32 a
  let sh := imm % 32
  match f3 with
  | 0 => some (sx32 (x + lo32 (sxt 12 imm)))
  | 1 =>
    if imm < 32 then some (sx32 (x <<< sh))
    else if imm / 64 = 2 then some (zx32 a <<< (imm % 64))
    else match imm with
      | 0x600 => some (BitVec.ofNat 64 (clzNat 32 x.toNat))
      | 0x601 => some (BitVec.ofNat 64 (ctzNat 32 x.toNat))
      | 0x602 => some (BitVec.ofNat 64 (popNat 32 x.toNat))
      | _ => none
  | 5 =>
    match imm / 32 with
    | 0x00 => some (sx32 (x >>> sh))
    | 0x20 => some (sx32 (x.sshiftRight sh))
    | 0x30 => some (sx32 (x.rotateRight sh))
    | _ => none
  | _ => none

/-- A branch's condition, by funct3. -/
def branchTaken (f3 : Nat) (a b : Word64) : Option Bool :=
  match f3 with
  | 0 => some (a == b)
  | 1 => some (a != b)
  | 4 => some (a.slt b)
  | 5 => some (!a.slt b)
  | 6 => some (a.ult b)
  | 7 => some (!a.ult b)
  | _ => none

/-- What an AMO stores, by funct5; operands and result are sign-extended for a word. -/
def amoOp (f5 : Nat) (old b : Word64) : Option Word64 :=
  match f5 with
  | 0x01 => some b
  | 0x00 => some (old + b)
  | 0x04 => some (old ^^^ b)
  | 0x0C => some (old &&& b)
  | 0x08 => some (old ||| b)
  | 0x10 => some (minS old b)
  | 0x14 => some (maxS old b)
  | 0x18 => some (minU old b)
  | 0x1C => some (maxU old b)
  | _ => none

/-! ### Instruction words -/

/-- Immediates of the I, S, B, U and J formats. -/
def immI (i : Nat) : Word64 := sxt 12 (bits i 31 20)
def immS (i : Nat) : Word64 := sxt 12 (bits i 31 25 * 32 + bits i 11 7)
def immB (i : Nat) : Word64 := sxt 13 (bits i 31 31 * 4096 + bits i 7 7 * 2048 + bits i 30 25 * 32 + bits i 11 8 * 2)
def immU (i : Nat) : Word64 := sxt 32 (bits i 31 12 * 4096)
def immJ (i : Nat) : Word64 := sxt 21 (bits i 31 31 * 1048576 + bits i 19 12 * 4096 + bits i 20 20 * 2048 + bits i 30 21 * 2)

/-- What an instruction asks of its thread. -/
inductive RvAct where
  | illegal
  /-- rd takes a value -/
  | put (rd : Nat) (v : Word64)
  /-- a jump: rd takes the address of the next instruction -/
  | jump (rd : Nat) (target : Word64)
  /-- a branch, taken or not -/
  | branch (taken : Bool) (target : Word64)
  | load (rd : Nat) (addr : Word64) (n : Nat) (signed : Bool)
  | store (addr : Word64) (n : Nat) (v : Word64)
  | lr (rd : Nat) (addr : Word64) (n : Nat)
  | sc (rd : Nat) (addr : Word64) (n : Nat) (v : Word64)
  | amo (rd : Nat) (addr : Word64) (n f5 : Nat) (v : Word64)
  /-- CSR access: 1 write, 2 set, 3 clear; whether it writes; the operand -/
  | csr (rd num op : Nat) (writes : Bool) (v : Word64)
  | fence
  | fenceI
  | ecall
  | ebreak
  | mret
  | wfi
  /-- Xkwaith (R443): opcode 0 or 1, funct3, funct7, rd, rs1, rs2 -/
  | xk (op f3 f7 rd rs1 rs2 : Nat)
  deriving DecidableEq, Repr

/-- A value for rd, or an illegal instruction. -/
def putOr (rd : Nat) : Option Word64 → RvAct
  | some v => .put rd v
  | none => .illegal

/-- SYSTEM. -/
def rvSystem (i rd f3 rs1 : Nat) (a : Word64) : RvAct :=
  let num := bits i 31 20
  match f3 with
  | 0 =>
    if rd ≠ 0 || rs1 ≠ 0 then .illegal
    else match num with
      | 0x000 => .ecall
      | 0x001 => .ebreak
      | 0x302 => .mret
      | 0x105 => .wfi
      | _ => .illegal
  | 1 => .csr rd num 1 true a
  | 2 => .csr rd num 2 (rs1 != 0) a
  | 3 => .csr rd num 3 (rs1 != 0) a
  | 5 => .csr rd num 1 true (BitVec.ofNat 64 rs1)
  | 6 => .csr rd num 2 (rs1 != 0) (BitVec.ofNat 64 rs1)
  | 7 => .csr rd num 3 (rs1 != 0) (BitVec.ofNat 64 rs1)
  | _ => .illegal

/-- AMO: LR, SC and the read-modify-write operations. -/
def rvAmo (i rd f3 rs2 : Nat) (a b : Word64) : RvAct :=
  let f5 := bits i 31 27
  if f3 ≠ 2 && f3 ≠ 3 then .illegal
  else
    let n := 2 ^ f3
    if f5 = 2 then (if rs2 = 0 then .lr rd a n else .illegal)
    else if f5 = 3 then .sc rd a n b
    else if (amoOp f5 a b).isSome then .amo rd a n f5 b else .illegal

/-- The action of a 32-bit instruction at `pc`, the registers read through `x`. -/
def rvAct (x : Nat → Word64) (pc : Word64) (i : Nat) : RvAct :=
  let rd := bits i 11 7
  let f3 := bits i 14 12
  let rs1 := bits i 19 15
  let rs2 := bits i 24 20
  let f7 := bits i 31 25
  let a := x rs1
  let b := x rs2
  match i % 128 with
  | 0x37 => .put rd (immU i)
  | 0x17 => .put rd (pc + immU i)
  | 0x6F => .jump rd (pc + immJ i)
  | 0x67 => if f3 = 0 then .jump rd ((a + immI i) &&& ~~~1) else .illegal
  | 0x63 =>
    match branchTaken f3 a b with
    | some t => .branch t (pc + immB i)
    | none => .illegal
  | 0x03 =>
    match f3 with
    | 7 => .illegal
    | _ => .load rd (a + immI i) (2 ^ (f3 % 4)) (decide (f3 < 4))
  | 0x23 => if f3 < 4 then .store (a + immS i) (2 ^ f3) b else .illegal
  | 0x13 => putOr rd (opImm f3 (bits i 31 20) a)
  | 0x1B => putOr rd (opImm32 f3 (bits i 31 20) a)
  | 0x33 => putOr rd (opReg f7 f3 a b)
  | 0x3B => putOr rd (opReg32 f7 f3 rs2 a b)
  | 0x0F => if f3 = 0 then .fence else if f3 = 1 then .fenceI else .illegal
  | 0x73 => rvSystem i rd f3 rs1 a
  | 0x2F => rvAmo i rd f3 rs2 a b
  | 0x0B => .xk 0 f3 f7 rd rs1 rs2
  | 0x2B => .xk 1 f3 f7 rd rs1 rs2
  | _ => .illegal

/-! ### Compressed instructions, as the instruction each expands to -/

/-- Instruction words of each format, from their fields. -/
def encI (op f3 rd rs1 imm : Nat) : Nat := imm % 4096 * 2 ^ 20 + rs1 * 2 ^ 15 + f3 * 2 ^ 12 + rd * 2 ^ 7 + op
def encR (op f3 f7 rd rs1 rs2 : Nat) : Nat := f7 * 2 ^ 25 + rs2 * 2 ^ 20 + rs1 * 2 ^ 15 + f3 * 2 ^ 12 + rd * 2 ^ 7 + op
def encS (op f3 rs1 rs2 imm : Nat) : Nat :=
  imm / 32 % 128 * 2 ^ 25 + rs2 * 2 ^ 20 + rs1 * 2 ^ 15 + f3 * 2 ^ 12 + imm % 32 * 2 ^ 7 + op
def encB (f3 rs1 rs2 imm : Nat) : Nat :=
  bits imm 12 12 * 2 ^ 31 + bits imm 10 5 * 2 ^ 25 + rs2 * 2 ^ 20 + rs1 * 2 ^ 15 + f3 * 2 ^ 12 + bits imm 4 1 * 2 ^ 8 + bits imm 11 11 * 2 ^ 7 + 0x63
def encJ (rd imm : Nat) : Nat :=
  bits imm 20 20 * 2 ^ 31 + bits imm 10 1 * 2 ^ 21 + bits imm 11 11 * 2 ^ 20 + bits imm 19 12 * 2 ^ 12 + rd * 2 ^ 7 + 0x6F

/-- An `n`-bit two's complement immediate widened to `m` bits. -/
def widen (n m v : Nat) : Nat := ofSigned m (toSigned n v)

/-- Quadrant 0. -/
def rvc0 (h : Nat) : Option Nat :=
  let rd := 8 + bits h 4 2
  let rs := 8 + bits h 9 7
  let w := bits h 5 5 * 64 + bits h 12 10 * 8 + bits h 6 6 * 4
  let d := bits h 6 5 * 64 + bits h 12 10 * 8
  match bits h 15 13 with
  | 0 =>
    let imm := bits h 10 7 * 64 + bits h 12 11 * 16 + bits h 5 5 * 8 + bits h 6 6 * 4
    if imm = 0 then none else some (encI 0x13 0 rd 2 imm)
  | 2 => some (encI 0x03 2 rd rs w)
  | 3 => some (encI 0x03 3 rd rs d)
  | 6 => some (encS 0x23 2 rs rd w)
  | 7 => some (encS 0x23 3 rs rd d)
  | _ => none

/-- Quadrant 1, funct3 4: shifts, ANDI and register arithmetic. -/
def rvc1Alu (h : Nat) : Option Nat :=
  let r := 8 + bits h 9 7
  let s := 8 + bits h 4 2
  let sh := bits h 12 12 * 32 + bits h 6 2
  match bits h 11 10 with
  | 0 => some (encI 0x13 5 r r sh)
  | 1 => some (encI 0x13 5 r r (0x400 + sh))
  | 2 => some (encI 0x13 7 r r (widen 6 12 sh))
  | _ =>
    match bits h 12 12, bits h 6 5 with
    | 0, 0 => some (encR 0x33 0 0x20 r r s)
    | 0, 1 => some (encR 0x33 4 0 r r s)
    | 0, 2 => some (encR 0x33 6 0 r r s)
    | 0, 3 => some (encR 0x33 7 0 r r s)
    | 1, 0 => some (encR 0x3B 0 0x20 r r s)
    | 1, 1 => some (encR 0x3B 0 0 r r s)
    | _, _ => none

/-- Quadrant 1. -/
def rvc1 (h : Nat) : Option Nat :=
  let rd := bits h 11 7
  let imm := bits h 12 12 * 32 + bits h 6 2
  let j := bits h 12 12 * 2048 + bits h 8 8 * 1024 + bits h 10 9 * 256 + bits h 6 6 * 128 + bits h 7 7 * 64 + bits h 2 2 * 32 +
    bits h 11 11 * 16 + bits h 5 3 * 2
  let b := bits h 12 12 * 256 + bits h 6 5 * 64 + bits h 2 2 * 32 + bits h 11 10 * 8 + bits h 4 3 * 2
  match bits h 15 13 with
  | 0 => some (encI 0x13 0 rd rd (widen 6 12 imm))
  | 1 => if rd = 0 then none else some (encI 0x1B 0 rd rd (widen 6 12 imm))
  | 2 => some (encI 0x13 0 rd 0 (widen 6 12 imm))
  | 3 =>
    if imm = 0 then none
    else if rd = 2 then
      some (encI 0x13 0 2 2 (widen 10 12 (bits h 12 12 * 512 + bits h 4 3 * 128 + bits h 5 5 * 64 + bits h 2 2 * 32 + bits h 6 6 * 16)))
    else some (widen 6 20 imm * 4096 + rd * 128 + 0x37)
  | 4 => rvc1Alu h
  | 5 => some (encJ 0 (widen 12 21 j))
  | 6 => some (encB 0 (8 + bits h 9 7) 0 (widen 9 13 b))
  | _ => some (encB 1 (8 + bits h 9 7) 0 (widen 9 13 b))

/-- Quadrant 2. -/
def rvc2 (h : Nat) : Option Nat :=
  let rd := bits h 11 7
  let rs := bits h 6 2
  let sh := bits h 12 12 * 32 + bits h 6 2
  match bits h 15 13 with
  | 0 => some (encI 0x13 1 rd rd sh)
  | 2 => if rd = 0 then none else some (encI 0x03 2 rd 2 (bits h 3 2 * 64 + bits h 12 12 * 32 + bits h 6 4 * 4))
  | 3 => if rd = 0 then none else some (encI 0x03 3 rd 2 (bits h 4 2 * 64 + bits h 12 12 * 32 + bits h 6 5 * 8))
  | 4 =>
    if bits h 12 12 = 0 then
      (if rs = 0 then (if rd = 0 then none else some (encI 0x67 0 0 rd 0)) else some (encR 0x33 0 0 rd 0 rs))
    else if rs = 0 then (if rd = 0 then some 0x00100073 else some (encI 0x67 0 1 rd 0))
    else some (encR 0x33 0 0 rd rd rs)
  | 6 => some (encS 0x23 2 2 rs (bits h 8 7 * 64 + bits h 12 9 * 4))
  | 7 => some (encS 0x23 3 2 rs (bits h 9 7 * 64 + bits h 12 10 * 8))
  | _ => none

/-- The instruction a compressed one expands to; none where it is illegal. -/
def rvc (h : Nat) : Option Nat :=
  match h % 4 with
  | 0 => rvc0 h
  | 1 => rvc1 h
  | 2 => rvc2 h
  | _ => none

end Sys2Proof.Machine
end

