-- ==== Sys2Proof/Machine/CsrOps.lean ====
section
/-!
DEFINITION. CSRs of a thread (R428, R431, R432), its PMP entries (R429), its traps and interrupts (R431, R447, R448).
Choices of the model coded here, by entry of the assumption log: DEDUCED 71; PRESUMED 67.
-/
namespace Sys2Proof.Machine

/-! ### PMP (R429): 16 entries, granularity 64 bytes -/

/-- Configuration and address of an entry. -/
def pmpCfg (x : Thread) (i : Nat) : Nat := (mgetD x.pmpcfg i 0).toNat
def pmpAddr (x : Thread) (i : Nat) : Nat := (mgetD x.pmpaddr i 0).toNat

/-- The address field with the bits below the granularity as they count: zero for TOR, ones for NAPOT. -/
def pmpGrain (a : Nat) (napot : Bool) : Nat := if napot then a / 8 * 8 + 7 else a / 16 * 16

/-- Trailing ones of a number below `fuel`. -/
def trailOnes : Nat → Nat → Nat
  | 0, _ => 0
  | fuel + 1, v => if v % 2 = 1 then trailOnes fuel (v / 2) + 1 else 0

/-- The addresses an entry covers: first, and one past the last; none while OFF. -/
def pmpRange (x : Thread) (i : Nat) : Option (Nat × Nat) :=
  match bits (pmpCfg x i) 4 3 with
  | 1 => some (if i = 0 then 0 else 4 * pmpGrain (pmpAddr x (i - 1)) false, 4 * pmpGrain (pmpAddr x i) false)
  | 3 =>
    let a := pmpGrain (pmpAddr x i) true
    let n := trailOnes 54 a
    some (a / 2 ^ (n + 1) * 2 ^ (n + 1) * 4, a / 2 ^ (n + 1) * 2 ^ (n + 1) * 4 + 2 ^ (n + 3))
  | _ => none

/-- Whether an access of `n` bytes at `a` may be made: bit 0 of `need` read, bit 1 write, bit 2 execute; `m` for M mode. The
lowest entry that covers a byte of the access decides, and must cover all of it. -/
def pmpOk (x : Thread) (m : Bool) (a n need : Nat) : Bool :=
  match (List.range 16).find? (fun i => match pmpRange x i with
    | some (lo, hi) => decide (lo < a + n) && decide (a < hi)
    | none => false) with
  | none => m
  | some i =>
    match pmpRange x i with
    | none => m
    | some (lo, hi) =>
      let c := pmpCfg x i
      decide (lo ≤ a) && decide (a + n ≤ hi) && ((m && !c.testBit 7) || c &&& need == need)

/-- The same for an area that may span entries, granule by granule. -/
def pmpArea (x : Thread) (m : Bool) (a n need : Nat) : Bool :=
  (span (a / 64) ((a + n - 1) / 64 + 1 - a / 64)).all (fun g =>
    let lo := max a (64 * g)
    pmpOk x m lo (min (a + n) (64 * g + 64) - lo) need)

/-- Whether an entry is locked against writes of its address: itself, or a locked TOR entry after it. -/
def pmpLocked (x : Thread) (i : Nat) : Bool :=
  (pmpCfg x i).testBit 7 || ((pmpCfg x (i + 1)).testBit 7 && bits (pmpCfg x (i + 1)) 4 3 == 1)

/-- What a configuration byte holds of a value written: NA4 leaves the entry OFF; R = 0 with W = 1 is reserved, and W is cleared. -/
def pmpLegal (v : Nat) : Nat :=
  let w := v &&& 0x9F
  let w1 := if bits w 4 3 = 2 then w &&& 0x87 else w
  if w1 % 4 = 2 then w1 - 2 else w1

/-- A write of the eight configuration bytes from entry `i`. -/
def pmpCfgWrite (i : Nat) (v : Word64) (x : Thread) : Thread :=
  (List.range 8).foldl (fun y k =>
    if (pmpCfg x (i + k)).testBit 7 then y
    else { y with pmpcfg := mput y.pmpcfg (i + k) (BitVec.ofNat 8 (pmpLegal (bits v.toNat (8 * k + 7) (8 * k)))) }) x

/-- The address register of an entry as it reads. -/
def pmpAddrRead (x : Thread) (i : Nat) : Nat :=
  let a := pmpAddr x i
  if bits (pmpCfg x i) 4 3 = 3 then a / 8 * 8 + 7 else a / 16 * 16

/-! ### Interrupts (R431) -/

/-- mip: machine external on a Bellwether thread whose queue holds records, machine timer once time has reached kwtimecmp. -/
def mipBits (s : State) (t : Nat) : Nat :=
  (if t % 64 = 0 && bwHolds (bwAt s (t / 64)) then 2 ^ 11 else 0) + (if (threadAt s t).kwtimecmp.toNat ≤ time64 s.io then 2 ^ 7 else 0)

/-- The interrupt a thread takes, by its cause: external before timer. -/
def intPending (s : State) (t : Nat) : Option Nat :=
  let x := threadAt s t
  let p := mipBits s t &&& x.mie.toNat
  if x.m && !x.mstatus.getLsbD 3 then none
  else if p.testBit 11 then some 11 else if p.testBit 7 then some 7 else none

/-! ### Traps (R447, R448) -/

/-- mstatus on trap entry: MPIE takes MIE, MIE clears, MPP takes the mode. -/
def mstatusTrap (v : Word64) (m : Bool) : Word64 :=
  (v &&& ~~~(mask 3 3 ||| mask 7 7 ||| mask 12 11)) ||| (if v.getLsbD 3 then mask 7 7 else 0) ||| (if m then mask 12 11 else 0)

/-- mcause: the interrupt bit and the code. -/
def causeWord (int : Bool) (code : Nat) : Word64 := BitVec.ofNat 64 ((if int then 2 ^ 63 else 0) + code)

/-- The handler's address: mtvec's base, or the vector of an interrupt in vectored mode. -/
def trapTarget (mtvec : Word64) (int : Bool) (code : Nat) : Word64 :=
  let base := mtvec &&& ~~~3
  if int && mtvec.getLsbD 0 then base + BitVec.ofNat 64 (4 * code) else base

/-- The record of a double trap; that of the Bellwether's own cell is a block-level fault (R34). -/
def doubleTrap (t : Nat) (s : State) : State :=
  let x := threadAt s t
  if t / 8 % 8 = 0 then containBlock (t / 64) 0x0C 0 0 s
  else bwRaise 5 1 t (t / 8) x.mtval.toNat (le 6 x.mepc.toNat ++ le 1 x.mcause.toNat ++ le 1 0) s

/-- TAKING A TRAP: the saved registers are written, the mode and status change, and the pc goes to the handler; while TRAPPING
is set the thread halts in state 4 instead. `val` is the address or instruction concerned. -/
def trap (t : Nat) (int : Bool) (code : Nat) (val : Word64) (s : State) : State :=
  let x := threadAt s t
  let saved : Thread := { x with
    mepc := x.pc &&& ~~~1, mcause := causeWord int code, mtval := if int then 0 else Config.mtval code val, reserve := none, wait := none }
  if x.trapping then doubleTrap t (threadPut t { saved with st := 4 } s)
  else
    let y : Thread := { saved with
      mstatus := mstatusTrap x.mstatus x.m, m := true, trapping := true, pc := trapTarget x.mtvec int code, st := if x.st = 3 then 3 else 1 }
    stepOver t (threadPut t y (traceAdd t 2 x.pc y.pc s))

/-- An access fault: kwtrapinfo takes its code. `cause` is 1 for a fetch, 5 for a load, 7 for a store or AMO. -/
def accessFault (t cause code : Nat) (a : Word64) (s : State) : State :=
  trap t false cause a (threadPut t { threadAt s t with kwtrapinfo := code } s)

/-- MRET: the mode and interrupt enable before the trap return, and TRAPPING clears. -/
def mretThread (x : Thread) : Thread :=
  let m := bits x.mstatus.toNat 12 11 == 3
  let st := (x.mstatus &&& ~~~(mask 3 3 ||| mask 12 11)) ||| mask 7 7 ||| (if x.mstatus.getLsbD 7 then mask 3 3 else 0)
  { x with m := m, mstatus := if m then st else st &&& ~~~(mask 17 17), pc := x.mepc, trapping := false }

/-! ### CSRs -/

/-- The bits of mstatus software can write: MIE, MPIE, MPP, MPRV, TW. -/
def mstatusMask : Word64 := mask 3 3 ||| mask 7 7 ||| mask 12 11 ||| mask 17 17 ||| mask 21 21

/-- A write of mstatus; MPP keeps its value where the one written is no mode of the thread. -/
def mstatusWrite (old v : Word64) : Word64 :=
  let keep := if bits v.toNat 12 11 = 1 || bits v.toNat 12 11 = 2 then mask 12 11 else 0
  let w := mstatusMask &&& ~~~keep
  (old &&& ~~~w) ||| (v &&& w)

/-- Bits of kwhostfn that are not reserved. -/
def hostFnMask : Word64 := mask 63 47 ||| mask 11 0

/-- A CSR's value; none where the thread has no such CSR. U-mode counters need mcounteren. -/
def csrRead (s : State) (t num : Nat) : Option Word64 :=
  let x := threadAt s t
  let cycle := x.mcycle + BitVec.ofNat 64 (cyclesNow s (t / 256))
  match num with
  | 0xC00 => if x.m || x.mcounteren.getLsbD 0 then some cycle else none
  | 0xC01 => if x.m || x.mcounteren.getLsbD 1 then some (BitVec.ofNat 64 (time64 s.io)) else none
  | 0xC02 => if x.m || x.mcounteren.getLsbD 2 then some x.minstret else none
  | 0xF11 => some (Config.machineId num)
  | 0xF12 => some (Config.machineId num)
  | 0xF13 => some (Config.machineId num)
  | 0xF14 => some (BitVec.ofNat 64 t)
  | 0xF15 => some (Config.machineId num)
  | 0x300 => some (x.mstatus ||| mask 33 33)
  | 0x301 => some 0x8000000000101105
  | 0x304 => some x.mie
  | 0x305 => some x.mtvec
  | 0x306 => some x.mcounteren
  | 0x30A => some 0
  | 0x320 => some 0
  | 0x340 => some x.mscratch
  | 0x341 => some x.mepc
  | 0x342 => some x.mcause
  | 0x343 => some x.mtval
  | 0x344 => some (BitVec.ofNat 64 (mipBits s t))
  | 0xB00 => some cycle
  | 0xB02 => some x.minstret
  | 0x7C0 => some x.kwhostfn
  | 0x7C1 => some 0
  | 0x7C2 => some (BitVec.ofNat 64 ((cellAt s (t / 8)).locked % 8))
  | 0x7C3 => some 0
  | 0x7C4 => some (flagW x.kwxen)
  | 0x7C5 => some x.kwtimecmp
  | 0x7C6 => some (flagW x.trapping)
  | 0xFC0 => some (BitVec.ofNat 64 x.kwtrapinfo)
  | 0x3A0 => some (BitVec.ofNat 64 (leVal ((List.range 8).map (fun i => mgetD x.pmpcfg i 0))))
  | 0x3A2 => some (BitVec.ofNat 64 (leVal ((List.range 8).map (fun i => mgetD x.pmpcfg (8 + i) 0))))
  | _ =>
    if 0x3B0 ≤ num ∧ num < 0x3C0 then some (BitVec.ofNat 64 (pmpAddrRead x (num - 0x3B0)))
    else if (0xB03 ≤ num ∧ num ≤ 0xB1F) ∨ (0x323 ≤ num ∧ num ≤ 0x33F) then some 0
    else none

/-- A write of a CSR of the thread alone: those that act on a cache are in `CpuOps.lean`. -/
def csrWrite (s : State) (t num : Nat) (v : Word64) : Thread :=
  let x := threadAt s t
  match num with
  | 0x300 => { x with mstatus := mstatusWrite x.mstatus v }
  | 0x304 => { x with mie := v &&& (mask 7 7 ||| mask 11 11) }
  | 0x305 => { x with mtvec := v &&& ~~~(mask 1 1) }
  | 0x306 => { x with mcounteren := v &&& mask 2 0 }
  | 0x340 => { x with mscratch := v }
  | 0x341 => { x with mepc := v &&& ~~~1 }
  | 0x342 => { x with mcause := v }
  | 0x343 => { x with mtval := v }
  | 0xB00 => { x with mcycle := v - BitVec.ofNat 64 (cyclesNow s (t / 256)) }
  | 0xB02 => { x with minstret := v }
  | 0x7C0 => { x with kwhostfn := v &&& hostFnMask }
  | 0x7C4 => { x with kwxen := v.getLsbD 0 }
  | 0x7C5 => { x with kwtimecmp := v }
  | 0x7C6 => { x with trapping := v.getLsbD 0 }
  | 0x3A0 => pmpCfgWrite 0 v x
  | 0x3A2 => pmpCfgWrite 8 v x
  | _ =>
    if 0x3B0 ≤ num ∧ num < 0x3C0 then
      (if pmpLocked x (num - 0x3B0) then x else { x with pmpaddr := mput x.pmpaddr (num - 0x3B0) (v &&& mask 53 0) })
    else x

/-- Whether the mode of a thread may use a CSR, by bits 9 and 8 of its number, and write it, by bits 11 and 10. -/
def csrAllowed (x : Thread) (num : Nat) (writes : Bool) : Bool :=
  (x.m || bits num 9 8 == 0) && !(writes && bits num 11 10 == 3)

/-- What a CSR instruction writes. -/
def csrNew (op : Nat) (old v : Word64) : Word64 :=
  match op with
  | 1 => v
  | 2 => old ||| v
  | _ => old &&& ~~~v

end Sys2Proof.Machine
end

