-- ==== Sys2Proof/Machine/CpuOps.lean ====
section
/-!
DEFINITION. What a thread's accesses do: the register windows of cells, Bellwethers and firmware ports (R112, R442, R449),
loads, stores, LR, SC and AMOs (R430, R438 to R441), instruction fetch and the instruction cache (R437), CSR instructions
and cache maintenance (R432).
Choices of the model coded here, by entry of the assumption log: DESIGN CHOICE 6, 19, 69, 86; DEDUCED 70, 71.
-/
namespace Sys2Proof.Machine

/-! ### Cell registers (R442) -/

/-- Whether the watchdog of a cell is paused: a thread of it is in state 3 (R451). -/
def wdogPaused (s : State) (c : Nat) : Bool := (cellThreads c).any (fun t => (threadAt s t).st == 3)

/-- The period of the cell watchdogs in ns; 0 is off. -/
def wdogPeriod (s : State) : Nat := us (dget s.io (idx 0x0E0010 0) 100000)

/-- WDOG_LEFT. -/
def wdogLeft (s : State) (c : Nat) : Nat :=
  let p := wdogPeriod s
  if p = 0 then 0xFFFF
  else if wdogPaused s c then p / 1000000
  else ((cellAt s c).wdogAt + p - s.io.now) / 1000000

/-- CELL_THREAD_STATE. -/
def cellStates (s : State) (c : Nat) : Nat := ((List.range 8).map (fun i => (threadAt s (8 * c + i)).st % 16 * 16 ^ i)).sum

/-- A cell register and its width in bytes; none at a reserved offset. -/
def cellReg (s : State) (c off : Nat) : Option (Nat × Nat) :=
  if off < 4 then some (4, cellStates s c)
  else if 8 ≤ off ∧ off < 12 then some (4, wdogLeft s c * 65536 + 2 * b2n (cellAt s c).refused + b2n (wdogPaused s c))
  else if 0x10 ≤ off ∧ off < 0x18 then some (8, 0)
  else if 0x18 ≤ off ∧ off < 0x1C then some (4, 0)
  else none

/-- A write of CELL_START. -/
def cellStartWrite (c v : Nat) (s : State) : State :=
  let t := 8 * c + bits v 50 48
  let x := threadAt s t
  if cellOff s c || (x.st ≠ 0 && x.st ≠ 4) then cellPut c { cellAt s c with refused := true } s
  else threadPut t { threadAtReset s t with st := 1, pc := BitVec.ofNat 64 (2 * bits v 47 1) } s

/-- A write of CELL_WDOG_KICK reloads the watchdog (R451). -/
def wdogKick (c : Nat) (s : State) : State := cellPut c { cellAt s c with wdogAt := s.io.now } s

/-- A write of a cell register, of its whole width. -/
def cellRegWrite (c off v : Nat) (s : State) : State :=
  if off = 8 then (if v.testBit 1 then cellPut c { cellAt s c with refused := false } s else s)
  else if off = 0x10 then cellStartWrite c v s
  else if off = 0x18 then wdogKick c s
  else s

/-! ### The Bellwether queue (R449, R450, R453) -/

/-- A record is acknowledged; with `reset`, its cell is reset unless a reset has already answered its fault. -/
def bwAck (b seq : Nat) (reset : Bool) (s : State) : State :=
  let x := bwAt s b
  match x.unacked.find? (fun p => p.1 == seq) with
  | none => s
  | some (_, r) =>
    let s1 := bwPut b { x with unacked := x.unacked.filter (fun p => p.1 != seq) } s
    let answered := match (cellAt s r.cell).resetAt with
      | some z => decide (r.raised ≤ z)
      | none => false
    if reset && r.kind ≠ 4 && !answered then containCell r.cell (if r.kind = 5 then 0x0C else 1) r.addr (if r.kind = 1 then field r.detail 0 8 else 0) s1 else s1

/-- A register of the queue's window: 8-byte parts of the records, BW_PRODUCER, BW_CONSUMER, BW_ACK. -/
def bwReg (s : State) (b off : Nat) : Option (Nat × Nat) :=
  let x := bwAt s b
  if off < 0x800 then some (8, field (mgetD x.slots (off / 32) []) (off % 32 / 8 * 8) 8)
  else if off < 0x804 then some (4, x.producer.toNat)
  else if off < 0x808 then some (4, x.consumer.toNat)
  else if off < 0x80C then some (4, 0)
  else none

/-- A write of a register of the queue. -/
def bwRegWrite (b off v : Nat) (s : State) : State :=
  if off = 0x804 then bwConsume b (BitVec.ofNat 32 v) s
  else if off = 0x808 then
    (match bits v 1 0 with
     | 1 => bwAck b (bits v 31 16) false s
     | 2 => bwAck b (bits v 31 16) true s
     | _ => s)
  else s

/-! ### Mailboxes and firmware dictionary ports (R112, R113, R116, R439) -/

/-- The mailbox under a number. -/
def mboxAt (io : Io) (n : Nat) : Mbox := mgetD io.oa.mboxes n Mbox.reset

/-- Storing it. -/
def mboxPut (n : Nat) (x : Mbox) (io : Io) : Io := { io with oa := { io.oa with mboxes := mput io.oa.mboxes n x } }

/-- MBOX_DOORBELL: the request goes to the server, or is held for a VF that is frozen (R174), or OVERRUN is set. A VF in FLR
has no mailbox. -/
def mboxRing (n len : Nat) (io : Io) : Io :=
  let vf := 16 ≤ n && n < 2000
  if vf && (vfAt io (n - 16)).inFlr then io
  else if regBit .mboxStatus n 0 io || len < 16 || 4096 < len then regOn .mboxStatus n 2 io
  else
    let io1 := regOn .mboxStatus n 0 (notFresh n io)
    if vf && frozen io1 n then vfPut (n - 16) { vfAt io1 (n - 16) with mboxHeld := some len } io1
    else { io1 with oa := { io1.oa with due := io1.oa.due ++ [(n, len)] } }

/-- The association of a mailbox number. -/
def mboxKey (n : Nat) : AssocKey :=
  if n < 16 then { binding := .pfMailbox, key := n, session := none }
  else if n < 2000 then { binding := .vfMailbox, key := n, session := none }
  else { binding := .fwPort, key := n - 2000, session := none }

/-- MBOX_NOTIFY_ACK: the notification buffer returns to the Kwaith, which writes the next notification. -/
def mboxAck (n : Nat) (io : Io) : Io :=
  let io1 := mboxPut n { mboxAt io n with held := false } io
  match assocOf io1 (mboxKey n) with
  | none => io1
  | some a =>
    match a.queue with
    | [] => io1
    | x :: r =>
      let a1 := { a with queue := r }
      noteOut a1 x { io1 with oa := { io1.oa with assocs := io1.oa.assocs.map (fun y => if y.key = a.key then a1 else y) } }

/-- The largest VECTOR of MBOX_CFG. -/
def mboxVectorMax (n : Nat) : Nat := if n < 16 then 2047 else if n < 2000 then 63 else 1023

/-- A write of MBOX_CFG: a VECTOR too large is discarded. -/
def mboxCfgWrite (n v : Nat) (io : Io) : Io :=
  let keep := mboxVectorMax n < bits v 26 16
  regPut .mboxCfg n 0 0 (bits v 0 0) (if keep then io else regPut .mboxCfg n 26 16 (bits v 26 16) io)

/-- Bytes the host or a thread writes into the request buffer. -/
def mboxRequest (n off : Nat) (d : Bytes) (io : Io) : Io :=
  mboxPut n { mboxAt io n with request := memPuts 0 (mboxAt io n).request off d } io

/-- A register of a firmware port, or 8 bytes of one of its buffers. -/
def fwReg (io : Io) (b off : Nat) : Option (Nat × Nat) :=
  let n := 2000 + b
  let x := mboxAt io n
  let o := off % 0x1000 / 8 * 8
  if off < 4 then some (4, 0)
  else if off < 8 then some (4, (regGet .mboxStatus n io).toNat)
  else if off < 12 then some (4, (regGet .mboxCfg n io).toNat)
  else if off < 16 then some (4, 0)
  else if off < 0x1000 then none
  else if off < 0x2000 then some (8, leVal (memGets 0 x.request o 8))
  else if off < 0x3000 then some (8, field x.response o 8)
  else some (8, field x.notice o 8)

/-- A write of it. The response and notification buffers discard it (R113). -/
def fwRegWrite (b off v n : Nat) (io : Io) : Io :=
  let m := 2000 + b
  if off = 0 then mboxRing m (bits v 12 0) io
  else if off = 4 then regWrite .mboxStatus m (BitVec.ofNat 64 v) io
  else if off = 8 then mboxCfgWrite m v io
  else if off = 12 then (if v.testBit 0 then mboxAck m io else io)
  else if 0x1000 ≤ off ∧ off < 0x2000 then mboxRequest m (off - 0x1000) (le n v) io
  else io

/-! ### Register windows (R441) -/

/-- What a register window holds at an offset. -/
def winReg (s : State) : Spot → Option (Nat × Nat)
  | .cellReg c off => cellReg s c off
  | .leReg b off => leReg s b off
  | .fwPort b off => fwReg s.io b off
  | .bwQueue b off => bwReg s b off
  | .dmaReg r off => dmaReg s r off
  | .laBell _ _ => some (8, 0)
  | _ => none

/-- A read of 4 or 8 bytes wholly within one register of `w` bytes that holds `v`. -/
def winPart (w v off n : Nat) : Option Nat :=
  if n = 8 then (if w = 8 then some v else none)
  else if n = 4 then some (if w = 8 && off / 4 % 2 = 1 then v / 2 ^ 32 else v % 2 ^ 32)
  else none

/-- What a register of `w` bytes takes of a write of `n` bytes. -/
def winWhole (w v off n d : Nat) : Nat :=
  if n = w then d else if off / 4 % 2 = 1 then v % 2 ^ 32 + d * 2 ^ 32 else v / 2 ^ 32 * 2 ^ 32 + d

/-- A write that a register window accepts: the value of the whole register; the buffers of a firmware port take their bytes. -/
def winStore (debug : Bool) (sp : Spot) (w v n d : Nat) (s : State) : State :=
  match sp with
  | .cellReg c off => cellRegWrite c (off / w * w) (winWhole w v off n d) s
  | .leReg b off => leRegWrite b (off / w * w) (winWhole w v off n d) debug s
  | .fwPort b off => on (fwRegWrite b off d n) s
  | .bwQueue b off => bwRegWrite b (off / w * w) (winWhole w v off n d) s
  | .dmaReg r off => dmaRegWrite r (off / w * w) (winWhole w v off n d) s
  | .laBell r q => laVisit r q s
  | _ => s

/-- Whether a register takes a write of `n` bytes: CELL_START only a whole one (R442). -/
def winTakes (sp : Spot) (n : Nat) : Bool :=
  match sp with
  | .cellReg _ off => !(decide (0x10 ≤ off) && decide (off < 0x18)) || n == 8
  | _ => true

/-! ### Loads and stores (R438 to R441, R447) -/

/-- Crossings between the routers of two regions. -/
def hop (t r : Nat) : List Nat := if t / 256 = r then [] else [t / 256, r]

/-- The crossings an access of a thread passes (R45), numbered from 0. -/
def spotXings (s : State) (t : Nat) : Spot → List Nat
  | .sram a =>
    if a < regionBase 0 then hop t ((a - blockBase 0) / 0x4000000)
    else let r := (a - regionBase 0) / 0x4000000; hop t r ++ [r + 4]
  | .table r _ => hop t r ++ [r + 4]
  | .cellReg c _ => hop t (c / 32)
  | .leReg b _ => hop t (b / 4)
  | .fwPort b _ => hop t (b / 4)
  | .bwQueue b _ => hop t (b / 4)
  | .dmaReg r _ => hop t r
  | .laBell r _ => hop t r ++ [r + 4]
  | .attached true a => if (cacheOf s.mem (t / 64)).any (·.1 == a / 64) then [] else [t / 256, 15]
  | .attached false _ => [t / 256, 15]
  | .host _ => [t / 256, 13]
  | .nothing => []

/-- Whether an access passes its crossings; otherwise it is answered "crossing reset" (R49). -/
def spotReached (s : State) (t : Nat) (sp : Spot) : Bool := (spotXings s t sp).all (fun x => xingAt s x == .run)

/-- The unit an access reaches is isolated. -/
def spotIsolated (s : State) : Spot → Bool
  | .sram a => sramOff s a
  | .cellReg c _ => s.cont.cells.contains c || s.cont.blocks.contains (c / 8) || s.cont.regions.contains (c / 32)
  | .leReg b _ => s.cont.blocks.contains b || s.cont.regions.contains (b / 4)
  | .fwPort b _ => s.cont.blocks.contains b || s.cont.regions.contains (b / 4)
  | .bwQueue b _ => s.cont.blocks.contains b || s.cont.regions.contains (b / 4)
  | .table r _ => s.cont.regions.contains r
  | .dmaReg r _ => s.cont.regions.contains r
  | .laBell r _ => s.cont.regions.contains r
  | _ => false

/-- What the map holds at an address of a thread. -/
def spotOf (s : State) (t a : Nat) : Spot := if 2 ^ 48 ≤ a then .nothing else spotAt s.mem (canonAddr t a)

/-- The host address a thread's host-window offset reaches. -/
def hostAddr (x : Thread) (off : Nat) : Nat := bits x.kwhostfn.toNat 63 47 * 2 ^ 47 + off

/-- The end of an access of a thread: data, a code of R447, or a host read sent. -/
inductive Access where
  | done (b : Bytes)
  | fault (code : Nat)
  | waits
  deriving DecidableEq, Repr

/-- Poison becomes code 0x03. -/
def dataOr : Option Bytes → Access
  | some b => .done b
  | none => .fault 3

/-- A host-window load: one read, or a fault at once where no function or no link can carry it. -/
def hostLoad (x : Thread) (off n : Nat) (s : State) : Access × State :=
  match hostFnOf s.io (bits x.kwhostfn.toNat 11 0) with
  | none => (.fault 1, s)
  | some fn =>
    if !hostFnOk s.io (bits x.kwhostfn.toNat 11 0) || !(linkAt s.io (linkOf s.io fn)).up || (fnCfg s.io fn).inFlr then (.fault 4, s)
    else (.waits, on (hostRead fn (hostAddr x off) n) s)

/-- A load of `n` bytes at `a`, aligned and permitted. -/
def readAt (t a n : Nat) (s : State) : Access × State :=
  let sp := spotOf s t a
  if !spotReached s t sp then (.fault 8, s)
  else if spotIsolated s sp then (.fault 1, s)
  else
    match sp with
    | .sram x => (dataOr (sramRead s.mem x n), s)
    | .table _ off =>
      let r := tableRead off n s.io
      (.done r.1, { s with io := r.2 })
    | .attached true x =>
      let r := cachedRead (t / 64) x n { io := s.io, mem := s.mem }
      (dataOr r.1, { s with io := r.2.io, mem := r.2.mem })
    | .attached false x =>
      let r := attachedRead 2 x n { io := s.io, mem := s.mem }
      (dataOr r.1, { s with io := r.2.io, mem := r.2.mem })
    | .host off => hostLoad (threadAt s t) off n s
    | _ =>
      match winReg s sp with
      | none => (.fault 1, s)
      | some (w, v) =>
        match winPart w v a n with
        | some d => (.done (le n d), s)
        | none => (.fault 1, s)

/-- A store of bytes at `a`, aligned and permitted, by the thread or by the debug unit in its place: the code of a fault, or
none. -/
def writeAt (debug : Bool) (t a : Nat) (d : Bytes) (s : State) : Option Nat × State :=
  let sp := spotOf s t a
  if spotIsolated s sp then (some 1, s)
  else
    match sp with
    | .host off =>
      (match hostFnOf s.io (bits (threadAt s t).kwhostfn.toNat 11 0) with
       | none => (some 1, s)
       | some fn => (none, if spotReached s t sp then on (hostWrite fn (hostAddr (threadAt s t) off) d) s else s))
    | .table _ _ => (some 2, s)
    | _ =>
      if !spotReached s t sp then (some 8, s)
      else
        match sp with
        | .sram x => (none, sramWrite x d s)
        | .attached true x =>
          let w := cachedWrite (t / 64) x d { io := s.io, mem := s.mem }
          (none, { s with io := w.io, mem := w.mem })
        | .attached false x =>
          let r := attachedWrite 2 x d { io := s.io, mem := s.mem }
          (r.1.map (fun _ => 3), { s with io := r.2.io, mem := r.2.mem })
        | _ =>
          match winReg s sp with
          | none => (some 1, s)
          | some (w, v) =>
            if (winPart w v a d.length).isSome && winTakes sp d.length then (none, winStore debug sp w v d.length (leVal d) s)
            else (some 1, s)

/-- The mode loads and stores of a thread are checked in: M mode takes MPP's under MPRV. -/
def dataMode (x : Thread) : Bool := if x.m && x.mstatus.getLsbD 17 then bits x.mstatus.toNat 12 11 == 3 else x.m

/-- An instruction of `len` bytes completes: the thread takes its result and goes on. -/
def retire (t len : Nat) (f : Thread → Thread) (s : State) : State :=
  let x := f (threadAt s t)
  stepOver t (threadPut t { x with pc := x.pc + BitVec.ofNat 64 len, minstret := x.minstret + 1 } s)

/-- A loaded value, extended. -/
def loadVal (b : Bytes) (signed : Bool) : Word64 :=
  if signed then sxt (8 * b.length) (leVal b) else BitVec.ofNat 64 (leVal b)

/-- A load instruction. -/
def rvLoad (t len rd : Nat) (addr : Word64) (n : Nat) (signed : Bool) (s : State) : State :=
  let x := threadAt s t
  let a := addr.toNat
  if a % n ≠ 0 then trap t false 4 addr s
  else if !pmpOk x (dataMode x) a n 1 then accessFault t 5 2 addr s
  else
    match readAt t a n s with
    | (.done b, s1) => retire t len (setX rd (loadVal b signed)) s1
    | (.fault c, s1) => accessFault t 5 c addr s1
    | (.waits, s1) => threadPut t { threadAt s1 t with load := some { rd := rd, bytes := n, signed := signed, addr := a, len := len } } s1

/-- The code of R447 for a failed host read. -/
def hostCode (c : Nat) : Nat :=
  match c with
  | 4 => 5
  | 5 => 6
  | 6 => 8
  | _ => 4

/-- The read of an outstanding host-window load ends (R441, R447). -/
def hostLoadEnd (t : Nat) (r : HostRead) (s : State) : State :=
  let x := threadAt s t
  match x.load with
  | none => s
  | some l =>
    let s1 := threadPut t { x with load := none } s
    match r with
    | .data b => retire t l.len (setX l.rd (loadVal (padTo l.bytes b) l.signed)) s1
    | .fail c =>
      accessFault t 5 (hostCode c.val) (BitVec.ofNat 64 l.addr) s1

/-- A store instruction. -/
def rvStore (t len : Nat) (addr : Word64) (n : Nat) (v : Word64) (s : State) : State :=
  let x := threadAt s t
  let a := addr.toNat
  if a % n ≠ 0 then trap t false 6 addr s
  else if !pmpOk x (dataMode x) a n 2 then accessFault t 7 2 addr s
  else
    match writeAt false t a (le n v.toNat) s with
    | (none, s1) => retire t len id s1
    | (some c, s1) => accessFault t 7 c addr s1

/-! ### LR, SC and AMOs (R430) -/

/-- Own cell SRAM and own block scratch: the canonical address. -/
def atomicSpot (s : State) (t a : Nat) : Option Nat :=
  match spotOf s t a with
  | .sram x => if ownSram t a || (decide (blockBase (t / 64) ≤ x) && decide (x < blockBase (t / 64) + 0x800000)) then some x else none
  | _ => none

/-- What keeps an LR, SC or AMO from its address: a fault, by cause and code. Reads are poisoned with the cause given. -/
def atomicBar (t : Nat) (addr : Word64) (n need bad : Nat) (s : State) : Option (Nat × Nat) ⊕ Nat :=
  let x := threadAt s t
  let a := addr.toNat
  if a % n ≠ 0 then .inl none
  else if !pmpOk x (dataMode x) a n need then .inl (some (if need = 1 then 5 else 7, 2))
  else
    match atomicSpot s t a with
    | none => .inl (some (7, 7))
    | some k => if need ≠ 2 && (sramRead s.mem k n).isNone then .inl (some (bad, 3)) else .inr k

/-- The trap of a barred one; `mis` is the cause of a misaligned address. -/
def atomicTrap (t mis : Nat) (addr : Word64) (s : State) : Option (Nat × Nat) → State
  | none => trap t false mis addr s
  | some (c, k) => accessFault t c k addr s

/-- LR. -/
def rvLr (t len rd : Nat) (addr : Word64) (n : Nat) (s : State) : State :=
  match atomicBar t addr n 1 5 s with
  | .inl e => atomicTrap t 4 addr s e
  | .inr k =>
    let v := sxt (8 * n) (leVal (memGets 0 s.mem.sram k n))
    retire t len (fun x => { setX rd v x with reserve := some (k / 64) }) s

/-- SC. -/
def rvSc (t len rd : Nat) (addr : Word64) (n : Nat) (v : Word64) (s : State) : State :=
  match atomicBar t addr n 2 7 s with
  | .inl e => atomicTrap t 6 addr s e
  | .inr k =>
    let hit := (threadAt s t).reserve == some (k / 64)
    let s1 := if hit then sramWrite k (le n v.toNat) s else s
    retire t len (fun x => { setX rd (flagW (!hit)) x with reserve := none }) s1

/-- An AMO. -/
def rvAmoDo (t len rd : Nat) (addr : Word64) (n f5 : Nat) (v : Word64) (s : State) : State :=
  match atomicBar t addr n 3 7 s with
  | .inl e => atomicTrap t 6 addr s e
  | .inr k =>
    let old := sxt (8 * n) (leVal (memGets 0 s.mem.sram k n))
    let v1 := if n = 4 then sxt 32 v.toNat else v
    let new := (amoOp f5 old v1).getD old
    retire t len (setX rd old) (sramWrite k (le n new.toNat) s)

/-! ### The instruction cache (R437) -/

/-- Key of a way of the set a line belongs to: 256 sets of 4 ways. -/
def iKey (line way : Nat) : Nat := 4 * (line % 256) + way

/-- The 64 bytes of a line as an instruction cache holds it. -/
def iFind (x : Cell) (line : Nat) : Option Bytes :=
  ((List.range 4).filterMap (fun w => (mget x.icache (iKey line w)).bind (fun e => if e.1 = line then some e.2 else none))).head?

/-- The 64 bytes of a line read from memory for a fetch. -/
def lineRead (t line : Nat) (s : State) : Access × State :=
  match spotOf s t (64 * line) with
  | .sram _ => readAt t (64 * line) 64 s
  | .table _ _ => readAt t (64 * line) 64 s
  | .attached _ _ => readAt t (64 * line) 64 s
  | _ => (.fault 1, s)

/-- A line enters a way; no other way keeps it. -/
def iPut (line way : Nat) (d : Bytes) (x : Cell) : Cell :=
  let rest := mfilter x.icache (fun _ e => e.1 != line)
  { x with icache := mput rest (iKey line way) (line, d) }

/-- The ways a miss may replace. -/
def openWays (x : Cell) : List Nat := (List.range 4).filter (fun w => w == 3 || !x.locked.testBit w)

/-- The line that holds an address, fetched where the cache lacks it, into an unlocked way of the Kwaith's choice. -/
def iLine (t a : Nat) (s : State) : Access × State :=
  let line := canonAddr t a / 64
  match iFind (cellAt s (t / 8)) line with
  | some d => (.done d, s)
  | none =>
    match lineRead t line s with
    | (.done d, s1) =>
      let x := cellAt s1 (t / 8)
      let v := freeNat s1.io
      let w := ((openWays x)[v.1 % (openWays x).length]?).getD 3
      (.done d, cellPut (t / 8) (iPut line w d x) { s1 with io := v.2 })
    | r => r

/-- Two bytes of an instruction: the halfword, or the code of a fault. -/
def fetchHalf (t a : Nat) (s : State) : (Nat ⊕ Nat) × State :=
  let x := threadAt s t
  if !pmpOk x x.m a 2 4 then (.inr 2, s)
  else if 2 ^ 48 ≤ a then (.inr 1, s)
  else
    match iLine t a s with
    | (.done d, s1) => (.inl (field d (a % 64) 2), s1)
    | (.fault c, s1) => (.inr c, s1)
    | (.waits, s1) => (.inr 1, s1)

/-- FENCE.I invalidates the lines of unlocked ways. -/
def fenceI (x : Cell) : Cell := { x with icache := mfilter x.icache (fun k _ => x.locked.testBit (k % 4)) }

/-- kwicfill: a line is fetched into a locked way of its set. -/
def icFill (t v : Nat) (s : State) : State :=
  let w := bits v 1 0
  let line := canonAddr t (bits v 47 6 * 64) / 64
  if w = 3 || !(cellAt s (t / 8)).locked.testBit w then s
  else
    match lineRead t line s with
    | (.done d, s1) => cellPut (t / 8) (iPut line w d (cellAt s1 (t / 8))) s1
    | (_, s1) => s1

/-! ### CSR instructions (R428, R432) -/

/-- kwcmo: the line of the block's cache is cleaned, invalidated, or both; the code of a fault, or none. -/
def cmo (t v : Nat) (s : State) : Option Nat × State :=
  let a := bits v 47 6 * 64
  let x := threadAt s t
  match spotOf s t a with
  | .attached true m =>
    if !pmpOk x (dataMode x) a 64 2 then (some 2, s)
    else
      let w := cacheMaint (t / 64) (m / 64) (bits v 1 0) { io := s.io, mem := s.mem }
      (none, if bits v 1 0 = 0 then s else { s with io := w.io, mem := w.mem })
  | _ => (none, s)

/-- A write of a CSR: the code of a fault, or none, and whether minstret was written. -/
def csrPut (t num : Nat) (v : Word64) (s : State) : Option Nat × State :=
  match num with
  | 0x7C1 => cmo t v.toNat s
  | 0x7C2 => (none, cellPut (t / 8) { cellAt s (t / 8) with locked := v.toNat % 8 } s)
  | 0x7C3 => (none, icFill t v.toNat s)
  | _ => (none, threadPut t (csrWrite s t num v) s)

/-- A CSR instruction; `i` is its word. -/
def rvCsr (t len i rd num op : Nat) (writes : Bool) (v : Word64) (s : State) : State :=
  let x := threadAt s t
  match csrRead s t num with
  | none => trap t false 2 (BitVec.ofNat 64 i) s
  | some old =>
    if !csrAllowed x num writes then trap t false 2 (BitVec.ofNat 64 i) s
    else if !writes then retire t len (setX rd old) s
    else
      match csrPut t num (csrNew op old v) s with
      | (some c, s1) => accessFault t 7 c (BitVec.ofNat 64 (bits (csrNew op old v).toNat 47 6 * 64)) s1
      | (none, s1) =>
        if num = 0xB02 then retire t len (fun y => { setX rd old y with minstret := y.minstret - 1 }) s1
        else retire t len (setX rd old) s1

end Sys2Proof.Machine
end

