-- ==== Sys2Proof/Machine/Xkwaith.lean ====
section
/-!
DEFINITION. Issue in a thread's slot (R431, R433), the Xkwaith instructions (R443 to R446, R455 to R466), and the rows that
issue them.
Choices of the model coded here, by entry of the assumption log: DESIGN CHOICE 68; DEDUCED 70.
-/
namespace Sys2Proof.Machine

/-! ### Issue -/

/-- Whether a thread's cell gives it issue slots. -/
def slotRuns (s : State) (t : Nat) : Bool :=
  !s.cpu.held && !s.clk.holdAll && !cellOff s (t / 8) && (threadAt s t).load.isNone

/-- A thread's slot: a pending enabled interrupt is taken first, also by a waiting thread, whose wait is withdrawn (R456);
otherwise a running thread does `f`. -/
def slot (t : Nat) (f : State → State) (s : State) : State :=
  let s0 := evArrive s
  if !slotRuns s0 t then s0
  else
    match intPending s0 t, (threadAt s0 t).st with
    | some c, 1 => trap t true c 0 s0
    | some c, 2 => trap t true c 0 (waitDrop t s0)
    | none, 1 => f s0
    | _, _ => s0

/-! ### Xkwaith -/

/-- The instructions of R443. -/
inductive Xk where
  | lkAcq | lkTry | lkRel | evWait | evSig | evAdd | chRes | chPub | chRead | pktGet | pktTryget | pktPut
  deriving DecidableEq, Repr

/-- Opcode (0 custom-0, 1 custom-1), funct3, funct7, and whether rs2 is an operand. -/
def Xk.enc : Xk → Nat × Nat × Nat × Bool
  | .lkAcq => (0, 0, 0, false)
  | .lkTry => (0, 1, 0, false)
  | .lkRel => (0, 2, 0, false)
  | .evWait => (0, 4, 0, true)
  | .evSig => (0, 5, 0, false)
  | .evAdd => (0, 6, 0, true)
  | .chRes => (1, 0, 0, false)
  | .chPub => (1, 1, 0, false)
  | .chRead => (1, 2, 0, true)
  | .pktGet => (1, 4, 0, false)
  | .pktTryget => (1, 4, 1, false)
  | .pktPut => (1, 5, 0, true)

/-- Every one of them. -/
def Xk.all : List Xk :=
  [.lkAcq, .lkTry, .lkRel, .evWait, .evSig, .evAdd, .chRes, .chPub, .chRead, .pktGet, .pktTryget, .pktPut]

/-- The instruction of an encoding; none where it is illegal. -/
def xkOf (op f3 f7 rs2 : Nat) : Option Xk :=
  Xk.all.find? (fun k => k.enc.1 == op && k.enc.2.1 == f3 && k.enc.2.2.1 == f7 && (k.enc.2.2.2 || rs2 == 0))

/-- The word of an instruction. -/
def xkWord (k : Xk) (rd rs1 rs2 : Nat) : Nat := encR (if k.enc.1 = 0 then 0x0B else 0x2B) k.enc.2.1 k.enc.2.2.1 rd rs1 rs2

/-- An Xkwaith instruction completes with a value for rd. -/
def xkEnd (t rd : Nat) (v : Word64) (s : State) : State := retire t 4 (setX rd v) s

/-- The same with a status. -/
def xkStatus (t rd st : Nat) (s : State) : State := xkEnd t rd (BitVec.ofNat 64 st) s

/-- LK.ACQ, LK.TRY, LK.REL (R457). -/
def xkLock (k : Xk) (t rd : Nat) (a : Word64) (s : State) : State :=
  let l := a.toNat
  if 4096 ≤ l then xkStatus t rd 11 s
  else if k = .lkRel then
    let r := lockRelease t l s
    xkStatus t rd r.1 r.2
  else
    match lockTake t l s with
    | (some st, s1) => xkStatus t rd st s1
    | (none, s1) => if k = .lkTry then xkStatus t rd 2 s1 else lockWait t rd l s1

/-- EV.WAIT, EV.SIG, EV.ADD (R460). -/
def xkEvent (k : Xk) (t rd : Nat) (a v : Word64) (s : State) : State :=
  let c := a.toNat
  if 1024 ≤ c then xkStatus t rd 11 s
  else if k = .evWait then
    if evReached (evAt s (t / 64) c) v then xkStatus t rd 0 s else waitBegin t rd (.event c v.toNat) s
  else evAdd (t / 64) c (if k = .evSig then 1 else v) (xkStatus t rd 0 s)

/-- CH.RES and CH.PUB (R464). -/
def xkChan (k : Xk) (t rd : Nat) (a : Word64) (s : State) : State :=
  let n := a.toNat
  if 256 ≤ n then xkStatus t rd 11 s
  else if k = .chPub then
    let r := chanPub (t / 64) n (t % 64) s
    xkStatus t rd r.1 r.2
  else
    match chanRes (t / 64) n (t % 64) s with
    | (some v, s1) => xkEnd t rd v s1
    | (none, s1) => chanResWait t rd n s1

/-- What an address operand of `n` bytes must be: permitted by PMP (`need` as there), aligned, in own cell SRAM or, for a
channel's destination, in own block scratch. The code of R447, or the canonical address. -/
def xkArea (t : Nat) (v : Word64) (n al need : Nat) (scratch : Bool) (s : State) : Nat ⊕ Nat :=
  let x := threadAt s t
  let a := v.toNat
  let k := canonAddr t a
  if !pmpArea x (dataMode x) a n need then .inl 2
  else if a % al ≠ 0 || !sramRange s.mem k n then .inl 0x0A
  else if ownSram t a && ownSram t (a + n - 1) then .inr k
  else if scratch && decide (blockBase (t / 64) ≤ k) && decide (k + n ≤ blockBase (t / 64) + scratchSize s.mem (t / 64)) then .inr k
  else .inl 0x0A

/-- CH.READ (R464). -/
def xkRead (t rd : Nat) (a v : Word64) (s : State) : State :=
  match xkArea t v 64 64 2 true s with
  | .inl c => accessFault t 7 c v s
  | .inr dst =>
    if 256 ≤ a.toNat then xkStatus t rd 11 s
    else
      match chanRead (t / 64) a.toNat (t % 64) dst s with
      | (some st, s1) => xkStatus t rd st s1
      | (none, s1) => chanReadWait t rd a.toNat dst s1

/-- PKT.GET and PKT.TRYGET (R445). -/
def xkGet (k : Xk) (t rd : Nat) (a : Word64) (s : State) : State :=
  match xkArea t a 288 32 2 false s with
  | .inl c => accessFault t 7 c a s
  | .inr area =>
    match pktTake t area s with
    | (some d, s1) => xkStatus t rd d s1
    | (none, s1) => if k = .pktTryget then xkStatus t rd 0 s1 else waitBegin t rd (.packet area) s1

/-- PKT.PUT (R446). -/
def xkPut (t rd : Nat) (a v : Word64) (s : State) : State :=
  match xkArea t a 288 32 1 false s with
  | .inl c => accessFault t (if c = 2 then 5 else 7) c a s
  | .inr area =>
    if (sramRead s.mem area 288).isNone then accessFault t 5 3 a s
    else
      match pktPut t area v.toNat s with
      | (some st, s1) => xkStatus t rd st s1
      | (none, s1) => waitBegin t rd (.put area v.toNat) s1

/-- R443, R444: an Xkwaith instruction of a thread. -/
def xkDo (k : Xk) (t rd rs1 rs2 : Nat) (s : State) : State :=
  let x := threadAt s t
  let a := xreg x rs1
  let v := xreg x rs2
  if !x.m && !x.kwxen then trap t false 2 (BitVec.ofNat 64 (xkWord k rd rs1 rs2)) s
  else
    match k with
    | .lkAcq => xkLock k t rd a s
    | .lkTry => xkLock k t rd a s
    | .lkRel => xkLock k t rd a s
    | .evWait => xkEvent k t rd a v s
    | .evSig => xkEvent k t rd a v s
    | .evAdd => xkEvent k t rd a v s
    | .chRes => xkChan k t rd a s
    | .chPub => xkChan k t rd a s
    | .chRead => xkRead t rd a v s
    | .pktGet => xkGet k t rd a s
    | .pktTryget => xkGet k t rd a s
    | .pktPut => xkPut t rd a v s

/-! ### The rows -/

/-- LK_ACQ (R457). -/
def execLkAcq (t : ThreadNo) (rd rs1 : Fin 32) (s : State) : Host.Outcome State Fault Refusal :=
  .next (slot t.val (xkDo .lkAcq t.val rd.val rs1.val 0) s)

/-- LK_TRY (R457). -/
def execLkTry (t : ThreadNo) (rd rs1 : Fin 32) (s : State) : Host.Outcome State Fault Refusal :=
  .next (slot t.val (xkDo .lkTry t.val rd.val rs1.val 0) s)

/-- LK_REL (R457). -/
def execLkRel (t : ThreadNo) (rd rs1 : Fin 32) (s : State) : Host.Outcome State Fault Refusal :=
  .next (slot t.val (xkDo .lkRel t.val rd.val rs1.val 0) s)

/-- EV_WAIT (R460). -/
def execEvWait (t : ThreadNo) (rd rs1 rs2 : Fin 32) (s : State) : Host.Outcome State Fault Refusal :=
  .next (slot t.val (xkDo .evWait t.val rd.val rs1.val rs2.val) s)

/-- EV_SIG (R460). -/
def execEvSig (t : ThreadNo) (rd rs1 : Fin 32) (s : State) : Host.Outcome State Fault Refusal :=
  .next (slot t.val (xkDo .evSig t.val rd.val rs1.val 0) s)

/-- EV_ADD (R460). -/
def execEvAdd (t : ThreadNo) (rd rs1 rs2 : Fin 32) (s : State) : Host.Outcome State Fault Refusal :=
  .next (slot t.val (xkDo .evAdd t.val rd.val rs1.val rs2.val) s)

/-- CH_RES (R464). -/
def execChRes (t : ThreadNo) (rd rs1 : Fin 32) (s : State) : Host.Outcome State Fault Refusal :=
  .next (slot t.val (xkDo .chRes t.val rd.val rs1.val 0) s)

/-- CH_PUB (R464). -/
def execChPub (t : ThreadNo) (rd rs1 : Fin 32) (s : State) : Host.Outcome State Fault Refusal :=
  .next (slot t.val (xkDo .chPub t.val rd.val rs1.val 0) s)

/-- CH_READ (R464). -/
def execChRead (t : ThreadNo) (rd rs1 rs2 : Fin 32) (s : State) : Host.Outcome State Fault Refusal :=
  .next (slot t.val (xkDo .chRead t.val rd.val rs1.val rs2.val) s)

/-- PKT_GET (R445). -/
def execPktGet (t : ThreadNo) (rd rs1 : Fin 32) (s : State) : Host.Outcome State Fault Refusal :=
  .next (slot t.val (xkDo .pktGet t.val rd.val rs1.val 0) s)

/-- PKT_TRYGET (R445). -/
def execPktTryget (t : ThreadNo) (rd rs1 : Fin 32) (s : State) : Host.Outcome State Fault Refusal :=
  .next (slot t.val (xkDo .pktTryget t.val rd.val rs1.val 0) s)

/-- PKT_PUT (R446). -/
def execPktPut (t : ThreadNo) (rd rs1 rs2 : Fin 32) (s : State) : Host.Outcome State Fault Refusal :=
  .next (slot t.val (xkDo .pktPut t.val rd.val rs1.val rs2.val) s)

end Sys2Proof.Machine
end

