-- ==== Sys2Proof/Machine/Cells.lean ====
section
/-!
DEFINITION. The commands of chapter 19: a thread's instructions, its host-window loads and timer, cache maintenance, cell and
Bellwether registers, watchdog and commanded reset. RV_INSTRUCTION itself is in `Cores.lean`, beside the object server its
stores can reach.
Choices of the model coded here, by entry of the assumption log: DESIGN CHOICE 86; DEDUCED 71; PRESUMED 67.
-/
namespace Sys2Proof.Machine

/-- What an instruction of a thread does; `i` is its word as expanded and `len` its length in bytes. -/
def rvDo (t len i : Nat) (s : State) : State :=
  let x := threadAt s t
  let ill := trap t false 2 (BitVec.ofNat 64 i) s
  match rvAct (xreg x) x.pc i with
  | .illegal => ill
  | .put rd v => retire t len (setX rd v) s
  | .jump rd tgt =>
    retire t len (fun y => { setX rd (x.pc + BitVec.ofNat 64 len) y with pc := tgt - BitVec.ofNat 64 len }) (traceAdd t 1 x.pc tgt s)
  | .branch true tgt => retire t len (fun y => { y with pc := tgt - BitVec.ofNat 64 len }) (traceAdd t 1 x.pc tgt s)
  | .branch false _ => retire t len id s
  | .load rd a n sg => rvLoad t len rd a n sg s
  | .store a n v => rvStore t len a n v s
  | .lr rd a n => rvLr t len rd a n s
  | .sc rd a n v => rvSc t len rd a n v s
  | .amo rd a n f5 v => rvAmoDo t len rd a n f5 v s
  | .csr rd num op w v => rvCsr t len i rd num op w v s
  | .fence => retire t len id s
  | .fenceI => retire t len id (cellPut (t / 8) (fenceI (cellAt s (t / 8))) s)
  | .ecall => trap t false (if x.m then 11 else 8) 0 s
  | .ebreak => trap t false 3 x.pc s
  | .mret =>
    if !x.m then ill
    else
      let y := mretThread x
      retire t len (fun z => { mretThread z with pc := y.pc - BitVec.ofNat 64 len }) (traceAdd t 3 x.pc y.pc s)
  | .wfi => if !x.m && x.mstatus.getLsbD 21 then ill else retire t len id s
  | .xk op f3 f7 rd rs1 rs2 =>
    match xkOf op f3 f7 rs2 with
    | some k => xkDo k t rd rs1 rs2 s
    | none => ill

/-- A running thread fetches the instruction at its pc, two bytes or four, and does it. -/
def rvStep (t : Nat) (s : State) : State :=
  let pc := (threadAt s t).pc
  match fetchHalf t pc.toNat s with
  | (.inr c, s1) => accessFault t 1 c pc s1
  | (.inl h, s1) =>
    if h % 4 ≠ 3 then
      match rvc h with
      | some i => rvDo t 2 i s1
      | none => trap t false 2 (BitVec.ofNat 64 h) s1
    else
      match fetchHalf t (pc.toNat + 2) s1 with
      | (.inr c, s2) => accessFault t 1 c (pc + 2) s2
      | (.inl g, s2) => rvDo t 4 (g * 65536 + h) s2

/-- HOST_WINDOW_READ_RETURN (R441, R447). -/
def execHostWindowReadReturn (t : ThreadNo) (r : HostRead) (s : State) : Host.Outcome State Fault Refusal :=
  .next (hostLoadEnd t.val r s)

/-- Time until the time CSR reads `v`: the base counts ns, less or more by its trim. `fuel` bounds the correction. -/
def timeReach (v : Nat) : Nat → Io → Io
  | 0, io => io
  | fuel + 1, io => if v ≤ time64 io then io else timeReach v fuel (advance (v - time64 io) io)

/-- MACHINE_TIMER_INTERRUPT (R431): time reaches kwtimecmp, and a thread that takes interrupts traps. -/
def execMachineTimerInterrupt (t : ThreadNo) (s : State) : Host.Outcome State Fault Refusal :=
  .next (slot t.val id (on (timeReach (threadAt s t.val).kwtimecmp.toNat 64) s))

/-- A write of kwcmo by an M-mode thread in its slot; in U mode it is illegal (R432). The write is CSRRW x0 with its operand. -/
def cmoSlot (t v : Nat) (s : State) : State :=
  slot t (fun s => rvCsr t 4 (0x7C1 * 2 ^ 20 + 1 * 2 ^ 12 + 0x73) 0 0x7C1 1 true (BitVec.ofNat 64 v) s) s

/-- KWCMO_CLEAN (R432). -/
def execKwcmoClean (t : ThreadNo) (addr : Nat) (s : State) : Host.Outcome State Fault Refusal :=
  .next (cmoSlot t.val (addr / 64 * 64 + 1) s)

/-- KWCMO_INVALIDATE (R432). -/
def execKwcmoInvalidate (t : ThreadNo) (addr : Nat) (s : State) : Host.Outcome State Fault Refusal :=
  .next (cmoSlot t.val (addr / 64 * 64 + 2) s)

/-- KWCMO_CLEAN_INVALIDATE (R432). -/
def execKwcmoCleanInvalidate (t : ThreadNo) (addr : Nat) (s : State) : Host.Outcome State Fault Refusal :=
  .next (cmoSlot t.val (addr / 64 * 64 + 3) s)

/-- KWICFILL (R432, R437). -/
def execKwicfill (t : ThreadNo) (v : Word64) (s : State) : Host.Outcome State Fault Refusal :=
  .next (slot t.val (fun s => rvCsr t.val 4 (0x7C3 * 2 ^ 20 + 1 * 2 ^ 12 + 0x73) 0 0x7C3 1 true v s) s)

/-- CELL_START (R442, R453). -/
def execCellStart (c : CellNo) (v : Word64) (s : State) : Host.Outcome State Fault Refusal :=
  .next (cellStartWrite c.val v.toNat s)

/-- CELL_WDOG_KICK (R451). -/
def execCellWdogKick (c : CellNo) (s : State) : Host.Outcome State Fault Refusal := .next (wdogKick c.val s)

/-- CELL_WATCHDOG_EXPIRY (R451): a watchdog that is on and runs expires at the end of its period. -/
def execCellWatchdogExpiry (c : CellNo) (s : State) : Host.Outcome State Fault Refusal :=
  .next (if wdogPeriod s = 0 || wdogPaused s c.val || cellOff s c.val || s.cpu.held || s.clk.holdAll then s
    else
      let s1 := on (reach ((cellAt s c.val).wdogAt + wdogPeriod s)) s
      let s2 := containCell c.val 3 0 0 s1
      if c.val % 8 = 0 then s2 else bwRaise 4 3 0xFFFF c.val 0 [] s2)

/-- BW_ACK_NO_ACTION (R449). -/
def execBwAckNoAction (b : BlockNo) (seq : Half) (s : State) : Host.Outcome State Fault Refusal :=
  .next (bwAck b.val seq.toNat false s)

/-- BW_ACK_RESET_REQUEST (R449, R450, R453). -/
def execBwAckResetRequest (b : BlockNo) (seq : Half) (s : State) : Host.Outcome State Fault Refusal :=
  .next (bwAck b.val seq.toNat true s)

/-- BW_CONSUMER_WRITE (R449). -/
def execBwConsumerWrite (b : BlockNo) (v : Word32) (s : State) : Host.Outcome State Fault Refusal := .next (bwConsume b.val v s)

/-- CELL_RESET (R35, R452, R454). -/
def execCellReset (by_ : Issuer) (arg : Byte) (s : State) : Host.Outcome State Fault Refusal :=
  .next (match gate s.start.stage by_ 0x0E0020 s.io with
    | some e => on (answer by_ (idx 0x0E0020 0) e []) s
    | none =>
      let c := arg.toNat
      if 128 ≤ c || s.cont.cells.contains c || s.cont.blocks.contains (c / 8) || s.cont.regions.contains (c / 32) then
        on (answer by_ (idx 0x0E0020 0) 5 []) s
      else on (answer by_ (idx 0x0E0020 0) 0 []) (cellReset c s))

end Sys2Proof.Machine
end

