-- ==== Sys2Proof/Machine/Memory.lean ====
section
/-!
DEFINITION. The commands of chapter 22: training, reads and writes of lines, device marks, translation, the scrubber and
the check-bit test mode.
Choices of the model coded here, by entry of the assumption log: DESIGN CHOICE 86; DEDUCED 76, 77.
-/
namespace Sys2Proof.Machine

/-! ### Training (R495, R496) -/

/-- Transfer rates by 10:0001. -/
def memRate (code : Nat) : Nat :=
  match code with
  | 0 => 6400 | 1 => 5600 | _ => 4800

/-- 10:0000. -/
def memConfig (density ranks rate failed : Nat) : Bytes :=
  le 1 density ++ le 1 ranks ++ le 2 rate ++ le 2 (8 * ranks * density) ++ le 1 failed ++ le 9 0

/-- Training ends while it is under way: nothing is written since (R501), and a failed subchannel holds start at stage 2. -/
def memTrained (density : Nat) (twoRanks : Bool) (failed : List Nat) (s : State) : State :=
  if dget s.io (idx 0x100002 0) 0 ≠ 1 then s
  else
    let d := 8 * (density + 1)
    let r := if twoRanks then 2 else 1
    let s1 := on (dsetB (idx 0x100000 0) (memConfig d r (memRate (dget s.io (idx 0x100001 0) 0)) (maskOf failed))) s
    let s2 := { s1 with mem := { s1.mem with density := d, ranks := r, filled := false, lines := [] } }
    if failed.isEmpty then on (dset (idx 0x100002 0) 2) s2 else startHeld 5 (on (dset (idx 0x100002 0) 3) s2)

/-- MEMORY_TRAINED (R495, R496, R501). -/
def execMemoryTrained (density : Fin 4) (twoRanks : Bool) (failed : List (Fin 8)) (s : State) :
    Host.Outcome State Fault Refusal :=
  .next (memTrained density.val twoRanks (failed.map (·.val)) s)

/-! ### Lines (R500 to R506) -/

/-- Whether a line exists. -/
def lineExists (m : MemTile) (line : Nat) : Bool := decide (64 * line < memCapacity m)

/-- A read by an engine and what it receives: none is poison. -/
def memoryRead (line : Nat) (errs : List (Fin 80 × Byte)) (w : MemIo) : MemIo :=
  if lineExists w.mem line then
    let r := memRead line errs w
    r.2.on (emit (.memData (64 * line) r.1))
  else w

/-- MEMORY_READ (R497, R500 to R506). -/
def execMemoryRead (line : Nat) (errs : List (Fin 80 × Byte)) (s : State) : Host.Outcome State Fault Refusal :=
  .next (onMem (memoryRead line errs) s)

/-- A write by an engine; one refused is answered so. -/
def memoryWrite (line off : Nat) (data : Bytes) (poison : Bool) (w : MemIo) : MemIo :=
  if !lineExists w.mem line then w
  else if poison then memWriteLine line true data w
  else
    let r := memWrite line off (data.take (64 - off)) w
    if r.1 then r.2 else r.2.on (emit (.memRefused (64 * line)))

/-- MEMORY_WRITE (R499, R501, R505). -/
def execMemoryWrite (line : Nat) (off : Fin 64) (data : Bytes) (poison : Bool) (s : State) :
    Host.Outcome State Fault Refusal :=
  .next (onMem (memoryWrite line off.val data poison) s)

/-! ### Device marks and translation -/

/-- 10:0032: the rank of a subchannel and the device it names, and whether they exist. -/
def markArg (m : MemTile) (arg : Bytes) : Bool :=
  decide (field arg 1 1 < 8) && decide (field arg 2 1 < max 1 m.ranks) && decide (field arg 3 1 < 10)

/-- 10:0032 is answered. -/
def markAnswer (by_ : Issuer) (st : Nat) (w : MemIo) : MemIo := w.on (answer by_ (idx 0x100032 0) st [])

/-- Op 1: the device is marked; where another of its rank and subchannel is marked, it is refused with event 0x1002. -/
def deviceMark (stage : Nat) (by_ : Issuer) (arg : Bytes) (w : MemIo) : MemIo :=
  match cmdGate stage by_ 0x100032 arg 4 1 w.io with
  | some e => markAnswer by_ e w
  | none =>
    let d := field arg 3 1
    if !markArg w.mem arg then markAnswer by_ 5 w
    else
      match markOf w.io (field arg 1 1) (field arg 2 1) with
      | some _ =>
        markAnswer by_ 0x11 (w.on (memEvent 0x1002 2 (le 1 (field arg 1 1) ++ le 1 (field arg 2 1) ++ le 1 d)))
      | none => markAnswer by_ 0 (markSet (field arg 1 1) (field arg 2 1) (some d) d 3 w)

/-- MEM_DEVICE_MARK (R502, R503, R505, R506). -/
def execMemDeviceMark (by_ : Issuer) (arg : Bytes) (s : State) : Host.Outcome State Fault Refusal :=
  .next (onMem (deviceMark s.start.stage by_ arg) s)

/-- Op 2: the mark of the device is cleared. -/
def deviceClear (stage : Nat) (by_ : Issuer) (arg : Bytes) (w : MemIo) : MemIo :=
  match cmdGate stage by_ 0x100032 arg 4 2 w.io with
  | some e => markAnswer by_ e w
  | none =>
    let d := field arg 3 1
    if !markArg w.mem arg then markAnswer by_ 5 w
    else if markOf w.io (field arg 1 1) (field arg 2 1) = some d then
      markAnswer by_ 0 (markSet (field arg 1 1) (field arg 2 1) none d 4 w)
    else markAnswer by_ 0x11 w

/-- MEM_DEVICE_CLEAR (R502, R505, R506). -/
def execMemDeviceClear (by_ : Issuer) (arg : Bytes) (s : State) : Host.Outcome State Fault Refusal :=
  .next (onMem (deviceClear s.start.stage by_ arg) s)

/-- 10:0020: the placement of an address. -/
def memTranslate (stage : Nat) (by_ : Issuer) (a : Nat) (w : MemIo) : MemIo :=
  match gate stage by_ 0x100020 w.io with
  | some e => w.on (answer by_ (idx 0x100020 0) e [])
  | none =>
    if memCapacity w.mem ≤ a then w.on (answer by_ (idx 0x100020 0) 5 [])
    else
      let p := placeOf w.mem a
      w.on (answer by_ (idx 0x100020 0) 0
        (le 1 p.sub ++ le 1 p.rank ++ le 1 p.group ++ le 1 p.bank ++ le 4 p.row ++ le 2 p.column ++ le 2 0))

/-- MEM_TRANSLATE (R497). -/
def execMemTranslate (by_ : Issuer) (addr : Word64) (s : State) : Host.Outcome State Fault Refusal :=
  .next (onMem (memTranslate s.start.stage by_ addr.toNat) s)

/-! ### The scrubber (R507 to R511) -/

/-- 10:0100 is answered. -/
def scrubAnswer (by_ : Issuer) (st : Nat) (w : MemIo) : MemIo := w.on (answer by_ (idx 0x100100 0) st [])

/-- R507: reserved fields zero and the range inside memory. -/
def scrubRange (m : MemTile) (arg : Bytes) : Bool :=
  decide (field arg 1 1 < 4) && allZero (slice arg 2 6) && allZero (slice arg 0x18 8) &&
  field arg 8 8 % 64 == 0 && field arg 0x10 8 % 64 == 0 && decide (64 ≤ field arg 0x10 8) &&
  decide (field arg 8 8 + field arg 0x10 8 ≤ memCapacity m)

/-- START. -/
def scrubStart (stage : Nat) (by_ : Issuer) (arg : Bytes) (w : MemIo) : MemIo :=
  match cmdGate stage by_ 0x100100 arg 32 1 w.io with
  | some e => scrubAnswer by_ e w
  | none =>
    if w.mem.scrub.state = 1 then scrubAnswer by_ 8 w
    else if !scrubRange w.mem arg then scrubAnswer by_ 5 w
    else
      scrubPut { Scrub.reset with state := 1, flags := field arg 1 1, first := field arg 8 8, length := field arg 0x10 8,
                                  cursor := field arg 8 8, began := time64 w.io }
        (w.on (beginCmd by_ 0x100100))

/-- SCRUB_START (R507, R510). -/
def execScrubStart (by_ : Issuer) (arg : Bytes) (s : State) : Host.Outcome State Fault Refusal :=
  .next (onMem (scrubStart s.start.stage by_ arg) s)

/-- RESUME: the range given, from the cursor, which must lie in it. -/
def scrubResume (stage : Nat) (by_ : Issuer) (arg : Bytes) (w : MemIo) : MemIo :=
  match cmdGate stage by_ 0x100100 arg 32 2 w.io with
  | some e => scrubAnswer by_ e w
  | none =>
    let c := w.mem.scrub
    if c.state = 1 then scrubAnswer by_ 8 w
    else if !scrubRange w.mem arg || decide (c.cursor < field arg 8 8) ||
        decide (field arg 8 8 + field arg 0x10 8 ≤ c.cursor) then scrubAnswer by_ 5 w
    else
      scrubPut { c with state := 1, flags := field arg 1 1, first := field arg 8 8, length := field arg 0x10 8 }
        (w.on (beginCmd by_ 0x100100))

/-- SCRUB_RESUME (R507, R511). -/
def execScrubResume (by_ : Issuer) (arg : Bytes) (s : State) : Host.Outcome State Fault Refusal :=
  .next (onMem (scrubResume s.start.stage by_ arg) s)

/-- ABORT: the scrub ends, state 4, and its CMD_DONE says so. -/
def scrubAbort (stage : Nat) (by_ : Issuer) (arg : Bytes) (w : MemIo) : MemIo :=
  match cmdGate stage by_ 0x100100 arg 32 3 w.io with
  | some e => scrubAnswer by_ e w
  | none =>
    if w.mem.scrub.state ≠ 1 then scrubAnswer by_ 0x11 w
    else scrubAnswer by_ 0 ((scrubEnd 4 w).on (endCmd 0x100100 0x11 []))

/-- SCRUB_ABORT (R507, R511). -/
def execScrubAbort (by_ : Issuer) (arg : Bytes) (s : State) : Host.Outcome State Fault Refusal :=
  .next (onMem (scrubAbort s.start.stage by_ arg) s)

/-- One line of a running scrub. -/
def scrubLine (errs : List (Fin 80 × Byte)) (w : MemIo) : MemIo :=
  if w.mem.scrub.state ≠ 1 then w else scrubAdvance (scrubOne (w.mem.scrub.cursor / 64) errs w)

/-- SCRUB_LINE (R500, R502, R506, R508, R510). -/
def execScrubLine (errs : List (Fin 80 × Byte)) (s : State) : Host.Outcome State Fault Refusal :=
  .next (onMem (scrubLine errs) s)

/-! ### The check-bit test mode (R512) -/

/-- 10:0110 is answered. -/
def eccAnswer (by_ : Issuer) (st : Nat) (r : Bytes) (w : MemIo) : MemIo := w.on (answer by_ (idx 0x100110 0) st r)

/-- What every op checks: its argument, that 10:0111 is 1, and the line. -/
def eccGate (stage : Nat) (by_ : Issuer) (arg : Bytes) (op : Nat) (w : MemIo) : Option Nat :=
  match cmdGate stage by_ 0x100110 arg 96 op w.io with
  | some e => some e
  | none =>
    if dget w.io (idx 0x100111 0) 0 ≠ 1 then some 0x11
    else if !allZero (slice arg 1 7) || field arg 8 8 % 64 ≠ 0 || memCapacity w.mem ≤ field arg 8 8 then some 5 else none

/-- A raw write: the bytes of `data` and `check` replace the stored ones where given. -/
def eccWrite (stage : Nat) (by_ : Issuer) (arg : Bytes) (op : Nat) (w : MemIo) : MemIo :=
  match eccGate stage by_ arg op w with
  | some e => eccAnswer by_ e [] w
  | none =>
    let line := field arg 8 8 / 64
    let (old, w1) := rawLine line w
    let data := if op = 3 then slice old 0 64 else slice arg 0x10 64
    let check := if op = 2 then slice old 64 16 else slice arg 0x50 16
    eccAnswer by_ 0 [] { w1 with mem := { w1.mem with lines := mput w1.mem.lines line (data ++ check) } }

/-- ECC_TEST_RAW_WRITE (R512). -/
def execEccTestRawWrite (by_ : Issuer) (arg : Bytes) (s : State) : Host.Outcome State Fault Refusal :=
  .next (onMem (eccWrite s.start.stage by_ arg 1) s)

/-- ECC_TEST_DATA_WRITE (R512). -/
def execEccTestDataWrite (by_ : Issuer) (arg : Bytes) (s : State) : Host.Outcome State Fault Refusal :=
  .next (onMem (eccWrite s.start.stage by_ arg 2) s)

/-- ECC_TEST_CHECK_WRITE (R512). -/
def execEccTestCheckWrite (by_ : Issuer) (arg : Bytes) (s : State) : Host.Outcome State Fault Refusal :=
  .next (onMem (eccWrite s.start.stage by_ arg 3) s)

/-- The decode part of op 4's answer. -/
def eccDecode (d : Decoded) : Bytes :=
  match d with
  | .ok _ errs corrected =>
    le 1 (b2n corrected) ++ le 1 errs.length ++ le 2 (maskOf (devicesOf errs)) ++ le 4 0
  | .uncorrectable => le 1 2 ++ le 1 0xFF ++ le 2 0 ++ le 4 0
  | .poison => le 1 3 ++ le 1 0xFF ++ le 2 0 ++ le 4 0

/-- Op 4. -/
def eccRead (stage : Nat) (by_ : Issuer) (arg : Bytes) (w : MemIo) : MemIo :=
  match eccGate stage by_ arg 4 w with
  | some e => eccAnswer by_ e [] w
  | none =>
    let line := field arg 8 8 / 64
    let (b, w1) := rawLine line w
    eccAnswer by_ 0 (b ++ eccDecode (readStored w1.mem w1.io line [])) w1

/-- ECC_TEST_READ (R512). -/
def execEccTestRead (by_ : Issuer) (arg : Bytes) (s : State) : Host.Outcome State Fault Refusal :=
  .next (onMem (eccRead s.start.stage by_ arg) s)

/-! ### Write-back of corrected SRAM words (R513) -/

/-- The oldest corrected word is written back. -/
def sramWriteback (m : MemTile) : MemTile := { m with fixing := m.fixing.drop 1 }

/-- SRAM_CORRECTED_WRITEBACK (R513). -/
def execSramCorrectedWriteback (s : State) : Host.Outcome State Fault Refusal := .next { s with mem := sramWriteback s.mem }

end Sys2Proof.Machine
end

