-- ==== Sys2Proof/Machine/HostOps.lean ====
section
/-!
DEFINITION. The host interface (chapter 08): requests and tags (R153 to R158), peer windows (R159 to R162), and the function
map (R149 to R152).
Choices of the model coded here, by entry of the assumption log: DESIGN CHOICE 34, 35; DEDUCED 33, 36, 81, 84.
-/
namespace Sys2Proof.Machine

/-! ### Tags (R141, R155 to R158) -/

/-- Requests waiting on a link are sent while a tag is free, oldest first; `fuel` bounds them. -/
def sendWaiting (l : Nat) : Nat → Io → Io
  | 0, io => io
  | fuel + 1, io =>
    let k := linkAt io l
    match k.waiting with
    | [] => io
    | (fn, addr, len) :: rest =>
      if tagLimit io l fn ≤ k.reqs.length + k.quarantined.length then io
      else
        match pickFree (tagUsed k) 0 (tagLimit io l fn) io with
        | (none, _) => io
        | (some t, io1) =>
          let q : HostReq := { tag := t, fn := fn, addr := addr, len := len, got := 0, sentAt := io1.now }
          sendWaiting l fuel (emit (.hostRead fn addr len t) (linkPut l { k with reqs := k.reqs ++ [q], waiting := rest } io1))

/-- A request ends with a status and leaves its tag; waiting requests may go. -/
def requestDone (l : Nat) (r : HostReq) (status : Nat) (io : Io) : Io :=
  let k := linkAt io l
  let io1 := linkPut l { k with reqs := k.reqs.filter (fun x => x.tag != r.tag), done := k.done ++ [(r.tag, status)] } io
  sendWaiting l k.waiting.length io1

/-- The function whose AER registers report an error of a function: a VF's are its PF's (R156). -/
def aerFn (io : Io) (fn : Nat) : Nat := if fn < 16 then fn else activeTwin io (pfOf io fn)

/-- R157: a completion with no outstanding request. -/
def cplUnexpected (l : Nat) (c : CplTlp) (io : Io) : Io :=
  let q := (linkAt io l).quarantined.find? (fun q => q.tag == c.tag)
  let io1 := bump32 0x040021 (l + 1) io
  match q with
  | some ⟨_, _, _, true⟩ => io1
  | _ =>
    let fn := match q with
      | some q => q.fn
      | none => 4 * l
    violate 0x0104 (hostPartner io1 fn c.completer) (le 2 c.tag ++ le 2 c.byteCount ++ le 1 c.status) (hostError 7 (aerFn io1 fn) true io1)

/-- Whether a completion agrees with what its request still lacks (R154). -/
def cplAgrees (r : HostReq) (c : CplTlp) : Bool :=
  c.byteCount == r.len - r.got && c.lowerAddr == (r.addr + r.got) % 128 && !c.data.isEmpty && decide (c.data.length ≤ r.len - r.got)

/-- R154: a completion of an outstanding request. -/
def cplTake (l : Nat) (r : HostReq) (c : CplTlp) (io : Io) : Io :=
  if c.status ≠ 0 then requestDone l r 1 io
  else if !cplAgrees r c then
    requestDone l r 1 (violate 0x0107 (hostPartner io r.fn c.completer) (le 1 2) (hostError 0x0A (aerFn io r.fn) true io))
  else if c.poisoned then requestDone l r 2 io
  else if r.got + c.data.length = r.len then requestDone l r 0 io
  else
    let k := linkAt io l
    linkPut l { k with reqs := k.reqs.map (fun x => if x.tag = r.tag then { x with got := r.got + c.data.length } else x) } io

/-- A completion arrives on a link. -/
def cplReceive (l : Nat) (c : CplTlp) (io : Io) : Io :=
  let k := linkAt io l
  if !k.up then io
  else
    match k.reqs.find? (fun r => r.tag == c.tag) with
    | some r => cplTake l r c io
    | none => cplUnexpected l c io

/-- R156: the timer of a request expires. -/
def cplTimeout (l tag : Nat) (io : Io) : Io :=
  match (linkAt io l).reqs.find? (fun r => r.tag == tag) with
  | none => io
  | some r =>
    let p := ctoPeriod (fnCfg io r.fn).cto
    let io1 := reach (r.sentAt + p) io
    let io2 := bump32 0x040020 (l + 1) (hostError 5 (aerFn io1 r.fn) true io1)
    let io3 := violate 0x0102 (hostPartner io2 r.fn 0) (le 2 tag ++ le 2 0 ++ le 4 r.addr) io2
    let k := linkAt io3 l
    let q : Quarantine := { tag := tag, fn := r.fn, ends := io3.now + 2 * p, abandoned := false }
    tagsReport l (linkPut l { k with reqs := k.reqs.filter (fun x => x.tag != tag), quarantined := k.quarantined ++ [q], done := k.done ++ [(tag, 3)] } io3)

/-- R157, R158: the quarantine of a tag ends. -/
def quarantineEnd (l tag : Nat) (io : Io) : Io :=
  match (linkAt io l).quarantined.find? (fun q => q.tag == tag) with
  | none => io
  | some q =>
    let io1 := reach q.ends io
    let k := linkAt io1 l
    sendWaiting l k.waiting.length
      (tagsReport l (linkPut l { k with quarantined := k.quarantined.filter (fun x => x.tag != tag) } io1))

/-! ### Messages (R148) -/

/-- Pending messages that nothing masks any longer are sent. -/
def msixFlush (fn : Nat) (io : Io) : Io :=
  let c := fnCfg io fn
  if !c.msix || c.fmask || frozen io fn then io
  else
    let go := c.pending.filter (fun v => c.unmasked.contains v)
    go.foldl (fun io v => msixSend fn v io) (fnPut fn { c with pending := c.pending.filter (fun v => !c.unmasked.contains v) } io)

/-- Vectors a function has. -/
def fnVectors (fn : Nat) : Nat := if fn < 16 then 2048 else 64

/-! ### Peer windows (R159 to R162) -/

/-- Shadow window `w` of a twin. -/
def shadowWin (fn w : Nat) (io : Io) : PeerWin :=
  let u := peerUnit fn w
  { offset := regField .peerOffset u 35 12 io * 4096, target := regField .peerTarget u 47 12 io * 4096, port := regField .peerCtrl u 23 20 io,
    ty := regField .peerCtrl u 5 4 io, sizeLog2 := regField .peerCtrl u 13 8 io, rd := regBit .peerCtrl u 1 io, wr := regBit .peerCtrl u 2 io }

/-- Whether the target of a window lies within what 04:0030 to 04:0032 permit its PF. -/
def winPermitted (io : Io) (p : Nat) (x : PeerWin) : Bool :=
  if x.ty = 0 then
    let lo := dget io (idx 0x040030 (p + 1)) 0
    decide (lo ≤ x.target) && decide (x.target + 2 ^ x.sizeLog2 ≤ lo + dget io (idx 0x040031 (p + 1)) 0)
  else decide (x.port < 8) && (dget io (idx 0x040032 (p + 1)) 0).testBit x.port

/-- Bytes of a PF's BAR2. -/
def bar2Size (io : Io) (p : Nat) : Nat :=
  match (io.host.bar2Log2[p]?).getD 0 with
  | 0 => 0
  | k => 2 ^ k

/-- The cause of a refusal one window gives, 0 for none. -/
def winCause (io : Io) (p : Nat) (x : PeerWin) : Nat :=
  if 2 ≤ x.ty then 6
  else if x.sizeLog2 < 12 || 36 < x.sizeLog2 || x.offset % 2 ^ x.sizeLog2 ≠ 0 then 4
  else if bar2Size io p < x.offset + 2 ^ x.sizeLog2 then 2
  else if !winPermitted io p x then 3 else 0

/-- Two windows overlap. -/
def winsOverlap (a b : PeerWin) : Bool :=
  decide (a.offset < b.offset + 2 ^ b.sizeLog2) && decide (b.offset < a.offset + 2 ^ a.sizeLog2)

/-- Enabled shadow windows of a twin. -/
def shadowWins (fn : Nat) (io : Io) : List (Nat × PeerWin) :=
  ((List.range 8).filter (fun w => regBit .peerCtrl (peerUnit fn w) 0 io)).map (fun w => (w, shadowWin fn w io))

/-- R161 step 1: the cause that refuses a commit, 0 for none. -/
def commitCause (fn stage : Nat) (io : Io) : Nat :=
  let ws := shadowWins fn io
  if stage < 3 then 5
  else
    match (ws.map (fun x => winCause io (fn % 4) x.2)).find? (· != 0) with
    | some c => c
    | none => if ws.any (fun a => ws.any (fun b => a.1 != b.1 && winsOverlap a.2 b.2)) then 1 else 0

/-- A new active mapping: the generation advances, and earlier TLPs may still run. -/
def winsActivate (fn : Nat) (ws : List (Nat × PeerWin)) (io : Io) : Io :=
  let g := (winsAt io fn).generation + 1
  regOn .peerStatus fn 1 (regPut .peerStatus fn 31 16 g.toNat (winsPut fn { active := ws, generation := g } io))

/-- R161: a commit. -/
def winsCommit (fn stage : Nat) (io : Io) : Io :=
  let c := commitCause fn stage io
  if c ≠ 0 then regOn .peerStatus fn 2 (regPut .peerStatus fn 7 4 c io)
  else winsActivate fn (shadowWins fn io) (regOff .peerStatus fn 2 io)

/-- R162: 04:0030 to 04:0032 have been written: active windows that fall outside are disabled. -/
def winsNarrow (p : Nat) (io : Io) : Io :=
  (io.host.peers.filter (fun e => e.1 % 4 == p)).foldl (fun io e =>
    let keep := e.2.active.filter (fun x => winPermitted io p x.2)
    if keep.length = e.2.active.length then io else winsActivate e.1 keep io) io

/-- R161: a twin's drain is over: no request of an earlier generation is outstanding at a root port. -/
def winsDrained (s : State) (fn : Nat) : Bool :=
  s.drives.slots.all (fun p => p.2.reqs.all (fun r => match r.2 with
    | some (f, g) => f != fn || g == (winsAt s.io fn).generation.toNat
    | none => true))

/-- The active window a TLP lies wholly within and may use. -/
def winFor (io : Io) (fn : Nat) (t : Bar2Tlp) : Option PeerWin :=
  let n := if t.write then t.data.length else t.len
  ((winsAt io fn).active.find? (fun x => decide (x.2.offset ≤ t.offset) && decide (t.offset + n ≤ x.2.offset + 2 ^ x.2.sizeLog2) &&
    (if t.write then x.2.wr else x.2.rd))).map (·.2)

/-- R162: a TLP outside every permitted window. -/
def bar2Miss (fn : Nat) (t : Bar2Tlp) (io : Io) : Io :=
  let n := if t.write then t.data.length else t.len
  let io1 := bump32 0x040033 (fn % 4 + 1) (hostError 8 fn true io)
  let io2 := violate 0x0105 (hostPartner io1 fn t.requester) (le 4 t.offset ++ le 2 n ++ le 1 (if t.write then 2 else 1)) io1
  if t.write then io2 else emit (.completion fn 1 []) io2

/-- R159: a TLP to attached memory at address `a`. A line the memory does not have gives no data. -/
def bar2Memory (fn a : Nat) (t : Bar2Tlp) (s : State) : State :=
  let n := if t.write then t.data.length else t.len
  if memCapacity s.mem < a + n then on (bar2Miss fn t) s
  else if t.write then onMem (memPosted a t.data t.poisoned) s
  else
    let r := attachedRead (n / 64 + 2) a n { io := s.io, mem := s.mem }
    let s1 := { s with io := r.2.io, mem := r.2.mem }
    on (emit (match r.1 with | some b => .completion fn 0 b | none => .completion fn 2 [])) s1

/-- R159, R162: a TLP to the address space of a root port. -/
def bar2Port (fn : Nat) (x : PeerWin) (a : Nat) (t : Bar2Tlp) (s : State) : State :=
  let y := bayOf s x.port
  if !y.link || y.contained then
    if t.write then on (bump32 0x040033 (fn % 4 + 1)) s
    else on (fun io => emit (.completion fn 4 [])
      (violate 0x0103 (hostPartner io fn t.requester) (le 4 t.offset ++ le 2 t.len) (hostError 6 fn true io))) s
  else if t.write then on (emit (.downstream x.port true a t.data t.data.length t.poisoned)) s
  else
    match pickFree (fun k => y.reqs.any (fun r => r.1 == k)) 0 256 s.io with
    | (none, _) => s
    | (some k, io) =>
      on (emit (.downstream x.port false a [] t.len false))
        (bayPut x.port { y with reqs := y.reqs ++ [(k, some (fn, (winsAt io fn).generation.toNat))] } { s with io := io })

/-- R162, R163: a TLP to the BAR2 of a twin. -/
def bar2 (fn : Nat) (t : Bar2Tlp) (s : State) : State :=
  let s1 := if t.poisoned then on (fun io => violate 0x0101 (hostPartner io fn t.requester) (le 4 t.offset ++ le 1 2) (hostError 4 fn true io)) s else s
  if !(fnCfg s1.io fn).memEnable || bar2Size s1.io (fn % 4) = 0 then
    on (fun io => let io1 := hostError 8 fn true io; if t.write then io1 else emit (.completion fn 1 []) io1) s1
  else
    match winFor s1.io fn t with
    | none => on (bar2Miss fn t) s1
    | some x =>
      let a := x.target + (t.offset - x.offset)
      if x.ty = 0 then bar2Memory fn a t s1 else bar2Port fn x a t s1

/-! ### The function map (R150, R151) -/

/-- The class code a function of a VF type reports (R140). -/
def vfClass (ty : Nat) : Bytes := if ty = 1 then [0x02, 0x08, 0x01] else [0, 0, 2]

/-- Whether a PF's controller reports ready (R60): PF0 always, the others from stage 3. -/
def pfReady (s : State) (p : Nat) : Bool := p == 0 || s.start.stage == 3

/-- R150: an entry for a PF. -/
def mapPf (s : State) (p : Nat) : Bytes :=
  le 1 p ++ le 1 p ++ le 1 (maskOf (pfLinks s.io p)) ++ le 1 (b2n (pfReady s p)) ++ (if p = 1 then [0x02, 0x08, 0x01] else [0, 0, 2]) ++
  le 1 (dget s.io (idx 0x000101 1) 3) ++ le 2 (vfTotal s.io p) ++ le 2 12288 ++ le 4 0

/-- R151: the detail of a PF. -/
def mapDetail (s : State) (p : Nat) : Bytes :=
  let fn := activeTwin s.io p
  let on_ := if (fnCfg s.io fn).vfEnable then (fnCfg s.io fn).numVfs else 0
  padTo 32 (le 1 1 ++ le 1 p ++ le 1 (dget s.io (idx 0x040003 ((fn / 4) % 2 + 1)) 6) ++ le 1 ((s.io.host.bar2Log2[p]?).getD 0) ++ le 2 on_ ++
    le 2 (vfBase s.io p) ++ le 2 2048 ++ le 1 8)

/-- Runs of consecutive VFs of a PF that share a type: type, first VF, count. -/
def typeRuns (io : Io) (p : Nat) : List (Nat × Nat × Nat) :=
  (span (vfBase io p) (vfTotal io p)).foldl (fun l n =>
    match l with
    | (ty, first, k) :: r => if vfType io n = ty then (ty, first, k + 1) :: r else (vfType io n, n, 1) :: l
    | [] => [(vfType io n, n, 1)]) [] |>.reverse

/-- R151: an entry for a run of VFs, numbered from 1 within its PF. -/
def mapRun (s : State) (p : Nat) (r : Nat × Nat × Nat) : Bytes :=
  padTo 32 (le 1 2 ++ le 1 p ++ le 1 r.1 ++ le 2 (r.2.1 - vfBase s.io p + 1) ++ le 2 r.2.2 ++ vfClass r.1 ++ le 1 (vfVectors s.io r.2.1) ++
    le 2 (vfPairs s.io r.2.1))

/-- R151: the masks of an interface version. -/
def mapVersion (s : State) (e : Nat) : Bytes :=
  let all := ([3, 3, 3, 3, 1, 1, 3, 3][e]?).getD 0
  padTo 32 (le 1 3 ++ le 1 (e + 1) ++ le 1 all ++ le 1 (dget s.io (idx 0x000101 (e + 1)) all))

/-- R150, R151: the function map as it stands. -/
def functionMap (s : State) : Bytes :=
  let entries := (List.range 4).map (mapDetail s) ++ (List.range 4).flatMap (fun p => (typeRuns s.io p).map (mapRun s p)) ++
    (List.range 8).map (mapVersion s)
  let gen := le 4 s.io.host.mapGen.toNat
  let body := le 4 0x4D46574B ++ le 1 1 ++ le 1 2 ++ le 2 96 ++ le 4 (112 + 32 * entries.length) ++ gen ++ le 8 serialNo ++
    le 1 s.start.stage ++ le 1 s.io.host.placement ++ le 1 4 ++ le 5 0 ++ (List.range 4).flatMap (mapPf s) ++
    le 2 entries.length ++ le 2 32 ++ le 4 0 ++ entries.flatten ++ gen
  body ++ le 4 (crc32c body)

end Sys2Proof.Machine
end

