-- ==== Sys2Proof/Machine/MigOps.lean ====
section
/-!
DEFINITION. Migration of VFs (R173 to R185): the checks of a command, the blob a SAVE writes and a RESTORE reads, and
dirty-page tracking.
Choices of the model coded here, by entry of the assumption log: DESIGN CHOICE 38; DEDUCED 37, 39.
-/
namespace Sys2Proof.Machine

/-! ### The command (R175) -/

/-- The chip-wide VF an argument names, where it exists and is up. -/
def migVf (io : Io) (arg : Bytes) : Option Nat :=
  let p := field arg 1 1
  let i := field arg 2 2
  if p < 4 && 1 ≤ i && i ≤ vfTotal io p && (vfAt io (vfBase io p + i - 1)).up then some (vfBase io p + i - 1) else none

/-- R175: the fields an operation does not use are zero, and a buffer is aligned to 4 KiB. -/
def migArgOk (arg : Bytes) (op : Nat) : Bool :=
  let a := field arg 8 8
  allZero (slice arg 5 3) && allZero (slice arg 0x18 8) && (if op = 6 then decide (field arg 4 1 ≤ 1) else field arg 4 1 == 0) &&
    (if op = 3 || op = 4 || op = 8 then a % 4096 == 0 else if op = 6 then true else a == 0)

/-- R175: H names only VFs of the PF whose mailbox carries the request. -/
def migMayName (by_ : Issuer) (p : Nat) : Bool := by_.assoc.binding != .pfMailbox || by_.assoc.key % 4 == p

/-- R173: the operations a state accepts. -/
def migAccepts : MigState → Nat → Bool
  | .running, op => [1, 6, 7, 8].contains op
  | .frozen, op => [2, 4, 5, 6, 7, 8].contains op
  | .drained, op => [3, 5, 7, 8].contains op
  | .saved, op => [3, 5, 8].contains op
  | .saving, _ => false
  | .restoring, _ => false

/-- An operation that completes before its answer ends with a result; `v` is the VF as it leaves it. -/
def migAnswer (by_ : Issuer) (n op res : Nat) (v : VfState) (io : Io) : Io :=
  answer by_ (idx 0x050100 0) (if res = 0 then 0 else 0x11) (migResult res v.state.ctorIdx 0 0 0)
    (vfPut n { v with lastOp := op, lastResult := res } io)

/-- An operation is answered IN_PROGRESS. -/
def migProgress (by_ : Issuer) (n op : Nat) (arg : Bytes) (waits : Bool) (io : Io) : Io :=
  let o : MigOp := { op := op, by_ := by_, at_ := io.now, addr := field arg 8 8, len := field arg 0x10 8, waits := waits }
  answer by_ (idx 0x050100 0) 0x09 [] (vfPut n { vfAt io n with op := some o } io)

/-- The operations whose outcome comes in CMD_DONE. -/
def migLong (op : Nat) : Bool := op == 2 || op == 3 || op == 4 || op == 8

/-- An operation fails with a result, with nothing changed. -/
def migRefuse (by_ : Issuer) (n op res : Nat) (arg : Bytes) (io : Io) : Io :=
  if migLong op then
    let io1 := migProgress by_ n op arg true io
    migOver n res 0 (vfAt io1 n) io1
  else migAnswer by_ n op res (vfAt io n) io

/-- R173, R175: a command, up to what its operation does. -/
def migCmd (by_ : Issuer) (arg : Bytes) (op : Nat) (f : Nat → State → State) (s : State) : State :=
  let ans (c : Nat) : State := on (answer by_ (idx 0x050100 0) c []) s
  match cmdGate s.start.stage by_ 0x050100 arg 32 op s.io with
  | some c => ans c
  | none =>
    if !migMayName by_ (field arg 1 1) then ans 3
    else
      match migVf s.io arg with
      | none => ans 5
      | some n =>
        let v := vfAt s.io n
        if !migArgOk arg op then ans 5
        else if v.op.isSome then ans 8
        else if !migAccepts v.state op then on (migRefuse by_ n op 1 arg) s
        else f n s

/-! ### Freeze, drain, resume (R174, R178) -/

/-- FREEZE. -/
def freezeVf (by_ : Issuer) (n : Nat) (io : Io) : Io := migAnswer by_ n 1 0 { vfAt io n with state := .frozen } io

/-- R178 step 2: work already taken has ended: transmit and admin entries, reads and NVMe commands. -/
def vfIdle (s : State) (n : Nat) : Bool :=
  let fn := 16 + n
  s.io.rings.rings.all (fun p => p.2.owner != fn || p.2.isCq || !(p.2.admin || p.2.kind == 1) || p.2.fetched.isEmpty) &&
    !((linkAt s.io (linkOf s.io fn)).reqs.any (fun r => r.fn == fn)) && (ctlAt s (4 + n)).cmds.isEmpty

/-- The section types a blob of a VF holds (R180). -/
def blobTypes (s : State) (n : Nat) : List Nat :=
  let ty := vfType s.io n
  let fn := 16 + n
  [1, 2] ++ (if s.io.rings.rings.any (fun p => p.2.owner == fn && !p.2.spill.isEmpty) then [3] else []) ++
    (if ty = 1 || ty = 3 then [4] else []) ++ (if ty = 0 || ty = 3 then [5] else []) ++ (if 2 ≤ ty then [6, 7] else []) ++
    (if s.burin.sas.any (fun p => p.2.pool == n) then [8] else []) ++ (if (vfAt s.io n).track.isSome then [9] else [])

/-- The sections with the lengths of their bodies, which are free multiples of 8 within the 64 MiB of a blob. -/
def blobSections (s : State) (n : Nat) : List (Nat × Nat) × Io :=
  (blobTypes s n).foldl (fun r ty =>
    let f := freeNat r.2
    (r.1 ++ [(ty, 8 * (f.1 % 900000))], f.2)) ([], s.io)

/-- R178 step 3: a drain ends with no work in flight. -/
def migDrained (n : Nat) (s : State) : State :=
  match (vfAt s.io n).op with
  | some o =>
    if o.op = 2 && vfIdle s n then
      let r := blobSections s n
      on (migEnd n 0 0 { vfAt r.2 n with state := .drained, sections := r.1, drainUs := (s.io.now - o.at_) / 1000 }) { s with io := r.2 }
    else s
  | none => s

/-- R178: the bound of a drain passes with work outstanding. -/
def drainLate (n : Nat) (io : Io) : Io :=
  match (vfAt io n).op with
  | some o =>
    if o.op = 2 then
      let io1 := reach (o.at_ + ms 10) io
      migEnd n 2 0 { vfAt io1 n with drainUs := (io1.now - o.at_) / 1000 } io1
    else io
  | none => io

/-- R174: a VF resumes: pending messages, then one scan of each submission ring, then a held mailbox request. -/
def resumeVf (by_ : Issuer) (n : Nat) (io : Io) : Io :=
  let v := vfAt io n
  let io1 := msixFlush (16 + n) (vfPut n { v with state := .running, mboxHeld := none } io)
  let io2 := (io1.rings.rings.filter (fun p => p.2.owner == 16 + n && !p.2.isCq)).foldl (fun io p =>
    match ringOf io p.1 with
    | some r => kick p.1 (ringPut p.1 { r with scanAgain := true } io)
    | none => io) io1
  let io3 := match v.mboxHeld with
    | some len => { io2 with oa := { io2.oa with due := io2.oa.due ++ [(16 + n, len)] } }
    | none => io2
  migAnswer by_ n 5 0 (vfAt io3 n) io3

/-! ### Save (R178, R180) -/

/-- SAVE or RESTORE is accepted: it starts, or waits (R177). -/
def moverStart (by_ : Issuer) (n op : Nat) (arg : Bytes) (io : Io) : Io :=
  let io1 := migProgress by_ n op arg true io
  migStart { io1 with vf := { io1.vf with queue := io1.vf.queue ++ [n] } }

/-- A section as a blob holds it. -/
def blobSection (n : Nat) (x : Nat × Nat) : Bytes :=
  le 2 x.1 ++ le 1 (Config.sectionVersion x.1) ++ le 1 0 ++ le 4 x.2 ++ le 8 0 ++ padTo x.2 (Config.sectionBody n x.1)

/-- Bytes 0x00 to 0x3B of the header. -/
def blobHeader (n : Nat) (body : Bytes) (sections : Nat) (io : Io) : Bytes :=
  le 4 0x5356574B ++ le 2 2 ++ le 1 (vfType io n) ++ le 1 0 ++ le 8 (64 + body.length) ++ le 4 sections ++ le 4 (crc32c body) ++
    le 8 serialNo ++ le 2 n ++ le 1 (pfOfVf io n) ++ le 1 0 ++ padTo 4 (dgetB io (idx 0x020113 0)) ++ le 8 (time64 io) ++ le 12 0

/-- R178 steps 6 and 7: the sections, the header, the valid word; or a host write has failed. -/
def saveDone (n : Nat) (written : Bool) (io : Io) : Io :=
  let v := vfAt io n
  match v.op with
  | some o =>
    if o.op = 3 && !o.waits then
      let r := freeNat io
      if written then
        let fn := activeTwin io (pfOfVf io n)
        let body := (v.sections.map (blobSection r.1)).flatten
        let io1 := hostWrite fn o.addr (blobHeader n body v.sections.length io) (hostWrite fn (o.addr + 64) body r.2)
        migEnd n 0 (blobSize v) { v with state := .saved } (hostWrite fn (o.addr + 0x3C) (le 4 0x4C56574B) io1)
      else migEnd n 4 (r.1 % (blobSize v + 1)) { v with state := .drained } r.2
    else io
  | none => io

/-! ### Restore (R181, R182) -/

/-- R182 step 1: what the header fails with, 0 for nothing. -/
def blobHeaderFails (io : Io) (n len : Nat) (b : MigBlob) : Nat :=
  let h := b.header
  let ver := field h 4 2
  if field h 0 4 ≠ 0x5356574B || field h 0x3C 4 ≠ 0x4C56574B then 6
  else if (ver ≠ 1 && ver ≠ 2) || !((dget io (idx 0x000101 7) 3).testBit (ver - 1)) then 7
  else if len < field h 8 8 || 2 ^ 26 < field h 8 8 then 6
  else if field h 6 1 ≠ vfType io n || (ver = 1 && vfType io n ≠ 0) then 8
  else if ver = 2 && !b.crcOk then 6
  else if !b.framed then 6 else 0

/-- R180, R181: whether a section is known. -/
def sectionKnown (ver ty sv : Nat) : Bool :=
  if ver = 1 then [1, 2, 5].contains ty && sv == 1 else decide (1 ≤ ty) && decide (ty ≤ 9) && sv == Config.sectionVersion ty

/-- R182 step 3: the first shortfall, 0 for none. A version 1 blob's rings need ring format v1 (R181). -/
def blobShort (s : State) (n : Nat) (b : MigBlob) : Nat :=
  let io := s.io
  if field b.header 4 2 = 1 && !((dget io (idx 0x000101 1) 3).testBit 0) then 7
  else if vfVectors io n < b.vectors || vfPairs io n < (b.rings.filter (fun r => !r.2.isCq && !r.2.admin)).length ||
      vfQps io n < b.qps.length || vfMrs io n < b.regions.length || b.keySlots.any (fun k => decide (poolSize io n ≤ k)) then 9
  else if b.qps.any (fun q => (qpOf s q.1).isSome) || b.regions.any (fun m => (mget s.rdma.mrs m.1).isSome) ||
      b.rings.any (fun r => (ringOf io r.1).isSome) || b.sas.any (fun x => (mget s.burin.sas x.1).isSome) then 0x0B
  else if b.keySlots.any (fun k => (slotAt s.burin n k).state != .keyed) then 0x0E else 0

/-- R182: the result a blob gives, 0 where it can be restored. -/
def blobResult (s : State) (n len : Nat) (b : MigBlob) : Nat :=
  let h := blobHeaderFails s.io n len b
  if h ≠ 0 then h
  else if b.sections.any (fun x => !(x.2.2.testBit 0) && !sectionKnown (field b.header 4 2) x.1 x.2.1) then 0x0A
  else blobShort s n b

/-- R182 step 4: everything takes its saved numbers, keys and counters, under this VF. -/
def blobPut (n : Nat) (b : MigBlob) (s : State) : State :=
  let fn := 16 + n
  let v1 := field b.header 4 2 == 1
  let rings := b.rings.map (fun p => (p.1, { p.2 with owner := fn, fmt := if v1 then 1 else p.2.fmt }))
  let adm (cq : Bool) : Option Nat := (rings.find? (fun p => p.2.admin && p.2.isCq == cq)).map (·.1)
  let s1 := onRdma (fun r => { r with
    qps := b.qps.foldl (fun m q => mput m q.1 { q.2 with owner := fn }) r.qps
    mrs := b.regions.foldl (fun m x => mput m x.1 { x.2 with owner := fn }) r.mrs
    tags := b.regions.foldl (fun m x => mput m x.1 x.2.tag) r.tags }) s
  let s2 := { s1 with burin := { s1.burin with
    sas := b.sas.foldl (fun m x => mput m x.1 { x.2 with pool := n }) s1.burin.sas
    tags := b.sas.foldl (fun m x => mput m x.1 (x.2.tag + 1)) s1.burin.tags } }
  let s3 := match b.ctl with
    | some x => if ctlExists s2 (4 + n) then ctlPut (4 + n) x s2 else s2
    | none => s2
  let nv : List RegName := [.nvCc, .nvAqa, .nvAsq, .nvAcq, .nvCsts]
  rdmaTotals (on (fun io =>
    let io1 := ringTotals (rings.foldl (fun io p => ringPut p.1 p.2 io) io)
    let io2 := if rings.any (fun p => p.2.admin) then admPut fn { Adm.reset with sq := adm false, cq := adm true } io1 else io1
    let io3 := b.regs.foldl (fun io r => regSet r.1 (if nv.contains r.1 then 4 + n else fn) r.2 io) io2
    fnPut fn { b.cfg with mps := (fnCfg io fn).mps, inFlr := false } { io3 with oa := { io3.oa with mboxes := mput io3.oa.mboxes fn b.mbox } }) s3)

/-- The tracking a blob's section 0x0009 gives. -/
def blobTrack (b : MigBlob) : Option Track :=
  b.track.map (fun x => { base := x.1, granule := x.2.1, len := x.2.2, live := [], retired := none })

/-- A restore that fails resets the VF, which is FROZEN and fresh. -/
def restoreFails (n res : Nat) (s : State) : State := vfWipeTo .frozen n res s

/-- R182: a restore ends. -/
def restoreDone (n : Nat) (blob : Option MigBlob) (s : State) : State :=
  match (vfAt s.io n).op with
  | some o =>
    if o.op = 4 && !o.waits then
      match blob with
      | none => restoreFails n 5 s
      | some b =>
        let c := blobResult s n o.len b
        if c ≠ 0 then restoreFails n c s
        else
          let s1 := blobPut n b s
          let r := blobSections s1 n
          on (migEnd n 0 (field b.header 8 8) { vfAt r.2 n with state := .drained, fresh := false, track := blobTrack b, sections := r.1 })
            { s1 with io := r.2 }
    else s
  | none => s

/-! ### Dirty-page tracking (R183) -/

/-- Bytes of the tracking pool in use. -/
def trackUsed (io : Io) : Nat := (io.vf.vfs.map (fun p => (p.2.track.map (fun t => 2 * bankBytes t)).getD 0)).sum

/-- TRACK_START. A range already tracked is given up for the new one. -/
def trackBegin (by_ : Issuer) (n : Nat) (arg : Bytes) (io : Io) : Io :=
  let g := if field arg 4 1 = 0 then 4096 else 2097152
  let t : Track := { base := field arg 8 8, granule := g, len := field arg 0x10 8, live := [], retired := none }
  let v := vfAt io n
  let others := trackUsed (vfPut n { v with track := none } io)
  if t.base % g ≠ 0 || t.len % g ≠ 0 || t.len = 0 || 2 ^ 40 < t.len || io.vf.trackPool * 2 ^ 20 < others + 2 * bankBytes t then
    migAnswer by_ n 6 0x0F v io
  else migAnswer by_ n 6 0 { v with track := some t } io

/-- TRACK_STOP. -/
def trackEnd (by_ : Issuer) (n : Nat) (io : Io) : Io := migAnswer by_ n 7 0 { vfAt io n with track := none } io

/-- HARVEST: the banks are swapped. -/
def harvestBegin (by_ : Issuer) (n : Nat) (arg : Bytes) (io : Io) : Io :=
  let v := vfAt io n
  match v.track with
  | none => migRefuse by_ n 8 0x0F arg io
  | some t =>
    if field arg 0x10 8 < bankBytes t then migRefuse by_ n 8 3 arg io
    else migProgress by_ n 8 arg false (vfPut n { v with track := some { t with live := [], retired := some t.live } } io)

/-- A set of bit numbers as `n` bytes: bit k is bit k mod 8 of byte k div 8. -/
def bitmap (n : Nat) (l : List Nat) : Bytes :=
  (List.range n).map (fun i => BitVec.ofNat 8 (maskOf ((l.filter (fun k => k / 8 == i)).map (· % 8))))

/-- R183: the copy ends, or fails. -/
def harvestDone (n : Nat) (copied : Bool) (io : Io) : Io :=
  let v := vfAt io n
  match v.op with
  | some o =>
    if o.op = 8 then
      match v.track with
      | some t =>
        if copied then
          let m := bankBytes t
          migEnd n 0 m { v with track := some { t with retired := none } }
            (hostWrite (activeTwin io (pfOfVf io n)) o.addr (bitmap m (t.retired.getD [])) io)
        else
          let r := freeNat io
          migEnd n 4 (r.1 % (bankBytes t + 1)) (bankBack v) r.2
      | none => io
    else io
  | none => io

/-- R174: RESUME, up to the reading of a mailbox request that was held. -/
def migResumeDo (by_ : Issuer) (arg : Bytes) (s : State) : State := migCmd by_ arg 5 (fun n => on (resumeVf by_ n)) s

/-! ### VF Enable and FLR (R167, R172) -/

/-- R169, R167: whether VF Enable brings up VF `n`. -/
def vfCovered (io : Io) (n : Nat) : Bool :=
  let p := pfOfVf io n
  (vfRunList io).isEmpty || p == 0 || p == 3 || (vfRun io n).isSome

/-- VF Enable is set. -/
def vfEnable (p : Nat) (io : Io) : Io :=
  let fn := activeTwin io p
  let c := fnCfg io fn
  let ns := (span (vfBase io p) c.numVfs).filter (vfCovered io)
  let io1 := fnPut fn { c with vfEnable := true } io
  mapRebuild (vfReport p (ns.foldl (fun io n => vfPut n { VfState.reset with up := true } io) io1))

/-- R172 steps 1 and 2: an FLR is accepted. -/
def vfFlrBegin (n : Nat) (io : Io) : Io :=
  let fn := 16 + n
  let io1 := readsAbandon (linkOf io fn) (· == fn) io
  let io2 := regPut .mboxStatus fn 1 0 0 io1
  fnPut fn { fnCfg io2 fn with inFlr := true } (vfPut n { vfAt io2 n with inFlr := true } io2)

end Sys2Proof.Machine
end

