-- ==== Sys2Proof/Machine/Migrate.lean ====
section
/-!
DEFINITION. The operations of 05:0100 (R173 to R183).
-/
namespace Sys2Proof.Machine

/-- R178: FREEZE. -/
def execMigFreeze (by_ : Issuer) (arg : Bytes) (s : State) : Host.Outcome State Fault Refusal :=
  .next (migCmd by_ arg 1 (fun n => on (freezeVf by_ n)) s)

/-- R178: DRAIN. -/
def execMigDrain (by_ : Issuer) (arg : Bytes) (s : State) : Host.Outcome State Fault Refusal :=
  .next (migCmd by_ arg 2 (fun n => on (migProgress by_ n 2 arg false)) s)

/-- R178: SAVE. -/
def execMigSave (by_ : Issuer) (arg : Bytes) (s : State) : Host.Outcome State Fault Refusal :=
  .next (migCmd by_ arg 3 (fun n => on (moverStart by_ n 3 arg)) s)

/-- R182: RESTORE needs a fresh VF. -/
def execMigRestore (by_ : Issuer) (arg : Bytes) (s : State) : Host.Outcome State Fault Refusal :=
  .next (migCmd by_ arg 4 (fun n s => on (if (vfAt s.io n).fresh then moverStart by_ n 4 arg else migRefuse by_ n 4 8 arg) s) s)

/-- R183: TRACK_START. -/
def execTrackStart (by_ : Issuer) (arg : Bytes) (s : State) : Host.Outcome State Fault Refusal :=
  .next (migCmd by_ arg 6 (fun n => on (trackBegin by_ n arg)) s)

/-- R183: TRACK_STOP. -/
def execTrackStop (by_ : Issuer) (arg : Bytes) (s : State) : Host.Outcome State Fault Refusal :=
  .next (migCmd by_ arg 7 (fun n => on (trackEnd by_ n)) s)

/-- R183: HARVEST. -/
def execMigHarvest (by_ : Issuer) (arg : Bytes) (s : State) : Host.Outcome State Fault Refusal :=
  .next (migCmd by_ arg 8 (fun n => on (harvestBegin by_ n arg)) s)

end Sys2Proof.Machine
end

