-- ==== Sys2Proof/Machine/Monitors.lean ====
section
/-!
DEFINITION. Monitors, the Shepherd's cycle, rail and ageing rows (R516 to R535, R591).
Choices of the model coded here, by entry of the assumption log: DESIGN CHOICE 78; DEDUCED 79.
-/
namespace Sys2Proof.Machine

/-- A process sample: a negative degradation reads 0. -/
def procSample (n : Nat) (v : Word32) (s : State) : State :=
  on (dset (idx 0x030003 (n + 1)) (if v.toInt < 0 then 0 else v.toNat)) s

/-- A sample of a monitor. -/
def monSample (kind n : Nat) (v : Word32) (s : State) : State :=
  if kind = 0 then (if n < 48 then tempSample n v.toInt s else s)
  else if kind = 1 then (if n < 32 then voltSample n (v.toNat % 65536) s else s)
  else procSample n v s

/-- MONITOR_SAMPLE (R516, R517, R521, R522, R527). -/
def execMonitorSample (kind : Fin 3) (n : Fin 80) (v : Word32) (s : State) : Host.Outcome State Fault Refusal :=
  .next (monSample kind.val n.val v s)

/-- SENSOR_FAILED (R517). -/
def execSensorFailed (n : Fin 48) (s : State) : Host.Outcome State Fault Refusal := .next (sensorFail n.val s)

/-- SHEPHERD_CYCLE (R520, R521, R524 to R527, R529, R530, R532): from stage 2 on. -/
def execShepherdCycle (occ : List (Fin 1001)) (u : Fin 1001) (s : State) : Host.Outcome State Fault Refusal :=
  .next (if s.start.stage < 2 || s.clk.holdAll then s else shepCycle occ u.val s)

/-- EMERGENCY_RETURN (R522). -/
def execEmergencyReturn (r : RegionNo) (s : State) : Host.Outcome State Fault Refusal :=
  .next (let x := shepAt s r.val
    match x.emergency, x.coolAt with
    | true, some t =>
      if s.start.stage < 2 then s
      else
        let s1 := on (reach (t + ms 100)) s
        let s2 := shepPut r.val { x with emergency := false, coolAt := none } s1
        let s3 := if served s2 r.val then contPut { s2.cont with withdrawn := sdel s2.cont.withdrawn r.val } s2 else s2
        decide_ r.val 7 0x0D s3
    | _, _ => s)

/-- RAIL_SETTLED (R519): towards a faster point, the frequency follows the rail. -/
def execRailSettled (r : RegionNo) (s : State) : Host.Outcome State Fault Refusal :=
  .next (let x := shepAt s r.val
    match x.change with
    | some (true, _, _) =>
      let near := (span (4 * r.val) 4).all (fun n =>
        let v := dget s.io (idx 0x030002 (n + 1)) 0
        decide (v ≤ x.rail + 10) && decide (x.rail ≤ v + 10))
      if near then freqTarget r.val (pointKhz x.point) s else s
    | _ => s)

/-- RAIL_SETTLE_TIMEOUT (R519): the region stays at its old frequency, and takes no faster point for 1 s. -/
def execRailSettleTimeout (r : RegionNo) (s : State) : Host.Outcome State Fault Refusal :=
  .next (let x := shepAt s r.val
    match x.change, mget s.clk.target r.val with
    | some (true, old, t), none =>
      let s1 := on (reach (t + us 500)) s
      decide_ r.val old 0x11 (shepPut r.val { x with point := old, change := none, settleBar := s1.io.now + sec 1 } s1)
    | _, _ => s)

/-- VR_WRITE (R591): the write at the head of the queue. -/
def execVrWrite (acked : Bool) (s : State) : Host.Outcome State Fault Refusal :=
  .next (match s.mon.vrQ with
    | [] => s
    | (r, c) :: q =>
      on (emit (.vout r c)) { s with mon := { s.mon with vrQ := q, vrSet := if acked then mput s.mon.vrSet r c else s.mon.vrSet } })

/-- R528 for a region, from the worst of its 16 process monitors in ppm. -/
def ageRegion (r : Nat) (s : State) : State :=
  let ppm := ((span (16 * r) 16).map (fun n => dget s.io (idx 0x030003 (n + 1)) 0)).foldl max 0
  let a := min 40 (5 * ceilDiv (8 * ppm) 50000)
  let b := min 7 (ceilDiv (8 * ppm - 400000) 370000)
  let a0 := dget s.io (idx 0x030111 (r + 1)) 0
  let b0 := dget s.io (idx 0x030112 (r + 1)) 0
  let s1 := on (storedSet (idx 0x030112 (r + 1)) b) (if a0 < a then on (storedSet (idx 0x030111 (r + 1)) a) s else s)
  let p := (shepAt s r).point
  let s2 := if a0 < a then decide_ r p 0x0A s1 else s1
  let s3 := if b0 < b then decide_ r p 0x0B s2 else s2
  if a0 < a || b0 < b then monEvent 0x0304 r (max a0 a) b s3 else s3

/-- AGEING_UPDATE (R528, R534): while 03:0110 is 0, A stays and nothing is barred. -/
def execAgeingUpdate (s : State) : Host.Outcome State Fault Refusal :=
  .next (if s.start.stage < 2 || s.clk.holdAll then s
    else if dget s.io (idx 0x030110 0) 1 = 1 then (List.range 4).foldl (fun s r => ageRegion r s) s
    else (List.range 4).foldl (fun s r => on (storedSet (idx 0x030112 (r + 1)) 0) s) s)

/-- MON_PROC_MEASURE (R516, R535). -/
def execMonProcMeasure (by_ : Issuer) (arg : Byte) (vals : List Word32) (s : State) : Host.Outcome State Fault Refusal :=
  .next (match gate s.start.stage by_ 0x030121 s.io with
    | some e => on (answer by_ (idx 0x030121 0) e []) s
    | none =>
      if arg ≠ 1 then on (answer by_ (idx 0x030121 0) 5 []) s
      else on (answer by_ (idx 0x030121 0) 0 []) ((vals.take 80).zipIdx.foldl (fun s x => procSample x.2 x.1 s) s))

/-- SHEPHERD_SILENT (R530): every region in service moves to P7. -/
def execShepherdSilent (s : State) : Host.Outcome State Fault Refusal :=
  .next (if s.start.stage < 2 || s.clk.holdAll || s.mon.silent then s
    else
      let s1 := on (reach (s.mon.beatAt + ms 10)) s
      let rs := (List.range 4).filter (served s1)
      let s2 := rs.foldl (fun s r => decide_ r 7 0x12 (changePoint r 7 (shepPut r { shepAt s r with change := none } s))) s1
      monEvent 0x0305 0 0 rs.length (on (bump32 0x030202 0) { s2 with mon := { s2.mon with silent := true } }))

/-- MON_TRUST (R525, R535). -/
def execMonTrust (by_ : Issuer) (arg : Byte) (s : State) : Host.Outcome State Fault Refusal :=
  .next (match gate s.start.stage by_ 0x030120 s.io with
    | some e => on (answer by_ (idx 0x030120 0) e []) s
    | none =>
      if 48 ≤ arg.toNat then on (answer by_ (idx 0x030120 0) 5 []) s
      else
        let n := arg.toNat
        let s1 := on (distrustSet n false) { s with mon := { s.mon with failed := sdel s.mon.failed n } }
        on (answer by_ (idx 0x030120 0) 0 []) (if s.mon.failed.contains n then on (dset (idx 0x030000 (n + 1)) 0) s1 else s1))

end Sys2Proof.Machine
end

