-- ==== Sys2Proof/Machine/Rings.lean ====
section
/-!
DEFINITION. The ring and admin-queue commands of chapter 10 that touch nothing but the reporting side: doorbells,
batches, NOP, RECEIVE_POST, control block reads, timers, ENABLE, and the admin commands on existing rings.
Choices of the model coded here, by entry of the assumption log: DESIGN CHOICE 6, 42; DEDUCED 40.
-/
namespace Sys2Proof.Machine

/-- R192, R193, R203: a doorbell is rung. -/
def ringDoorbell (fn page slot : Nat) (io : Io) : Io :=
  match io.rings.rings.find? (fun p => p.2.owner == fn && p.2.page == page && p.2.slot == slot) with
  | none => bump32 0x060011 0 io
  | some (id, r) =>
    if frozen io fn then io
    else if r.isCq then hostRead r.owner r.ctlblk.toNat 8 (ringPut id { r with reads := r.reads ++ [true] } io)
    else
      match r.state with
      | .active => kick id (ringPut id { r with scanAgain := true } io)
      | .suspended => ringPut id { r with scanAgain := true } io
      | _ => io

/-- RING_DOORBELL (R192): ignored on a frozen VF (R174), on a ring in ERROR (R208) and on a DRAINING ring (R216). -/
def execRingDoorbell (fn : Fn) (page : Nat) (slot : Fin 16) (s : State) : Host.Outcome State Fault Refusal :=
  .next (on (ringDoorbell fn.val page slot.val) s)

/-- FETCH_BATCH_RETURN (R187, R188, R190, R191, R193 to R198, R202, R207, R208). -/
def execFetchBatchReturn (ring : Nat) (reads : List EntryRead) (s : State) : Host.Outcome State Fault Refusal :=
  .next (on (batchReturn ring reads) s)

/-- R195: the NOP fetched at a counter value completes. -/
def nopDone (ring counter : Nat) (io : Io) : Io :=
  match ringOf io ring with
  | none => io
  | some r =>
    match fetchedAt r counter with
    | none => io
    | some f => if f.opcode = 0 then finish ring counter (cplOf ring r f 0 0 0 0 []) io else io

/-- NOP (R195). -/
def execRingNop (ring : Nat) (counter : Word32) (s : State) : Host.Outcome State Fault Refusal :=
  .next (on (nopDone ring counter.toNat) s)

/-- R197: a fetched RECEIVE_POST posts its buffer. -/
def receivePost (ring counter : Nat) (io : Io) : Io :=
  match ringOf io ring with
  | none => io
  | some r =>
    if r.kind = 2 && r.state != .draining then
      ringPut ring { r with fetched := r.fetched.map (fun f =>
        if f.counter == counter && f.opcode == 2 && f.done.isNone then { f with started := true } else f) } io
    else io

/-- RECEIVE_POST (R197). -/
def execReceivePost (ring : Nat) (counter : Word32) (s : State) : Host.Outcome State Fault Refusal :=
  .next (on (receivePost ring counter.toNat) s)

/-- R197: a TRANSMIT whose frame has been read completes; with the timestamp offload only when the frame has left its
port, with that time; dropped after being read, with status 0x0B. -/
def transmitDone (ring counter : Nat) (io : Io) : Io :=
  match ringOf io ring with
  | none => io
  | some r =>
    match fetchedAt r counter with
    | none => io
    | some f =>
      if f.opcode ≠ 1 || !f.started then io
      else if f.dropped then finish ring counter (cplOf ring r f 0x0B f.length 0 0 []) io
      else
        match f.timestamp, f.txTime with
        | true, none => io
        | true, some t => finish ring counter (cplOf ring r f 0 f.length 0 t []) io
        | false, t => finish ring counter (cplOf ring r f 0 f.length 0 (t.getD 0) []) io

/-- TRANSMIT_DONE (R197, R199 to R206). -/
def execTransmitDone (ring : Nat) (counter : Word32) (s : State) : Host.Outcome State Fault Refusal :=
  .next (on (transmitDone ring counter.toNat) s)

/-- CQ_CTLBLK_READ (R203 to R206, R209): the read returned, or failed as R207 cause 0x05 says. -/
def execCqCtlblkRead (ring : Nat) (read : Option (Word32 × Bool)) (s : State) : Host.Outcome State Fault Refusal :=
  .next (on (match read with
    | some c => ctlblkReturn ring c.1 c.2
    | none => cqFault ring) s)

/-- R203: the control block is read again while completions are held. -/
def cqPoll (ring : Nat) (io : Io) : Io :=
  match ringOf io ring with
  | none => io
  | some r =>
    if r.overflow.isEmpty && r.spill.isEmpty then io
    else hostRead r.owner r.ctlblk.toNat 8 (ringPut ring { r with reads := r.reads ++ [false] }
      (advance (us (dget io (idx 0x060003 0) 100)) io))

/-- CQ_POLL_TIMER (R203). -/
def execCqPollTimer (ring : Nat) (s : State) : Host.Outcome State Fault Refusal := .next (on (cqPoll ring) s)

/-- R204: T microseconds after the first uninterrupted entry an armed ring interrupts; with K = 0 never. -/
def coalesce (ring : Nat) (io : Io) : Io :=
  match ringOf io ring with
  | none => io
  | some r =>
    if r.armed && decide (0 < r.k) && decide (1 ≤ r.since) then
      ringIrq ring r (reach (r.firstAt + us r.t) io)
    else io

/-- COALESCE_TIMER (R204). -/
def execCoalesceTimer (ring : Nat) (s : State) : Host.Outcome State Fault Refusal := .next (on (coalesce ring) s)

/-! ### ENABLE (R211) -/

/-- A write of 1 to ENABLE. -/
def admEnable (fn stage : Nat) (translated : Bool) (io : Io) : Io :=
  let a := admOf io fn
  if a.stopping then regOn .admCtrl fn 0 (admPut fn { a with startHeld := true } io)
  else if a.sq.isSome then io
  else admStart fn stage translated io

/-- ADM_ENABLE_SET (R211 steps 1 and 2). -/
def execAdmEnableSet (fn : Fn) (translated : Bool) (s : State) : Host.Outcome State Fault Refusal :=
  .next (on (admEnable fn.val s.start.stage translated) s)

/-- A write of 0 to ENABLE: fetching of admin entries stops; a held start is cancelled. -/
def admDisable (fn : Nat) (io : Io) : Io :=
  let a := admOf io fn
  let io1 := regOff .admCtrl fn 0 io
  if a.stopping then admPut fn { a with startHeld := false } io1
  else
    match a.sq with
    | none => io1
    | some k =>
      let io2 := admPut fn { a with stopping := true } io1
      match ringOf io2 k with
      | none => io2
      | some r => ringPut k { r with state := .draining, scan := false, scanAgain := false } io2

/-- ADM_ENABLE_CLEAR (R211 step 3). -/
def execAdmEnableClear (fn : Fn) (s : State) : Host.Outcome State Fault Refusal := .next (on (admDisable fn.val) s)

/-- R211 step 4: both admin rings are deleted; a held start runs from here. -/
def admDelete (fn stage : Nat) (translated : Bool) (io : Io) : Io :=
  let a := admOf io fn
  if !a.stopping then io
  else
    let gone (k : Option Nat) (io : Io) : Io := match k with
      | some k => ringDrop k io
      | none => io
    let io1 := gone a.cq (gone a.sq (admPut fn { a with sq := none, cq := none, stopping := false, startHeld := false } io))
    let io2 := regOff .admStatus fn 0 (regOff .admStatus fn 1 (regOff .admStatus fn 2 io1))
    if a.startHeld then admStart fn stage translated io2 else io2

/-- ADMIN_RINGS_DELETED (R211 step 4). -/
def execAdminRingsDeleted (fn : Fn) (translated : Bool) (s : State) : Host.Outcome State Fault Refusal :=
  .next (on (admDelete fn.val s.start.stage translated) s)

/-! ### Admin commands on existing rings (R212) -/

/-- The ring an admin entry names at 0x08, if the function owns it. -/
def ownedRing (io : Io) (fn : Nat) (entry : Bytes) : Option (Nat × Ring) :=
  let id := field entry 8 4
  match ringOf io id with
  | some r => if r.owner = fn then some (id, r) else none
  | none => none

/-- Reserved bytes of an admin entry: control bits 3:1, bytes 2 and 3, and those `zero` lists as offset and length. -/
def admReserved (entry : Bytes) (zero : List (Nat × Nat)) : Bool :=
  bits (field entry 0 1) 3 1 != 0 || field entry 2 2 != 0 || zero.any (fun z => !allZero (slice entry z.1 z.2))

/-- The checks every command on a ring makes before its own: the stage (R213), reserved fields, the ring, and that it
is no admin ring (R212). -/
def admRing (fn stage : Nat) (entry : Bytes) (zero : List (Nat × Nat)) (allowAdmin : Bool) (io : Io) :
    Nat ⊕ (Nat × Ring) :=
  if stage < 3 then .inl 0x17
  else if admReserved entry zero then .inl 0x10
  else
    match ownedRing io fn entry with
    | none => .inl 0x11
    | some (id, r) => if r.admin && !allowAdmin then .inl 0x15 else .inr (id, r)

/-- MODIFY_QUEUE: the status its arguments earn on a ring. Coalescing and spill fields are a completion ring's, the
weight a submission ring's. -/
def modifyStatus (fn : Nat) (entry : Bytes) (r : Ring) (io : Io) : Nat :=
  let m := field entry 0x0C 1
  let q := field entry 0x18 4
  let w := field entry 0x16 1
  if m / 64 ≠ 0 || field entry 0x17 1 / 2 ≠ 0 || (if r.isCq then m.testBit 4 else m % 16 ≠ 0 || m.testBit 5) then 0x10
  else if m.testBit 0 && vectorLimit fn ≤ field entry 0x10 2 then 0x10
  else if m.testBit 2 && 10000 < field entry 0x14 2 then 0x10
  else if m.testBit 4 && (w < 1 || 16 < w) then 0x10
  else if m.testBit 3 && (q < 64 || 65536 < q || q < r.spill.length) then 0x10
  else if m.testBit 3 && r.sram && !r.spill.isEmpty then 0x15
  else if m.testBit 3 && io.rings.pool * 2 ^ 20 < spillReserved io - (if r.sram then 0 else r.quota * 64) + q * 64 then 0x12
  else if r.state == .draining then 0x15
  else 0

/-- MODIFY_QUEUE: the ring with the selected fields changed. -/
def modified (entry : Bytes) (r : Ring) : Ring :=
  let m := field entry 0x0C 1
  let auto := (field entry 0x17 1).testBit 0
  { r with
    vector := if m.testBit 0 then field entry 0x10 2 else r.vector
    k := if m.testBit 1 then field entry 0x12 2 else r.k
    t := if m.testBit 2 then field entry 0x14 2 else r.t
    quota := if m.testBit 3 then field entry 0x18 4 else r.quota
    sram := r.sram && !m.testBit 3
    weight := if m.testBit 4 then field entry 0x16 1 else r.weight
    autoArm := if m.testBit 5 then auto else r.autoArm
    armed := r.armed || (m.testBit 5 && auto) }

/-- MODIFY_QUEUE. -/
def modifyQueueIo (fn stage : Nat) (entry : Bytes) (io : Io) : Io :=
  if !admRuns io fn then io
  else
    match admRing fn stage entry [(0x0D, 3), (0x1C, 36)] false io with
    | .inl st => admReply fn entry st 0 0 [] io
    | .inr (id, r) =>
      let st := modifyStatus fn entry r io
      if st ≠ 0 then admReply fn entry st 0 0 [] io
      else admReply fn entry 0 id 0 [] (ringTotals (ringPut id (modified entry r) io))

/-- MODIFY_QUEUE (R212). -/
def execModifyQueue (fn : Fn) (entry : Bytes) (s : State) : Host.Outcome State Fault Refusal :=
  .next (on (modifyQueueIo fn.val s.start.stage entry) s)

/-- QUERY_QUEUE: the 24 bytes from 0x20 (R212). -/
def queryBytes (io : Io) (id : Nat) (r : Ring) : Bytes :=
  le 1 (match r.state with | .active => 0 | .overflow => 1 | .suspended => 2 | .error => 3 | .draining => 4) ++
  le 1 r.cause ++ le 2 (boundTo io id).length ++ le 4 r.counter.toNat ++ le 4 r.latched ++
  le 1 r.overflow.length ++ le 3 0 ++ le 4 r.spill.length ++ le 4 r.lost

/-- QUERY_QUEUE. -/
def queryQueueIo (fn stage : Nat) (entry : Bytes) (io : Io) : Io :=
  if !admRuns io fn then io
  else
    match admRing fn stage entry [(0x0C, 52)] true io with
    | .inl st => admReply fn entry st 0 0 [] io
    | .inr (id, r) => admReply fn entry 0 id 0 (queryBytes io id r) io

/-- QUERY_QUEUE (R212): answered for admin rings as well. -/
def execQueryQueue (fn : Fn) (entry : Bytes) (s : State) : Host.Outcome State Fault Refusal :=
  .next (on (queryQueueIo fn.val s.start.stage entry) s)

/-! ### RESET_QUEUE and DELETE_QUEUE (R206, R209, R212) -/

/-- R212: the ring's fetched but unstarted entries complete with status 0x06; a posted buffer no frame has come to counts
as unstarted. -/
def flushUnstarted (id : Nat) (io : Io) : Io :=
  match ringOf io id with
  | none => io
  | some r =>
    deliver id (ringPut id { r with fetched := r.fetched.map (fun f =>
      if (f.started && r.kind != 2) || f.done.isSome then f else { f with done := some (some (cplOf id r f 6 0 0 0 [])) }) } io)

/-- A submission ring enters DRAINING for a command with the tag of `entry`. -/
def beginDrain (id : Nat) (r : Ring) (start : Option Nat) (entry : Bytes) (io : Io) : Io :=
  flushUnstarted id (ringPut id { r with
    state := .draining, scan := false, scanAgain := false,
    drain := some { start := start, tag := field entry 4 4, from_ := r.state } } io)

/-- R206: what a completion ring holds is discarded and counted as lost; its bound rings resume. -/
def cqDiscard (id : Nat) (r : Ring) (io : Io) : Io :=
  let n := r.overflow.length + r.spill.length + r.awaiting.length
  bumpBy 64 (idx 0x060012 0) n (ringPut id { r with
    overflow := [], spill := [], awaiting := [], reads := [], stopped := false, heldCount := 0, lost := r.lost + n } io)

/-- RESET_QUEUE of a completion ring. -/
def cqReset (fn id : Nat) (r : Ring) (start : Nat) (entry : Bytes) (io : Io) : Io :=
  let io1 := cqDiscard id r io
  match ringOf io1 id with
  | none => io1
  | some r1 =>
    let io2 := ringPut id { r1 with
      state := .active, cause := 0, latched := 0, counter := BitVec.ofNat 32 start, seen := BitVec.ofNat 32 start,
      since := 0, autoArm := r1.autoArm0, armed := r1.autoArm0, lost := 0 } io1
    admReply fn entry 0 id r1.lost [] (resumeBound id io2)

/-- DELETE_QUEUE of a completion ring no submission ring is bound to. -/
def cqDelete (fn id : Nat) (r : Ring) (entry : Bytes) (io : Io) : Io :=
  let n := r.overflow.length + r.spill.length + r.awaiting.length
  admReply fn entry 0 id (r.lost + n) [] (ringDrop id (bumpBy 64 (idx 0x060012 0) n io))

/-- RESET_QUEUE. -/
def resetQueueIo (fn stage : Nat) (entry : Bytes) (io : Io) : Io :=
  if !admRuns io fn then io
  else
    match admRing fn stage entry [(0x10, 48)] false io with
    | .inl st => admReply fn entry st 0 0 [] io
    | .inr (id, r) =>
      if r.state == .draining then admReply fn entry 0x15 0 0 [] io
      else if r.isCq then cqReset fn id r (field entry 0x0C 4) entry io
      else beginDrain id r (some (field entry 0x0C 4)) entry io

/-- RESET_QUEUE (R206, R209, R212). -/
def execResetQueue (fn : Fn) (entry : Bytes) (s : State) : Host.Outcome State Fault Refusal :=
  .next (on (resetQueueIo fn.val s.start.stage entry) s)

/-- DELETE_QUEUE. -/
def deleteQueueIo (fn stage : Nat) (entry : Bytes) (io : Io) : Io :=
  if !admRuns io fn then io
  else
    match admRing fn stage entry [(0x0C, 52)] false io with
    | .inl st => admReply fn entry st 0 0 [] io
    | .inr (id, r) =>
      if r.state == .draining then admReply fn entry 0x15 0 0 [] io
      else if r.isCq then
        if (boundTo io id).isEmpty then cqDelete fn id r entry io else admReply fn entry 0x16 0 0 [] io
      else beginDrain id r none entry io

/-- DELETE_QUEUE (R206, R209, R212). -/
def execDeleteQueue (fn : Fn) (entry : Bytes) (s : State) : Host.Outcome State Fault Refusal :=
  .next (on (deleteQueueIo fn.val s.start.stage entry) s)

/-- The end of a drain: the ring restarts at S, suspended while its completion ring holds it, or is gone. -/
def endDrain (id : Nat) (r : Ring) (d : Drain) (io : Io) : Io :=
  let entry : Bytes := le 1 0 ++ le 1 (if d.start.isSome then 0x84 else 0x85) ++ le 2 0 ++ le 4 d.tag
  match d.start with
  | some c =>
    admReply r.owner entry 0 id 0 [] (ringPut id { r with
      state := if cqHolds io r.cq then .suspended else .active, cause := 0, latched := 0, drain := none,
      counter := BitVec.ofNat 32 c, fetched := [], scan := false, scanAgain := false } io)
  | none => admReply r.owner entry 0 id 0 [] (ringDrop id io)

end Sys2Proof.Machine
end

