-- ==== Sys2Proof/Machine/Net.lean ====
section
/-!
DEFINITION. The commands of chapter 11 that the network side carries out alone: received frames, PFC, egress, the time
base, dealing, the Fold and port links; and the ring commands that need it: TRANSMIT, CREATE_CQ, CREATE_SQ and the end
of a drain.
Choices of the model coded here, by entry of the assumption log: DESIGN CHOICE 42, 46; DEDUCED 40, 41, 43, 83.
-/
namespace Sys2Proof.Machine

/-- MAC_FRAME_RECEIVED (R219 to R222, R240, R241). -/
def execMacFrameReceived (port : PortNo) (frame : Bytes) (fecOk fcsOk : Bool) (s : State) :
    Host.Outcome State Fault Refusal :=
  .next (onWire (macReceive port.val frame fecOk fcsOk) s)

/-- PFC_FRAME (R221). -/
def execPfcFrame (port : PortNo) (prio : Fin 8) (quanta : Half) (s : State) : Host.Outcome State Fault Refusal :=
  .next (onWire (fun w => if portExists w.net port.val && (portAt w.net port.val).up && !w.net.frozen
    then pauseQueue port.val prio.val quanta.toNat w else w) s)

/-- R221: a pause runs out. -/
def pauseEnds (p q : Nat) (w : Wire) : Wire :=
  match mget (portAt w.net p).paused q with
  | none => w
  | some t => pauseQueue p q 0 (w.on (reach t))

/-- PFC_PAUSE_EXPIRY (R221). -/
def execPfcPauseExpiry (port : PortNo) (prio : Fin 8) (s : State) : Host.Outcome State Fault Refusal :=
  .next (onWire (pauseEnds port.val prio.val) s)

/-- R221: half of 0xFFFF quanta after it was sent, an XOFF that still holds is sent again. -/
def refreshXoff (p q : Nat) (w : Wire) : Wire :=
  match mget (portAt w.net p).xoff q with
  | none => w
  | some t => sendPfc p q 0xFFFF (w.on (reach (t + ceilDiv (65535 * 512) (2 * modeSpeed w.net.mode))))

/-- XOFF_REFRESH (R221). -/
def execXoffRefresh (port : PortNo) (prio : Fin 8) (s : State) : Host.Outcome State Fault Refusal :=
  .next (onWire (refreshXoff port.val prio.val) s)

/-- EGRESS_TRANSMIT (R221, R222, R241). -/
def execEgressTransmit (port : PortNo) (s : State) : Host.Outcome State Fault Refusal :=
  .next (onWire (egressSend port.val) s)

/-! ### The time base (R223, R224) -/

/-- R223: the trim of 07:0020 is written; 01:0003 becomes 1. -/
def trimWrite (v : Nat) (io : Io) : Io := dset (idx 0x010003 0) 1 (dset (idx 0x070020 0) v io)

/-- TIME_FREQ_ADJ: the write, checked (R11 to R14, R223). -/
def timeFreqAdj (stage : Nat) (by_ : Issuer) (v : Word32) (w : Wire) : Wire :=
  match gate stage by_ 0x070020 w.io with
  | some st => w.on (answer by_ (idx 0x070020 0) st [])
  | none =>
    if toSigned 32 v.toNat < -500000000 || 500000000 < toSigned 32 v.toNat then w.on (answer by_ (idx 0x070020 0) 5 [])
    else (w.on (fun io => answer by_ (idx 0x070020 0) 0 [] (trimWrite v.toNat io))).onNet (fun n => { n with trimAt := w.io.now })

/-- TIME_FREQ_ADJ (R223). -/
def execTimeFreqAdj (by_ : Issuer) (v : Word32) (s : State) : Host.Outcome State Fault Refusal :=
  .next (onWire (timeFreqAdj s.start.stage by_ v) s)

/-- R223: a step of the time base, counted in 07:0023. -/
def stepTime (v : Word64) (io : Io) : Io := bump32 0x070023 0 { io with timeBase := io.timeBase + v }

/-- TIME_STEP: the command, checked. -/
def timeStepIo (stage : Nat) (by_ : Issuer) (v : Word64) (io : Io) : Io :=
  match gate stage by_ 0x070021 io with
  | some st => answer by_ (idx 0x070021 0) st [] io
  | none => answer by_ (idx 0x070021 0) 0 [] (stepTime v io)

/-- TIME_STEP (R223). -/
def execTimeStep (by_ : Issuer) (v : Word64) (s : State) : Host.Outcome State Fault Refusal :=
  .next (on (timeStepIo s.start.stage by_ v) s)

/-- R223: 01:0003 goes from 1 to 2 when 07:0022 seconds pass without a trim. -/
def holdover (w : Wire) : Wire :=
  if dget w.io (idx 0x010003 0) 0 = 1 then
    w.on (fun io => dset (idx 0x010003 0) 2 (reach (w.net.trimAt + sec (dget io (idx 0x070022 0) 4)) io))
  else w

/-- HOLDOVER_EXPIRY (R223). -/
def execHoldoverExpiry (s : State) : Host.Outcome State Fault Refusal := .next (onWire holdover s)

/-- PPS_OUT_FALL (R224): the pin falls 07:0025 ms after it rose. -/
def execPpsOutFall (s : State) : Host.Outcome State Fault Refusal :=
  .next (onWire (fun w => if w.net.ppsOut
    then (w.on (fun io => reach (w.net.ppsAt + ms (dget io (idx 0x070025 0) 100)) io)).onNet (fun n => { n with ppsOut := false })
    else w) s)

/-! ### Dealing and the Fold -/

/-- DROVER_DEAL (R226 to R232). -/
def execDroverDeal (s : State) : Host.Outcome State Fault Refusal := .next (putWake (onWire (deal s.cont) s))

/-- R235: the oldest result of a pipeline crosses to the Fold. -/
def resultToFold (r : Nat) (w : Wire) : Wire :=
  if w.net.frozen then w
  else
    match (pipeQ w.net r).outbox with
    | [] => w
    | x :: xs => foldResult x (w.onNet (pipeQPut r { pipeQ w.net r with outbox := xs }))

/-- PIPELINE_RESULT (R229, R235, R236, R238, R272). -/
def execPipelineResult (r : RegionNo) (s : State) : Host.Outcome State Fault Refusal :=
  .next (onWire (resultToFold r.val) s)

/-- HOLE_TIMEOUT (R236). -/
def execHoleTimeout (src : BitVec 24) (s : State) : Host.Outcome State Fault Refusal :=
  .next (onWire (fun w => if w.net.frozen then w else holeLost src.toNat w) s)

/-- HELD_RELEASE_RESUME (R238). -/
def execHeldReleaseResume (src : BitVec 24) (s : State) : Host.Outcome State Fault Refusal :=
  .next (onWire (fun w => if w.net.held.contains src.toNat then releaseAll src.toNat w else w) s)

/-- R243: the link of a port goes down: pauses end, and what waits to leave is dropped as R238 says. -/
def linkDownPort (p : Nat) (w : Wire) : Wire :=
  let x := portAt w.net p
  let gone := x.egress.flatMap (·.2)
  let w1 := w.onNet (portPut p { x with up := false, training := true, paused := [], xoff := [], egress := [] })
  portReport p (gone.foldl (fun w k => dropPkt k (w.on (bump64 0x070117 (p + 1)))) w1)

/-- PORT_LINK_DOWN (R243). -/
def execPortLinkDown (port : PortNo) (s : State) : Host.Outcome State Fault Refusal :=
  .next (onWire (fun w => if (portAt w.net port.val).up then linkDownPort port.val w else w) s)

/-- Whether a port may run: the mode defines it, and 07:0001 enables it; before stage 3 port 0 alone (R59). -/
def portMayRun (w : Wire) (stage p : Nat) : Bool :=
  portExists w.net p && (if stage < 3 then p == 0 else (dget w.io (idx 0x070001 0) 255).testBit p)

/-- PORT_LINK_UP (R242); none while a lane of the port is tested (R585). -/
def execPortLinkUp (port : PortNo) (s : State) : Host.Outcome State Fault Refusal :=
  .next (onWire (fun w => if portMayRun w s.start.stage port.val &&
      !lanesTested s.dbg (fun l => laneKind l == some 0 && laneEthPort w.net l == port.val)
    then portReport port.val (w.onNet (portPut port.val { portAt w.net port.val with up := true, training := false })) else w) s)

/-! ### Transmit (R197, R241) -/

/-- A TRANSMIT's frame with its offloads applied. -/
def offloads (f : Fetched) (frame : Bytes) : Bytes :=
  let a := match f.vlan with
    | some tci => pushTag frame 0x8100 tci
    | none => frame
  let b := if f.ipSum then fillIpSum a else a
  if f.l4Sum then fillL4Sum b else b

/-- R197: the frame of a fetched TRANSMIT enters host transmit staging; a failed read completes the entry with 0x05. A
frame that staging has no room for is not read. -/
def transmit (ring counter : Nat) (frame : Option Bytes) (w : Wire) : Wire :=
  match ringOf w.io ring with
  | none => w
  | some r =>
    match fetchedAt r counter with
    | none => w
    | some f =>
      if f.opcode ≠ 1 || f.started then w
      else
        match frame with
        | none => w.on (finish ring counter (cplOf ring r f 5 0 0 0 []))
        | some b =>
          let out := offloads f (padTo f.length b)
          if 4 * dget w.io (idx 0x070121 0) 8192 < unitsIn w.net.hostQ + unitsOf out then w
          else
            let (h, w1) := newHandle w
            let prio := match f.vlan with
              | some tci => tci / 2 ^ 13
              | none => 0
            let k := newPkt (ringSrc ring) prio r.vport 0 out (some (ring, counter)) h
            (w1.on (ringPut ring { r with fetched := r.fetched.map (fun x => if x.counter == counter then { x with started := true } else x) })).onNet
              (fun n => { n with hostQ := n.hostQ ++ [k] })

/-- TRANSMIT (R197, R241). -/
def execRingTransmit (ring : Nat) (counter : Word32) (frame : Option Bytes) (s : State) :
    Host.Outcome State Fault Refusal :=
  .next (onWire (transmit ring counter.toNat frame) s)

/-- R209, R243: a drain ends once the ring's fetched entries have finished and the Fold holds no packet of it. -/
def drainDone (ring : Nat) (w : Wire) : Wire :=
  match ringOf w.io ring with
  | none => w
  | some r =>
    match r.drain with
    | none => w
    | some d =>
      if !r.fetched.isEmpty || w.net.fold.any (fun x => x.src == ringSrc ring) || w.net.hostQ.any (fun x => x.src == ringSrc ring) then w
      else (w.on (endDrain ring r d)).onNet (seqRestart (ringSrc ring))

/-- RING_DRAIN_DONE (R206, R209, R212, R226, R243). -/
def execRingDrainDone (ring : Nat) (s : State) : Host.Outcome State Fault Refusal := .next (onWire (drainDone ring) s)

/-! ### Creating rings (R212, R213) -/

/-- The queue-pair quota of a function (R169, R213). -/
def queuePairs (io : Io) (fn : Nat) : Nat :=
  if fn < 16 then 16384
  else
    match vfRun io (fn - 16) with
    | some r => field r 8 2
    | none => 16

/-- Rings a function holds. -/
def ringsOf (io : Io) (fn : Nat) : Nat := (io.rings.rings.filter (fun p => p.2.owner == fn)).length

/-- R59, R213: a create before stage 3 or after adoption: 0 where it may go on. `second` says that a Sheepdog ring of
that kind exists. -/
def sheepdogStatus (fn stage : Nat) (adopted flag : Bool) (log2n : Nat) (departs second : Bool) : Nat :=
  if stage < 3 && !(fn < 16 && fn % 4 == 0) then 0x17
  else if stage < 3 && !adopted then (if !flag || 12 < log2n || departs || second then 0x10 else 0)
  else if stage < 3 then 0x10
  else if flag then 0x10 else 0

/-- R127: whether 00:0101.01 permits a ring format. -/
def formatOk (io : Io) (fmt : Nat) : Bool :=
  (fmt == 1 || fmt == 2) && (dget io (idx 0x000101 1) 3).testBit (fmt - 1)

/-- CREATE_CQ: the status its arguments earn. -/
def createCqStatus (fn stage : Nat) (adopted : Bool) (e : Bytes) (io : Io) : Nat :=
  let fl := field e 0x28 1
  let q := if field e 0x20 4 = 0 then 1024 else field e 0x20 4
  let n := field e 0x18 1
  let second := io.rings.rings.any (fun p => p.2.sheepdog && p.2.isCq)
  let sd := sheepdogStatus fn stage adopted (fl.testBit 1) n (field e 0x1A 2 != 1) second
  if sd ≠ 0 then sd
  else if admReserved e [(0x2C, 20)] || 4 ≤ fl then 0x10
  else if n < 4 || 16 < n || field e 8 8 % 4096 ≠ 0 || field e 0x10 8 % 64 ≠ 0 || vectorLimit fn ≤ field e 0x1A 2 ||
    10000 < field e 0x1E 2 || q < 64 || 65536 < q then 0x10
  else if !formatOk io (field e 0x19 1) then 0x14
  else if 16 ≤ field e 0x29 1 || pageLimit fn ≤ field e 0x2A 2 || doorbellHeld io fn (field e 0x2A 2) (field e 0x29 1) then 0x13
  else if 2 + 2 * queuePairs io fn ≤ ringsOf io fn then 0x12
  else if !fl.testBit 1 && io.rings.pool * 2 ^ 20 < spillReserved io + q * 64 then 0x12
  else 0

/-- CREATE_CQ: the ring its arguments ask for. -/
def createdCq (fn : Nat) (e : Bytes) : Ring :=
  let fl := field e 0x28 1
  let c := BitVec.ofNat 32 (field e 0x24 4)
  { Ring.blank fn with
    isCq := true, fmt := field e 0x19 1, log2n := field e 0x18 1, base := BitVec.ofNat 64 (field e 8 8), counter := c,
    seen := c, ctlblk := BitVec.ofNat 64 (field e 0x10 8), vector := field e 0x1A 2, k := field e 0x1C 2, t := field e 0x1E 2,
    autoArm := fl.testBit 0, autoArm0 := fl.testBit 0, armed := fl.testBit 0, sheepdog := fl.testBit 1, sram := fl.testBit 1,
    quota := if fl.testBit 1 then 64 else if field e 0x20 4 = 0 then 1024 else field e 0x20 4, slot := field e 0x29 1,
    page := field e 0x2A 2 }

/-- A refused creation: a format that is not permitted is counted in 00:0104.01 (R127, R213). -/
def createRefused (fn : Nat) (e : Bytes) (st fmt : Nat) (io : Io) : Io :=
  admReply fn e st 0 0 [] (if st = 0x14 && !formatOk io fmt then bump32 0x000104 1 io else io)

/-- A ring is created under an ID of the Kwaith's choice, and the command answers with it. -/
def createDone (fn : Nat) (e : Bytes) (r : Ring) (io : Io) : Option Nat × Io :=
  match ringCreate r io with
  | (none, io1) => (none, admReply fn e 0x12 0 0 [] io1)
  | (some k, io1) => (some k, admReply fn e 0 k 0 [] (notFresh fn io1))

/-- CREATE_CQ. -/
def createCqW (fn stage : Nat) (adopted : Bool) (e : Bytes) (w : Wire) : Wire :=
  if !admRuns w.io fn then w
  else
    let st := createCqStatus fn stage adopted e w.io
    if st ≠ 0 then w.on (createRefused fn e st (field e 0x19 1)) else w.on (fun io => (createDone fn e (createdCq fn e) io).2)

/-- R225: whether a function may bind a ring to a virtual port. -/
def mayBind (w : Wire) (fn v : Nat) : Bool :=
  if v < 8 then decide (fn < 16) && fn % 4 == 0 && portExists w.net v
  else if 0x100 ≤ v && v ≤ 0x103 then decide (fn < 16) && fn % 4 == v - 0x100
  else if 0x200 ≤ v && v ≤ 0x5FF then fn == v - 0x200 + 16 || (decide (fn < 16) && fn % 4 == pfOfVf w.io (v - 0x200))
  else false

/-- CREATE_SQ: the status its arguments earn. -/
def createSqStatus (fn stage : Nat) (adopted : Bool) (e : Bytes) (w : Wire) : Nat :=
  let fl := field e 0x1C 1
  let n := field e 0x18 1
  let kind := field e 0x1A 1
  let fmt := field e 0x19 1
  let post := kind == 0x10 || kind == 0x11
  let second := w.io.rings.rings.any (fun p => p.2.sheepdog && !p.2.isCq && p.2.kind == kind)
  let departs := !(kind == 1 || kind == 2) || (kind == 1 && field e 0x20 2 != 0)
  let sd := sheepdogStatus fn stage adopted (fl.testBit 1) n departs second
  if sd ≠ 0 then sd
  else if admReserved e [(0x22, 30)] || 4 ≤ fl then 0x10
  else if n < 4 || 16 < n || field e 8 8 % 4096 ≠ 0 || field e 0x1B 1 < 1 || 16 < field e 0x1B 1 then 0x10
  else if !(kind == 1 || kind == 2 || post) then 0x10
  else if post && (fmt ≠ 2 || field e 0x20 2 ≠ 0) then 0x10
  else if !post && !mayBind w fn (field e 0x20 2) then 0x10
  else
    match ringOf w.io (field e 0x10 4) with
    | none => 0x11
    | some c =>
      if !c.isCq || c.owner ≠ fn then 0x11
      else if !formatOk w.io fmt || c.fmt ≠ fmt then 0x14
      else if 16 ≤ field e 0x1D 1 || pageLimit fn ≤ field e 0x1E 2 || doorbellHeld w.io fn (field e 0x1E 2) (field e 0x1D 1) then 0x13
      else if 2 + 2 * queuePairs w.io fn ≤ ringsOf w.io fn then 0x12
      else 0

/-- CREATE_SQ: the ring its arguments ask for. -/
def createdSq (fn : Nat) (e : Bytes) (held : Bool) : Ring :=
  let fl := field e 0x1C 1
  { Ring.blank fn with
    fmt := field e 0x19 1, kind := field e 0x1A 1, log2n := field e 0x18 1, base := BitVec.ofNat 64 (field e 8 8),
    counter := BitVec.ofNat 32 (field e 0x14 4), cq := field e 0x10 4, weight := field e 0x1B 1, doubleRead := fl.testBit 0,
    sheepdog := fl.testBit 1, slot := field e 0x1D 1, page := field e 0x1E 2, vport := field e 0x20 2,
    state := if held then .suspended else .active }

/-- CREATE_SQ: the source's sequence starts at 0 (R226). -/
def createSqW (fn stage : Nat) (adopted : Bool) (e : Bytes) (w : Wire) : Wire :=
  if !admRuns w.io fn then w
  else
    let st := createSqStatus fn stage adopted e w
    if st ≠ 0 then w.on (createRefused fn e st (field e 0x19 1))
    else
      match createDone fn e (createdSq fn e (cqHolds w.io (field e 0x10 4))) w.io with
      | (none, io) => { w with io := io }
      | (some k, io) => { w with io := io, net := seqRestart (ringSrc k) w.net }

/-- R65: an admin create of PF0 while adoption runs is held for firmware. -/
def adoptHolds (fn : Nat) (s : State) : Bool := s.start.adoption != .idle && fn % 4 == 0 && decide (fn < 16)

/-- An admin entry held during adoption. -/
def holdAdmin (fn : Nat) (e : Bytes) (s : State) : State :=
  { s with start := { s.start with heldAdmin := s.start.heldAdmin ++ [(fn, e)] } }

/-- CREATE_CQ (R127, R186, R187, R189, R205, R212, R213). -/
def execCreateCq (fn : Fn) (entry : Bytes) (s : State) : Host.Outcome State Fault Refusal :=
  .next (if adoptHolds fn.val s then holdAdmin fn.val entry s
    else onWire (createCqW fn.val s.start.stage s.start.adopted entry) s)

/-- CREATE_SQ (R127, R186, R187, R189, R212, R213, R225, R226, R346). -/
def execCreateSq (fn : Fn) (entry : Bytes) (s : State) : Host.Outcome State Fault Refusal :=
  .next (if adoptHolds fn.val s then holdAdmin fn.val entry s
    else onWire (createSqW fn.val s.start.stage s.start.adopted entry) s)

end Sys2Proof.Machine
end

