-- ==== Sys2Proof/Machine/DebugOps.lean ====
section
/-!
DEFINITION. The test access port (R572 to R576), the debug unit (R577 to R583) and the pattern testers (R584 to R586).
Choices of the model coded here, by entry of the assumption log: DEDUCED 82, 83.
-/
namespace Sys2Proof.Machine

/-! ### The test access port -/

/-- Bits shifted out of a data register. -/
def tdo (n v : Nat) (s : State) : State := on (emit (.tdo n v)) s

/-- The instruction register takes an opcode; in production test every opcode but IDCODE selects BYPASS (R576). Entering the
EXTEST class holds every domain in reset; leaving it restarts them as from power-on reset (R575). -/
def tapSelect (op : Nat) (s : State) : State :=
  if !s.start.pwrok then s
  else
    let op1 := if s.dbg.testmode && op ≠ 1 then 0xFF else op
    let s1 := { s with dbg := { s.dbg with ir := op1 } }
    if extestClass op1 then (if extestClass s.dbg.ir then s1 else holdReset s1)
    else if extestClass s.dbg.ir then coldStart 1 flashFine s1 else s1

/-- The boundary register captures the pins, of which the spec gives no values, as `tdi` is shifted in. -/
def tapBoundary (tdi : Bytes) (s : State) : State :=
  if !s.start.pwrok || s.dbg.testmode then s
  else
    let v := freeNat s.io
    tdo (8 * tdi.length) (v.1 % 2 ^ (8 * tdi.length)) { s with io := v.2, dbg := { s.dbg with boundary := tdi } }

/-- DBG_STATUS (R583); no command is running between two commands. -/
def dbgStatusBits (d : Dbg) : Nat := d.last * 256 + 4 * bits d.mask 1 1 + d.mask % 2

/-! ### The unlock (R577) -/

/-- A thread leaves state 3: it runs, what was reported of its halt is forgotten, and its cell's watchdog may run again
with its full period (R451, R471). -/
def unhalt (t : Nat) (s : State) : State :=
  let s1 := haltEnds t (threadPut t { threadAt s t with st := 1 } s)
  if wdogPaused s1 (t / 8) then s1 else wdogKick (t / 8) s1

/-- R587: the unlock ends: every halted thread resumes and traces stop. -/
def unlockEnd (s : State) : State :=
  let halted := (s.cpu.threads.filter (fun p => p.2.st == 3)).map (·.1)
  let s1 := halted.foldl (fun s t => unhalt t s) s
  { s1 with dbg := { s1.dbg with mask := 0, stepping := [], traces := mmap s1.dbg.traces (fun _ x => { x with on_ := false }) } }

/-- 13:0010. -/
def unlockSet (mask secs : Nat) (s : State) : State :=
  if mask = 0 then unlockEnd s
  else { s with dbg := { s.dbg with mask := mask, expiry := (time64 s.io + sec secs) % 2 ^ 64, ends := s.io.now + sec secs } }

/-- Whether an argument of 13:0010 is valid. -/
def unlockArgOk (a : Bytes) : Bool :=
  a.length == 8 && decide (field a 0 1 < 4) && field a 1 3 == 0 &&
  (field a 0 1 == 0 || (decide (60 ≤ field a 4 4) && decide (field a 4 4 ≤ 86400)))

/-! ### Debug commands (R578 to R582) -/

/-- The end of a command: status, Count, and data. -/
structure DbgEnd where
  status : Nat
  count  : Nat := 0
  data   : Bytes := []

/-- The 64-byte result: thread state and pc are those after the command. -/
def dbgBytes (t : Nat) (e : DbgEnd) (s : State) : Bytes :=
  le 1 e.status ++ le 1 (threadAt s t).st ++ le 2 0 ++ le 4 e.count ++ le 8 (threadAt s t).pc.toNat ++ padTo 32 e.data ++ le 16 0

/-- Fields every command carries. -/
def dbgOp (a : Bytes) : Nat := field a 0 1
def dbgFlags (a : Bytes) : Nat := field a 1 1
def dbgThread (a : Bytes) : Nat := field a 2 2
def dbgParam (a : Bytes) : Nat := field a 4 4
def dbgAddr (a : Bytes) : Nat := field a 8 8

/-- Whether the fields a command shares are valid: thread, flags of its op, reserved bytes. -/
def dbgValid (a : Bytes) : Bool :=
  let op := dbgOp a
  decide (1 ≤ op) && decide (op ≤ 10) && decide (dbgThread a < 1024) && field a 0x30 16 == 0 &&
  decide (dbgFlags a ≤ if op = 1 || op = 9 then 1 else 0)

/-- A command on a path: refused while the path is locked, while the other path's command runs, where a field is invalid, or where
the thread's cell does not run; otherwise done. `f` is what its op does. -/
def dbgRun (unlocked clash : Bool) (a : Bytes) (f : State → DbgEnd × State) (s : State) : DbgEnd × State :=
  if !unlocked then ({ status := 1 }, on (bump32 0x130101 2) s)
  else
    let s1 := on (bump32 0x130101 1) s
    if clash then ({ status := 6 }, s1)
    else if !dbgValid a then ({ status := 2 }, s1)
    else if cellOff s1 (dbgThread a / 8) then ({ status := 5 }, s1)
    else f s1

/-- HALT of one thread: a wait is withdrawn (R456). -/
def haltOne (t : Nat) (s : State) : State :=
  match (threadAt s t).st with
  | 1 => debugHalt t s
  | 2 => debugHalt t (waitDrop t s)
  | _ => s

/-- Op 1. -/
def dbgHaltOp (a : Bytes) (s : State) : DbgEnd × State :=
  let t := dbgThread a
  if (dbgFlags a).testBit 0 then ({ status := 0 }, (cellThreads (t / 8)).foldl (fun s t => haltOne t s) s)
  else if (threadAt s t).st = 1 || (threadAt s t).st = 2 then ({ status := 0 }, haltOne t s)
  else ({ status := 3 }, s)

/-- Ops on a halted thread. -/
def dbgHalted (a : Bytes) (f : State → DbgEnd × State) (s : State) : DbgEnd × State :=
  if (threadAt s (dbgThread a)).st = 3 then f s else ({ status := 3 }, s)

/-- Op 2. -/
def dbgResumeOp (a : Bytes) (s : State) : DbgEnd × State :=
  dbgHalted a (fun s => ({ status := 0 }, unhalt (dbgThread a) s)) s

/-- Op 3: one instruction issues, or a pending interrupt is taken; the thread halts again at once or when its wait ends. -/
def dbgStepOp (a : Bytes) (s : State) : DbgEnd × State :=
  dbgHalted a (fun s =>
    let t := dbgThread a
    let s1 := unhalt t s
    ({ status := 0 }, slot t (rvStep t) { s1 with dbg := { s1.dbg with stepping := sadd s1.dbg.stepping t } })) s

/-- Op 4. -/
def dbgReadRegOp (a : Bytes) (s : State) : DbgEnd × State :=
  dbgHalted a (fun s =>
    let t := dbgThread a
    let x := threadAt s t
    let r := dbgParam a
    let v : Option Word64 :=
      if r < 32 then some (xreg x r)
      else if r = 32 then some x.pc
      else if 0x1000 ≤ r ∧ r < 0x2000 then csrRead (threadPut t { x with m := true } s) t (r - 0x1000)
      else none
    (match v with
     | some w => { status := 0, data := le 8 w.toNat }
     | none => { status := 2 }, s)) s

/-- Op 5. -/
def dbgWriteRegOp (a : Bytes) (s : State) : DbgEnd × State :=
  dbgHalted a (fun s =>
    let t := dbgThread a
    let x := threadAt s t
    let r := dbgParam a
    let v : Word64 := BitVec.ofNat 64 (field a 0x10 8)
    if r < 32 then ({ status := 0 }, threadPut t (setX r v x) s)
    else if r = 32 then ({ status := 0 }, threadPut t { x with pc := v &&& ~~~1 } s)
    else if r < 0x1000 || 0x2000 ≤ r || bits (r - 0x1000) 11 10 = 3 || (csrRead s t (r - 0x1000)).isNone then ({ status := 2 }, s)
    else
      match csrPut t (r - 0x1000) v s with
      | (some c, s1) => ({ status := 4, count := c }, s1)
      | (none, s1) => ({ status := 0 }, s1)) s

/-- Whether size and alignment of a memory op are valid. -/
def dbgSizeOk (a : Bytes) : Bool := [1, 2, 4, 8, 32].contains (dbgParam a) && dbgAddr a % dbgParam a == 0

/-- Op 6; `host` is what host memory returns, should the address lie there. -/
def dbgReadMemOp (a : Bytes) (host : HostRead) (s : State) : DbgEnd × State :=
  if !dbgSizeOk a then ({ status := 2 }, s)
  else
    match readAt (dbgThread a) (dbgAddr a) (dbgParam a) s with
    | (.done b, s1) => ({ status := 0, data := b }, s1)
    | (.fault c, s1) => ({ status := 4, count := c }, s1)
    | (.waits, s1) =>
      match host with
      | .data b => ({ status := 0, data := padTo (dbgParam a) b }, s1)
      | .fail c => ({ status := 4, count := hostCode c.val }, s1)

/-- Op 7. -/
def dbgWriteMemOp (a : Bytes) (s : State) : DbgEnd × State :=
  if !dbgSizeOk a then ({ status := 2 }, s)
  else
    match writeAt true (dbgThread a) (dbgAddr a) (slice a 0x10 (dbgParam a)) s with
    | (none, s1) => ({ status := 0 }, s1)
    | (some c, s1) => ({ status := 4, count := c }, s1)

/-- Op 8 (R473). -/
def dbgAbortOp (a : Bytes) (s : State) : DbgEnd × State :=
  if 256 ≤ dbgParam a then ({ status := 2 }, s)
  else
    let b := dbgThread a / 64
    let c := chanAt s b (dbgParam a)
    let ok := c.state == .open && c.reserved && (threadAt s (64 * b + c.writer)).st == 3
    ({ status := if ok then 0 else 3 }, chanAbort b (dbgParam a) true s)

/-- Op 9, control 1: the cell's trace of the thread starts, in place of any other. -/
def dbgTraceStart (a : Bytes) (s : State) : DbgEnd × State :=
  let t := dbgThread a
  let x : Trace := { thread := t, on_ := true, wrap := (dbgFlags a).testBit 0, entries := [], count := 0 }
  if dbgParam a ≠ 1 then ({ status := 2 }, s)
  else ({ status := 0 }, { s with dbg := { s.dbg with traces := mput s.dbg.traces (t / 8) x } })

/-- Op 9, control 2. -/
def dbgTraceStop (a : Bytes) (s : State) : DbgEnd × State :=
  let t := dbgThread a
  if dbgParam a ≠ 2 then ({ status := 2 }, s)
  else ({ status := 0 }, { s with dbg := { s.dbg with traces := mmap s.dbg.traces (fun c x => if c = t / 8 && x.thread = t then { x with on_ := false } else x) } })

/-- Op 10: two entries by their place in the buffer, and Count, the entries recorded since the start. -/
def dbgTraceReadOp (a : Bytes) (s : State) : DbgEnd × State :=
  if 512 ≤ dbgAddr a then ({ status := 2 }, s)
  else
    match mget s.dbg.traces (dbgThread a / 8) with
    | none => ({ status := 0 }, s)
    | some x =>
      ({ status := 0, count := x.count % 2 ^ 32,
         data := padTo 16 (mgetD x.entries (dbgAddr a) []) ++ padTo 16 (mgetD x.entries ((dbgAddr a + 1) % 512) []) }, s)

/-- A command over DBG_CMD: it is there while the TAP answers it and the domains run; its result is captured next. -/
def dbgJtag (a : Bytes) (f : State → DbgEnd × State) (s : State) : State :=
  if !s.start.pwrok || s.dbg.testmode || s.clk.holdAll || extestClass s.dbg.ir then s
  else
    let r := dbgRun (s.dbg.mask.testBit 0) false a f { s with dbg := { s.dbg with ir := 0x11 } }
    let b := dbgBytes (dbgThread a) r.1 r.2
    on (emit (.dbgResult 0 r.1.status b)) { r.2 with dbg := { r.2.dbg with last := r.1.status, result := b } }

/-- A command over 13:0100: a status other than 0 is answered FAILED, with the result. -/
def dbgDict (by_ : Issuer) (clash : Bool) (a : Bytes) (f : State → DbgEnd × State) (s : State) : State :=
  match gate s.start.stage by_ 0x130100 s.io with
  | some e => on (answer by_ (idx 0x130100 0) e []) s
  | none =>
    if a.length ≠ 64 then on (answer by_ (idx 0x130100 0) 5 []) s
    else
      let r := dbgRun (s.dbg.mask.testBit 1) clash a f s
      on (answer by_ (idx 0x130100 0) (if r.1.status = 0 then 0 else 0x11) (dbgBytes (dbgThread a) r.1 r.2)) r.2

/-- A debug command whose op is `op`; any other op in its place is invalid. -/
def dbgDo (p : DbgPath) (a : Bytes) (op : Nat) (f : State → DbgEnd × State) (s : State) : State :=
  let g := if dbgOp a = op then f else fun s => ({ status := 2 }, s)
  match p with
  | .jtag => dbgJtag a g s
  | .dict by_ clash => dbgDict by_ clash a g s

/-- What a command of 13:0100 does, by its op. -/
def dbgAny (a : Bytes) (host : HostRead) (s : State) : DbgEnd × State :=
  match dbgOp a with
  | 1 => dbgHaltOp a s
  | 2 => dbgResumeOp a s
  | 3 => dbgStepOp a s
  | 4 => dbgReadRegOp a s
  | 5 => dbgWriteRegOp a s
  | 6 => dbgReadMemOp a host s
  | 7 => dbgWriteMemOp a s
  | 8 => dbgAbortOp a s
  | 9 => if dbgParam a = 1 then dbgTraceStart a s else dbgTraceStop a s
  | 10 => dbgTraceReadOp a s
  | _ => ({ status := 2 }, s)

/-- 13:0000. -/
def dbgState (s : State) : Bytes :=
  le 1 s.dbg.mask ++ le 1 0 ++ le 2 ((s.cpu.threads.filter (fun p => p.2.st == 3)).length) ++ le 4 0 ++ le 8 s.dbg.expiry

/-- 13:0010 (R577, R578). -/
def dbgUnlockCmd (by_ : Issuer) (a : Bytes) (s : State) : State :=
  let ans (st : Nat) (s : State) : State := on (answer by_ (idx 0x130010 0) st []) s
  match gate s.start.stage by_ 0x130010 s.io with
  | some e => ans e s
  | none => if unlockArgOk a then ans 0 (unlockSet (field a 0 1) (field a 4 4) s) else ans 5 s

/-! ### Pattern testers (R584 to R586) -/

/-- Whether the pattern, loopback, mode and rate of an argument are valid for its lane. -/
def serArgOk (a : Bytes) : Bool :=
  match laneKind (field a 1 1) with
  | none => false
  | some k =>
    let p := field a 2 1
    let r := field a 5 1
    decide (field a 3 1 ≤ 2) && decide (1 ≤ field a 4 1) && decide (field a 4 1 ≤ 3) && field a 6 2 == 0 &&
    (match k with
     | 0 => decide (1 ≤ p) && decide (p ≤ 3) && r == 0
     | 1 => decide (5 ≤ p) && decide (p ≤ 8) && decide (1 ≤ r) && decide (r ≤ 6)
     | _ => decide (5 ≤ p) && decide (p ≤ 8) && decide (1 ≤ r) && decide (r ≤ 5))

/-- R585: whether a lane may leave service. -/
def serMayStart (s : State) (l : Nat) : Bool :=
  match laneKind l with
  | some 0 => true
  | some 1 => !(linkAt s.io (laneLink s.io l)).up
  | _ =>
    let x := mgetD s.drives.slots (laneRoot s l) Slot.reset
    x.contained || !x.pwren

/-- The tester of a lane. -/
def serAt (s : State) (l : Nat) : SerTest := mgetD s.dbg.serdes l SerTest.reset

/-- Storing it. -/
def serPut (l : Nat) (x : SerTest) (s : State) : State := { s with dbg := { s.dbg with serdes := mput s.dbg.serdes l x } }

/-- A test starts on its lane. An Ethernet lane takes its port down (R238). -/
def serStart (a : Bytes) (s : State) : State :=
  let l := field a 1 1
  let x : SerTest := { SerTest.reset with st := field a 4 1, pattern := field a 2 1, loopback := field a 3 1, rate := field a 5 1 }
  let s1 := serPut l x s
  if laneKind l = some 0 then
    onWire (fun w =>
      let p := laneEthPort w.net l
      let w1 := if (portAt w.net p).up then linkDownPort p w else w
      w1.onNet (portPut p { portAt w1.net p with training := false })) s1
  else s1

/-- A test stops; the port of an Ethernet lane trains again once no lane of it is tested. -/
def serStop (l : Nat) (s : State) : State :=
  let s1 := { s with dbg := { s.dbg with serdes := mdel s.dbg.serdes l } }
  if laneKind l = some 0 && (serAt s l).st != 0 then
    onWire (fun w =>
      let p := laneEthPort w.net l
      if !(portAt w.net p).up && portMayRun w s.start.stage p && !lanesTested s1.dbg (fun j => laneKind j == some 0 && laneEthPort w.net j == p)
      then w.onNet (portPut p { portAt w.net p with training := true }) else w) s1
  else s1

/-- Answers of 13:0200. -/
def serAnswer (by_ : Issuer) (st : Nat) (s : State) : State := on (answer by_ (idx 0x130200 0) st []) s

/-- 13:0200 with op `op`: its lane must exist; `f` is what it does. -/
def serCmd (by_ : Issuer) (a : Bytes) (op : Nat) (f : State → State) (s : State) : State :=
  match gate s.start.stage by_ 0x130200 s.io with
  | some e => serAnswer by_ e s
  | none => if a.length ≠ 8 || field a 0 1 ≠ op || (laneKind (field a 1 1)).isNone then serAnswer by_ 5 s else f s

/-- Op 1. -/
def serStartCmd (by_ : Issuer) (a : Bytes) (s : State) : State :=
  serCmd by_ a 1 (fun s =>
    if !serArgOk a then serAnswer by_ 5 s
    else if !serMayStart s (field a 1 1) then serAnswer by_ 0x11 s
    else serAnswer by_ 0 (serStart a s)) s

/-- Op 2. -/
def serStopCmd (by_ : Issuer) (a : Bytes) (s : State) : State :=
  serCmd by_ a 2 (fun s => serAnswer by_ 0 (serStop (field a 1 1) s)) s

/-- Op 3. -/
def serClearCmd (by_ : Issuer) (a : Bytes) (s : State) : State :=
  serCmd by_ a 3 (fun s => serAnswer by_ 0
    { s with dbg := { s.dbg with serdes := mmap s.dbg.serdes (fun l x => if l = field a 1 1 then { x with compared := 0, errors := 0 } else x) } }) s

/-- 13:0200 by its op; an unknown one is refused by the first. -/
def serAnyCmd (by_ : Issuer) (a : Bytes) (s : State) : State :=
  match field a 0 1 with
  | 2 => serStopCmd by_ a s
  | 3 => serClearCmd by_ a s
  | _ => serStartCmd by_ a s

/-- R586: an element of 13:0201; while the checker is locked its counts are whatever they have reached. -/
def serBytes (l : Nat) (s : State) : Bytes × State :=
  let x := serAt s l
  let c := freeNat s.io
  let e := freeNat c.2
  let (n, m) := if x.lock then (x.compared + c.1, x.errors + e.1) else (x.compared, x.errors)
  (le 1 x.st ++ le 1 (b2n x.lock) ++ le 1 x.pattern ++ le 1 x.loopback ++ le 4 0 ++ le 8 n ++ le 8 m,
   if x.lock then { s with io := e.2 } else s)

end Sys2Proof.Machine
end

