-- ==== Sys2Proof/Machine/OaFrame.lean ====
section
/-!
DEFINITION. Object-access frames (R97 to R100): reading a request, writing an answer, and the limits of R99.
Choices of the model coded here, by entry of the assumption log: DEDUCED 27, 28.
-/
namespace Sys2Proof.Machine

/-- The opcode of a request (R100). -/
def bodyOp : OaBody → Nat
  | .discover _ _ => 0x00
  | .read _ => 0x01
  | .write _ => 0x02
  | .describe _ => 0x03
  | .enumerate _ => 0x04
  | .readBlock _ _ _ => 0x05
  | .writeBlock _ _ _ _ => 0x06
  | .txnBegin => 0x10
  | .txnCommit => 0x11
  | .txnAbort => 0x12
  | .subscribe _ _ _ => 0x20
  | .unsubscribe _ => 0x21
  | .ragged o _ => o
  | .reserved o => o
  | .other o => o

/-- The items of a request. -/
def bodyItems : OaBody → List OaItem
  | .read l => l
  | .write l => l
  | .describe l => l
  | _ => []

/-- Opcodes whose payload is items. -/
def itemOp (o : Nat) : Bool := o == 1 || o == 2 || o == 3

/-- Bytes of an item, its value padded (R98). -/
def itemSize (x : OaItem) : Nat := 8 + (x.value.length + 3) / 4 * 4

/-- Payload length of the opcodes that have a fixed one. -/
def fixedLen : OaBody → Nat
  | .discover _ _ => 8
  | .enumerate _ => 4
  | .readBlock _ _ _ => 12
  | .writeBlock _ _ _ d => 12 + d.length
  | .subscribe _ _ _ => 12
  | .unsubscribe _ => 4
  | _ => 0

/-- R99, R105: what a frame whose lengths disagree gets: TOO_LARGE where its items do, else MALFORMED; 0 where they agree. -/
def lengthFault (h : OaHdr) (b : OaBody) : Nat :=
  match b with
  | .other _ => 0
  | .reserved _ => 0
  | .ragged o whole => if itemOp o && !whole then 0x0D else 0x0C
  | _ =>
    if itemOp (bodyOp b) then
      if h.len ≠ ((bodyItems b).map itemSize).sum || h.count ≠ (bodyItems b).length then 0x0D else 0
    else if h.len ≠ fixedLen b then 0x0C else 0

/-- The items of a payload; none where they run past its end. `fuel` bounds them. -/
def parseItems : Nat → Bytes → Option (List OaItem)
  | 0, b => if b.isEmpty then some [] else none
  | fuel + 1, b =>
    if b.isEmpty then some []
    else
      let n := field b 6 2
      let w := 8 + (n + 3) / 4 * 4
      if b.length < w then none
      else (parseItems fuel (b.drop w)).map (fun r => { index := field b 0 4, ty := field b 4 1, value := slice b 8 n } :: r)

/-- The payload of an opcode. -/
def parseBody (op count : Nat) (p : Bytes) : OaBody :=
  let items (f : List OaItem → OaBody) : OaBody :=
    match parseItems p.length p with
    | some l => if l.length = count then f l else .ragged op false
    | none => .ragged op false
  let fixed (n lo k : Nat) (b : OaBody) : OaBody :=
    if p.length ≠ n then .ragged op false else if field p lo k ≠ 0 then .reserved op else b
  match op with
  | 0x00 => fixed 8 1 3 (.discover (field p 0 1) (field p 4 4))
  | 0x01 => items .read
  | 0x02 => items .write
  | 0x03 => items .describe
  | 0x04 => fixed 4 0 0 (.enumerate (field p 0 4))
  | 0x05 => fixed 12 0 0 (.readBlock (field p 0 4) (field p 4 4) (field p 8 4))
  | 0x06 => if p.length < 12 then .ragged op false else .writeBlock (field p 0 4) (field p 4 4) (field p 8 4) (p.drop 12)
  | 0x10 => fixed 0 0 0 .txnBegin
  | 0x11 => fixed 0 0 0 .txnCommit
  | 0x12 => fixed 0 0 0 .txnAbort
  | 0x20 => fixed 12 5 3 (.subscribe (field p 0 4) (field p 4 1) (field p 8 4))
  | 0x21 => fixed 4 2 2 (.unsubscribe (field p 0 2))
  | _ => .other op

/-- R97: a frame; none below 16 bytes. -/
def parseFrame (k : AssocKey) (b : Bytes) : Option OaReq :=
  if b.length < 16 then none
  else
    let h : OaHdr :=
      { version := field b 0 1, flags := field b 2 1, status := field b 3 1, tag := field b 4 2, count := field b 6 2,
        len := field b 8 4, txn := field b 12 4 }
    let op := field b 1 1
    some { assoc := k, hdr := h
           body := if b.length ≠ 16 + h.len then .ragged op true else parseBody op h.count (b.drop 16) }

/-- R97: an answer as its bytes. -/
def respBytes (r : OaResp) : Bytes :=
  let body := r.items.flatMap itemBytes ++ r.payload
  le 1 r.version ++ le 1 r.op ++ le 1 1 ++ le 1 r.status ++ le 2 r.tag ++ le 2 (r.items.length + r.count) ++ le 4 body.length ++ le 4 r.txn ++ body

/-- R99: largest frame of a binding. -/
def frameLimit (b : Binding) : Nat := if b = .mgmtEth then 1472 else 4096

/-- R99: items per frame by version. -/
def itemLimit (version : Nat) : Nat := if version = 1 then 16 else 64

/-- Bytes of an item of an answer. -/
def rItemSize (x : OaRItem) : Nat := 8 + (x.value.length + 3) / 4 * 4

/-- The item that closes a partial answer: its index names the first item not answered (R99). -/
def moreItem (index : Nat) : OaRItem := { index := index, ty := 0, status := 0x12, value := [] }

/-- R99: the items that fit, closed by a marker where not all do. -/
def fitItems : Nat → List OaRItem → List OaRItem × Bool
  | _, [] => ([], false)
  | room, x :: r =>
    if rItemSize x + (if r.isEmpty then 0 else 8) ≤ room then
      let t := fitItems (room - rItemSize x) r
      (x :: t.1, t.2)
    else ([moreItem x.index], true)

/-- R101, R102: the frame status of answered items: that of the first that fails. -/
def firstFault (l : List OaRItem) : Nat :=
  match l.find? (fun x => x.status != 0 && x.status != 9 && x.status != 0x12) with
  | some x => x.status
  | none => 0

/-- R105: a frame that fails as a whole. -/
def failResp (version : Nat) (q : OaReq) (status : Nat) : OaResp :=
  { version := version, op := bodyOp q.body, status := status, tag := q.hdr.tag, txn := q.hdr.txn, count := 0, items := [], payload := [] }

end Sys2Proof.Machine
end

