-- ==== Sys2Proof/Machine/OaLive.lean ====
section
/-!
DEFINITION. The dictionary as it reads (R10 to R13, R98, R102, R123 to R133): objects whose value the Kwaith works out as it is
read, values and their defaults, and the self-description of area FF.
Choices of the model coded here, by entry of the assumption log: DESIGN CHOICE 8; DEDUCED 28, 32; PRESUMED 91.
-/
namespace Sys2Proof.Machine

/-! ### Users of the versioned interfaces (R125, R126) -/

/-- 00:0102 (v = 1) and 00:0103 (v = 2), element `e`. A RESTORE has a version only once its blob has been read. -/
def verUsers (s : State) (v e : Nat) : Nat :=
  match e with
  | 1 => (s.io.rings.rings.filter (fun p => p.2.fmt == v)).length
  | 2 => (s.io.oa.assocs.filter (fun a => a.version == v)).length
  | 4 => (s.dom.peers.filter (fun p => isMember s.dom p.1 && learnVersion s.io p.2.learn == v)).length
  | 5 => if v = 1 then (s.dom.peers.filter (fun p => isMember s.dom p.1)).length else 0
  | 6 => if v = 1 then (s.rdma.qps.filter (fun p => p.2.lp && (p.2.state == 2 || p.2.state == 3))).length else 0
  | 7 => if v = 2 then (s.io.vf.vfs.filter (fun p => match p.2.op with | some o => o.op == 3 && !o.waits | none => false)).length else 0
  | 8 => if s.boot.loader.active && s.boot.loader.version == v then 1 else 0
  | _ => 0

/-! ### Snapshots of single units -/

/-- 05:0020: totals reserved for the VFs of R170, in its row order. -/
def poolUsed (io : Io) (e : Nat) : Nat :=
  let ns := (List.range (vfCount io)).filter (fun n => (vfRunList io).isEmpty || (vfRun io n).isSome)
  let f (n : Nat) : Nat :=
    match e with
    | 1 => vfVectors io n
    | 2 => if vfType io n = 1 ∨ vfType io n = 3 then vfPairs io n else 0
    | 3 => vfQuota io n 0xA 2 64
    | 4 => vfQps io n
    | _ => vfMrs io n
  (ns.map f).sum

/-- 05:0400 + n. -/
def vfBytes (io : Io) (n : Nat) : Bytes :=
  let v := vfAt io n
  le 1 v.state.ctorIdx ++ le 1 v.lastOp ++ le 1 v.lastResult ++ le 1 (b2n v.track.isSome + 2 * b2n v.fresh) ++ le 4 (blobSize v) ++
  le 4 v.drops ++ le 4 v.drainUs

/-- 0C:1021, element `e`. -/
def wilBytes (s : State) (e : Nat) : Bytes :=
  let x := wilAt s (e - 1)
  le 8 x.w ++ le 8 x.next ++ le 4 (x.recs.filter (fun r => r.stage == 0)).length ++ le 4 x.replayed ++ le 8 0

/-- 01:0201: locked domains, and REFCLK_SYS. -/
def lockBits (s : State) : Nat :=
  maskOf ((List.range 14).filter (fun k => domainRuns s (k + 1))) + 2 ^ 14 * b2n s.clk.refSys

/-- Whether a cell is isolated, by itself or with its block or region. -/
def cellGone (c : Cont) (k : Nat) : Bool := c.cells.contains k || c.blocks.contains (k / 8) || c.regions.contains (k / 32)

/-- R560: 14:0000 without its time. -/
def modeSnapshot (s : State) : Bytes :=
  let points := ((List.range 4).filter (fun r => !s.cont.regions.contains r)).map (fun r => (mgetD s.mon.regions r ShepR.reset).point)
  let stages := (List.range 5).map (fun r => dget s.io (idx 0x030010 (r + 1)) 0)
  let masks := (List.range (modePorts s.net.mode)).map (fun p => dget s.io (idx 0x070010 (p + 1)) 0)
  let split (p : Nat) : Nat := (s.io.host.split[p]?).getD 0
  le 1 (startBits s.start) ++ le 1 (contBits s.cont) ++ le 1 (points.foldl max 0) ++ le 1 (stages.foldl max 0) ++
  le 2 (s.cpu.threads.filter (fun p => p.2.st == 3)).length ++ le 2 (s.io.vf.vfs.filter (fun p => p.2.state != .running)).length ++
  le 1 (dget s.io (idx 0x110002 0) 0) ++ le 1 (plateBits s.pipe.live (slotState s.pipe)) ++
  le 1 (b2n (decide (0 < verUsers s 1 1)) + 2 * b2n (decide (0 < verUsers s 1 4))) ++ le 1 s.net.mode ++
  le 1 (s.io.host.placement + 4 * split 0 + 8 * split 1) ++ le 1 (masks.foldl (· ||| ·) 0) ++ le 1 (dget s.io (idx 0x010003 0) 0) ++ le 1 0 ++
  le 4 (verUsers s 1 6) ++ le 2 (s.store.nss.filter (fun p => p.2.state != 1)).length ++ le 2 0

/-! ### Area FF (R130 to R132) -/

/-- Indices of one object: itself, or its count and elements. -/
def objIndices (io : Io) (o : Obj) (obj : Nat) : List Nat :=
  if o.elems = 0 then [idx obj 0] else (List.range (countOf io o obj + 1)).map (idx obj)

/-- Every index that exists and that a principal may read, or read or write, with its row, in ascending order. -/
def indicesFor (io : Io) (may : Obj → Bool) : List (Nat × Obj) :=
  (catalogue.filter may).flatMap (fun o => (span o.index o.span).flatMap (fun k => (objIndices io o k).map (fun i => (i, o))))

/-- R104: the code of an access. -/
def Acc.code : Acc → Nat
  | .ro => 1 | .rw => 2 | .wo => 3 | .rc => 4 | .cmd => 5

/-- R104: the code of a persistence class. -/
def Pers.code : Pers → Nat
  | .volatile => 0 | .kept => 1 | .stored => 2

/-- R132: Minimum, Maximum and Default of a record. An element of 00:0101 has the bits of 00:0100 (R127), and where R125 fixes it
none to write; element 1 of 04:0002 takes port 0 alone. -/
def sdLimits (o : Obj) (count : Bool) (sub : Nat) : Nat × Nat × Nat :=
  if count then (o.minElems, o.elems, o.minElems)
  else if o.index = 0x000101 then
    (if sub = 2 ∨ sub = 3 ∨ sub = 5 then 0 else dfltNat o sub, dfltNat o sub, dfltNat o sub)
  else if o.index = 0x040002 ∧ sub = 1 then (1, 0, 0)
  else
    match o.ty with
    | .enum8 => (o.hi.toNat % 2 ^ 64, o.hi.toNat / 2 ^ 64, dfltNat o sub)
    | .bits32 => (o.hi.toNat, o.hi.toNat, dfltNat o sub)
    | .str64 => (0, 64, 0)
    | .blob => (if o.zeroOk then 0 else o.lo.toNat, o.len, 0)
    | t =>
      let d := dfltNat o sub
      if t.signed then (ofSigned 64 o.lo, ofSigned 64 o.hi, ofSigned 64 (toSigned (8 * t.width) d))
      else (if o.zeroOk then 0 else o.lo.toNat, o.hi.toNat, d)

/-- R131: one record. -/
def sdRecord (i : Nat) (o : Obj) : Bytes :=
  let count := o.elems ≠ 0 && i % 256 = 0
  let apply_ := o.acc != .ro && o.acc != .rc
  let l := if apply_ then sdLimits o count (i % 256) else (0, 0, 0)
  le 4 i ++ le 1 (if count then 0x0F else o.ty.code) ++ le 1 o.acc.code ++ le 1 o.pers.code ++
  le 1 (b2n apply_ + 2 * b2n (o.session != 0)) ++ le 8 l.1 ++ le 8 l.2.1 ++ le 8 l.2.2

/-- Records FF:0010 holds for a principal. -/
def sdRecords (io : Io) (w : Principal) : List (Nat × Obj) := indicesFor io (fun o => mayRead o w || mayWrite o w)

/-- R131: the table a principal receives. -/
def sdTable (io : Io) (w : Principal) : Bytes :=
  let rs := sdRecords io w
  le 2 1 ++ le 2 32 ++ le 4 rs.length ++ le 4 (dget io (idx 0xFF0002 0) 1) ++ le 4 0 ++ rs.flatMap (fun r => sdRecord r.1 r.2)

/-- R566: the journal as it reads. -/
def journalBytes (j : Journal) : Bytes :=
  let slot (k : Nat) : Bytes :=
    match (j.entries.filter (fun e => decide (j.oldest ≤ e.1) && decide (e.1 ≤ j.newest))).find? (fun e => (e.1 - 1) % 4096 == k) with
    | some e => jBytes e.2
    | none => le 32 0
  le 8 j.newest ++ le 8 (if j.newest < j.oldest then 0 else j.oldest) ++ (List.range 4096).flatMap slot

/-- 08:0100: every counter, its copies in the regions added up (R277). -/
def counterBytes (p : Pipe) : Bytes :=
  (List.range 8192).flatMap (fun n =>
    let c := (List.range 4).map (fun r => mgetD p.counters (r * 8192 + n) (0, 0))
    le 8 ((c.map (·.1)).sum) ++ le 8 ((c.map (·.2)).sum))

/-! ### Values -/

/-- R218: the objects of a port. -/
def portObjects : List Nat :=
  [0x070002, 0x070003, 0x070005, 0x070006, 0x070007, 0x070008, 0x070010, 0x070011, 0x070012, 0x070013, 0x070015, 0x070026, 0x070117]

/-- An object whose value is worked out as principal `w` reads it, or that reports a unit which has not moved since it was reset
(`first`); none for every other object. -/
def live (w : Principal) (i : Nat) (s : State) : Option Val :=
  let e := i % 256
  let num (n : Nat) : Option Val := some (.num n)
  let first (b : Bytes) : Option Val := if (mget s.io.dic i).isSome then none else some (.str b)
  let obj := i / 256
  if 0x050400 ≤ obj ∧ obj < 0x050800 then some (.str (vfBytes s.io (obj - 0x050400)))
  else if 0x0C0900 ≤ obj ∧ obj < 0x0C0D04 then some (.str (ctlState s (obj - 0x0C0900)))
  else if 0x090900 ≤ obj ∧ obj < 0x090D0C then first (List.replicate 16 0)
  else if portObjects.contains obj && decide (modePorts s.net.mode < e) then num 0
  else
    match obj with
    | 0x000000 => some (.str [86, 97, 114, 114, 111, 101, 114, 110])
    | 0x000001 => some (.str [75, 87, 45, 57, 52, 49, 54, 45, if Config.gradeFuse then 69 else 67])
    | 0x000002 => num (b2n Config.gradeFuse)
    | 0x000007 => num serialNo
    | 0x000008 => some (.str baseMac)
    | 0x00000A => num Config.mfgTimeFuse.toNat
    | 0x000102 => num (verUsers s 1 e)
    | 0x000103 => num (verUsers s 2 e)
    | 0x010002 => num (time64 s.io)
    | 0x010110 => num (s.io.oa.assocs.filter (fun a => a.version != 0 && bindingNo a.key.binding == e)).length
    | 0x010112 => num s.io.oa.sessions.length
    | 0x010114 => num s.io.oa.txns.length
    | 0x010200 => num (if domainRuns s e then clkFreq s e else 0)
    | 0x010201 => num (lockBits s)
    | 0x010210 => num (xingAt s (e - 1)).ctorIdx
    | 0x050020 => num (poolUsed s.io e)
    | 0x070102 => num (maskOf ((List.range 4).filter (regionOpen s.io s.cont)))
    | 0x080100 => some (.str (counterBytes s.pipe))
    | 0x090301 => first (List.replicate 40 0)
    | 0x0B0010 => some (.str (le 1 0x4B ++ le 1 (dget s.io (idx 0x000101 6) 1) ++ le 1 (dget s.io (idx 0x0B0011 0) 8) ++ le 1 0))
    | 0x0C1021 => some (.str (wilBytes s e))
    | 0x0C1041 => some (.str (verBytes s.store.ver))
    | 0x0D0020 => some (.str (slotBytes s (e - 1)))
    | 0x0E0000 => num (if cellGone s.cont (e - 1) then 0 else cellStates s (e - 1))
    | 0x0E0011 => if (mget s.io.dic i).isSome then none else num s.boot.entries.2
    | 0x0E0411 => num (maskOf ((s.cont.cells.filter (fun c => c / 32 == e - 1)).map (· % 32)))
    | 0x0E0412 => num (maskOf s.cont.blocks)
    | 0x0E0413 => num (maskOf s.cont.regions + 256 * maskOf s.cont.withdrawn)
    | 0x100101 => first (scrubBytes s.mem.scrub)
    | 0x110012 => first (List.replicate 16 0)
    | 0x120000 => some (.str (journalBytes s.io.journal))
    | 0x130000 => some (.str (dbgState s))
    | 0x140000 => some (.str (modeSnapshot s ++ le 8 (time64 s.io)))
    | 0xFF0001 => num (sdRecords s.io w).length
    | 0xFF0010 => some (.str (sdTable s.io w))
    | _ => none

/-- The value of an index as a principal sees it. -/
def valOf (w : Principal) (o : Obj) (i : Nat) (s : State) : Option Val :=
  if o.elems ≠ 0 && i % 256 = 0 then heldVal s.io o i
  else
    match live w i s with
    | some v => some v
    | none => heldVal s.io o i

/-- R10, R102: a value read by READ, and the state after: a read-clear object is left cleared, a peak at the present value, which
is a change of it (R114); the counts of a locked checker are whatever they have reached. -/
def readVal (w : Principal) (o : Obj) (i : Nat) (s : State) : Option Val × State :=
  if i / 256 = 0x130201 && i % 256 ≠ 0 then
    let r := serBytes (i % 256) s
    (some (.str r.1), r.2)
  else
    let v := valOf w o i s
    if o.acc == .rc && !(o.elems ≠ 0 && i % 256 = 0) then
      let z := if i / 256 = 0x030001 then mget s.io.dic (idx 0x030000 (i % 256)) else some (.num 0)
      match v, z with
      | some x, some z => (v, if x = z then s else on (fun io => changed i z { io with dic := mput io.dic i z }) s)
      | _, _ => (v, s)
    else (v, s)

/-- Whether an index exists (R98, R123). -/
def indexAt (io : Io) (i : Nat) : Option Obj :=
  match objOf i with
  | none => none
  | some o => if i % 256 ≤ (if o.elems = 0 then 0 else countOf io o (i / 256)) then some o else none

end Sys2Proof.Machine
end

