-- ==== Sys2Proof/Machine/Patrol.lean ====
section
/-!
DEFINITION. The patrol of the on-chip SRAMs (R513, R514), and the journal's own commands (R568, R569).
Choices of the model coded here, by entry of the assumption log: DEDUCED 17, 77, 81.
-/
namespace Sys2Proof.Machine

/-! ### Patrol reads (R437, R513, R514) -/

/-- Row of R514 of a store as the command names it: the parts of the region table SRAM share row 4. -/
def storeRow (store : Nat) : Nat := if store < 3 then store + 1 else if store < 7 then 4 else store - 2

/-- A cached line of a block with a poisoned word: it is written back as poison (R37, R514). -/
def cachePoison (b a : Nat) (m : MemTile) : MemTile :=
  { m with caches := mput m.caches b ((cacheOf m b).map (fun e =>
      if e.1 = a / 64 then (e.1, { e.2 with bad := sadd e.2.bad (a % 64 / 8) }) else e)) }

/-- A corrected word: counted, and written back later. -/
def patrolCorrected (store unit addr : Nat) (s : State) : State :=
  let s1 := on (bump64 0x100050 (storeRow store)) { s with mem := { s.mem with fixing := s.mem.fixing ++ [(storeRow store, addr)] } }
  if store < 2 then on (bump32 0x0E0001 (unit + 1)) s1 else s1

/-- An uncorrectable word: counted, with the outcome of its row. No thread consumed it, and the command gives no syndrome or
bank: free values. -/
def patrolBad (store unit addr : Nat) (s : State) : State :=
  let q := freeNat s.io
  let d := q.1 % 2 ^ 24
  let s1 := on (bump64 0x100051 (storeRow store)) { s with io := q.2 }
  match store with
  | 0 => cellFault unit 1 0xFFFF addr d 1 { s1 with mem := sramPoison addr s1.mem }
  | 1 =>
    let c := cellAt s1 unit
    cellFault unit 1 0xFFFF addr d 2 (cellPut unit { c with icache := mfilter c.icache (fun _ l => l.1 != addr / 64) } s1)
  | 2 =>
    let b := unit % 16
    let m := match spotAt s1.mem addr with
      | .attached _ a => cachePoison b a s1.mem
      | _ => sramPoison addr s1.mem
    containBlock b 1 addr d { s1 with mem := m }
  | 3 => on (contRecord 3 1 (unit % 4) 1 (resetsIn s1 3 (unit % 4) % 256) addr d) s1
  | 4 => s1
  | 5 => { s1 with tabs := { s1.tabs with cache := mput s1.tabs.cache (unit % 4) ((mgetD s1.tabs.cache (unit % 4) []).filter (· != addr)) } }
  | 6 => { s1 with mem := sramPoison addr s1.mem }
  | 7 => { s1 with net := { s1.net with damaged := sadd s1.net.damaged addr } }
  | _ => containChip 0x0B addr 0 .containment s1

/-- SRAM_PATROL_READ (R513, R514). -/
def execSramPatrolRead (store : Fin 9) (unit : Fin 128) (addr : Nat) (outcome : Fin 3) (s : State) :
    Host.Outcome State Fault Refusal :=
  .next (match outcome.val with
    | 1 => patrolCorrected store.val unit.val addr s
    | 2 => patrolBad store.val unit.val addr s
    | _ => s)

/-! ### The journal (R568, R569) -/

/-- JOURNAL_EVENT_TIMER (R568): 100 ms after the last event, another reports the entries written since. -/
def execJournalEventTimer (s : State) : Host.Outcome State Fault Refusal :=
  .next (match s.io.journal.evAt with
    | none => on jEvent s
    | some t => on (fun io => jEvent (reach (t + ms 100) io)) s)

/-- JOURNAL_CLEAR (R569). -/
def execJournalClear (by_ : Issuer) (arg : Byte) (s : State) : Host.Outcome State Fault Refusal :=
  .next (on (fun io => match gate s.start.stage by_ 0x120006 io with
    | some e => answer by_ (idx 0x120006 0) e [] io
    | none =>
      if arg ≠ 1 then answer by_ (idx 0x120006 0) 5 [] io
      else answer by_ (idx 0x120006 0) 0 []
        { io with journal := { io.journal with oldest := if io.journal.newest = 0 then 0 else io.journal.newest + 1, entries := [] } }) s)

end Sys2Proof.Machine
end

