-- ==== Sys2Proof/Machine/Start.lean ====
section
/-!
DEFINITION. The staged start (chapter 04): stage entries (R56, R58, R78), deadlines and the start watchdog (R57), the hold of
02:0010 (R66), and the adoption of the Sheepdog queue pair (R64, R65).
Choices of the model coded here, by entry of the assumption log: DESIGN CHOICE 22; DEDUCED 21.
-/
namespace Sys2Proof.Machine

/-! ### Stage 1 (R76, R78, R84, R85) -/

/-- R72: the pieces of an image for one target, placed at their load addresses. -/
def imageLoad (f : Mem) (slot target : Nat) (d : Byte) (m : Mem) : Mem :=
  (entriesFor (slotHeader f slot) target).foldl (fun m e =>
    memPuts d m (field e 0x10 8) (flashRead f (slotBase slot + 4096 + field e 4 4) (field e 8 4))) m

/-- The entry point of a target. -/
def imageEntry (f : Mem) (slot target : Nat) : Nat :=
  match (entriesFor (slotHeader f slot) target).find? (fun e => (field e 1 1).testBit 0) with
  | some e => field e 0x18 8
  | none => 0

/-- Flash violations of a selection (R76, R77, R563). -/
def choiceViolations (b : Boot) (c : Choice) (io : Io) : Io :=
  let io1 := c.failed.foldl (fun io p => violate 0x0706 (flashPartner p.1 (slotBase p.1)) [BitVec.ofNat 8 p.2]
    (slotReport p.1 p.2 (slotSeq b.flash p.1) io)) io
  let io2 := if c.code = 3 then violate 0x0701 (flashPartner 0xFF 0) (le 4 (topSeq b.flash)) io1 else io1
  match c.code, c.slot with
  | 4, some k => violate 0x0702 (flashPartner k (slotBase k)) (le 4 (slotSeq b.flash k)) io2
  | _, _ => io2

/-- R84, R85: the measured keys: derived at the first start since power-on, kept where the measurement is the same. -/
def keysDerive (m : Bytes) (s : State) : State :=
  let s1 := on (dsetB (idx 0x02010B 0) m) s
  if dget s.io (idx 0x020109 0) 0 = 0 then on (dset (idx 0x020109 0) 1) { s1 with boot := { s1.boot with derived := some m } }
  else
    let stale := b2n (decide (s.boot.derived ≠ some m))
    if dget s1.io (idx 0x02010A 0) 0 = stale then s1 else on (dset (idx 0x02010A 0) stale) s1

/-- R86: no slot is valid: the recovery loader runs, once the keys are locked. -/
def recoveryEnter (s : State) : State :=
  let s1 := startPut { s.start with recovery := true } (reasonSet 3 s)
  let s2 := if dget s1.io (idx 0x020109 0) 0 = 1 then s1 else on (dset (idx 0x020109 0) 1) s1
  { s2 with boot := { s2.boot with loader := { Loader.reset with
              active := true, rate := dget s2.io (idx 0x020114 0) 115200, helloAt := s2.io.now } } }

/-- The image of a slot is loaded and stage 1 entered. -/
def imageBoot (slot : Nat) (s : State) : State :=
  let b := s.boot
  let h := slotHeader b.flash slot
  let s1 := { s with
    boot := { b with steward := imageLoad b.flash slot 1 0 [], entries := (imageEntry b.flash slot 1, imageEntry b.flash slot 2) }
    mem := { s.mem with sram := imageLoad b.flash slot 2 0 s.mem.sram } }
  let s2 := keysDerive (sha384 h) s1
  let s3 := on (fun io => dset (idx 0x020113 0) (field h 0x18 4) (dset (idx 0x020103 0) slot
    (slotReport slot (if slotRetired b.flash slot then 6 else 5) (slotSeq b.flash slot) io))) s2
  holdCheck (stageSet 1 (on (dset (idx 0x020002 2) (stageTime s3)) s3))

/-- STAGE_1_ENTRY (R56, R76 to R79, R84 to R86). -/
def execStage1Entry (s : State) : Host.Outcome State Fault Refusal :=
  .next (if s.clk.holdAll || s.start.stage ≠ 0 || s.start.held || s.start.recovery then s
    else
      let c := bootChoice s.boot s.mem
      let s1 := on (fun io => dset (idx 0x020104 0) c.code (choiceViolations s.boot c io)) s
      match c.slot with
      | none => recoveryEnter s1
      | some k => imageBoot k s1)

/-! ### Stage 2 (R56, R78 step 8) -/

/-- The cells and the steward core are released, and training begins (R496); present slots are powered (R425). -/
def stage2Enter (s : State) : State :=
  let s1 := { s with
    cpu := { s.cpu with held := false, cells := (List.range 128).map (fun c => (c, { cellAt s c with wdogAt := s.io.now })) }
    mon := { s.mon with beatAt := s.io.now }, start := { s.start with bringUp := s.io.now } }
  let s2 := (List.range 128).foldl (fun s c => cellStart c s) s1
  holdCheck (stageSet 2 (slotsStage2 (on (dset (idx 0x100002 0) 1) s2)))

/-- STAGE_2_ENTRY (R56, R78, R425, R496). -/
def execStage2Entry (s : State) : Host.Outcome State Fault Refusal :=
  .next (if s.clk.holdAll || s.start.stage ≠ 1 || s.start.held then s else stage2Enter s)

/-! ### Stage 3 (R56, R60) -/

/-- Settings that take effect at stage 3 entry (R183, R205, R253, R364). -/
def settingsStage3 (s : State) : State :=
  let g (obj d : Nat) : Nat := dget s.io (idx obj 0) d
  { s with
    io := { s.io with rings := { s.io.rings with pool := g 0x060001 512 }, vf := { s.io.vf with trackPool := g 0x050030 256 } }
    pipe := { s.pipe with deepRules := g 0x080004 0, deepNodes := g 0x080005 0 }
    rdma := { s.rdma with wqPool := g 0x0B0002 2048, asmPool := g 0x0B0003 512 } }

/-- The ports other than port 0 may run from stage 3 on (R59). -/
def portsStart (w : Wire) : Wire :=
  (List.range (modePorts w.net.mode)).foldl (fun w p =>
    if portMayRun w 3 p && !(portAt w.net p).up && !(portAt w.net p).training then
      portReport p (w.onNet (portPut p { portAt w.net p with training := true }))
    else w) w

/-- Stage 3 is entered once the queue pair is adopted and attached memory written, unless start is held. -/
def stage3Try (s : State) : State :=
  if s.start.stage = 2 && s.start.adopted && s.start.memWritten && !s.start.held then
    let s1 := settingsStage3 s
    let s2 := stageSet 3 (on (dset (idx 0x020002 4) (stageTime s1)) (reasonSet 0 s1))
    domStart (onWire portsStart s2)
  else s

/-- MEMORY_FULLY_WRITTEN (R56, R58, R66). -/
def execMemoryFullyWritten (s : State) : Host.Outcome State Fault Refusal :=
  .next (if s.start.stage ≠ 2 || dget s.io (idx 0x100002 0) 0 ≠ 2 then s
    else
      let s1 := { s with mem := { s.mem with filled := true }, start := { s.start with memWritten := true } }
      stage3Try (on (fun io => dset (idx 0x020002 3) (stageTime s1) (dset (idx 0x100002 0) 4 io)) s1))

/-! ### Deadlines and the watchdog (R57) -/

/-- Nanoseconds R56 allows for writing attached memory: 3.5 s for each 512 GiB. -/
def writeTime (m : MemTile) : Nat := 3500000000 * (memCapacity m / 2 ^ 30) / 512

/-- A deadline passes with its stage not reached: the reason is recorded. -/
def deadlineMissed (code t : Nat) (s : State) : State := reasonSet code (on (reach t) s)

/-- STAGE_DEADLINE_MISSED (R56, R57). -/
def execStageDeadlineMissed (stage : Fin 4) (s : State) : Host.Outcome State Fault Refusal :=
  .next (if s.clk.holdAll || s.start.recovery then s
    else
      match stage.val with
      | 1 => if s.start.stage < 1 then deadlineMissed 4 (s.start.origin + ms 400) s else s
      | 2 => if s.start.stage = 2 && !s.start.memWritten then deadlineMissed 6 (s.start.bringUp + writeTime s.mem) s else s
      | 3 => if s.start.stage < 3 then deadlineMissed 7 (s.start.origin + ms 4500 + writeTime s.mem) s else s
      | _ => s)

/-- START_WATCHDOG_EXPIRY (R57). -/
def execStartWatchdogExpiry (s : State) : Host.Outcome State Fault Refusal :=
  .next (let p := dget s.io (idx 0x020011 0) 30
    if s.clk.holdAll || p = 0 || s.start.stage = 3 || s.start.held || s.start.recovery then s
    else containChip 3 0 0 .watchdog (on (reach (s.start.origin + sec p)) s))

/-! ### The hold (R66) -/

/-- 02:0010 takes a value: it holds start at a stage, or releases it. -/
def startHoldSet (v : Nat) (s : State) : State :=
  let s1 := on (dset (idx 0x020010 0) v) s
  let mine := s1.start.held && s1.start.reason == 1 && v != s1.start.stage + 1
  stage3Try (holdCheck (if mine then startUnheld s1 else s1))

/-- START_HOLD (R62, R66). -/
def execStartHold (by_ : Issuer) (v : Byte) (s : State) : Host.Outcome State Fault Refusal :=
  .next (match gate s.start.stage by_ 0x020010 s.io with
    | some e => on (answer by_ (idx 0x020010 0) e []) s
    | none =>
      if 3 < v.toNat then on (answer by_ (idx 0x020010 0) 5 []) s
      else on (answer by_ (idx 0x020010 0) 0 []) (startHoldSet v.toNat s))

/-! ### Adoption (R64, R65) -/

/-- Fetching and delivery on the Sheepdog pair resume, the held frames first and in order. -/
def sheepdogResume (s : State) : State :=
  let held := s.net.adoptHeld
  let s1 := onWire (fun w => held.foldl (fun w o => toSheepdog o w)
    { w with io := { w.io with rings := { w.io.rings with adopting := false } }, net := { w.net with adoptHeld := [] } }) s
  on (fun io => (io.rings.rings.filter (fun p => p.2.sheepdog && !p.2.isCq)).foldl (fun io p => kick p.1 io) io) s1

/-- Firmware has adopted the pair: ADOPTED is set, and the admin entries held are carried out. -/
def adoptDone (s : State) : State :=
  let s1 := sheepdogResume s
  let held := s1.start.heldAdmin
  let s2 := { s1 with start := { s1.start with adopted := true, adoption := .idle, heldAdmin := [] } }
  stage3Try (held.foldl (fun s e => onWire (fun w =>
    if field e.2 1 1 = 0x81 then createCqW e.1 s.start.stage true e.2 w else createSqW e.1 s.start.stage true e.2 w) s) s2)

/-- ADOPTION_REQUEST (R64, R65). -/
def execAdoptionRequest (s : State) : Host.Outcome State Fault Refusal :=
  .next (if s.start.stage ≠ 2 || s.start.adopted || s.start.adoption != .idle then s
    else if s.io.rings.rings.any (fun p => p.2.sheepdog) then
      { s with start := { s.start with adoption := .requested s.io.now }
               io := { s.io with rings := { s.io.rings with adopting := true } } }
    else adoptDone s)

/-- ADOPTION_COMPLETE (R64, R65). -/
def execAdoptionComplete (s : State) : Host.Outcome State Fault Refusal :=
  .next (match s.start.adoption with
    | .idle => s
    | .requested _ => adoptDone s)

/-- ADOPTION_TIMEOUT (R64): 1 ms after the request. -/
def execAdoptionTimeout (s : State) : Host.Outcome State Fault Refusal :=
  .next (match s.start.adoption with
    | .idle => s
    | .requested t => reasonSet 8 (sheepdogResume (on (reach (t + ms 1)) { s with start := { s.start with adoption := .idle } })))

end Sys2Proof.Machine
end

