-- ==== Sys2Proof/Machine/OaCmd.lean ====
section
/-!
DEFINITION. Writes of CMD objects by an object-access frame (R12, R95, R101): each runs the meaning of the row its object and
operation code name, and its answer becomes the item's status and result.
-/
namespace Sys2Proof.Machine

/-- What a frame leaves to be done once its answer has left: a chip warm reset, by 01:0010, after the Stored defaults have
been written, or into the recovery loader. -/
inductive Restart where
  | none | warm | defaults | recover
  deriving DecidableEq, Repr

/-- The end of an item: its status, its result, what is left to do, and the state. -/
structure ItemEnd where
  status : Nat
  result : Bytes := []
  after  : Restart := .none
  s      : State

/-- The next state of a meaning. -/
def nextOr (s : State) : Host.Outcome State Fault Refusal → State
  | .next t => t
  | _ => s

/-- Whether something sent is the answer of a command. -/
def isAnswer (by_ : Issuer) (i : Nat) : Sent → Option (Nat × Bytes)
  | .cmdAnswer b j st r => if b = by_ ∧ j = i then some (st, r) else none
  | _ => none

/-- A command row runs; its answer is taken out of what it has sent. -/
def runRow (by_ : Issuer) (obj : Nat) (f : State → Host.Outcome State Fault Refusal) (s : State) : ItemEnd :=
  let i := idx obj 0
  let t := nextOr s (f { s with io := { s.io with sent := [] } })
  let a := (t.io.sent.findSome? (isAnswer by_ i)).getD (0, [])
  { status := a.1, result := a.2
    s := { t with io := { t.io with sent := t.io.sent.filter (fun x => (isAnswer by_ i x).isNone) ++ s.io.sent } } }

/-- The rows of 0B:0100 by operation code (R340). -/
def rdmaCmdRow (b : Issuer) (a : Bytes) : State → Host.Outcome State Fault Refusal :=
  match field a 0 1 with
  | 2 => execModifyQp b a
  | 3 => execDestroyQp b a
  | 4 => execQueryQp b a
  | 8 => execCreateSrq b a
  | 9 => execDestroySrq b a
  | 0xA => execArmSrq b a
  | 0xC => execCreateAh b a
  | 0xD => execDestroyAh b a
  | 0xE => execSetGid b a
  | 0x10 => execRegMr b a
  | 0x11 => execRevokeMr b a
  | 0x12 => execQueryMr b a
  | _ => execCreateQp b a

/-- The rows of 05:0100 by operation code (R175). -/
def migRow (b : Issuer) (a : Bytes) : State → Host.Outcome State Fault Refusal :=
  match field a 0 1 with
  | 2 => execMigDrain b a
  | 3 => execMigSave b a
  | 4 => execMigRestore b a
  | 5 => fun s => .next (migResumeDo b a s)
  | 6 => execTrackStart b a
  | 7 => execTrackStop b a
  | 8 => execMigHarvest b a
  | _ => execMigFreeze b a

/-- The rows of 0D:0100 by operation code (R427). -/
def slotRow (b : Issuer) (a : Bytes) (s : State) : Host.Outcome State Fault Refusal :=
  let bad : Host.Outcome State Fault Refusal := .next (slotCmd b 8 (fun s => (1, s)) s)
  if h : field a 0 1 < 8 then
    let k : SlotNo := ⟨field a 0 1, h⟩
    match if field a 2 2 = 0 then field a 1 1 else 0 with
    | 1 => execSlotPowerOn k (some b) s
    | 2 => execSlotPowerOff k (some b) s
    | 3 => execSlotAtnOff k b s
    | 4 => execSlotAtnOn k b s
    | 5 => execSlotAtnBlink k b s
    | _ => bad
  else bad

/-- Rows chosen by the operation code that begins an argument; an unknown code is refused by the first. -/
def byOp (a : Bytes) (first : State → Host.Outcome State Fault Refusal) (rest : List (State → Host.Outcome State Fault Refusal)) :
    State → Host.Outcome State Fault Refusal :=
  (rest[field a 0 1 - 2]?).getD first

/-- A command that restarts the Kwaith once it is answered: its argument must be 1. -/
def restartCmd (arg : Nat) (r : Restart) (s : State) : ItemEnd :=
  if arg = 1 then { status := 0, after := r, s := s } else { status := 5, s := s }

/-- A write to CMD object `obj` (R12). -/
def oaCmd (b : Issuer) (obj : Nat) (a : Bytes) (e : OaEnv) (s : State) : ItemEnd :=
  let n := leVal a
  let byte : Byte := BitVec.ofNat 8 n
  let half : Half := BitVec.ofNat 16 n
  let run := runRow b obj
  match obj with
  | 0x010010 => match gate s.start.stage b obj s.io with
    | some c => { status := c, s := s }
    | none => restartCmd n .warm s
  | 0x010120 => match gate s.start.stage b obj s.io with
    | some c => { status := c, s := s }
    | none => if n = 1 && !e.flashOk then { status := 0x13, s := s } else restartCmd n .defaults s
  | 0x020105 => run (execSlotCommit b byte) s
  | 0x020106 =>
    if n = 0x80 then
      let c := recoverCheck b s
      { status := c.1, after := if c.2 then .recover else .none
        s := if c.1 = 9 then (run (fun s => .next (recoverCmd b s)) s).s else s }
    else run (execSlotRetire b byte) s
  | 0x020107 => run (execRootKeyRevoke b byte) s
  | 0x020108 => run (execSlotResequence b byte) s
  | 0x020110 => run (execEpochAdvance b half e.vddFuse) s
  | 0x030120 => run (execMonTrust b byte) s
  | 0x030121 => run (execMonProcMeasure b byte e.procs) s
  | 0x050100 => run (migRow b a) s
  | 0x070021 => run (execTimeStep b (BitVec.ofNat 64 n)) s
  | 0x080021 => run (execPlateLoad (.cmd b a) e.list) s
  | 0x080022 => run (execPlateCommit (.cmd b a)) s
  | 0x080030 => run (execPinWrite b a) s
  | 0x080101 => run (execCounterClear b half) s
  | 0x090201 => run (execTblListStart (.cmd b a)) s
  | 0x090300 => run (byOp a (execProofStart b a) [execProofResume b a, execProofAbort b a]) s
  | 0x0A0100 => run (byOp a (execSaCreate b a) [execSaDelete b a, execSaQuery b a]) s
  | 0x0A0110 => run (byOp a (execKeyWrite (.cmd b a)) [execKeyErase (.cmd b a)]) s
  | 0x0A0200 => run (byOp a (execLaQueueCreate b a) [execLaQueueDelete b a]) s
  | 0x0B0100 => run (rdmaCmdRow b a) s
  | 0x0C0020 => run (byOp a (execNsAttach b a) [execNsDetach b a, execNsAttachQuery b a]) s
  | 0x0C1000 => run (byOp a (execNsCreate b a) [execNsDelete b a, execNsQuery b a, execNsRecover b a]) s
  | 0x0C1010 => run (byOp a (execBeDefine b a e.ident) [execBeRemove b a, execBeQuery b a]) s
  | 0x0C1040 => run (byOp a (execSealVerifyStart b a) [execSealVerifyResume b a, execSealVerifyAbort b a]) s
  | 0x0C1050 => run (execSealExport b a e.chain) s
  | 0x0D0100 => run (slotRow b a) s
  | 0x0E0020 => run (execCellReset b byte) s
  | 0x0E0420 => run (execContRegionReset b byte) s
  | 0x0E0421 => run (execContBlockReset b byte) s
  | 0x0E0422 => run (execContReleaseStage0 b byte) s
  | 0x100020 => run (execMemTranslate b (BitVec.ofNat 64 n)) s
  | 0x100032 => run (byOp a (execMemDeviceMark b a) [execMemDeviceClear b a]) s
  | 0x100100 => run (byOp a (execScrubStart b a) [execScrubResume b a, execScrubAbort b a]) s
  | 0x100110 => run (byOp a (execEccTestRawWrite b a) [execEccTestDataWrite b a, execEccTestCheckWrite b a, execEccTestRead b a]) s
  | 0x110011 => run (execRosterCommit b a) s
  | 0x110020 => run (execDomPeerQuery b half) s
  | 0x120006 => run (execJournalClear b byte) s
  | 0x130010 => run (fun s => .next (dbgUnlockCmd b a s)) s
  | 0x130100 => run (fun s => .next (dbgDict b false a (dbgAny a e.host) s)) s
  | 0x130200 => run (fun s => .next (serAnyCmd b a s)) s
  | _ => { status := 4, s := s }

end Sys2Proof.Machine
end

