-- ==== Sys2Proof/Machine/OaWrite.lean ====
section
/-!
DEFINITION. Writes of values (R7, R11, R98, R101, R107): what an item may carry, the rules between objects their chapters
give, and what a new value sets off.
Choices of the model coded here, by entry of the assumption log: DEDUCED 28, 29, 32, 87.
-/
namespace Sys2Proof.Machine

/-! ### One value -/

/-- The bytes of a UTF-8 string, read one at a time: `left` continuation bytes are due, the first of them between `lo` and `hi`. -/
def utf8From : Nat → Nat → Nat → Bytes → Bool
  | left, _, _, [] => left == 0
  | 0, _, _, b :: r =>
    let n := b.toNat
    if n < 0x80 then utf8From 0 0x80 0xBF r
    else if 0xC2 ≤ n ∧ n ≤ 0xDF then utf8From 1 0x80 0xBF r
    else if 0xE0 ≤ n ∧ n ≤ 0xEF then utf8From 2 (if n = 0xE0 then 0xA0 else 0x80) (if n = 0xED then 0x9F else 0xBF) r
    else if 0xF0 ≤ n ∧ n ≤ 0xF4 then utf8From 3 (if n = 0xF0 then 0x90 else 0x80) (if n = 0xF4 then 0x8F else 0xBF) r
    else false
  | left + 1, lo, hi, b :: r => decide (lo ≤ b.toNat) && decide (b.toNat ≤ hi) && utf8From left 0x80 0xBF r

/-- R98: the bytes of an item as a value of its type; none where their number does not fit, or a STR64 is no UTF-8 (R11). -/
def itemVal (o : Obj) (t : Ty) (b : Bytes) : Option Val :=
  match t with
  | .str64 => if b.length ≤ 64 && utf8From 0 0x80 0xBF b then some (.str (padTo 64 b)) else none
  | .blob => if b.length ≤ o.len then some (.str b) else none
  | t => if b.length = t.width then some (.num (leVal b)) else none

/-- R11, R105: the value lies in the range its object gives. -/
def inRange (o : Obj) (i : Nat) : Val → Bool
  | .str b =>
    if o.ty = .str64 then true
    else (b.isEmpty && (o.zeroOk || decide (o.lo ≤ 0))) || (decide (o.lo ≤ b.length) && decide (b.length ≤ o.len) && !b.isEmpty)
  | .num n =>
    if o.elems ≠ 0 && i % 256 = 0 then decide (o.minElems ≤ n) && decide (n ≤ o.elems)
    else
      match o.ty with
      | .bool => decide (n ≤ 1)
      | .enum8 => decide (n < 128) && o.hi.toNat.testBit n
      | .bits32 => n &&& o.hi.toNat == n
      | t =>
        let v : Int := if t.signed then toSigned (8 * t.width) n else n
        (decide (o.lo ≤ v) && decide (v ≤ o.hi)) || (o.zeroOk && n == 0)

/-- The number an index holds, its default where none is held. -/
def numNow (io : Io) (i : Nat) : Nat :=
  match mget io.dic i with
  | some (.num n) => n
  | _ => match objOf i with
    | some o => dfltNat o (i % 256)
    | none => 0

/-! ### Rules of single objects -/

/-- R168, R169: a run of 05:0010. -/
def runOk (total : Nat → Nat) (r : Bytes) : Bool :=
  let f := field r
  let ty := f 1 1
  let p := f 0 1
  decide (p < 4) && decide (ty < 4) && (p == 3 || (ty == p && ty != 3)) &&
  decide (1 ≤ f 2 2) && decide (1 ≤ f 4 2) && decide (f 2 2 + f 4 2 - 1 ≤ total p) &&
  decide (1 ≤ f 6 1) && decide (f 6 1 ≤ 64) && f 7 1 == 0 && f 0x14 4 == 0 && decide (1 ≤ f 8 2) && decide (f 8 2 ≤ 128) &&
  decide (f 0xA 2 ≤ 4096) && decide (f 0xC 4 ≤ 65536) && decide (f 0x10 4 ≤ 65536) && (decide (2 ≤ ty) || (f 0xC 4 == 0 && f 0x10 4 == 0))

/-- R170: two runs do not overlap. -/
def runsApart (a b : Bytes) : Bool :=
  field a 0 1 != field b 0 1 || decide (field a 2 2 + field a 4 2 ≤ field b 2 2) || decide (field b 2 2 + field b 4 2 ≤ field a 2 2)

/-- R170, R171: the runs `after` may replace those `before`. -/
def runsOk (before after : Io) : Bool :=
  let l := vfRunList after
  l.all (runOk (vfTotal after)) && decide (l.Pairwise (fun a b => runsApart a b = true)) &&
  (List.range 5).all (fun k => decide (poolUsed after (k + 1) ≤ [57344, 65024, 196608, 786432, 786432].getD k 0)) &&
  (List.range 4).all (fun p => !(fnCfg before (activeTwin before p)).vfEnable || vfRuns before p == vfRuns after p)

/-- R239: the shared part of the packet buffer would stay at 8 MiB or more, in the mode in force and the mode stored. -/
def sharedOk (mode : Nat) (io : Io) : Bool :=
  [mode, numNow io (idx 0x070000 0)].all (fun m =>
    decide (8192 ≤ sharedKib (modePorts m) (numNow io (idx 0x070121 0)) (numNow io (idx 0x070122 0))
      (fun p => numNow io (idx 0x070013 (p + 1))) (fun p => numNow io (idx 0x070012 (p + 1))) (fun p => numNow io (idx 0x070010 (p + 1)))))

/-- A group address, or empty. -/
def groupMac (b : Bytes) : Bool := b.isEmpty || field b 0 1 % 2 == 1

/-- R291, 09:0400: limit and mode. -/
def learnCfgOk (b : Bytes) : Bool := b.isEmpty || (decide (field b 0 4 ≤ 131072) && decide (field b 4 1 ≤ 2) && field b 5 3 == 0)

/-- 0C:0400: weight, URGENT, in-flight limit and spill quota. -/
def ctrlCfgOk (b : Bytes) : Bool :=
  b.isEmpty ||
  (decide (1 ≤ field b 0 1) && decide (field b 0 1 ≤ 16) && decide (field b 1 1 ≤ 1) && decide (16 ≤ field b 2 2) &&
   decide (field b 2 2 ≤ 4096) && decide (64 ≤ field b 4 4) && decide (field b 4 4 ≤ 65536))

/-- 0C:1020: reserved bytes and slots; not an element a namespace names. -/
def wilCfgOk (s : State) (e : Nat) (b : Bytes) : Bool :=
  (b.isEmpty || (field b 1 3 == 0 && decide (256 ≤ field b 4 4) && decide (field b 4 4 ≤ 65536))) &&
  !(s.store.nss.any (fun n => n.2.log + 1 == e))

/-- What the chapter that owns object `i` asks of its new value beyond its range; `after` is the dictionary that holds it. -/
def ruleOk (i : Nat) (s : State) (after : Io) : Bool :=
  let e := i % 256
  let n := numNow after i
  let b := dgetB after i
  let obj := i / 256
  if 0x080800 ≤ obj ∧ obj < 0x081000 then b.isEmpty || decide (field b 0 4 ≤ field b 4 4)
  else if 0x090400 ≤ obj ∧ obj < 0x09080C then learnCfgOk b
  else if 0x0C0400 ≤ obj ∧ obj < 0x0C0804 then ctrlCfgOk b
  else
    match obj with
    | 0x000101 =>
      if e = 2 ∨ e = 3 then n == 3 else if e = 5 then n == 1
      else decide (n ≤ if e = 6 then 1 else 3) && (e == 6 || n != 0)
    | 0x030100 => decide (n ≤ numNow after (idx 0x030101 e))
    | 0x030101 => decide (numNow after (idx 0x030100 e) ≤ n)
    | 0x040002 => e != 1 || n == 0
    | 0x040030 => n % 4096 == 0
    | 0x050001 =>
      (span 1 4).all (fun k => decide (numNow after (idx 0x050001 k) ≤ 512)) &&
      decide (((span 1 4).map (fun k => numNow after (idx 0x050001 k))).sum ≤ 1024)
    | 0x050010 => runsOk s.io after
    | 0x070000 => sharedOk s.net.mode after
    | 0x070010 => sharedOk s.net.mode after
    | 0x070012 => sharedOk s.net.mode after
    | 0x070013 => sharedOk s.net.mode after
    | 0x070101 => n != 0
    | 0x070121 => sharedOk s.net.mode after
    | 0x070122 => sharedOk s.net.mode after
    | 0x090030 => n != numNow after (idx 0x110007 0)
    | 0x110007 => n != numNow after (idx 0x090030 0)
    | 0x090032 => groupMac b
    | 0x110008 => groupMac b
    | 0x0C0000 => n.testBit 1
    | 0x0C1020 => wilCfgOk s e b
    | 0x0E0011 => n % 2 == 0
    | 0x100102 => decide (n ≤ numNow after (idx 0x100103 0))
    | 0x100103 => decide (numNow after (idx 0x100102 0) ≤ n)
    | _ => true

/-! ### A value in the dictionary -/

/-- R98: the dictionary with `v` at `i`: a count that shrinks drops the elements beyond it, a write beyond it extends it. -/
def valPut (i : Nat) (v : Val) (m : List (Nat × Val)) : List (Nat × Val) :=
  match objOf i with
  | none => m
  | some o =>
    if o.minElems = o.elems then mput m i v
    else
      let c := i / 256 * 256
      let n := match mget m c with
        | some (.num n) => n
        | _ => o.minElems
      if i = c then
        mput (m.filter (fun p => p.1 / 256 != i / 256 || (match v with
          | .num n => decide (p.1 % 256 ≤ n)
          | _ => true))) i v
      else if n < i % 256 then mput (mput m i v) c (.num (i % 256)) else mput m i v

/-- R107: the change count of the object of an index. -/
def changeCount (io : Io) (i : Nat) : Nat := mgetD io.oa.changes (i / 256) 0

/-- What a value newly in force sets off. -/
def valHook (i : Nat) (v : Val) (s : State) : State :=
  let e := i % 256
  let obj := i / 256
  if 0x080800 ≤ obj ∧ obj < 0x081000 then
    { s with pipe := { s.pipe with buckets := s.pipe.buckets.filter (fun p => p.1 % 2048 != obj - 0x080800) } }
  else
    match obj with
    | 0x000101 => on mapRebuild s
    | 0x010101 =>
      if v = .num 0 then
        on (fun io =>
          assocsEnd (fun k => k.binding == .mgmtEth)
            { io with oa := { io.oa with sessions := io.oa.sessions.filter (fun x => x.assoc.binding != .mgmtEth) } }) s
      else s
    | 0x040030 => on (winsNarrow (e - 1)) s
    | 0x040031 => on (winsNarrow (e - 1)) s
    | 0x040032 => on (winsNarrow (e - 1)) s
    | 0x050010 => on mapRebuild s
    | 0x070001 =>
      onWire (fun w => (List.range 8).foldl (fun w p =>
        let x := portAt w.net p
        if portMayRun w s.start.stage p then (if x.up then w else portReport p (w.onNet (portPut p { x with training := true })))
        else
          let w1 := if x.up then linkDownPort p w else w
          portReport p (w1.onNet (portPut p { portAt w1.net p with training := false }))) w) s
    | 0x0E0010 => (List.range 128).foldl (fun s c => wdogKick c s) s
    | 0x110000 => domIdWritten s
    | _ => s

/-- R107: a write counts as a change of its object. -/
def countChange (i : Nat) (io : Io) : Io := { io with oa := { io.oa with changes := mput io.oa.changes (i / 256) (changeCount io i + 1) } }

/-- A value is applied (R101, R107): stored, the change counted, its object's subscribers told where it differs. -/
def valStore (o : Obj) (i : Nat) (v : Val) (s : State) : State :=
  let old := valOf .m o i s
  let io := s.io
  let io1 : Io :=
    countChange i { io with dic := valPut i v io.dic, params := if o.pers = .stored then valPut i v io.params else io.params }
  let same := old.map (valBytes i) == some (valBytes i v)
  let io2 := if same then io1 else changed i v io1
  valHook i v { s with io := if !same && o.builtin then builtinNote i v io2 else io2 }

/-- The same, for the objects whose write has a row of its own (R66, R223) too. -/
def valApply (o : Obj) (i : Nat) (v : Val) (s : State) : State :=
  match i / 256, v with
  | 0x020010, .num n => on (countChange i) (startHoldSet n s)
  | 0x070020, .num n => onWire (fun w => (w.on (fun io => countChange i (trimWrite n io))).onNet (fun x => { x with trimAt := w.io.now })) s
  | _, _ => valStore o i v s

/-! ### One item -/

/-- Where an item stands before its value is applied: refused with a status, a value to store, or a command to run. -/
inductive ItemCheck where
  | refuse (status : Nat)
  | store (o : Obj) (v : Val)
  | run (o : Obj)

/-- R98: the row of the index a write names: an element beyond a variable count exists up to the largest count. -/
def itemAt (i : Nat) : Option Obj :=
  match objOf i with
  | none => none
  | some o => if i % 256 ≤ o.elems then some o else none

/-- R62, R13, R110: the checks of the writer; NOT_READY before stage 3. -/
def writerOk (stage : Nat) (k : AssocKey) (o : Obj) (obj : Nat) (io : Io) : Nat :=
  if !(mayWrite o (principalOf k.binding)) then 3
  else if stage < 3 && !(earlyWrite obj) then 1
  else if needsSession io o k then 7
  else 0

/-- R105: the checks of a WRITE item in order: existence, rights, stage, session, Access, type, length and range, and the
rules of its chapter, with `staged` values taken as written (R107). A command meets those of its row. -/
def itemCheck (k : AssocKey) (i ty : Nat) (value : Bytes) (txn : Bool) (staged : List (Nat × Val)) (s : State) : ItemCheck :=
  match itemAt i with
  | none => .refuse 2
  | some o =>
    let w := writerOk s.start.stage k o (i / 256) s.io
    let t := typeAt i
    if o.acc = .cmd then
      if txn then .refuse (if w = 3 then 3 else 4)
      else if ty ≠ t.code then .refuse (if w = 0 then 6 else w)
      else if (itemVal o t value).isNone then .refuse (if w = 0 then 5 else w)
      else .run o
    else if w ≠ 0 then .refuse w
    else if o.acc = .ro || o.acc = .rc || (o.elems ≠ 0 && i % 256 = 0 && o.minElems = o.elems) then .refuse 4
    else if ty ≠ t.code then .refuse 6
    else
      match itemVal o t value with
      | none => .refuse 5
      | some v =>
        let after : Io := { s.io with dic := valPut i v (staged.foldl (fun m p => valPut p.1 p.2 m) s.io.dic) }
        if inRange o i v && ruleOk i s after then .store o v else .refuse 5

/-- R101: one item of a WRITE outside a transaction. -/
def itemWrite (k : AssocKey) (tag : Nat) (env : OaEnv) (x : OaItem) (s : State) : ItemEnd :=
  match itemCheck k x.index x.ty x.value false [] s with
  | .refuse c => { status := c, s := s }
  | .run _ => oaCmd { assoc := k, tag := tag } (x.index / 256) x.value env s
  | .store o v => if o.pers = .stored && !env.flashOk then { status := 0x13, s := s } else { status := 0, s := valApply o x.index v s }

/-- R107: one item of a WRITE inside a transaction is staged; at most 256 (R109). -/
def itemStage (k : AssocKey) (x : OaItem) (t : Txn) (s : State) : Nat × Txn :=
  match itemCheck k x.index x.ty x.value true (t.staged.map (fun p => (p.index, p.value))) s with
  | .refuse c => (c, t)
  | .run _ => (4, t)
  | .store _ v =>
    match t.staged.find? (fun p => p.index == x.index) with
    | some p => (0, { t with staged := t.staged.filter (fun q => q.index != x.index) ++ [{ p with value := v }] })
    | none =>
      if 256 ≤ t.staged.length then (0x10, t)
      else
        let c := match t.staged.find? (fun p => p.index / 256 == x.index / 256) with
          | some p => p.count
          | none => changeCount s.io x.index
        (0, { t with staged := t.staged ++ [{ index := x.index, value := v, count := c }] })

/-- R107, R108: TXN_COMMIT: a change count that has moved, or a rule between objects the staged values together break, applies
nothing; else all are applied at once. -/
def commitAll (env : OaEnv) (t : Txn) (s : State) : Nat × State :=
  let after : Io := { s.io with dic := t.staged.foldl (fun m p => valPut p.index p.value m) s.io.dic }
  let rows := t.staged.filterMap (fun p => (objOf p.index).map (fun o => (o, p)))
  if t.staged.any (fun p => changeCount s.io p.index != p.count) then (0x0E, s)
  else if !(t.staged.all (fun p => ruleOk p.index s after)) then (5, s)
  else if !env.flashOk && rows.any (fun r => r.1.pers == .stored) then (0x13, s)
  else (0, rows.foldl (fun s r => valApply r.1 r.2.index r.2.value s) s)

end Sys2Proof.Machine
end

