-- ==== Sys2Proof/Machine/OaServer.lean ====
section
/-!
DEFINITION. The object-access server (R95 to R117): associations, the checks of a frame, and its operations.
Choices of the model coded here, by entry of the assumption log: DESIGN CHOICE 2, 23, 31; DEDUCED 27, 28, 29, 30.
-/
namespace Sys2Proof.Machine

/-! ### Associations (R96, R99, R106) -/

/-- R14, R111: the key of a frame: only management associations carry a session. -/
def sourceKey (k : AssocKey) : AssocKey := if principalOf k.binding = .m && k.binding != .uart0 then k else { k with session := none }

/-- A new association. -/
def freshAssoc (k : AssocKey) (io : Io) : Assoc :=
  { key := assocId k, version := 0, maxFrame := frameLimit k.binding, seq := 0, lost := 0, queue := [], recent := [], part := none,
    snapshot := none, issued := [], last := io.now }

/-- Storing an association. -/
def assocPut (a : Assoc) (io : Io) : Io :=
  let l := io.oa.assocs
  let l1 := if l.any (fun x => x.key == a.key) then l.map (fun x => if x.key = a.key then a else x) else l ++ [a]
  { io with oa := { io.oa with assocs := l1 } }

/-- The association of a frame, unnegotiated where there was none. -/
def assocGet (io : Io) (k : AssocKey) : Assoc := (assocOf io k).getD (freshAssoc k io)

/-- A frame arrives on an association, and on its session. -/
def assocTouch (k : AssocKey) (io : Io) : Io :=
  let io1 := assocPut { assocGet io k with last := io.now } io
  { io1 with oa := { io1.oa with sessions := io1.oa.sessions.map (fun x => if some x.id = k.session then { x with last := io.now } else x) } }

/-- R99, R540: the largest frame of an association. -/
def limitOf (s : State) (k : AssocKey) : Nat :=
  let own := frameLimit k.binding
  let carried := if k.binding = .fabric
    then min own (numNow s.io (idx 0x070002 ((domPeer s.dom k.key).port + 1)) - 34) else own
  min carried (assocGet s.io k).maxFrame

/-- R111: whether the source address has an answer left in this second; it is used. -/
def ethUse (k : AssocKey) (io : Io) : Bool × Io :=
  let a := k.key / 65536
  let t := io.now / sec 1
  let u := mgetD io.oa.ethUsed a (t, 0)
  let n := if u.1 = t then u.2 else 0
  if n < dget io (idx 0x010104 0) 1000 then (true, { io with oa := { io.oa with ethUsed := mput io.oa.ethUsed a (t, n + 1) } })
  else (false, io)

/-- R97, R111: a frame discarded without answer. -/
def discardFrame (k : AssocKey) (io : Io) : Io := bump32 0x010111 (bindingNo k.binding) io

/-- R563, class 6: a management station. -/
def mgmtPartner (k : AssocKey) : Bytes :=
  let eth := k.binding == .mgmtEth
  le 1 (bindingNo k.binding) ++ le 1 0 ++ le 2 (if k.binding = .uart0 then 0 else if k.binding = .mctpVdm then k.key % 256 else k.key) ++ (if eth then be 4 (k.key / 65536) else le 4 0)

/-- R105, R564: a MALFORMED or TOO_LARGE frame is journalled, but one of the firmware port. -/
def journalFrame (k : AssocKey) (op status len : Nat) (s : State) : State :=
  let d := le 1 op ++ le 1 status ++ le 4 len
  match k.binding with
  | .fwPort => s
  | .pfMailbox => on (fun io => violate 0x010B (hostPartner io k.key 0) d io) s
  | .vfMailbox => on (fun io => violate 0x010B (hostPartner io k.key 0) d io) s
  | .fabric => on (violate 0x0504 (fabricPartner k.key (domPeer s.dom k.key).port s.dom.domain) d) s
  | _ => on (violate 0x0602 (mgmtPartner k) d) s

/-! ### Operations -/

/-- What a frame gets: an answer, and the state after; `after` waits until the answer has left. -/
structure Reply where
  resp  : OaResp
  after : Restart
  s     : State

/-- An answer of one status. -/
def reply (v : Nat) (q : OaReq) (status : Nat) (s : State) : Reply := { resp := failResp v q status, after := .none, s := s }

/-- An answer with a payload. -/
def replyWith (v : Nat) (q : OaReq) (status : Nat) (payload : Bytes) (s : State) : Reply :=
  { resp := { failResp v q status with payload := payload }, after := .none, s := s }

/-- Objects read by READ_BLOCK alone (R130, R566 and the tables of their chapters). -/
def blockOnly : List Nat := [0xFF0010, 0x120000, 0x080100, 0x0C1051, 0x110013]

/-- The checks of a read: existence, rights, Access; 0 where it may go on. -/
def readerOk (k : AssocKey) (i : Nat) (io : Io) : Nat :=
  match indexAt io i with
  | none => 2
  | some o => if !(mayRead o (principalOf k.binding)) then 3 else if o.acc = .cmd ∨ o.acc = .wo then 4 else 0

/-- R98: the items a READ item asks for, with the type asked: a whole array is its count and its elements. -/
def readList (k : AssocKey) (io : Io) (x : OaItem) : List (Nat × Nat) :=
  match indexAt io x.index with
  | none => [(x.index, x.ty)]
  | some o =>
    if x.ty = 0x0F && o.elems ≠ 0 && x.index % 256 = 0 && readerOk k x.index io == 0 then
      (span x.index (countOf io o (x.index / 256) + 1)).map (fun i => (i, 0))
    else [(x.index, x.ty)]

/-- R98, R102: one item of a READ. -/
def readItem (k : AssocKey) (i ty : Nat) (s : State) : OaRItem × State :=
  let bad (c : Nat) : OaRItem × State := ({ index := i, ty := ty, status := c, value := [] }, s)
  let c := readerOk k i s.io
  match indexAt s.io i with
  | none => bad 2
  | some o =>
    if c ≠ 0 then bad c
    else if ty ≠ 0 && ty ≠ (typeAt i).code then bad 6
    else
      match readVal (principalOf k.binding) o i s with
      | (some v, t) => ({ index := i, ty := (typeAt i).code, status := 0, value := valBytes i v }, t)
      | (none, _) => ({ index := i, ty := (typeAt i).code, status := 1, value := [] }, s)

/-- R99, R102: the items of a READ in turn, as far as they fit; one that does not fit is not read. -/
def readItems (k : AssocKey) : Nat → List (Nat × Nat) → State → List OaRItem × Bool × State
  | _, [], s => ([], false, s)
  | room, x :: r, s =>
    let y := readItem k x.1 x.2 s
    if rItemSize y.1 + (if r.isEmpty then 0 else 8) ≤ room then
      let t := readItems k (room - rItemSize y.1) r y.2
      (y.1 :: t.1, t.2)
    else ([moreItem x.1], true, s)

/-- READ (R102). -/
def readOp (a : Assoc) (q : OaReq) (l : List OaItem) (s : State) : Reply :=
  let k := q.assoc
  if l.any (fun x => blockOnly.contains (x.index / 256) && readerOk k x.index s.io == 0) then reply a.version q 0x0B s
  else
    let r := readItems k (limitOf s k - 16) (l.flatMap (readList k s.io)) s
    { resp := { failResp a.version q (if r.2.1 then 0x12 else firstFault r.1) with items := r.1 }, after := .none, s := r.2.2 }

/-- The items of a WRITE outside a transaction, in order. -/
def writeItems (k : AssocKey) (tag : Nat) (env : OaEnv) : List OaItem → State → List OaRItem × Restart × State
  | [], s => ([], .none, s)
  | x :: r, s =>
    let e := itemWrite k tag env x s
    let t := writeItems k tag env r e.s
    ({ index := x.index, ty := x.ty, status := e.status, value := e.result } :: t.1, if t.2.1 = .none then e.after else t.2.1, t.2.2)

/-- The items of a WRITE inside a transaction. -/
def stageItems (k : AssocKey) : List OaItem → Txn → State → List OaRItem × Txn
  | [], t, _ => ([], t)
  | x :: r, t, s =>
    let c := itemStage k x t s
    let u := stageItems k r c.2 s
    ({ index := x.index, ty := x.ty, status := c.1, value := [] } :: u.1, u.2)

/-- Storing an open transaction. -/
def txnPut (t : Txn) (io : Io) : Io := { io with oa := { io.oa with txns := io.oa.txns.map (fun x => if x.id = t.id then t else x) } }

/-- A transaction ends. -/
def txnEnd (id : Nat) (io : Io) : Io := { io with oa := { io.oa with txns := io.oa.txns.filter (fun x => x.id != id) } }

/-- R101, R102: the frame status of the items answered. -/
def itemsReply (a : Assoc) (q : OaReq) (l : List OaRItem) (after : Restart) (s : State) : Reply :=
  let f := fitItems (limitOf s q.assoc - 16) l
  { resp := { failResp a.version q (if f.2 then 0x12 else firstFault l) with items := f.1 }, after := after, s := s }

/-- WRITE (R101, R107). -/
def writeOp (a : Assoc) (q : OaReq) (l : List OaItem) (env : OaEnv) (s : State) : Reply :=
  match s.io.oa.txns.find? (fun t => t.id == q.hdr.txn) with
  | some t =>
    let r := stageItems q.assoc l t s
    itemsReply a q r.1 .none (on (txnPut r.2) s)
  | none =>
    let r := writeItems q.assoc q.hdr.tag env l s
    itemsReply a q r.1 r.2.1 r.2.2

/-- R104: a descriptor; one of zeros for an item that fails. -/
def descriptor (k : AssocKey) (i : Nat) (io : Io) : Nat × Bytes :=
  let w := principalOf k.binding
  match indexAt io i with
  | none => (2, le 4 i ++ le 12 0)
  | some o =>
    if !(mayRead o w || mayWrite o w) then (3, le 4 i ++ le 12 0)
    else
      let whole := o.elems ≠ 0 && i % 256 = 0
      (0, le 4 i ++ le 1 (if whole then 0x0F else o.ty.code) ++ le 1 (if whole then o.ty.code else 0) ++ le 1 o.acc.code ++
        le 1 o.pers.code ++ le 2 o.rights ++ le 1 (b2n (o.session != 0) + 2 * b2n o.builtin) ++ le 1 0 ++
        le 4 (if whole then o.elems else o.len))

/-- DESCRIBE (R104). -/
def describeOp (a : Assoc) (q : OaReq) (l : List OaItem) (s : State) : Reply :=
  let d := l.map (fun x => (x.index, descriptor q.assoc x.index s.io))
  let n := (limitOf s q.assoc - 16) / 16
  let fault := match d.find? (fun x => x.2.1 != 0) with
    | some x => x.2.1
    | none => 0
  let out (st : Nat) (p : List Bytes) : Reply :=
    { resp := { failResp a.version q st with count := p.length, payload := p.flatten }, after := .none, s := s }
  if d.length ≤ n then out fault (d.map (·.2.2))
  else out 0x12 ((d.take (n - 1)).map (·.2.2) ++ ((d.drop (n - 1)).take 1).map (fun x => le 4 x.1 ++ le 12 0))

/-- ENUMERATE (R100); without a session management Ethernet sees area 00 alone. -/
def enumerateOp (a : Assoc) (q : OaReq) (i : Nat) (s : State) : Reply :=
  let all := (indicesFor s.io (fun o => mayRead o (principalOf q.assoc.binding))).map (·.1)
  let open_ := q.assoc.binding != .mgmtEth || inSession s.io q.assoc
  let l := all.filter (fun x => decide (i < x) && (open_ || decide (x < 0x1000000)))
  let n := (limitOf s q.assoc - 16) / 4
  { resp := { failResp a.version q (if n < l.length then 0x12 else 0) with
      count := (l.take n).length, payload := (l.take n).flatMap (le 4) }
    after := .none, s := s }

/-- Bytes of a value from an offset, cut by the frame. -/
def blockReply (a : Assoc) (q : OaReq) (b : Bytes) (offset length : Nat) (s : State) : Reply :=
  if b.length < offset then reply a.version q 5 s
  else
    let c := (b.drop offset).take length
    let room := limitOf s q.assoc - 16
    replyWith a.version q (if room < c.length then 0x12 else 0) (c.take room) s

/-- R133: a table object is read from a snapshot that offset 0 takes. -/
def snapshotOp (a : Assoc) (q : OaReq) (i offset length : Nat) (b : Bytes) (s : State) : Reply :=
  let keep (x : Snapshot) (s : State) : State :=
    on (assocPut { assocGet s.io q.assoc with snapshot := some { x with last := s.io.now } }) s
  if offset = 0 then blockReply a q b 0 length (keep { index := i, data := b, last := s.io.now } s)
  else
    match a.snapshot with
    | some x =>
      if x.index = i ∧ s.io.now < x.last + sec 10 then blockReply a q x.data offset length (keep x s) else reply a.version q 5 s
    | none => reply a.version q 5 s

/-- READ_BLOCK (R100, R133). -/
def readBlockOp (a : Assoc) (q : OaReq) (i offset length : Nat) (s : State) : Reply :=
  let w := principalOf q.assoc.binding
  let c := readerOk q.assoc i s.io
  match indexAt s.io i with
  | none => reply a.version q 2 s
  | some o =>
    if c ≠ 0 then reply a.version q c s
    else if typeAt i ≠ .blob then reply a.version q 6 s
    else
      let r := if i / 256 = 0x130201 then readVal w o i s else (valOf w o i s, s)
      match r.1 with
      | some (.str b) =>
        if i / 256 = 0xFF0010 ∨ i / 256 = 0x120000 then snapshotOp a q i offset length b r.2 else blockReply a q b offset length r.2
      | _ => reply a.version q 1 s

/-- The checks a WRITE_BLOCK meets at offset 0 (R103). -/
def blockCheck (k : AssocKey) (i total : Nat) (s : State) : Nat :=
  match itemAt i with
  | none => 2
  | some o =>
    let w := writerOk s.start.stage k o (i / 256) s.io
    if w ≠ 0 then w
    else if o.acc = .ro ∨ o.acc = .rc then 4
    else if typeAt i ≠ .blob then 6
    else if o.len < total then 5
    else 0

/-- R103: the bytes of a sequence so far; the last of them gives the object its value. -/
def blockTake (a : Assoc) (q : OaReq) (env : OaEnv) (i total : Nat) (d : Bytes) (s : State) : Reply :=
  let put (x : Option PartialBlock) (s : State) : State := on (assocPut { assocGet s.io q.assoc with part := x }) s
  if d.length < total then
    replyWith a.version q 0 (le 4 d.length) (put (some { index := i, total := total, data := d, last := s.io.now }) s)
  else
    let e := itemWrite q.assoc q.hdr.tag env { index := i, ty := 0x0E, value := d } (put none s)
    { replyWith a.version q e.status (le 4 d.length) e.s with after := e.after }

/-- WRITE_BLOCK (R103). -/
def writeBlockOp (a : Assoc) (q : OaReq) (env : OaEnv) (i offset total : Nat) (d : Bytes) (s : State) : Reply :=
  if offset = 0 then
    let s1 := on (assocPut { assocGet s.io q.assoc with part := none }) s
    let c := blockCheck q.assoc i total s
    if c ≠ 0 then reply a.version q c s1
    else if total < d.length then reply a.version q 5 s1
    else blockTake a q env i total d s1
  else
    match a.part with
    | none => reply a.version q 5 s
    | some p =>
      if p.index ≠ i || p.total ≠ total || p.data.length ≠ offset || total < offset + d.length || p.last + sec 10 ≤ s.io.now
      then reply a.version q 5 s
      else blockTake a q env i total (p.data ++ d) s

/-- TXN_BEGIN (R107, R109). -/
def txnBeginOp (a : Assoc) (q : OaReq) (s : State) : Reply :=
  if 8 ≤ s.io.oa.txns.length then reply a.version q 0x10 s
  else
    match pickFree (fun n => s.io.oa.txnIds.contains n) 1 (2 ^ 32 - 1) s.io with
    | (none, _) => reply a.version q 0x10 s
    | (some n, io) =>
      let t : Txn := { id := n, assoc := assocId q.assoc, staged := [], last := io.now }
      let x := assocGet io q.assoc
      let io1 := assocPut { x with issued := n :: x.issued } { io with oa := { io.oa with txns := io.oa.txns ++ [t], txnIds := n :: io.oa.txnIds } }
      replyWith a.version q 0 (le 4 n) { s with io := io1 }

/-- TXN_COMMIT (R107, R108); the transaction ends whatever its outcome. -/
def txnCommitOp (a : Assoc) (q : OaReq) (env : OaEnv) (s : State) : Reply :=
  match s.io.oa.txns.find? (fun t => t.id == q.hdr.txn) with
  | none => reply a.version q 0x0C s
  | some t =>
    let r := commitAll env t (on (txnEnd t.id) s)
    reply a.version q r.1 r.2

/-- What a notification of index `i` carries now: its value, or an array's count and elements (R114). -/
def noteNow (k : AssocKey) (i : Nat) (s : State) : List (Nat × Val) :=
  match objOf i with
  | none => []
  | some o =>
    (span i (if o.elems ≠ 0 && i % 256 = 0 then countOf s.io o (i / 256) + 1 else 1)).filterMap (fun j =>
      (valOf (principalOf k.binding) o j s).map (fun v => (j, v)))

/-- What a subscription to a value worked out as it is read compares it with; the time of 14:0000 apart. -/
def seenOf (k : AssocKey) (i : Nat) (s : State) : Bytes :=
  let b := ((span i (if i % 256 = 0 then 256 else 1)).filterMap (fun j => (live (principalOf k.binding) j s).map (valBytes j))).flatten
  if i / 256 = 0x140000 then b.take (b.length - 8) else b

/-- SUBSCRIBE (R114). -/
def subscribeOp (a : Assoc) (q : OaReq) (i mode interval : Nat) (s : State) : Reply :=
  let k := assocId q.assoc
  let c := readerOk q.assoc i s.io
  let ok := if mode = 1 then interval ≤ 60000 else mode = 2 ∧ 10 ≤ interval ∧ interval ≤ 3600000
  if c ≠ 0 then reply a.version q c s
  else if !(decide ok) then reply a.version q 5 s
  else if 64 ≤ (s.io.oa.subs.filter (fun x => x.assoc == k)).length || 1024 ≤ s.io.oa.subs.length then reply a.version q 0x10 s
  else
    match pickFree (fun n => s.io.oa.subs.any (fun x => x.id == n)) 0 65536 s.io with
    | (none, _) => reply a.version q 0x10 s
    | (some n, io) =>
      let x : Sub := { id := n, assoc := k, index := i, mode := mode, interval := interval,
                       sentAt := if mode = 2 then some io.now else none, seen := seenOf k i s, waiting := false }
      replyWith a.version q 0 (le 2 n ++ le 2 0) { s with io := { io with oa := { io.oa with subs := io.oa.subs ++ [x] } } }

/-- UNSUBSCRIBE (R114). -/
def unsubscribeOp (a : Assoc) (q : OaReq) (id : Nat) (s : State) : Reply :=
  let mine (x : Sub) : Bool := x.id == id && x.assoc == assocId q.assoc
  if s.io.oa.subs.any mine then
    reply a.version q 0 (on (fun io => { io with oa := { io.oa with subs := io.oa.subs.filter (fun x => !mine x) } }) s)
  else reply a.version q 5 s

/-! ### DISCOVER (R96, R97, R117, R126, R127) -/

/-- R97: a header whose reserved fields are set. -/
def flagged (h : OaHdr) : Bool := h.flags != 0 || h.status != 0

/-- R105, R109: the status a transaction ID meets: 0 where it is 0 or names an open transaction of the association. -/
def txnStatus (a : Assoc) (id : Nat) (io : Io) : Nat :=
  if id = 0 then 0
  else if !(a.issued.contains id) then 0x0C
  else if io.oa.txns.any (fun t => t.id == id) then 0 else 0x0F

/-- R117: the versions offered to a frame are weighed; the association starts anew on MCTP (R96), else its transactions and
subscriptions end. -/
def discoverOp (q : OaReq) (versions maxFrame : Nat) (s : State) : Reply :=
  let k := assocId q.assoc
  let mctp := k.binding == .mctpI3c || k.binding == .mctpVdm
  let io1 := if mctp then assocsEnd (fun x => x == k) s.io
    else { s.io with oa := { s.io.oa with subs := s.io.oa.subs.filter (fun x => x.assoc != k), txns := s.io.oa.txns.filter (fun x => x.assoc != k) } }
  let own := dget io1 (idx 0x000101 2) 3
  let common := own &&& versions
  let v := if common.testBit 1 then 2 else if common.testBit 0 then 1 else 0
  let a := assocGet io1 k
  let io2 := assocPut { a with version := v, maxFrame := if v = 0 then a.maxFrame else maxFrame } io1
  let io3 := if v = 0 then bump32 0x000104 2 io2 else io2
  let limit := limitOf { s with io := assocPut { a with maxFrame := frameLimit k.binding } io1 } k
  replyWith 0 q (if v = 0 then 0x0A else 0)
    (le 1 own ++ le 1 v ++ le 2 0 ++ le 4 limit ++ le 2 (if v = 0 then 0 else itemLimit v) ++ le 2 0) { s with io := io3 }

/-! ### A frame (R97, R99, R105, R110, R117) -/

/-- A frame that fails as a whole as MALFORMED or TOO_LARGE, which is journalled. -/
def failFrame (v : Nat) (q : OaReq) (status : Nat) (s : State) : Reply :=
  reply v q status (journalFrame q.assoc (bodyOp q.body) status q.hdr.len s)

/-- R100: opcodes a version lacks. -/
def opUnknown (v : Nat) (b : OaBody) : Bool :=
  match b with
  | .other _ => true
  | b => v == 1 && [0x05, 0x06, 0x10, 0x11, 0x12].contains (bodyOp b)

/-- R110: without a session management Ethernet may only look at area 00. -/
def ethBarred (q : OaReq) (io : Io) : Bool :=
  q.assoc.binding == .mgmtEth && !(inSession io q.assoc) &&
  !(match q.body with
    | .read l => l.all (fun x => decide (x.index < 0x1000000))
    | .describe l => l.all (fun x => decide (x.index < 0x1000000))
    | .enumerate i => decide (i < 0x1000000)
    | _ => false)

/-- The index a frame names first (R564, 0x0603). -/
def firstIndex : OaBody → Nat
  | .enumerate i => i
  | .readBlock i _ _ => i
  | .writeBlock i _ _ _ => i
  | .subscribe i _ _ => i
  | b => ((bodyItems b).head?.map (·.index)).getD 0

/-- A frame that has passed the checks of its header. -/
def frameOp (a : Assoc) (q : OaReq) (env : OaEnv) (s : State) : Reply :=
  let x := q.hdr.txn
  match q.body with
  | .read l => readOp a q l s
  | .write l => writeOp a q l env s
  | .describe l => describeOp a q l s
  | .enumerate i => enumerateOp a q i s
  | .readBlock i o n => if x ≠ 0 then reply a.version q 4 s else readBlockOp a q i o n s
  | .writeBlock i o t d => if x ≠ 0 then reply a.version q 4 s else writeBlockOp a q env i o t d s
  | .txnBegin => txnBeginOp a q s
  | .txnCommit => if x = 0 then failFrame a.version q 0x0C s else txnCommitOp a q env s
  | .txnAbort => if x = 0 then failFrame a.version q 0x0C s else reply a.version q 0 (on (txnEnd x) s)
  | .subscribe i m t => subscribeOp a q i m t s
  | .unsubscribe i => unsubscribeOp a q i s
  | .discover _ _ => reply a.version q 0x0B s
  | .ragged _ _ => reply a.version q 0x0C s
  | .reserved _ => reply a.version q 5 s
  | .other _ => reply a.version q 0x0B s

/-- A DISCOVER: the checks of its header, then the negotiation. -/
def discoverFrame (a : Assoc) (q : OaReq) (s : State) : Reply :=
  let t := txnStatus a q.hdr.txn s.io
  match q.body with
  | .discover vs m =>
    if q.hdr.version ≠ 0 || flagged q.hdr || lengthFault q.hdr q.body ≠ 0 || t == 0x0C then failFrame 0 q 0x0C s
    else if t ≠ 0 then reply 0 q t s
    else discoverOp q vs m s
  | .reserved _ => if q.hdr.version ≠ 0 || flagged q.hdr then failFrame 0 q 0x0C s else reply 0 q 5 s
  | _ => failFrame 0 q 0x0C s

/-- Any other frame of association `a`. -/
def checkFrame (a : Assoc) (q : OaReq) (env : OaEnv) (s : State) : Reply :=
  let v := a.version
  let f := lengthFault q.hdr q.body
  let t := txnStatus a q.hdr.txn s.io
  if v = 0 then reply 1 q 0x0A s
  else if flagged q.hdr || f = 0x0C then failFrame v q 0x0C s
  else if q.hdr.version ≠ v then reply v q 0x0A s
  else if limitOf s q.assoc < 16 + q.hdr.len || (itemOp (bodyOp q.body) && decide (itemLimit v < q.hdr.count)) || f ≠ 0 then failFrame v q 0x0D s
  else if opUnknown v q.body then reply v q 0x0B s
  else if ethBarred q s.io then
    reply v q 7 (on (violate 0x0603 (mgmtPartner q.assoc) (le 1 (bodyOp q.body) ++ le 4 (firstIndex q.body))) s)
  else if t = 0x0C then failFrame v q 0x0C s
  else if t ≠ 0 then reply v q t s
  else
    frameOp a q env (on (fun io => { io with oa := { io.oa with txns := io.oa.txns.map (fun x =>
      if x.id = q.hdr.txn then { x with last := io.now } else x) } }) s)

/-- R106: a request that repeats one of the last 16 of its association gets the stored answer; any other is carried out, and
its answer stored. -/
def serve (q : OaReq) (env : OaEnv) (s : State) : Reply :=
  let s1 := on (assocTouch q.assoc) s
  let a := assocGet s1.io q.assoc
  match a.recent.find? (fun r => r.1 == q) with
  | some r => { resp := r.2, after := .none, s := s1 }
  | none =>
    let r := if bodyOp q.body = 0 then discoverFrame a q s1 else checkFrame a q env s1
    match assocOf r.s.io q.assoc with
    | none => r
    | some b =>
      { r with s := on (assocPut { b with recent := ((q, r.resp) :: b.recent.filter (fun x => x.1.hdr.tag != q.hdr.tag)).take 16 }) r.s }

/-! ### Delivery -/

/-- R112, R113: an answer enters the response buffer; BUSY clears and DONE sets. -/
def mboxAnswer (n : Nat) (b : Bytes) (io : Io) : Io :=
  let x := mboxAt io n
  let io1 := mboxPut n { x with response := b ++ x.response.drop b.length } io
  mboxIrq n (regOff .mboxStatus n 0 (regOn .mboxStatus n 1 (regPut .mboxStatus n 28 16 b.length io1)))

/-- R539, R540: an OBJECT frame to a peer in state MEMBER or SUSPECT. -/
def objectSend (id : Nat) (b : Bytes) (s : State) : State :=
  let x := domPeer s.dom id
  if x.state ≠ 1 && x.state ≠ 2 then s
  else
    let f := x.mac ++ baseMac ++ be 2 (dget s.io (idx 0x110007 0) 0x88B6) ++ le 1 1 ++ le 1 2 ++ le 2 s.dom.id ++ le 4 s.dom.domain ++
      le 4 s.dom.seqObj ++ le 2 id ++ le 2 0 ++ b
    domCount 9 { onWire (engineSend 5 7 x.port f) s with dom := { s.dom with seqObj := (s.dom.seqObj + 1) % 2 ^ 32 } }

/-- Notifications that wait for the fabric leave. -/
def fabricFlush (s : State) : State :=
  s.io.oa.fabricOut.foldl (fun s x => objectSend x.1 x.2 s) (on (fun io => { io with oa := { io.oa with fabricOut := [] } }) s)

/-- An answer leaves on its association. -/
def answerOut (k : AssocKey) (r : OaResp) (s : State) : State :=
  let s1 := on (emit (.oaAnswer (assocId k) r)) s
  match k.binding with
  | .fabric => objectSend k.key (respBytes r) s1
  | .uart0 => s1
  | .mctpI3c => s1
  | .mctpVdm => s1
  | .mgmtEth => s1
  | .pfMailbox => on (mboxAnswer k.key (respBytes r)) s1
  | .vfMailbox => on (mboxAnswer k.key (respBytes r)) s1
  | .fwPort => on (mboxAnswer (2000 + k.key) (respBytes r)) s1

/-- R121: every Stored object takes its default, in force and in both copies of the parameter area. -/
def storedDefaults (s : State) : State :=
  on (fun io =>
    { io with
      params := []
      dic := io.dic.filter (fun p => match objOf p.1 with
        | some o => o.pers != .stored
        | none => true) }) s

/-- What waited for the answer to leave (R86, R121, R129). -/
def Restart.run : Restart → State → State
  | .none, s => s
  | .warm, s => chipWarm .commanded flashFine s
  | .defaults, s => chipWarm .commanded flashFine (storedDefaults s)
  | .recover, s => recoverDo s

/-- R111: whether the server answers a frame at all: the Kwaith runs, the binding is open, and its source has an answer left in
this second. A frame of a session that does not stand, or that is not `authentic`, is discarded and journalled. -/
def admitFrame (k : AssocKey) (authentic : Bool) (s : State) : Bool × State :=
  let s1 := on (discardFrame k) s
  if s.clk.holdAll then (false, s)
  else if k.binding = .mgmtEth && dget s.io (idx 0x010101 0) 1 = 0 then (false, s1)
  else
    let e := if k.binding = .mgmtEth then ethUse k s.io else (true, s.io)
    if !e.1 then (false, s1)
    else
      match k.session with
      | none => (true, { s with io := e.2 })
      | some n =>
        if authentic && s.io.oa.sessions.any (fun x => x.id == n && x.assoc.binding == k.binding && (k.binding == .mgmtEth || x.assoc.key == k.key))
        then (true, { s with io := e.2 })
        else (false, on (violate 0x0601 (mgmtPartner k) (le 4 n)) s1)

/-- A frame is answered, and what its answer allows is done. -/
def answerFrame (q : OaReq) (env : OaEnv) (s : State) : State :=
  let r := serve q env s
  evArrive (fabricFlush (r.after.run (answerOut q.assoc r.resp r.s)))

/-- The server takes a frame. -/
def takeFrame (q : OaReq) (env : OaEnv) (s : State) : State :=
  let k := sourceKey q.assoc
  let c := admitFrame k true s
  if !c.1 then c.2 else answerFrame { q with assoc := k } env c.2

end Sys2Proof.Machine
end

