-- ==== Sys2Proof/Machine/Spdm.lean ====
section
/-!
DEFINITION. The SPDM responder (R118, R119): message codes, capability and algorithm bits are those of DSP0274 (PRESUMED).
Choices of the model coded here, by entry of the assumption log: PRESUMED 26.
-/
namespace Sys2Proof.Machine

/-- A response. -/
def spdmOut (a : AssocKey) (code param : Nat) (body : Bytes) (io : Io) : Io := emit (.spdm a code param body) io

/-- An ERROR response: 1 InvalidRequest, 3 Busy, 4 UnexpectedRequest, 7 UnsupportedRequest. -/
def spdmError (a : AssocKey) (e : Nat) (io : Io) : Io := spdmOut a 0x7F e [] io

/-- An ERROR response whose code R118 and R119 do not give. -/
def spdmFail (a : AssocKey) (io : Io) : Io := spdmError a ((freeNat io).1 % 256) (freeNat io).2

/-- Where an exchange stands. -/
def spdmAt (io : Io) (a : AssocKey) : Spdm :=
  match io.oa.spdm.find? (fun p => p.1 == a) with
  | some p => p.2
  | none => { version := false, caps := false, algorithms := false, keys := false }

/-- Storing it. -/
def spdmPut (a : AssocKey) (x : Spdm) (io : Io) : Io :=
  { io with oa := { io.oa with spdm := io.oa.spdm.filter (fun p => p.1 != a) ++ [(a, x)] } }

/-- R118: SPDM is carried on both MCTP media and on management Ethernet. -/
def spdmBinding (b : Binding) : Bool := b == .mctpI3c || b == .mctpVdm || b == .mgmtEth

/-- A request outside a session reaches the responder (R111, R117, R118). -/
def spdmRow (a : AssocKey) (f : AssocKey → Spdm → Io → Io) (s : State) : State :=
  if !spdmBinding a.binding then s
  else
    let k : AssocKey := { a with session := none }
    let c := admitFrame k true s
    if !c.1 then c.2
    else on (fun io =>
      let io1 : Io := { io with oa := { io.oa with assocs := io.oa.assocs.map (fun x => if x.key = k then { x with last := io.now } else x) } }
      f k (spdmAt io k) io1) c.2

/-- R85: the attestation identity is withdrawn. -/
def identityGone (io : Io) : Bool := dget io (idx 0x02010A 0) 0 == 1

/-- GET_VERSION (R118): the exchange begins; version 1.2 is offered. -/
def execSpdmGetVersion (a : AssocKey) (s : State) : Host.Outcome State Fault Refusal :=
  .next (spdmRow a (fun k _ io =>
    spdmOut k 0x04 0 (le 1 0 ++ le 1 1 ++ le 2 0x1200) (spdmPut k { version := true, caps := false, algorithms := false, keys := false } io)) s)

/-- R118's capabilities as DSP0274 numbers them: CERT, CHAL, MEAS with signature, ENCRYPT, MAC, MUT_AUTH, KEY_EX, ENCAP, HBEAT,
KEY_UPD. -/
def spdmCaps : Nat := 0x73D6

/-- GET_CAPABILITIES (R118). -/
def execSpdmGetCapabilities (a : AssocKey) (_flags : Nat) (s : State) : Host.Outcome State Fault Refusal :=
  .next (spdmRow a (fun k x io =>
    if !x.version then spdmError k 4 io
    else spdmOut k 0x61 0 (le 4 spdmCaps) (spdmPut k { x with caps := true } io)) s)

/-- NEGOTIATE_ALGORITHMS (R118): of each set of the requester the one algorithm the Kwaith has, or none. -/
def execSpdmNegotiateAlgorithms (a : AssocKey) (asym hash dhe aead : Nat) (s : State) : Host.Outcome State Fault Refusal :=
  .next (spdmRow a (fun k x io =>
    if !x.caps then spdmError k 4 io
    else
      let sel := (asym &&& 0x80, hash &&& 2, dhe &&& 0x10, aead &&& 2)
      let alg := sel.1 != 0 && sel.2.1 != 0
      spdmOut k 0x63 0 (le 4 sel.1 ++ le 4 sel.2.1 ++ le 2 sel.2.2.1 ++ le 2 sel.2.2.2)
        (spdmPut k { x with algorithms := alg, keys := alg && sel.2.2.1 != 0 && sel.2.2.2 != 0 } io)) s)

/-- GET_DIGESTS (R118): slot 0 alone. -/
def execSpdmGetDigests (a : AssocKey) (s : State) : Host.Outcome State Fault Refusal :=
  .next (spdmRow a (fun k x io =>
    if !x.algorithms then spdmError k 4 io else spdmOut k 0x01 1 (sha384 Config.attestChain) io) s)

/-- GET_CERTIFICATE (R118): a portion of the chain of slot 0, and what remains of it. -/
def execSpdmGetCertificate (a : AssocKey) (slot offset length : Nat) (s : State) : Host.Outcome State Fault Refusal :=
  .next (spdmRow a (fun k x io =>
    if !x.algorithms then spdmError k 4 io
    else if slot ≠ 0 ∨ Config.attestChain.length < offset then spdmError k 1 io
    else
      let p := (Config.attestChain.drop offset).take length
      spdmOut k 0x02 0 (le 2 p.length ++ le 2 (Config.attestChain.length - offset - p.length) ++ p) io) s)

/-- CHALLENGE (R118); it needs the attestation identity (R85). -/
def execSpdmChallenge (a : AssocKey) (slot : Nat) (nonce : Bytes) (s : State) : Host.Outcome State Fault Refusal :=
  .next (spdmRow a (fun k x io =>
    if !x.algorithms then spdmError k 4 io
    else if slot ≠ 0 then spdmError k 1 io
    else if identityGone io then spdmFail k io
    else
      let b := sha384 Config.attestChain ++ Config.spdmBody 0x03 nonce
      spdmOut k 0x03 0 (b ++ Config.ecdsaSign (nonce ++ b)) io) s)

/-- R118: the measurements. -/
def measurement (b : Boot) (io : Io) (i : Nat) : Bytes :=
  match i with
  | 1 => dgetB io (idx 0x02010B 0)
  | 2 => le 2 (fusedEpoch b.blown) ++ le 1 (if bootedSlot io < 2 then field (slotHeader b.flash (bootedSlot io)) 6 1 else 0)
  | _ => sha384 Config.bootRom

/-- GET_MEASUREMENTS (R118): index 0 asks for their number, 0xFF for all; a signature needs the attestation identity (R85). -/
def execSpdmGetMeasurements (a : AssocKey) (index : Nat) (sign : Bool) (nonce : Bytes) (s : State) : Host.Outcome State Fault Refusal :=
  .next (spdmRow a (fun k x io =>
    let l := if index = 0 then [] else if index = 0xFF then [1, 2, 3] else [index]
    if !x.algorithms then spdmError k 4 io
    else if l.any (fun i => decide (3 < i)) then spdmError k 1 io
    else if sign && identityGone io then spdmFail k io
    else
      let b := le 1 l.length ++ l.flatMap (fun i => le 1 i ++ measurement s.boot io i)
      spdmOut k 0x60 (if index = 0 then 3 else 0) (b ++ (if sign then Config.ecdsaSign (nonce ++ b) else [])) io) s)

/-- KEY_EXCHANGE (R119): a session opens; none beyond 8, and none while the attestation identity is withdrawn. -/
def execSpdmKeyExchange (a : AssocKey) (mutualAuth : Bool) (exchange : Bytes) (s : State) : Host.Outcome State Fault Refusal :=
  .next (spdmRow a (fun k x io =>
    if !x.keys then spdmError k 4 io
    else if identityGone io then spdmFail k io
    else if 8 ≤ io.oa.sessions.length then spdmError k 3 io
    else
      match pickFree (fun n => io.oa.sessions.any (fun y => y.id == n)) 0 (2 ^ 32) io with
      | (none, io1) => spdmError k 3 io1
      | (some n, io1) =>
        let y : Session := { id := n, assoc := k, mutualAuth := mutualAuth, trusted := false, finished := false, keyGen := 0, last := io1.now }
        spdmOut k 0x64 (dget io1 (idx 0x010103 0) 60) (le 4 n ++ Config.spdmBody 0x64 exchange)
          { io1 with oa := { io1.oa with sessions := io1.oa.sessions ++ [y] } }) s)

/-- Storing a session. -/
def sessPut (x : Session) (io : Io) : Io :=
  { io with oa := { io.oa with sessions := io.oa.sessions.map (fun y => if y.id = x.id then x else y) } }

/-- A request inside a session; one of no session reaches nothing. -/
def sessRow (id : Nat) (f : Session → Io → Io) (s : State) : State :=
  if s.clk.holdAll then s
  else
    match s.io.oa.sessions.find? (fun x => x.id == id) with
    | none => s
    | some x => on (fun io => f { x with last := io.now } (sessPut { x with last := io.now } io)) s

/-- FINISH (R119): its verification, and that of the requester's chain where KEY_EXCHANGE asked for mutual authentication. -/
def execSpdmFinish (session : Nat) (chain finish : Bytes) (s : State) : Host.Outcome State Fault Refusal :=
  .next (sessRow session (fun x io =>
    let anchors := ((span 1 4).map (fun n => dgetB io (idx 0x010102 n))).filter (fun b => !b.isEmpty)
    let fin := Config.finishVerified session finish
    let tr := Config.chainTrusted chain anchors
    let fail (why : Nat) : Io := spdmFail x.assoc (violate 0x0604 (mgmtPartner x.assoc) (le 1 0xE5 ++ le 1 why) io)
    if x.finished then spdmError x.assoc 4 io
    else if !fin then (if x.mutualAuth then fail 2 else spdmFail x.assoc io)
    else if x.mutualAuth && !tr then fail 1
    else spdmOut x.assoc 0x65 0 [] (sessPut { x with finished := true, trusted := x.mutualAuth } io)) s)

/-- HEARTBEAT (R118, R119). -/
def execSpdmHeartbeat (session : Nat) (s : State) : Host.Outcome State Fault Refusal :=
  .next (sessRow session (fun x io => if x.finished then spdmOut x.assoc 0x68 0 [] io else spdmError x.assoc 4 io) s)

/-- KEY_UPDATE (R118). -/
def execSpdmKeyUpdate (session : Nat) (s : State) : Host.Outcome State Fault Refusal :=
  .next (sessRow session (fun x io =>
    if x.finished then spdmOut x.assoc 0x69 0 [] (sessPut { x with keyGen := x.keyGen + 1 } io) else spdmError x.assoc 4 io) s)

/-- R96, R119: a session ends, and on management Ethernet the association it keys. -/
def sessEnd (id : Nat) (io : Io) : Io :=
  assocsEnd (fun k => k.binding == .mgmtEth && k.session == some id)
    { io with oa := { io.oa with sessions := io.oa.sessions.filter (fun x => x.id != id) } }

/-- END_SESSION (R119). -/
def execSpdmEndSession (session : Nat) (s : State) : Host.Outcome State Fault Refusal :=
  .next (sessRow session (fun x io =>
    if x.finished then sessEnd session (spdmOut x.assoc 0x6C 0 [] io) else spdmError x.assoc 4 io) s)

/-- SPDM_HEARTBEAT_TIMEOUT (R119): two periods of 01:0103 without a frame. -/
def execSpdmHeartbeatTimeout (session : Nat) (s : State) : Host.Outcome State Fault Refusal :=
  .next (match s.io.oa.sessions.find? (fun x => x.id == session) with
    | none => s
    | some x => on (fun io => sessEnd session (reach (x.last + 2 * sec (dget io (idx 0x010103 0) 60)) io)) s)

end Sys2Proof.Machine
end

