-- ==== Sys2Proof/Machine/Cores.lean ====
section
/-!
DEFINITION. Mailbox requests reach the server (R112, R113, R174), and what rings their doorbells: hosts, threads, and the
resumption of a VF; and what passes with time alone.
Choices of the model coded here, by entry of the assumption log: DESIGN CHOICE 2, 31, 68, 90; DEDUCED 25, 29, 30, 80.
-/
namespace Sys2Proof.Machine

/-- A request of `len` bytes stands in the request buffer of mailbox `n`. -/
def mboxServe (n len : Nat) (env : OaEnv) (s : State) : State :=
  match parseFrame (mboxKey n) (memGets 0 (mboxAt s.io n).request 0 len) with
  | none => s
  | some q => takeFrame q env s

/-- The requests handed over are served in order, each as it comes to the front; `fuel` bounds them. -/
def serveDue (env : OaEnv) : Nat → State → State
  | 0, s => s
  | fuel + 1, s =>
    match s.io.oa.due with
    | [] => s
    | x :: r => serveDue env fuel (mboxServe x.1 x.2 env (on (fun io => { io with oa := { io.oa with due := r } }) s))

/-- A frame, and the mailbox requests that what it commands may hand over. -/
def oaRow (q : OaReq) (env : OaEnv) (s : State) : State := serveDue env 64 (takeFrame q env s)

/-- Outside conditions no frame of a kind can meet. -/
def OaEnv.none : OaEnv := { flashOk := true, vddFuse := false, host := .fail 1, ident := Option.none, procs := [], chain := Option.none, list := Option.none }

/-- The association of a frame that comes outside opcode 0x31. -/
def plainKey (a : AssocKey) : AssocKey := if a.binding = .mgmtEth then { a with session := Option.none } else a

/-- R112: the numbers that name a mailbox: function instances and firmware ports. -/
def mboxExists (n : Nat) : Bool := decide (n < 1040) || decide (2000 ≤ n)

/-- MBOX_DOORBELL (R112, R113). -/
def execMboxDoorbell (fn : MboxNo) (len : BitVec 13) (env : OaEnv) (s : State) : Host.Outcome State Fault Refusal :=
  .next (if mboxExists fn.val then serveDue env 64 (on (mboxRing fn.val len.toNat) s) else s)

/-- MBOX_NOTIFY_ACK (R112, R116). -/
def execMboxNotifyAck (fn : MboxNo) (ack : Bool) (s : State) : Host.Outcome State Fault Refusal :=
  .next (if ack && mboxExists fn.val then evArrive (on (mboxAck fn.val) s) else s)

/-- RV_INSTRUCTION (R433): the thread's slot, and what it may have rung. -/
def execRvInstruction (t : ThreadNo) (env : OaEnv) (s : State) : Host.Outcome State Fault Refusal :=
  .next (serveDue env 64 (slot t.val (rvStep t.val) s))

/-- RESUME (R174, R178): a held mailbox request is handed over. -/
def execMigResume (by_ : Issuer) (arg : Bytes) (env : OaEnv) (s : State) : Host.Outcome State Fault Refusal :=
  .next (serveDue env 64 (migResumeDo by_ arg s))

/-- OBJECT (R88, R110): the loader's frame carries one object-access frame; its answer is an OBJECT frame. -/
def execLoaderObject (seq : Half) (bytes : Bytes) (env : OaEnv) (s : State) : Host.Outcome State Fault Refusal :=
  let k : AssocKey := { binding := .uart0, key := 0, session := Option.none }
  .next (match parseFrame k bytes with
    | Option.none =>
      ldrFrame seq.toNat false true (fun s => ((0x18, []), on (discardFrame k) s)) s
    | some q =>
      if !s.boot.loader.active then s
      else
        let after := (serve q env s).after
        let t := ldrFrame seq.toNat false true (fun s =>
          let r := serve q env s
          ((0x18, respBytes r.resp), on (emit (.oaAnswer k r.resp)) r.s)) s
        let repeated := match s.boot.loader.last with
          | some (n, _) => n == seq.toNat
          | Option.none => false
        serveDue env 64 (if repeated || s.boot.loader.version < 2 then t else after.run t))

/-- An OBJECT frame's object-access frame without the padding of a shortest Ethernet frame. -/
def objectFrame (whole : Nat) (b : Bytes) : Bytes :=
  let n := 16 + field b 8 4
  if whole ≤ 60 && decide (16 ≤ b.length) && decide (n < b.length) && allZero (b.drop n) then b.take n else b

/-- MEMBERSHIP_OBJECT (R540, R541). -/
def execMembershipObject (env : OaEnv) (s : State) : Host.Outcome State Fault Refusal :=
  .next (match s.net.stewardRx.find? (fun k => field (k.frame.drop 14) 1 1 == 2) with
    | Option.none => s
    | some k =>
      let s1 := { s with net := { s.net with stewardRx := s.net.stewardRx.erase k } }
      let b := k.frame.drop 14
      let id := field b 2 2
      let x := domPeer s1.dom id
      if s1.start.stage < 3 || !belongs s1 then s1
      else
        match memberCheck k b s1 with
        | some s2 => s2
        | Option.none =>
          if (x.state ≠ 1 && x.state ≠ 2) || field b 0xC 2 ≠ s1.dom.id then domCount 4 s1
          else
            let a : AssocKey := { binding := .fabric, key := id, session := Option.none }
            let s2 := domCount 10 (peerPut id { x with seqObj := some (field b 8 4) } s1)
            match parseFrame a (objectFrame k.frame.length (b.drop 16)) with
            | Option.none => on (discardFrame a) s2
            | some q => oaRow q env s2)

/-! ### Time (R114) -/

/-- A subscription to a value worked out as it is read meets a change since it was last compared. -/
def liveCheck (s : State) (x : Sub) : State :=
  let b := seenOf x.assoc x.index s
  if x.mode ≠ 1 || b = x.seen then s
  else
    on (subNotify (noteNow x.assoc x.index s) x)
      (on (fun io => { io with oa := { io.oa with subs := io.oa.subs.map (fun y => if y.id = x.id then { y with seen := b } else y) } }) s)

/-- Every such subscription is compared. -/
def liveSweep (s : State) : State := s.io.oa.subs.foldl liveCheck s

/-- One tick of the Kwaith: a nanosecond passes, and what has waited leaves. -/
def tick (s : State) : State := evArrive (liveSweep (fabricFlush (on (advance 1) s)))

end Sys2Proof.Machine
end

