-- ==== Sys2Proof/Machine/Debug.lean ====
section
/-!
DEFINITION. The commands of chapter 27: the test access port, the unlock, debug commands and pattern tests.
Choices of the model coded here, by entry of the assumption log: DEDUCED 83.
-/
namespace Sys2Proof.Machine

/-! ### The test access port (R572 to R576) -/

/-- TAP_RESET (R572): the instruction is IDCODE. -/
def execTapReset (s : State) : Host.Outcome State Fault Refusal := .next (tapSelect 1 s)

/-- EXTEST (R575). -/
def execExtest (tdi : Bytes) (s : State) : Host.Outcome State Fault Refusal := .next (tapBoundary tdi (tapSelect 0 s))

/-- IDCODE (R572, R573). -/
def execTapIdcode (s : State) : Host.Outcome State Fault Refusal :=
  .next (if s.start.pwrok then tdo 32 0x194160B3 (tapSelect 1 s) else s)

/-- SAMPLE/PRELOAD (R573). -/
def execSamplePreload (tdi : Bytes) (s : State) : Host.Outcome State Fault Refusal := .next (tapBoundary tdi (tapSelect 2 s))

/-- HIGHZ (R575). -/
def execTapHighz (s : State) : Host.Outcome State Fault Refusal := .next (tapSelect 3 s)

/-- CLAMP (R575). -/
def execTapClamp (s : State) : Host.Outcome State Fault Refusal := .next (tapSelect 4 s)

/-- EXTEST_PULSE (R575). -/
def execExtestPulse (tdi : Bytes) (s : State) : Host.Outcome State Fault Refusal := .next (tapBoundary tdi (tapSelect 5 s))

/-- EXTEST_TRAIN (R575). -/
def execExtestTrain (tdi : Bytes) (s : State) : Host.Outcome State Fault Refusal := .next (tapBoundary tdi (tapSelect 6 s))

/-- DBG_STATUS (R583); the bypass bit in production test (R576). -/
def execDbgStatus (s : State) : Host.Outcome State Fault Refusal :=
  .next (let s1 := tapSelect 0x10 s
    if !s.start.pwrok then s else if s.dbg.testmode then tdo 1 0 s1 else tdo 32 (dbgStatusBits s1.dbg) s1)

/-- BYPASS (R573): its opcode, and every one that names no instruction. -/
def execTapBypass (opcode : Byte) (s : State) : Host.Outcome State Fault Refusal :=
  .next (if !s.start.pwrok || [0, 1, 2, 3, 4, 5, 6, 0x10, 0x11].contains opcode.toNat then s else tdo 1 0 (tapSelect 0xFF s))

/-- EXTEST_EXIT (R575). -/
def execExtestExit (opcode : Byte) (s : State) : Host.Outcome State Fault Refusal :=
  .next (if extestClass s.dbg.ir && !extestClass opcode.toNat then tapSelect opcode.toNat s else s)

/-! ### The unlock (R577, R587) -/

/-- DBG_UNLOCK (R577). -/
def execDbgUnlock (by_ : Issuer) (arg : Bytes) (s : State) : Host.Outcome State Fault Refusal := .next (dbgUnlockCmd by_ arg s)

/-- DBG_UNLOCK_EXPIRY (R577, R587). -/
def execDbgUnlockExpiry (s : State) : Host.Outcome State Fault Refusal :=
  .next (if s.dbg.mask = 0 then s else unlockEnd (on (reach s.dbg.ends) s))

/-! ### Debug commands (R579 to R582) -/

/-- DBG_HALT (R580). -/
def execDbgHalt (p : DbgPath) (arg : Bytes) (s : State) : Host.Outcome State Fault Refusal := .next (dbgDo p arg 1 (dbgHaltOp arg) s)

/-- DBG_RESUME (R580). -/
def execDbgResume (p : DbgPath) (arg : Bytes) (s : State) : Host.Outcome State Fault Refusal := .next (dbgDo p arg 2 (dbgResumeOp arg) s)

/-- DBG_STEP (R580). -/
def execDbgStep (p : DbgPath) (arg : Bytes) (env : OaEnv) (s : State) : Host.Outcome State Fault Refusal :=
  .next (serveDue env 64 (dbgDo p arg 3 (dbgStepOp arg) s))

/-- DBG_READ_REG (R580). -/
def execDbgReadReg (p : DbgPath) (arg : Bytes) (s : State) : Host.Outcome State Fault Refusal := .next (dbgDo p arg 4 (dbgReadRegOp arg) s)

/-- DBG_WRITE_REG (R580). -/
def execDbgWriteReg (p : DbgPath) (arg : Bytes) (s : State) : Host.Outcome State Fault Refusal := .next (dbgDo p arg 5 (dbgWriteRegOp arg) s)

/-- DBG_READ_MEM (R580). -/
def execDbgReadMem (p : DbgPath) (arg : Bytes) (host : HostRead) (s : State) : Host.Outcome State Fault Refusal :=
  .next (dbgDo p arg 6 (dbgReadMemOp arg host) s)

/-- DBG_WRITE_MEM (R580). -/
def execDbgWriteMem (p : DbgPath) (arg : Bytes) (env : OaEnv) (s : State) : Host.Outcome State Fault Refusal :=
  .next (serveDue env 64 (dbgDo p arg 7 (dbgWriteMemOp arg) s))

/-- DBG_CH_ABORT (R473, R580). -/
def execDbgChAbort (p : DbgPath) (arg : Bytes) (s : State) : Host.Outcome State Fault Refusal := .next (dbgDo p arg 8 (dbgAbortOp arg) s)

/-- TRACE_START (R582). -/
def execTraceStart (p : DbgPath) (arg : Bytes) (s : State) : Host.Outcome State Fault Refusal := .next (dbgDo p arg 9 (dbgTraceStart arg) s)

/-- TRACE_STOP (R582). -/
def execTraceStop (p : DbgPath) (arg : Bytes) (s : State) : Host.Outcome State Fault Refusal := .next (dbgDo p arg 9 (dbgTraceStop arg) s)

/-- TRACE_READ (R580). -/
def execTraceRead (p : DbgPath) (arg : Bytes) (s : State) : Host.Outcome State Fault Refusal := .next (dbgDo p arg 10 (dbgTraceReadOp arg) s)

/-! ### Pattern tests (R584 to R586) -/

/-- SERDES_TEST_START (R584, R585). -/
def execSerdesTestStart (by_ : Issuer) (arg : Bytes) (s : State) : Host.Outcome State Fault Refusal := .next (serStartCmd by_ arg s)

/-- SERDES_TEST_STOP (R585). -/
def execSerdesTestStop (by_ : Issuer) (arg : Bytes) (s : State) : Host.Outcome State Fault Refusal := .next (serStopCmd by_ arg s)

/-- SERDES_TEST_CLEAR (R584). -/
def execSerdesTestClear (by_ : Issuer) (arg : Bytes) (s : State) : Host.Outcome State Fault Refusal := .next (serClearCmd by_ arg s)

/-- CHECKER_LOCK (R586): only a test that checks has a checker. -/
def execCheckerLock (lane : Fin 56) (s : State) : Host.Outcome State Fault Refusal :=
  .next (let x := serAt s (lane.val + 1)
    if x.st.testBit 1 then serPut (lane.val + 1) { x with lock := true } s else s)

/-- CHECKER_LOCK_LOSS (R586): what it has counted since it locked, and one error for the loss. -/
def execCheckerLockLoss (lane : Fin 56) (compared errors : Word64) (s : State) : Host.Outcome State Fault Refusal :=
  .next (let x := serAt s (lane.val + 1)
    if x.lock then
      serPut (lane.val + 1) { x with lock := false, compared := satAdd 64 x.compared compared.toNat,
                                     errors := satAdd 64 x.errors (errors.toNat + 1) } s
    else s)

end Sys2Proof.Machine
end

