-- ==== Sys2Proof/Machine/Dma.lean ====
section
/-!
DEFINITION. The commands of chapter 21: channels, descriptors, operations, bus errors and request lines of the region DMA
engines.
Choices of the model coded here, by entry of the assumption log: DESIGN CHOICE 75.
-/
namespace Sys2Proof.Machine

/-- DMA_CHANNEL_ENABLE (R477, R478, R493). -/
def execDmaChannelEnable (r : RegionNo) (c : Fin 32) (v : Word32) (s : State) : Host.Outcome State Fault Refusal :=
  .next (dmaCfg r.val c.val (v ||| 0x80000000).toNat s)

/-- DMA_CHANNEL_DISABLE (R493). -/
def execDmaChannelDisable (r : RegionNo) (c : Fin 32) (v : Word32) (s : State) : Host.Outcome State Fault Refusal :=
  .next (dmaCfg r.val c.val (v &&& 0x7FFFFFFF).toNat s)

/-- DMA_CH_KICK (R478). -/
def execDmaChKick (r : RegionNo) (c : Fin 32) (s : State) : Host.Outcome State Fault Refusal := .next (dmaKick r.val c.val s)

/-- DMA_DESCRIPTOR_READ (R478, R479, R482, R490). -/
def execDmaDescriptorRead (r : RegionNo) (c : Fin 32) (s : State) : Host.Outcome State Fault Refusal :=
  .next (dmaDescRead r.val c.val s)

/-- COPY (R480, R481, R483 to R485, R488, R490). -/
def execDmaCopy (r : RegionNo) (c : Fin 32) (src : List HostRead) (s : State) : Host.Outcome State Fault Refusal :=
  .next (dmaRun r.val c.val 0 src [] s)

/-- FILL (R486). -/
def execDmaFill (r : RegionNo) (c : Fin 32) (s : State) : Host.Outcome State Fault Refusal :=
  .next (dmaRun r.val c.val 1 [] [] s)

/-- COMPARE (R486). -/
def execDmaCompare (r : RegionNo) (c : Fin 32) (src dst : List HostRead) (s : State) :
    Host.Outcome State Fault Refusal :=
  .next (dmaRun r.val c.val 2 src dst s)

/-- DMA_BURST_START (R487, R488). -/
def execDmaBurstStart (r : RegionNo) (line : Fin 64) (s : State) : Host.Outcome State Fault Refusal :=
  .next (burstStart r.val line.val s)

/-- DMA_DESCRIPTOR_COMPLETE (R461, R487, R489, R490). -/
def execDmaDescriptorComplete (r : RegionNo) (c : Fin 32) (s : State) : Host.Outcome State Fault Refusal :=
  .next (dmaComplete r.val c.val s)

/-- DMA_BUS_ERROR (R490). -/
def execDmaBusError (r : RegionNo) (addr : Word64) (space : Fin 3) (write : Bool) (fn : BitVec 12) (code : Fin 8)
    (s : State) : Host.Outcome State Fault Refusal :=
  .next (busError r.val addr.toNat space.val (if space.val = 1 then fn.toNat else 0) code.val write s)

/-- R490 step 3. -/
def dmaDrain (r : Nat) (s : State) : State := dmaPut r { dmaAt s r with drained := true } s

/-- DMA_DRAINED (R490). -/
def execDmaDrained (r : RegionNo) (s : State) : Host.Outcome State Fault Refusal := .next (dmaDrain r.val s)

/-- DMA_BUS_ERROR_CLEAR (R490). -/
def execDmaBusErrorClear (r : RegionNo) (s : State) : Host.Outcome State Fault Refusal := .next (dmaStatusWrite r.val 1 s)

/-- DMA_STOP (R491, R492). -/
def execDmaStop (r : RegionNo) (c : Fin 32) (s : State) : Host.Outcome State Fault Refusal :=
  .next (dmaStopOp r.val c.val s)

/-- DMA_RESUME (R491). -/
def execDmaResume (r : RegionNo) (c : Fin 32) (s : State) : Host.Outcome State Fault Refusal :=
  .next (dmaResumeOp r.val c.val s)

/-- DMA_RESTART (R491). -/
def execDmaRestart (r : RegionNo) (c : Fin 32) (s : State) : Host.Outcome State Fault Refusal :=
  .next (dmaRestartOp r.val c.val s)

/-- DMA_SKIP (R491). -/
def execDmaSkip (r : RegionNo) (c : Fin 32) (s : State) : Host.Outcome State Fault Refusal :=
  .next (dmaSkipOp r.val c.val s)

/-- DMA_REQ_SW (R487). -/
def execDmaReqSw (r : RegionNo) (lines : Half) (s : State) : Host.Outcome State Fault Refusal :=
  .next (dmaSw r.val lines.toNat s)

/-- DMA_REQ_CLEAR (R493). -/
def execDmaReqClear (r : RegionNo) (line : Fin 64) (s : State) : Host.Outcome State Fault Refusal :=
  .next (dmaPendWrite r.val line.val (2 ^ 30) s)

/-- R487: the time base comes to the next multiple of a timer's period. -/
def dmaTimer (r k : Nat) (s : State) : State :=
  let p := mgetD (dmaAt s r).timers k 0
  if p = 0 then s else dmaPulse r (48 + k) (on (advance (p - time64 s.io % p)) s)

/-- DMA_TIMER_PULSE (R487). -/
def execDmaTimerPulse (r : RegionNo) (k : Fin 4) (s : State) : Host.Outcome State Fault Refusal :=
  .next (dmaTimer r.val k.val s)

end Sys2Proof.Machine
end

