-- ==== Sys2Proof/Machine/Host.lean ====
section
/-!
DEFINITION. The commands of the host interface (chapter 08).
Choices of the model coded here, by entry of the assumption log: DESIGN CHOICE 6, 34, 35; DEDUCED 33.
-/
namespace Sys2Proof.Machine

/-- R154, R157: a completion arrives. -/
def execCompletionReceived (l : LinkNo) (c : CplTlp) (s : State) : Host.Outcome State Fault Refusal := .next (on (cplReceive l c) s)

/-- R156: the completion timer of a request expires. -/
def execCompletionTimeout (l : LinkNo) (tag : Nat) (s : State) : Host.Outcome State Fault Refusal := .next (on (cplTimeout l tag) s)

/-- R157, R158: a tag's quarantine ends. -/
def execTagQuarantineEnd (l : LinkNo) (tag : Nat) (s : State) : Host.Outcome State Fault Refusal := .next (on (quarantineEnd l tag) s)

/-- R146: a register access that is misaligned or too large: a write is discarded, a read completes with Completer Abort. -/
def execImproperAccess (fn : Fn) (offset len : Nat) (write : Bool) (s : State) : Host.Outcome State Fault Refusal :=
  .next (on (fun io =>
    let io1 := hostError 6 (aerFn io fn) (!write) io
    let io2 := if write then io1 else emit (.completion fn 4 []) io1
    violate 0x0103 (hostPartner io2 fn 0) (le 4 offset ++ le 2 len) io2) s)

/-- R159, R161, R162: a TLP to BAR2. -/
def execBar2Tlp (l : LinkNo) (pf : Pf) (t : Bar2Tlp) (s : State) : Host.Outcome State Fault Refusal :=
  if !(linkAt s.io l).up || !(pfLinks s.io pf).contains l.val then .next s
  else .next (bar2 (4 * l + pf) t s)

/-- R161: HOST_PEERWIN_COMMIT written; only GO has an effect. -/
def execPeerwinCommit (l : LinkNo) (pf : Pf) (go : Bool) (s : State) : Host.Outcome State Fault Refusal :=
  .next (if go then on (winsCommit (4 * l + pf) s.start.stage) s else s)

/-- R161 step 4: the last TLP of every earlier generation has finished. -/
def execPeerwinDrainDone (l : LinkNo) (pf : Pf) (s : State) : Host.Outcome State Fault Refusal :=
  .next (if winsDrained s (4 * l + pf) then on (regOff .peerStatus (4 * l + pf) 1) s else s)

/-- R148: the host unmasks a vector; a pending message is sent. -/
def execMsixUnmask (fn : Fn) (vector : Fin 2048) (s : State) : Host.Outcome State Fault Refusal :=
  if vector.val < fnVectors fn then
    .next (on (fun io => msixFlush fn (fnPut fn { fnCfg io fn with unmasked := sadd (fnCfg io fn).unmasked vector } io)) s)
  else .next s

/-- R142: an ATS invalidation: the translations are dropped and the completion sent. -/
def execAtsInvalidate (fn : Fn) (tag page count : Nat) (s : State) : Host.Outcome State Fault Refusal :=
  if (fnCfg s.io fn).ats then
    .next (on (fun io => emit (.atsCompletion fn tag) { io with
      host := { io.host with atc := io.host.atc.filter (fun x => !(x.1 == fn.val && page ≤ x.2 && x.2 < page + count)) } }) s)
  else .next s

/-- What a configuration write leaves in a function's configuration space (R140, R141). -/
def cfgWritten (c : FnCfg) : CfgWrite → FnCfg
  | .memEnable v => { c with memEnable := v }
  | .mps n => { c with mps := n }
  | .mrrs n => { c with mrrs := n }
  | .completionTimeout v => { c with cto := v }
  | .powerState d => { c with d3hot := d }
  | .ats v => { c with ats := v }
  | .tenBitTags v => { c with tenBit := v }
  | .pri v => { c with pri := v }
  | .msixEnable v => { c with msix := v }
  | .functionMask v => { c with fmask := v }
  | .vectorMask v => { c with unmasked := sdel c.unmasked v }
  | .vectorMessage v a d => { c with messages := mput c.messages v (a &&& ~~~(3 : Word64), d) }
  | .aerClear es => { c with aer := c.aer.filter (fun e => !es.contains e), headerLogged := false }

/-- R141: the sizes a host may set: powers of two up to a limit. -/
def sizeOk (n hi : Nat) : Bool := [128, 256, 512, 1024, 2048, 4096].contains n && decide (n ≤ hi)

/-- R140, R141: values a function supports; the write of another leaves the field as it was. -/
def cfgTakes : CfgWrite → Bool
  | .mps n => sizeOk n 1024
  | .mrrs n => sizeOk n 4096
  | .completionTimeout v => decide (v < 16)
  | .vectorMessage v _ _ => decide (v < 2048)
  | _ => true

/-- R140, R141, R148: the host writes a function's configuration space; messages no longer masked are sent. -/
def execConfigurationWrite (fn : Fn) (w : CfgWrite) (s : State) : Host.Outcome State Fault Refusal :=
  .next (if cfgTakes w then on (fun io => msixFlush fn (fnPut fn (cfgWritten (fnCfg io fn) w) io)) s else s)

/-- A translation enters the cache, which forgets one of the spec's unstated choice where it is full (R142). -/
def atcPut (fn page : Nat) (io : Io) : Io :=
  let others := io.host.atc.filter (fun x => x != (fn, page))
  let r := freeNat io
  let io1 := if others.length < 16384 then io else r.2
  let kept := if others.length < 16384 then others else others.eraseIdx (r.1 % others.length)
  { io1 with host := { io1.host with atc := (fn, page) :: kept } }

/-- R142: the host answers a page request: a grant is a translation, a refusal fails the DMA with translation fault. -/
def execPageRequestResponse (fn : Fn) (_index page : Nat) (granted : Bool) (s : State) : Host.Outcome State Fault Refusal :=
  let c := fnCfg s.io fn
  if !(c.ats && c.pri) then .next s
  else if granted then .next (on (atcPut fn page) s)
  else .next (on (fun io => { io with host := { io.host with pageFaults := io.host.pageFaults ++ [(fn.val, page)] } }) s)

end Sys2Proof.Machine
end

