-- ==== Sys2Proof/Machine/LockEvent.lean ====
section
/-!
DEFINITION. The commands of chapter 20 that come from outside the threads: register writes of the lock-and-event units,
their watchdogs and BLOCK_STALL. The Xkwaith instructions are in `Xkwaith.lean`.
-/
namespace Sys2Proof.Machine

/-- EV_ADD_REGISTER (R461, R475). -/
def execEvAddRegister (b : BlockNo) (k : Fin 1024) (v : Word64) (s : State) : Host.Outcome State Fault Refusal :=
  .next (evAdd b.val k.val v s)

/-- CHANNEL_OPEN (R462). -/
def execChannelOpen (b : BlockNo) (n : Fin 256) (v : Word32) (s : State) : Host.Outcome State Fault Refusal :=
  .next (chCfgWrite b.val n.val (v ||| 0x80000000).toNat s)

/-- CHANNEL_CLOSE (R462). -/
def execChannelClose (b : BlockNo) (n : Fin 256) (v : Word32) (s : State) : Host.Outcome State Fault Refusal :=
  .next (chCfgWrite b.val n.val (v &&& 0x7FFFFFFF).toNat s)

/-- LE_CH_ABORT (R472, R473). -/
def execLeChAbort (b : BlockNo) (n : Fin 256) (debug : Bool) (s : State) : Host.Outcome State Fault Refusal :=
  .next (chanAbort b.val n.val debug s)

/-- WAIT_WATCHDOG_EXPIRY (R456, R470, R474). -/
def execWaitWatchdogExpiry (t : ThreadNo) (s : State) : Host.Outcome State Fault Refusal := .next (waitTimeout t.val s)

/-- BLOCK_STALL (R469, R474). -/
def execBlockStall (b : BlockNo) (s : State) : Host.Outcome State Fault Refusal := .next (blockStall b.val s)

end Sys2Proof.Machine
end

