-- ==== Sys2Proof/Machine/ObjectAccess.lean ====
section
/-!
DEFINITION. The object-access commands (R95 to R117): frames on any association, and the expiries of the server's timers. A
frame on a mailbox association stands for one its doorbell has handed over.
Choices of the model coded here, by entry of the assumption log: DESIGN CHOICE 31.
-/
namespace Sys2Proof.Machine

/-- A frame of an opcode, outside opcode 0x31. -/
def plainRow (a : AssocKey) (h : OaHdr) (b : OaBody) (env : OaEnv) (s : State) : State :=
  oaRow { assoc := plainKey a, hdr := h, body := b } env s

/-- SHORT_FRAME_DISCARD (R97); MBOX_DOORBELL lets none through to a mailbox or a firmware port. -/
def execShortFrame (a : AssocKey) (bytes : Bytes) (s : State) : Host.Outcome State Fault Refusal :=
  .next (if s.clk.holdAll || 16 ≤ bytes.length || (mboxOf a).isSome then s else on (discardFrame a) s)

/-- DISCOVER (R117). -/
def execDiscover (a : AssocKey) (h : OaHdr) (versions maxFrame : Nat) (s : State) : Host.Outcome State Fault Refusal :=
  .next (plainRow a h (.discover versions maxFrame) OaEnv.none s)

/-- READ (R102). -/
def execRead (a : AssocKey) (h : OaHdr) (items : List OaItem) (s : State) : Host.Outcome State Fault Refusal :=
  .next (plainRow a h (.read items) OaEnv.none s)

/-- WRITE (R101, R107). -/
def execWrite (a : AssocKey) (h : OaHdr) (items : List OaItem) (env : OaEnv) (s : State) : Host.Outcome State Fault Refusal :=
  .next (plainRow a h (.write items) env s)

/-- DESCRIBE (R104). -/
def execDescribe (a : AssocKey) (h : OaHdr) (items : List OaItem) (s : State) : Host.Outcome State Fault Refusal :=
  .next (plainRow a h (.describe items) OaEnv.none s)

/-- ENUMERATE (R100). -/
def execEnumerate (a : AssocKey) (h : OaHdr) (index : Nat) (s : State) : Host.Outcome State Fault Refusal :=
  .next (plainRow a h (.enumerate index) OaEnv.none s)

/-- READ_BLOCK (R100, R133). -/
def execReadBlock (a : AssocKey) (h : OaHdr) (index offset length : Nat) (s : State) : Host.Outcome State Fault Refusal :=
  .next (plainRow a h (.readBlock index offset length) OaEnv.none s)

/-- WRITE_BLOCK (R103). -/
def execWriteBlock (a : AssocKey) (h : OaHdr) (index offset total : Nat) (data : Bytes) (env : OaEnv) (s : State) :
    Host.Outcome State Fault Refusal :=
  .next (plainRow a h (.writeBlock index offset total data) env s)

/-- TXN_BEGIN (R107). -/
def execTxnBegin (a : AssocKey) (h : OaHdr) (s : State) : Host.Outcome State Fault Refusal := .next (plainRow a h .txnBegin OaEnv.none s)

/-- TXN_COMMIT (R107, R108). -/
def execTxnCommit (a : AssocKey) (h : OaHdr) (env : OaEnv) (s : State) : Host.Outcome State Fault Refusal :=
  .next (plainRow a h .txnCommit env s)

/-- TXN_ABORT (R107). -/
def execTxnAbort (a : AssocKey) (h : OaHdr) (s : State) : Host.Outcome State Fault Refusal := .next (plainRow a h .txnAbort OaEnv.none s)

/-- SUBSCRIBE (R114). -/
def execSubscribe (a : AssocKey) (h : OaHdr) (index mode interval : Nat) (s : State) : Host.Outcome State Fault Refusal :=
  .next (plainRow a h (.subscribe index mode interval) OaEnv.none s)

/-- UNSUBSCRIBE (R114). -/
def execUnsubscribe (a : AssocKey) (h : OaHdr) (id : Nat) (s : State) : Host.Outcome State Fault Refusal :=
  .next (plainRow a h (.unsubscribe id) OaEnv.none s)

/-- SECURED (R110, R111): the inner frame belongs to the session; a record of none, or that is not authentic, is discarded and
journalled. Only management Ethernet has the opcode. -/
def execSecured (a : AssocKey) (session : Nat) (authentic : Bool) (inner : OaReq) (env : OaEnv) (s : State) :
    Host.Outcome State Fault Refusal :=
  .next (if a.binding ≠ .mgmtEth then plainRow a inner.hdr (.other 0x31) env s
    else
      let c := admitFrame { a with session := some session } authentic s
      match c.2.io.oa.sessions.find? (fun x => x.id == session) with
      | some x => if c.1 then serveDue env 64 (answerFrame { inner with assoc := { x.assoc with session := some session } } env c.2) else c.2
      | none => c.2)

/-! ### Expiries -/

/-- NOTIFY_PERIODIC (R114). -/
def execNotifyPeriodic (id : Nat) (s : State) : Host.Outcome State Fault Refusal :=
  .next (match s.io.oa.subs.find? (fun x => x.id == id && x.mode == 2) with
    | none => s
    | some x =>
      let s1 := on (reach (x.sentAt.getD s.io.now + ms x.interval)) s
      let s2 := on (fun io => { io with oa := { io.oa with subs := io.oa.subs.map (fun y =>
        if y.id = id then { y with sentAt := some io.now } else y) } }) s1
      evArrive (fabricFlush (on (sendNote x.assoc (.notify (noteNow x.assoc x.index s2) (time64 s2.io))) s2)))

/-- ON_CHANGE_INTERVAL_EXPIRY (R114). -/
def execOnChangeExpiry (id : Nat) (s : State) : Host.Outcome State Fault Refusal :=
  .next (match s.io.oa.subs.find? (fun x => x.id == id && x.mode == 1 && x.waiting) with
    | none => s
    | some x =>
      let s1 := on (reach (x.sentAt.getD s.io.now + ms x.interval)) s
      evArrive (fabricFlush (on (subNotify (noteNow x.assoc x.index s1) x) s1)))

/-- WRITE_BLOCK_TIMEOUT (R103). -/
def execWriteBlockTimeout (a : AssocKey) (s : State) : Host.Outcome State Fault Refusal :=
  .next (match assocOf s.io a with
    | none => s
    | some x =>
      match x.part with
      | none => s
      | some p => on (fun io => assocPut { x with part := none } (reach (p.last + sec 10) io)) s)

/-- SNAPSHOT_TIMEOUT (R133). -/
def execSnapshotTimeout (a : AssocKey) (s : State) : Host.Outcome State Fault Refusal :=
  .next (match assocOf s.io a with
    | none => s
    | some x =>
      match x.snapshot with
      | none => s
      | some p => on (fun io => assocPut { x with snapshot := none } (reach (p.last + sec 10) io)) s)

/-- TXN_TIMEOUT (R109). -/
def execTxnTimeout (id : Nat) (s : State) : Host.Outcome State Fault Refusal :=
  .next (match s.io.oa.txns.find? (fun t => t.id == id) with
    | none => s
    | some t => on (fun io => txnEnd id (reach (t.last + sec 10) io)) s)

/-- ASSOCIATION_IDLE_TIMEOUT (R96): on management Ethernet. -/
def execAssocIdleTimeout (a : AssocKey) (s : State) : Host.Outcome State Fault Refusal :=
  .next (match assocOf s.io a with
    | none => s
    | some x => if a.binding ≠ .mgmtEth then s else on (fun io => assocsEnd (fun k => k == x.key) (reach (x.last + sec 300) io)) s)

/-- ENDPOINT_ID_REASSIGNMENT (R96). -/
def execEndpointReassign (b : Binding) (old : Nat) (s : State) : Host.Outcome State Fault Refusal :=
  .next (if b = .mctpI3c ∨ b = .mctpVdm then on (assocsEnd (fun k => k.binding == b && k.key == old)) s else s)

/-- CMD_DONE (R95): an action of a CMD object that runs ends with a final status; its issuer is told. -/
def execCmdDone (index : Nat) (status : Nat) (result : Bytes) (s : State) : Host.Outcome State Fault Refusal :=
  .next (if status = 9 then s else evArrive (fabricFlush (on (endCmd (index / 256) status result) s)))

/-! ### Restarts by command -/

/-- A command that restarts the Kwaith, with its answer. -/
def restartRow (by_ : Issuer) (obj : Nat) (arg : Byte) (s : State) : State :=
  let e := oaCmd by_ obj [arg] OaEnv.none s
  e.after.run (on (answer by_ (idx obj 0) e.status e.result) e.s)

/-- OA_RESTORE_DEFAULTS (R121). -/
def execOaRestoreDefaults (by_ : Issuer) (arg : Byte) (s : State) : Host.Outcome State Fault Refusal := .next (restartRow by_ 0x010120 arg s)

/-- DEV_WARM_RESET (R129). -/
def execDevWarmReset (by_ : Issuer) (arg : Byte) (s : State) : Host.Outcome State Fault Refusal := .next (restartRow by_ 0x010010 arg s)

end Sys2Proof.Machine
end

