-- ==== Sys2Proof/Machine/Registers.lean ====
section
/-!
DEFINITION. Host writes of registers that have no row of their own (R7, R9, R10, R112, R160, R210, R270, R274, R304, R317,
R370), and the PPS pins (R224).
Choices of the model coded here, by entry of the assumption log: DESIGN CHOICE 6, 46, 90; DEDUCED 70.
-/
namespace Sys2Proof.Machine

/-- R138, R172: a function a host write can reach: a twin its PF is presented with, or a VF that is up; none in FLR. That the
write has come says that its link is up. -/
def fnTakes (io : Io) (fn : Nat) : Bool :=
  if fn < 16 then (pfLinks io (fn % 4)).contains (fn / 4) && !(fnCfg io fn).inFlr
  else (vfAt io (fn - 16)).up && !(vfAt io (fn - 16)).inFlr

/-- The function whose BAR0 holds a register. -/
def regFn (io : Io) (r : Reg) : Nat :=
  match r.name with
  | .peerOffset => r.unit / 8
  | .peerTarget => r.unit / 8
  | .peerCtrl => r.unit / 8
  | .nvCc => ctlFn io r.unit
  | .nvAqa => ctlFn io r.unit
  | .nvAsq => ctlFn io r.unit
  | .nvAcq => ctlFn io r.unit
  | .nvCsts => ctlFn io r.unit
  | _ => r.unit

/-- A write of CC: one that moves EN or SHN is what its rows do (R372). -/
def ccAny (c : Nat) (v : Word32) (s : State) : State :=
  let en := regBit .nvCc c 0 s.io
  if v.getLsbD 0 && !en then ccEnable c v s
  else if en && !v.getLsbD 0 then nextOr s (if h : c < 1028 then execCcEnClear ⟨c, h⟩ v s else .next s)
  else if en && bits v.toNat 15 14 ≠ 0 && bits v.toNat 15 14 ≠ regField .nvCc c 15 14 s.io then ctlShutdown c v s
  else if ctlExists s c then ccWrite c v s else s

/-- R210: whether an admin register takes a write: a type 1 VF has none, and none takes one while ENABLE is 1. -/
def admTakes (io : Io) (fn : Nat) : Bool := !regBit .admCtrl fn 0 io && (decide (fn < 16) || vfType io (fn - 16) != 1)

/-- R317: a register of a key window is discarded with OVERRUN while BUSY. -/
def keyRegWrite (n : RegName) (fn : Nat) (v : Word64) (io : Io) : Io :=
  if n = .keyWinStatus then regWrite n fn v io
  else if regBit .keyWinStatus fn 0 io then regOn .keyWinStatus fn 3 io
  else if n = .keyWinTarget && decide (16 ≤ fn) then io
  else regWrite n fn v io

/-- R9: a register takes a write, with what its chapter adds. -/
def regTake (r : Reg) (v : Word64) (s : State) : State :=
  let u := r.unit
  let pf0 := u % 4 = 0 ∧ u < 16
  let plain : State := on (regWrite r.name u v) s
  match r.name with
  | .mboxCfg => on (mboxCfgWrite u v.toNat) s
  | .mboxStatus => plain
  | .admSqBase => if admTakes s.io u then plain else s
  | .admCqBase => if admTakes s.io u then plain else s
  | .admCqCtlblk => if admTakes s.io u then plain else s
  | .admCfg => if admTakes s.io u then plain else s
  | .admCtrl => if admTakes s.io u then plain else s
  | .admStatus => s
  | .peerOffset => plain
  | .peerTarget => plain
  | .peerCtrl => plain
  | .peerStatus => plain
  | .pipeLoadAddr => if pf0 then plain else s
  | .pipeLoadLen => if pf0 then plain else s
  | .pipeLoadStatus => if pf0 then plain else s
  | .pipeLoadDetail => s
  | .pipePlateStatus => s
  | .pipePlateInfo => if pf0 then on (regWrite .pipePlateInfo 0 v) s else s
  | .pipePinMask => if pf0 ∧ v &&& mask 3 0 ≠ 0 then plain else s
  | .pipePinStatus => if pf0 then on (regWrite .pipePinStatus 0 v) s else s
  | .tblCmdAddr => if pf0 then plain else s
  | .tblCmdLen => if pf0 then plain else s
  | .tblCmdStatus => if pf0 then plain else s
  | .tblCmdProgress => s
  | .keyWinSlot => on (keyRegWrite .keyWinSlot u v) s
  | .keyWinTarget => on (keyRegWrite .keyWinTarget u v) s
  | .keyWinCtrl => on (keyRegWrite .keyWinCtrl u v) s
  | .keyWinKek => on (keyRegWrite .keyWinKek u v) s
  | .keyWinStatus => on (keyRegWrite .keyWinStatus u v) s
  | .keyWinCheck => on (keyRegWrite .keyWinCheck u v) s
  | .keyWinFill => on (keyRegWrite .keyWinFill u v) s
  | .nvCc => ccAny u (v.setWidth 32) s
  | .nvAqa => if ctlExists s u then plain else s
  | .nvAsq => if ctlExists s u then plain else s
  | .nvAcq => if ctlExists s u then plain else s
  | .nvCsts => s

/-- Whether the unit of a register exists and takes writes: a firmware port's registers are its cells'. -/
def regReach (io : Io) (r : Reg) : Bool := decide (regFn io r < 1040) && fnTakes io (regFn io r)

/-- A proper host write. -/
def regCommand (w : RegWrite) (s : State) : State :=
  match w with
  | .whole r v => if regReach s.io r then regTake r v s else s
  | .half r high v =>
    let old := regGet r.name r.unit s.io
    let x : Word64 := if high then (old &&& 0xFFFFFFFF) ||| (v.setWidth 64 <<< 32) else (old &&& 0xFFFFFFFF00000000) ||| v.setWidth 64
    if regReach s.io r then regTake r x s else s
  | .keyData fn i v => if fnTakes s.io fn then onWire (keyWinData fn i v.toNat) s else s
  | .mboxRequest n off b =>
    if decide (2000 ≤ n.val) || (decide (n.val < 1040) && fnTakes s.io n) then on (mboxRequest n off (b.take (4096 - off))) s else s

/-- REGISTER_WRITE (R9, R146). -/
def execRegisterWrite (w : RegWrite) (s : State) : Host.Outcome State Fault Refusal := .next (regCommand w s)

/-! ### PPS (R224, R487) -/

/-- A pulse on a line of every engine. -/
def pulseAll (l : Nat) (s : State) : State := (List.range 4).foldl (fun s r => dmaPulse r l s) s

/-- Nanoseconds until the time base, trimmed as R223 says, has come to a whole second. -/
def toSecond (io : Io) : Nat :=
  let trim := toSigned 32 (dget io (idx 0x070020 0) 0)
  let need : Int := ((1000000000 - time64 io % 1000000000) % 1000000000 : Nat)
  if need = 0 then 0 else ((need * 1000000000000 - io.trimAcc + (1000000000000 + trim) - 1) / (1000000000000 + trim)).toNat

/-- PPS_OUT_RISE (R224): the time base comes to a whole second; with 07:0025 at 0 the pin stays low. -/
def execPpsOutRise (s : State) : Host.Outcome State Fault Refusal :=
  .next (let s1 := on (fun io => advance (toSecond io) io) s
    if dget s1.io (idx 0x070025 0) 100 = 0 || s1.net.ppsOut then s1
    else pulseAll 61 { s1 with net := { s1.net with ppsOut := true, ppsAt := s1.io.now } })

/-- PPS_IN_EDGE (R224). -/
def execPpsInEdge (s : State) : Host.Outcome State Fault Refusal :=
  .next (pulseAll 60 (on (fun io => dset (idx 0x070024 0) (time64 io) io) s))

end Sys2Proof.Machine
end

