-- ==== Sys2Proof/Machine/Resets.lean ====
section
/-!
DEFINITION. The resets of chapter 04 and the pins and reference clocks that raise them (R52, R54, R55, R137, R523, R590, R593,
R605).
Choices of the model coded here, by entry of the assumption log: DESIGN CHOICE 20; DEDUCED 21, 44, 83.
-/
namespace Sys2Proof.Machine

/-- POWER_ON_RESET (R58, R576, R595, R606): PWROK rises. -/
def execPowerOnReset (testmode : Bool) (flash : FlashStart) (s : State) : Host.Outcome State Fault Refusal :=
  .next (coldStart 1 flash { s with start := { s.start with pwrok := true }, dbg := { s.dbg with testmode := testmode, ir := 1 } })

/-- PWROK_FALL (R593): slot outputs go inactive and THERMTRIP_N is released. -/
def execPwrokFall (s : State) : Host.Outcome State Fault Refusal :=
  .next (holdReset { s with start := { s.start with pwrok := false }, mon := { s.mon with trip := false, tripCool := none } })

/-- VDD_AON_BROWNOUT (R590, R606). -/
def execVddAonBrownout (flash : FlashStart) (s : State) : Host.Outcome State Fault Refusal := .next (coldStart 1 flash s)

/-- REFCLK_SYS_LOSS (R52). -/
def execRefclkSysLoss (s : State) : Host.Outcome State Fault Refusal :=
  .next (holdReset { s with clk := { s.clk with refSys := false } })

/-- REFCLK_SYS_RESTORED (R52, R54): a restart as from power-on reset, with cause 0x05. -/
def execRefclkSysRestored (flash : FlashStart) (s : State) : Host.Outcome State Fault Refusal :=
  .next (if s.clk.refSys then s else coldStart 5 flash { s with clk := { s.clk with refSys := true } })

/-- THERMTRIP (R523). -/
def execThermtrip (s : State) : Host.Outcome State Fault Refusal :=
  .next (if s.mon.trip then s else holdReset { s with mon := { s.mon with trip := true, tripCool := none } })

/-- THERMTRIP_RELEASE (R523): one second after every sensor has read below 105 °C. -/
def execThermtripRelease (flash : FlashStart) (s : State) : Host.Outcome State Fault Refusal :=
  .next (match s.mon.trip, s.mon.tripCool with
    | true, some t => coldStart 6 flash (on (reach (t + sec 1)) { s with mon := { s.mon with trip := false, tripCool := none } })
    | _, _ => s)

/-- CHIP_WARM_RESET (R33, R54, R55, R57). One of containment or of the start watchdog is recorded and counted by the row that
finds its cause; here the reset itself takes place. -/
def execChipWarmReset (cause : WarmCause) (flash : FlashStart) (s : State) : Host.Outcome State Fault Refusal :=
  .next (if s.clk.holdAll then s else chipWarm cause flash s)

/-! ### Host ports and links -/

/-- A host port is reset: every function on its links, and the links go down; the associations it carries end (R96). -/
def portReset (p : Nat) (s : State) : State :=
  on (assocsEnd (fun k => k.binding == .mctpVdm && k.key / 256 == p))
    ((portLinks s.io p).foldl (fun s l => on (linkDownSet l) (linkFnsReset l s)) s)

/-- A host port. -/
def hostPort (io : Io) (p : Nat) : HostPort := mgetD io.host.ports p HostPort.reset

/-- Storing it. -/
def hostPortPut (p : Nat) (x : HostPort) (io : Io) : Io := { io with host := { io.host with ports := mput io.host.ports p x } }

/-- PERST_ASSERT (R54, R65, R158, R605). -/
def execPerstAssert (port : Fin 2) (s : State) : Host.Outcome State Fault Refusal :=
  .next (portReset port.val (on (hostPortPut port.val { hostPort s.io port.val with perst := true }) s))

/-- PERST_DEASSERT (R56, R605): the 100 ms for PF0 count from here. -/
def execPerstDeassert (port : Fin 2) (s : State) : Host.Outcome State Fault Refusal :=
  .next (on (fun io =>
    let io1 := hostPortPut port.val { perst := false, released := io.now } io
    if dget io1 (idx 0x020003 (port.val + 1)) 0 = 0 then io1 else dset (idx 0x020003 (port.val + 1)) 0 io1) s)

/-- HOT_RESET (R54, R134). -/
def execHotReset (port : Fin 2) (s : State) : Host.Outcome State Fault Refusal := .next (portReset port.val s)

/-- LINK_DOWN (R137, R158). -/
def execLinkDown (l : LinkNo) (s : State) : Host.Outcome State Fault Refusal :=
  .next (if (linkAt s.io l.val).up then on (linkDownSet l.val) (linkFnsReset l.val s) else s)

/-- FLR (R54, R139, R154, R157). -/
def execFlr (l : LinkNo) (pf : Pf) (s : State) : Host.Outcome State Fault Refusal :=
  .next (if (pfLinks s.io pf.val).contains l.val then
      pfReset (4 * l.val + pf.val) (on (readsAbandon l.val (· == 4 * l.val + pf.val)) s)
    else s)

/-- Whether a link may train: it exists, its port is out of reset and placed, its references run (R134, R136, R138), and no
lane of it is tested (R585). -/
def linkMayTrain (s : State) (l : Nat) : Bool :=
  let p := l % 2
  !s.clk.holdAll && (portLinks s.io p).contains l && !(hostPort s.io p).perst && s.clk.refPcie0 && (p == 0 || s.clk.refPcie1) &&
  !(s.io.host.placement == 0 && p == 1) && !lanesTested s.dbg (fun j => laneKind j == some 1 && laneLink s.io j == l)

/-- R135: the width two partners share: the widest of those a link of full width `full` has that the other offers. -/
def sharedWidth (full offered : Nat) : Nat := ([16, 8, 4, 2, 1].find? (fun w => decide (w ≤ full) && decide (w ≤ offered))).getD 0

/-- 02:0003: PF0 is ready on a port, for the first time since PERST was deasserted. -/
def pf0Ready (p : Nat) (io : Io) : Io :=
  if (pfLinks io 0).any (fun l => l % 2 == p) && dget io (idx 0x020003 (p + 1)) 0 == 0 then
    dset (idx 0x020003 (p + 1)) ((io.now - (hostPort io p).released) / 1000 % 2 ^ 32) io
  else io

/-- A link has trained; training again while it is up is a retrain. -/
def linkUp (l rate width : Nat) (flit : Bool) (io : Io) : Io :=
  let r := min rate (dget io (idx 0x040003 (l % 2 + 1)) 6)
  let w := sharedWidth (if (io.host.split[l % 2]?).getD 0 = 1 then 8 else 16) width
  if r = 0 || w = 0 then io
  else
    let io1 := if (linkAt io l).up then bump32 0x040011 (l + 1) io else io
    pf0Ready (l % 2) (linkReport l (linkPut l { linkAt io1 l with up := true, flit := flit || r == 6, rate := r, width := w } io1))

/-- HOST_LINK_UP (R134 to R136, R138). -/
def execHostLinkUp (l : LinkNo) (rate : Fin 7) (width : Fin 17) (flit : Bool) (s : State) : Host.Outcome State Fault Refusal :=
  .next (if linkMayTrain s l.val then on (linkUp l.val rate.val width.val flit) s else s)

/-! ### Reference clocks (R52) -/

/-- Every network port reports link down, and trains again once its clock returns. -/
def portsDown (w : Wire) : Wire :=
  (List.range (modePorts w.net.mode)).foldl (fun w p =>
    if (portAt w.net p).up then portReport p (w.onNet (portPut p { portAt w.net p with up := false, training := true })) else w) w

/-- Crossings of CLK_MAC (9 to 13 and 18) and of CLK_PCIE (14 and 18), from 0. -/
def macXings : List Nat := [8, 9, 10, 11, 12, 17]
def pcieXings : List Nat := [13, 17]

/-- REFCLK_ETH_LOSS (R52, R242): the network tile freezes. -/
def execRefclkEthLoss (s : State) : Host.Outcome State Fault Refusal :=
  .next (if !s.clk.refEth then s
    else
      let s1 := { s with clk := { s.clk with refEth := false } }
      if s.clk.holdAll then s1
      else onWire (fun w => (portsDown w).onNet (fun n => { n with frozen := true }))
        (xingsHeld macXings (fun _ => false) (clkSet 11 0 s1)))

/-- Handles of the packets the Fold and the packet buffer hold. -/
def heldHandles (n : Net) : List Nat :=
  let qs : List Pkt := n.hostQ ++ n.threadQ.flatMap (·.2) ++ n.engineQ.flatMap (·.2) ++
    n.ports.flatMap (fun p => p.2.inQ ++ p.2.egress.flatMap (·.2)) ++ n.punts.flatMap (·.2) ++ n.got.map (·.2.2) ++ n.adoptHeld.map (·.pkt)
  (n.fold.map (·.handle) ++ qs.map (·.handle)).eraseDups

/-- R242 step 2: TRANSMIT entries read and not sent. -/
def unsentDone (io : Io) : Io :=
  io.rings.rings.foldl (fun io p =>
    (p.2.fetched.filter (fun f => f.opcode == 1 && f.started && f.done.isNone && f.txTime.isNone)).foldl
      (fun io f => finish p.1 f.counter (cplOf p.1 p.2 f 0x0B f.length 0 0 []) io) io) io

/-- R242: the network tile empties itself, its sequences restart, and its ports train. -/
def netRecover (stage : Nat) (w : Wire) : Wire :=
  let k := (heldHandles w.net).length
  let w1 := w.on (fun io => unsentDone (if k = 0 then io else bumpBy 64 (idx 0x070118 0) k io))
  let n := w1.net
  let w2 := w1.onNet (fun n => { Net.reset with
    mode := n.mode, rdmaQ := n.rdmaQ, learnRx := n.learnRx, stewardRx := n.stewardRx, ppsOut := n.ppsOut, ppsAt := n.ppsAt, trimAt := n.trimAt })
  let w3 := (List.range (modePorts n.mode)).foldl (fun w p =>
    if portMayRun w stage p then portReport p (w.onNet (portPut p { PortSt.reset with training := true })) else w) w2
  [0, 1, 2, 3].foldl (fun w s => slotDrained s w) { w3 with burin := { w3.burin with starved := [] } }

/-- REFCLK_ETH_RESTORED (R52, R242). -/
def execRefclkEthRestored (s : State) : Host.Outcome State Fault Refusal :=
  .next (if s.clk.refEth then s
    else
      let s1 := { s with clk := { s.clk with refEth := true } }
      if s.clk.holdAll then s1
      else xingsRetry macXings (onWire (netRecover s.start.stage) (clkSet 11 1250000 s1)))

/-- PCIE0_REFCLK_LOSS (R52, R136): every host link goes down, for CLK_PCIE stops. -/
def execPcie0RefclkLoss (s : State) : Host.Outcome State Fault Refusal :=
  .next (if !s.clk.refPcie0 then s
    else
      let s1 := { s with clk := { s.clk with refPcie0 := false } }
      if s.clk.holdAll then s1
      else
        let s2 := (List.range 4).foldl (fun s l => if (linkAt s.io l).up then on (linkDownSet l) (linkFnsReset l s) else s) s1
        xingsHeld pcieXings (fun x => x == 17) (clkSet 12 0 s2))

/-- PCIE0_REFCLK_RESTORED (R52). -/
def execPcie0RefclkRestored (s : State) : Host.Outcome State Fault Refusal :=
  .next (if s.clk.refPcie0 then s
    else
      let s1 := { s with clk := { s.clk with refPcie0 := true } }
      if s.clk.holdAll then s1 else xingsRetry pcieXings (clkSet 12 1000000 s1))

/-- PCIE1_REFCLK_LOSS (R52): host port 1's links go down; CLK_PCIE and port 0 continue. -/
def execPcie1RefclkLoss (s : State) : Host.Outcome State Fault Refusal :=
  .next (if !s.clk.refPcie1 then s
    else (portLinks s.io 1).foldl (fun s l => if (linkAt s.io l).up then on (linkDownSet l) (linkFnsReset l s) else s)
      { s with clk := { s.clk with refPcie1 := false } })

/-- PCIE1_REFCLK_RESTORED (R52). -/
def execPcie1RefclkRestored (s : State) : Host.Outcome State Fault Refusal :=
  .next { s with clk := { s.clk with refPcie1 := true } }

/-- DRV_REFCLK_LOSS (R52, R425): every downstream link goes down. -/
def execDrvRefclkLoss (s : State) : Host.Outcome State Fault Refusal :=
  .next (if !s.clk.refDrv then s
    else
      let s1 := { s with clk := { s.clk with refDrv := false } }
      if s.clk.holdAll then s1 else xingsHeld [14] (fun _ => false) (clkSet 13 0 (slotsRefLost s1)))

/-- DRV_REFCLK_RESTORED (R52). -/
def execDrvRefclkRestored (s : State) : Host.Outcome State Fault Refusal :=
  .next (if s.clk.refDrv then s
    else
      let s1 := { s with clk := { s.clk with refDrv := true } }
      if s.clk.holdAll then s1 else xingsRetry [14] (clkSet 13 1000000 s1))

end Sys2Proof.Machine
end

