-- ==== Sys2Proof/Machine/Vfs.lean ====
section
/-!
DEFINITION. The commands of chapter 09 that are not operations of 05:0100: VF Enable, NumVFs, FLR of a VF, and the ends of
drains, saves, restores and harvests.
Choices of the model coded here, by entry of the assumption log: DEDUCED 37.
-/
namespace Sys2Proof.Machine

/-- R167: VF Enable written 1 on the active twin: discarded before stage 3. -/
def execVfEnableSet (pf : Pf) (s : State) : Host.Outcome State Fault Refusal :=
  .next (if s.start.stage < 3 || (fnCfg s.io (activeTwin s.io pf)).vfEnable then s else on (vfEnable pf) s)

/-- R167: VF Enable written 0: every VF of the PF is reset and gone. -/
def execVfEnableClear (pf : Pf) (s : State) : Host.Outcome State Fault Refusal :=
  .next (if s.start.stage < 3 || !(fnCfg s.io (activeTwin s.io pf)).vfEnable then s else vfsGone pf 0x0C s)

/-- R167: NumVFs written: discarded while VF Enable is 1, or above TotalVFs. -/
def execNumvfsWrite (pf : Pf) (n : Nat) (s : State) : Host.Outcome State Fault Refusal :=
  let fn := activeTwin s.io pf
  .next (if (fnCfg s.io fn).vfEnable || vfTotal s.io pf < n then s else on (fun io => fnPut fn { fnCfg io fn with numVfs := n } io) s)

/-- R172: FLR of a VF is accepted. -/
def execVfFlr (vf : Vf) (s : State) : Host.Outcome State Fault Refusal :=
  .next (if (vfAt s.io vf).up && !(vfAt s.io vf).inFlr then on (vfFlrBegin vf) s else s)

/-- R172 steps 3 to 5: the FLR is done. -/
def execVfFlrComplete (vf : Vf) (s : State) : Host.Outcome State Fault Refusal :=
  .next (if (vfAt s.io vf).inFlr then vfWipe vf 0x0C s else s)

/-- R178 step 3. -/
def execDrainComplete (vf : Vf) (s : State) : Host.Outcome State Fault Refusal := .next (migDrained vf s)

/-- R178: 10 ms have passed since DRAIN was accepted. -/
def execDrainTimeout (vf : Vf) (s : State) : Host.Outcome State Fault Refusal := .next (on (drainLate vf) s)

/-- R178 step 7, or a failed host write. -/
def execSaveComplete (vf : Vf) (written : Bool) (s : State) : Host.Outcome State Fault Refusal := .next (on (saveDone vf written) s)

/-- R182: the mover has read the blob, or its read failed. -/
def execRestoreComplete (vf : Vf) (blob : Option MigBlob) (s : State) : Host.Outcome State Fault Refusal := .next (restoreDone vf blob s)

/-- R183: the retired bank has been copied, or its write failed. -/
def execHarvestComplete (vf : Vf) (copied : Bool) (s : State) : Host.Outcome State Fault Refusal := .next (on (harvestDone vf copied) s)

end Sys2Proof.Machine
end

