-- ==== Sys2Proof/Machine/Dispatch.lean ====
section
/-!
DEFINITION. One arm per command: a direct call of its meaning.
-/
namespace Sys2Proof.Machine

/-- The effect of a command on everything but the queue. -/
def exec (i : Instr) (s : State) : Host.Outcome State Fault Refusal :=
  match i with
  | .registerWrite w => Sys2Proof.Machine.execRegisterWrite w s
  | .hardwareFault f => Sys2Proof.Machine.execHardwareFault f s
  | .ceRateExceeded c count => Sys2Proof.Machine.execCeRateExceeded c count s
  | .meshLinkFailed link => Sys2Proof.Machine.execMeshLinkFailed link s
  | .bwAckTimeout b => Sys2Proof.Machine.execBwAckTimeout b s
  | .contRegionReset by_ arg => Sys2Proof.Machine.execContRegionReset by_ arg s
  | .regionResetCopyDone r => Sys2Proof.Machine.execRegionResetCopyDone r s
  | .regionResetIncomplete r => Sys2Proof.Machine.execRegionResetIncomplete r s
  | .contBlockReset by_ arg => Sys2Proof.Machine.execContBlockReset by_ arg s
  | .contReleaseStage0 by_ arg => Sys2Proof.Machine.execContReleaseStage0 by_ arg s
  | .operatingPointSwitch r => Sys2Proof.Machine.execOperatingPointSwitch r s
  | .crossingReset x inner traffic => Sys2Proof.Machine.execCrossingReset x inner traffic s
  | .crossingHeld x inner traffic => Sys2Proof.Machine.execCrossingHeld x inner traffic s
  | .crossingResync x => Sys2Proof.Machine.execCrossingResync x s
  | .refclkSysLoss => Sys2Proof.Machine.execRefclkSysLoss s
  | .refclkSysRestored flash => Sys2Proof.Machine.execRefclkSysRestored flash s
  | .refclkEthLoss => Sys2Proof.Machine.execRefclkEthLoss s
  | .refclkEthRestored => Sys2Proof.Machine.execRefclkEthRestored s
  | .pcie0RefclkLoss => Sys2Proof.Machine.execPcie0RefclkLoss s
  | .pcie1RefclkLoss => Sys2Proof.Machine.execPcie1RefclkLoss s
  | .drvRefclkLoss => Sys2Proof.Machine.execDrvRefclkLoss s
  | .powerOnReset testmode flash => Sys2Proof.Machine.execPowerOnReset testmode flash s
  | .pwrokFall => Sys2Proof.Machine.execPwrokFall s
  | .vddAonBrownout flash => Sys2Proof.Machine.execVddAonBrownout flash s
  | .perstAssert port => Sys2Proof.Machine.execPerstAssert port s
  | .perstDeassert port => Sys2Proof.Machine.execPerstDeassert port s
  | .hotReset port => Sys2Proof.Machine.execHotReset port s
  | .flr l pf => Sys2Proof.Machine.execFlr l pf s
  | .chipWarmReset cause flash => Sys2Proof.Machine.execChipWarmReset cause flash s
  | .hostLinkUp l rate width flit => Sys2Proof.Machine.execHostLinkUp l rate width flit s
  | .linkDown l => Sys2Proof.Machine.execLinkDown l s
  | .stage1Entry => Sys2Proof.Machine.execStage1Entry s
  | .stage2Entry => Sys2Proof.Machine.execStage2Entry s
  | .memoryTrained density twoRanks failed => Sys2Proof.Machine.execMemoryTrained density twoRanks failed s
  | .memoryFullyWritten => Sys2Proof.Machine.execMemoryFullyWritten s
  | .stageDeadlineMissed stage => Sys2Proof.Machine.execStageDeadlineMissed stage s
  | .startWatchdogExpiry => Sys2Proof.Machine.execStartWatchdogExpiry s
  | .startHold by_ v => Sys2Proof.Machine.execStartHold by_ v s
  | .adoptionRequest => Sys2Proof.Machine.execAdoptionRequest s
  | .adoptionComplete => Sys2Proof.Machine.execAdoptionComplete s
  | .adoptionTimeout => Sys2Proof.Machine.execAdoptionTimeout s
  | .slotCommit by_ arg => Sys2Proof.Machine.execSlotCommit by_ arg s
  | .slotVerifyDone => Sys2Proof.Machine.execSlotVerifyDone s
  | .slotRetire by_ arg => Sys2Proof.Machine.execSlotRetire by_ arg s
  | .enterRecovery by_ => Sys2Proof.Machine.execEnterRecovery by_ s
  | .rootKeyRevoke by_ arg => Sys2Proof.Machine.execRootKeyRevoke by_ arg s
  | .slotResequence by_ arg => Sys2Proof.Machine.execSlotResequence by_ arg s
  | .epochAdvance by_ n vddFuse => Sys2Proof.Machine.execEpochAdvance by_ n vddFuse s
  | .flashProgram m addr data ok => Sys2Proof.Machine.execFlashProgram m addr data ok s
  | .flashErase m addr ok => Sys2Proof.Machine.execFlashErase m addr ok s
  | .helloTimer => Sys2Proof.Machine.execHelloTimer s
  | .loaderFrameDiscard => Sys2Proof.Machine.execLoaderFrameDiscard s
  | .helloAck seq version => Sys2Proof.Machine.execHelloAck seq version s
  | .loaderBaud seq rate => Sys2Proof.Machine.execLoaderBaud seq rate s
  | .baudSwitch => Sys2Proof.Machine.execBaudSwitch s
  | .baudTimeout => Sys2Proof.Machine.execBaudTimeout s
  | .loaderIdleTimeout => Sys2Proof.Machine.execLoaderIdleTimeout s
  | .loaderBegin seq slot flags total => Sys2Proof.Machine.execLoaderBegin seq slot flags total s
  | .loaderEraseDone => Sys2Proof.Machine.execLoaderEraseDone s
  | .loaderData seq offset data flashFail => Sys2Proof.Machine.execLoaderData seq offset data flashFail s
  | .loaderEnd seq => Sys2Proof.Machine.execLoaderEnd seq s
  | .loaderCommit seq flashFail => Sys2Proof.Machine.execLoaderCommit seq flashFail s
  | .loaderStatus seq => Sys2Proof.Machine.execLoaderStatus seq s
  | .loaderBoot seq => Sys2Proof.Machine.execLoaderBoot seq s
  | .loaderObject seq bytes env => Sys2Proof.Machine.execLoaderObject seq bytes env s
  | .pldmRequestUpdate => Sys2Proof.Machine.execPldmRequestUpdate s
  | .pldmUpdateComponent component size => Sys2Proof.Machine.execPldmUpdateComponent component size s
  | .pldmFirmwareData offset data => Sys2Proof.Machine.execPldmFirmwareData offset data s
  | .pldmVerifyComplete => Sys2Proof.Machine.execPldmVerifyComplete s
  | .pldmActivate selfContained => Sys2Proof.Machine.execPldmActivate selfContained s
  | .pldmCancel => Sys2Proof.Machine.execPldmCancel s
  | .shortFrame a bytes => Sys2Proof.Machine.execShortFrame a bytes s
  | .discover a h versions maxFrame => Sys2Proof.Machine.execDiscover a h versions maxFrame s
  | .read a h items => Sys2Proof.Machine.execRead a h items s
  | .write a h items env => Sys2Proof.Machine.execWrite a h items env s
  | .notifyPeriodic id => Sys2Proof.Machine.execNotifyPeriodic id s
  | .describe a h items => Sys2Proof.Machine.execDescribe a h items s
  | .enumerate a h index => Sys2Proof.Machine.execEnumerate a h index s
  | .readBlock a h index offset length => Sys2Proof.Machine.execReadBlock a h index offset length s
  | .writeBlock a h index offset total data env => Sys2Proof.Machine.execWriteBlock a h index offset total data env s
  | .writeBlockTimeout a => Sys2Proof.Machine.execWriteBlockTimeout a s
  | .snapshotTimeout a => Sys2Proof.Machine.execSnapshotTimeout a s
  | .txnBegin a h => Sys2Proof.Machine.execTxnBegin a h s
  | .txnCommit a h env => Sys2Proof.Machine.execTxnCommit a h env s
  | .txnAbort a h => Sys2Proof.Machine.execTxnAbort a h s
  | .txnTimeout id => Sys2Proof.Machine.execTxnTimeout id s
  | .subscribe a h index mode interval => Sys2Proof.Machine.execSubscribe a h index mode interval s
  | .unsubscribe a h id => Sys2Proof.Machine.execUnsubscribe a h id s
  | .cmdDone index status result => Sys2Proof.Machine.execCmdDone index status result s
  | .secured a session authentic inner env => Sys2Proof.Machine.execSecured a session authentic inner env s
  | .assocIdleTimeout a => Sys2Proof.Machine.execAssocIdleTimeout a s
  | .spdmGetVersion a => Sys2Proof.Machine.execSpdmGetVersion a s
  | .spdmGetCapabilities a flags => Sys2Proof.Machine.execSpdmGetCapabilities a flags s
  | .spdmNegotiateAlgorithms a asym hash dhe aead => Sys2Proof.Machine.execSpdmNegotiateAlgorithms a asym hash dhe aead s
  | .spdmGetDigests a => Sys2Proof.Machine.execSpdmGetDigests a s
  | .spdmGetCertificate a slot offset length => Sys2Proof.Machine.execSpdmGetCertificate a slot offset length s
  | .spdmChallenge a slot nonce => Sys2Proof.Machine.execSpdmChallenge a slot nonce s
  | .spdmGetMeasurements a index sign nonce => Sys2Proof.Machine.execSpdmGetMeasurements a index sign nonce s
  | .spdmKeyExchange a mutualAuth exchange => Sys2Proof.Machine.execSpdmKeyExchange a mutualAuth exchange s
  | .spdmFinish session chain finish => Sys2Proof.Machine.execSpdmFinish session chain finish s
  | .spdmHeartbeat session => Sys2Proof.Machine.execSpdmHeartbeat session s
  | .spdmKeyUpdate session => Sys2Proof.Machine.execSpdmKeyUpdate session s
  | .spdmEndSession session => Sys2Proof.Machine.execSpdmEndSession session s
  | .spdmHeartbeatTimeout session => Sys2Proof.Machine.execSpdmHeartbeatTimeout session s
  | .mboxDoorbell fn len env => Sys2Proof.Machine.execMboxDoorbell fn len env s
  | .mboxNotifyAck fn ack => Sys2Proof.Machine.execMboxNotifyAck fn ack s
  | .oaRestoreDefaults by_ arg => Sys2Proof.Machine.execOaRestoreDefaults by_ arg s
  | .devWarmReset by_ arg => Sys2Proof.Machine.execDevWarmReset by_ arg s
  | .completionReceived l c => Sys2Proof.Machine.execCompletionReceived l c s
  | .completionTimeout l tag => Sys2Proof.Machine.execCompletionTimeout l tag s
  | .tagQuarantineEnd l tag => Sys2Proof.Machine.execTagQuarantineEnd l tag s
  | .improperAccess fn offset len write => Sys2Proof.Machine.execImproperAccess fn offset len write s
  | .bar2Tlp l pf t => Sys2Proof.Machine.execBar2Tlp l pf t s
  | .peerwinCommit l pf go => Sys2Proof.Machine.execPeerwinCommit l pf go s
  | .peerwinDrainDone l pf => Sys2Proof.Machine.execPeerwinDrainDone l pf s
  | .msixUnmask fn vector => Sys2Proof.Machine.execMsixUnmask fn vector s
  | .atsInvalidate fn tag page count => Sys2Proof.Machine.execAtsInvalidate fn tag page count s
  | .vfEnableSet pf => Sys2Proof.Machine.execVfEnableSet pf s
  | .vfEnableClear pf => Sys2Proof.Machine.execVfEnableClear pf s
  | .numvfsWrite pf n => Sys2Proof.Machine.execNumvfsWrite pf n s
  | .vfFlr vf => Sys2Proof.Machine.execVfFlr vf s
  | .vfFlrComplete vf => Sys2Proof.Machine.execVfFlrComplete vf s
  | .migFreeze by_ arg => Sys2Proof.Machine.execMigFreeze by_ arg s
  | .migDrain by_ arg => Sys2Proof.Machine.execMigDrain by_ arg s
  | .drainComplete vf => Sys2Proof.Machine.execDrainComplete vf s
  | .drainTimeout vf => Sys2Proof.Machine.execDrainTimeout vf s
  | .migSave by_ arg => Sys2Proof.Machine.execMigSave by_ arg s
  | .saveComplete vf written => Sys2Proof.Machine.execSaveComplete vf written s
  | .migRestore by_ arg => Sys2Proof.Machine.execMigRestore by_ arg s
  | .restoreComplete vf blob => Sys2Proof.Machine.execRestoreComplete vf blob s
  | .migResume by_ arg env => Sys2Proof.Machine.execMigResume by_ arg env s
  | .trackStart by_ arg => Sys2Proof.Machine.execTrackStart by_ arg s
  | .trackStop by_ arg => Sys2Proof.Machine.execTrackStop by_ arg s
  | .migHarvest by_ arg => Sys2Proof.Machine.execMigHarvest by_ arg s
  | .harvestComplete vf copied => Sys2Proof.Machine.execHarvestComplete vf copied s
  | .ringDoorbell fn page slot => Sys2Proof.Machine.execRingDoorbell fn page slot s
  | .fetchBatchReturn ring reads => Sys2Proof.Machine.execFetchBatchReturn ring reads s
  | .ringNop ring counter => Sys2Proof.Machine.execRingNop ring counter s
  | .ringTransmit ring counter frame => Sys2Proof.Machine.execRingTransmit ring counter frame s
  | .transmitDone ring counter => Sys2Proof.Machine.execTransmitDone ring counter s
  | .receivePost ring counter => Sys2Proof.Machine.execReceivePost ring counter s
  | .cqCtlblkRead ring read => Sys2Proof.Machine.execCqCtlblkRead ring read s
  | .cqPollTimer ring => Sys2Proof.Machine.execCqPollTimer ring s
  | .coalesceTimer ring => Sys2Proof.Machine.execCoalesceTimer ring s
  | .admEnableSet fn translated => Sys2Proof.Machine.execAdmEnableSet fn translated s
  | .admEnableClear fn => Sys2Proof.Machine.execAdmEnableClear fn s
  | .adminRingsDeleted fn translated => Sys2Proof.Machine.execAdminRingsDeleted fn translated s
  | .createCq fn entry => Sys2Proof.Machine.execCreateCq fn entry s
  | .createSq fn entry => Sys2Proof.Machine.execCreateSq fn entry s
  | .modifyQueue fn entry => Sys2Proof.Machine.execModifyQueue fn entry s
  | .resetQueue fn entry => Sys2Proof.Machine.execResetQueue fn entry s
  | .deleteQueue fn entry => Sys2Proof.Machine.execDeleteQueue fn entry s
  | .queryQueue fn entry => Sys2Proof.Machine.execQueryQueue fn entry s
  | .ringDrainDone ring => Sys2Proof.Machine.execRingDrainDone ring s
  | .macFrameReceived port frame fecOk fcsOk => Sys2Proof.Machine.execMacFrameReceived port frame fecOk fcsOk s
  | .pfcFrame port prio quanta => Sys2Proof.Machine.execPfcFrame port prio quanta s
  | .pfcPauseExpiry port prio => Sys2Proof.Machine.execPfcPauseExpiry port prio s
  | .xoffRefresh port prio => Sys2Proof.Machine.execXoffRefresh port prio s
  | .egressTransmit port => Sys2Proof.Machine.execEgressTransmit port s
  | .timeFreqAdj by_ v => Sys2Proof.Machine.execTimeFreqAdj by_ v s
  | .timeStep by_ v => Sys2Proof.Machine.execTimeStep by_ v s
  | .holdoverExpiry => Sys2Proof.Machine.execHoldoverExpiry s
  | .ppsOutRise => Sys2Proof.Machine.execPpsOutRise s
  | .ppsOutFall => Sys2Proof.Machine.execPpsOutFall s
  | .ppsInEdge => Sys2Proof.Machine.execPpsInEdge s
  | .droverDeal => Sys2Proof.Machine.execDroverDeal s
  | .pipelinePacket r ue => Sys2Proof.Machine.execPipelinePacket r ue s
  | .deepLaneResult r n poison => Sys2Proof.Machine.execDeepLaneResult r n poison s
  | .pipelineResult r => Sys2Proof.Machine.execPipelineResult r s
  | .holeTimeout src => Sys2Proof.Machine.execHoleTimeout src s
  | .heldReleaseResume src => Sys2Proof.Machine.execHeldReleaseResume src s
  | .portLinkDown port => Sys2Proof.Machine.execPortLinkDown port s
  | .portLinkUp port => Sys2Proof.Machine.execPortLinkUp port s
  | .plateLoad src list => Sys2Proof.Machine.execPlateLoad src list s
  | .platePrepare src => Sys2Proof.Machine.execPlatePrepare src s
  | .plateRelease src => Sys2Proof.Machine.execPlateRelease src s
  | .plateOpDone => Sys2Proof.Machine.execPlateOpDone s
  | .plateCommit src => Sys2Proof.Machine.execPlateCommit src s
  | .pinnedWrite l slot off bytes => Sys2Proof.Machine.execPinnedWrite l slot off bytes s
  | .pinnedApply r => Sys2Proof.Machine.execPinnedApply r s
  | .pinWrite by_ arg => Sys2Proof.Machine.execPinWrite by_ arg s
  | .counterClear by_ n => Sys2Proof.Machine.execCounterClear by_ n s
  | .learnArbiterEvent => Sys2Proof.Machine.execLearnArbiterEvent s
  | .agerSweep => Sys2Proof.Machine.execAgerSweep s
  | .learnBatchSend => Sys2Proof.Machine.execLearnBatchSend s
  | .learnFrameReceived => Sys2Proof.Machine.execLearnFrameReceived s
  | .learnRefreshTimer => Sys2Proof.Machine.execLearnRefreshTimer s
  | .tblListStart src => Sys2Proof.Machine.execTblListStart src s
  | .connInsert rec => Sys2Proof.Machine.execConnInsert rec s
  | .connModify rec => Sys2Proof.Machine.execConnModify rec s
  | .connDelete rec => Sys2Proof.Machine.execConnDelete rec s
  | .brInsert rec => Sys2Proof.Machine.execBrInsert rec s
  | .brDelete rec => Sys2Proof.Machine.execBrDelete rec s
  | .brFlush rec => Sys2Proof.Machine.execBrFlush rec s
  | .proofStart by_ arg => Sys2Proof.Machine.execProofStart by_ arg s
  | .proofResume by_ arg => Sys2Proof.Machine.execProofResume by_ arg s
  | .proofAbort by_ arg => Sys2Proof.Machine.execProofAbort by_ arg s
  | .proofRingPoll consumer => Sys2Proof.Machine.execProofRingPoll consumer s
  | .proofPassEnd => Sys2Proof.Machine.execProofPassEnd s
  | .keyWrite src => Sys2Proof.Machine.execKeyWrite src s
  | .keyErase src => Sys2Proof.Machine.execKeyErase src s
  | .keyWindowClear fn => Sys2Proof.Machine.execKeyWindowClear fn s
  | .saCreate by_ arg => Sys2Proof.Machine.execSaCreate by_ arg s
  | .saDelete by_ arg => Sys2Proof.Machine.execSaDelete by_ arg s
  | .saQuery by_ arg => Sys2Proof.Machine.execSaQuery by_ arg s
  | .laQueueCreate by_ arg => Sys2Proof.Machine.execLaQueueCreate by_ arg s
  | .laQueueDelete by_ arg => Sys2Proof.Machine.execLaQueueDelete by_ arg s
  | .laDoorbell r q => Sys2Proof.Machine.execLaDoorbell r q s
  | .laJobComplete r q => Sys2Proof.Machine.execLaJobComplete r q s
  | .maskStarveTimeout r => Sys2Proof.Machine.execMaskStarveTimeout r s
  | .trngHealthFail => Sys2Proof.Machine.execTrngHealthFail s
  | .trngRetest pass => Sys2Proof.Machine.execTrngRetest pass s
  | .drbgReseed => Sys2Proof.Machine.execDrbgReseed s
  | .createQp by_ arg => Sys2Proof.Machine.execCreateQp by_ arg s
  | .modifyQp by_ arg => Sys2Proof.Machine.execModifyQp by_ arg s
  | .destroyQp by_ arg => Sys2Proof.Machine.execDestroyQp by_ arg s
  | .destroyQpDone qpn => Sys2Proof.Machine.execDestroyQpDone qpn s
  | .queryQp by_ arg => Sys2Proof.Machine.execQueryQp by_ arg s
  | .createSrq by_ arg => Sys2Proof.Machine.execCreateSrq by_ arg s
  | .destroySrq by_ arg => Sys2Proof.Machine.execDestroySrq by_ arg s
  | .armSrq by_ arg => Sys2Proof.Machine.execArmSrq by_ arg s
  | .createAh by_ arg => Sys2Proof.Machine.execCreateAh by_ arg s
  | .destroyAh by_ arg => Sys2Proof.Machine.execDestroyAh by_ arg s
  | .setGid by_ arg => Sys2Proof.Machine.execSetGid by_ arg s
  | .regMr by_ arg => Sys2Proof.Machine.execRegMr by_ arg s
  | .revokeMr by_ arg => Sys2Proof.Machine.execRevokeMr by_ arg s
  | .revokeMrDone key => Sys2Proof.Machine.execRevokeMrDone key s
  | .queryMr by_ arg => Sys2Proof.Machine.execQueryMr by_ arg s
  | .rdmaSend ring counter => Sys2Proof.Machine.execRdmaSend ring counter s
  | .rdmaSendImm ring counter => Sys2Proof.Machine.execRdmaSendImm ring counter s
  | .rdmaWrite ring counter => Sys2Proof.Machine.execRdmaWrite ring counter s
  | .rdmaWriteImm ring counter => Sys2Proof.Machine.execRdmaWriteImm ring counter s
  | .rdmaRead ring counter => Sys2Proof.Machine.execRdmaRead ring counter s
  | .rdmaRecv ring counter => Sys2Proof.Machine.execRdmaRecv ring counter s
  | .rdmaWait ring counter => Sys2Proof.Machine.execRdmaWait ring counter s
  | .waitSatisfied qpn => Sys2Proof.Machine.execWaitSatisfied qpn s
  | .requestPacketSend qpn mem => Sys2Proof.Machine.execRequestPacketSend qpn mem s
  | .rocePacketReceived r mem => Sys2Proof.Machine.execRocePacketReceived r mem s
  | .contextFetchDone qpn => Sys2Proof.Machine.execContextFetchDone qpn s
  | .ackReceived r => Sys2Proof.Machine.execAckReceived r s
  | .nakReceived r => Sys2Proof.Machine.execNakReceived r s
  | .readResponseReceived r mem => Sys2Proof.Machine.execReadResponseReceived r mem s
  | .cnpReceived r => Sys2Proof.Machine.execCnpReceived r s
  | .ackSendTimer qpn lane => Sys2Proof.Machine.execAckSendTimer qpn lane s
  | .ackTimeout qpn lane => Sys2Proof.Machine.execAckTimeout qpn lane s
  | .laneReadmit qpn lane => Sys2Proof.Machine.execLaneReadmit qpn lane s
  | .rnrTimerExpiry qpn => Sys2Proof.Machine.execRnrTimerExpiry qpn s
  | .rateRecoveryPeriod qpn lane => Sys2Proof.Machine.execRateRecoveryPeriod qpn lane s
  | .ccEnSet c v => Sys2Proof.Machine.execCcEnSet c v s
  | .controllerReady c => Sys2Proof.Machine.execControllerReady c s
  | .ccEnClear c v => Sys2Proof.Machine.execCcEnClear c v s
  | .ccShn c v => Sys2Proof.Machine.execCcShn c v s
  | .shutdownComplete c => Sys2Proof.Machine.execShutdownComplete c s
  | .sqTailDoorbell c q v => Sys2Proof.Machine.execSqTailDoorbell c q v s
  | .cqHeadDoorbell c q v => Sys2Proof.Machine.execCqHeadDoorbell c q v s
  | .fetchPick entries => Sys2Proof.Machine.execFetchPick entries s
  | .nvmeCommandComplete c sq cid fault => Sys2Proof.Machine.execNvmeCommandComplete c sq cid fault s
  | .queueMemoryFault c isCq q => Sys2Proof.Machine.execQueueMemoryFault c isCq q s
  | .createIoSq c cid => Sys2Proof.Machine.execCreateIoSq c cid s
  | .createIoCq c cid => Sys2Proof.Machine.execCreateIoCq c cid s
  | .deleteIoSq c cid => Sys2Proof.Machine.execDeleteIoSq c cid s
  | .deleteIoCq c cid => Sys2Proof.Machine.execDeleteIoCq c cid s
  | .getLogPage c cid lists => Sys2Proof.Machine.execGetLogPage c cid lists s
  | .identify c cid lists => Sys2Proof.Machine.execIdentify c cid lists s
  | .nvmAbort c cid => Sys2Proof.Machine.execNvmAbort c cid s
  | .setFeatures c cid mem => Sys2Proof.Machine.execSetFeatures c cid mem s
  | .getFeatures c cid lists => Sys2Proof.Machine.execGetFeatures c cid lists s
  | .asyncEventRequest c cid => Sys2Proof.Machine.execAsyncEventRequest c cid s
  | .nvmFlush c sq cid th => Sys2Proof.Machine.execNvmFlush c sq cid th s
  | .nvmWrite c sq cid th lists => Sys2Proof.Machine.execNvmWrite c sq cid th lists s
  | .nvmRead c sq cid th lists media => Sys2Proof.Machine.execNvmRead c sq cid th lists media s
  | .nvmWriteZeroes c sq cid th => Sys2Proof.Machine.execNvmWriteZeroes c sq cid th s
  | .datasetManagement c sq cid th ranges => Sys2Proof.Machine.execDatasetManagement c sq cid th ranges s
  | .zoneSend c sq cid th => Sys2Proof.Machine.execZoneSend c sq cid th s
  | .zoneReceive c sq cid th lists => Sys2Proof.Machine.execZoneReceive c sq cid th lists s
  | .zoneAppend c sq cid th lists => Sys2Proof.Machine.execZoneAppend c sq cid th lists s
  | .nsAttach by_ arg => Sys2Proof.Machine.execNsAttach by_ arg s
  | .nsDetach by_ arg => Sys2Proof.Machine.execNsDetach by_ arg s
  | .nsAttachQuery by_ arg => Sys2Proof.Machine.execNsAttachQuery by_ arg s
  | .beDefine by_ arg ident => Sys2Proof.Machine.execBeDefine by_ arg ident s
  | .beRemove by_ arg => Sys2Proof.Machine.execBeRemove by_ arg s
  | .beQuery by_ arg => Sys2Proof.Machine.execBeQuery by_ arg s
  | .nsCreate by_ arg => Sys2Proof.Machine.execNsCreate by_ arg s
  | .nsDelete by_ arg => Sys2Proof.Machine.execNsDelete by_ arg s
  | .nsQuery by_ arg => Sys2Proof.Machine.execNsQuery by_ arg s
  | .nsRecover by_ arg => Sys2Proof.Machine.execNsRecover by_ arg s
  | .atomicPiece c sq cid mem => Sys2Proof.Machine.execAtomicPiece c sq cid mem s
  | .logWriteComplete log seq ok => Sys2Proof.Machine.execLogWriteComplete log seq ok s
  | .homeWriteComplete log seq ok => Sys2Proof.Machine.execHomeWriteComplete log seq ok s
  | .checkpointWrite log => Sys2Proof.Machine.execCheckpointWrite log s
  | .logReplay log cps slots => Sys2Proof.Machine.execLogReplay log cps slots s
  | .backendLost be_ => Sys2Proof.Machine.execBackendLost be_ s
  | .backendReturn be_ => Sys2Proof.Machine.execBackendReturn be_ s
  | .resyncComplete ns => Sys2Proof.Machine.execResyncComplete ns s
  | .beWaitLimit ns => Sys2Proof.Machine.execBeWaitLimit ns s
  | .zoneSeal ns zone => Sys2Proof.Machine.execZoneSeal ns zone s
  | .sealVerifyStart by_ arg => Sys2Proof.Machine.execSealVerifyStart by_ arg s
  | .sealVerifyResume by_ arg => Sys2Proof.Machine.execSealVerifyResume by_ arg s
  | .sealVerifyAbort by_ arg => Sys2Proof.Machine.execSealVerifyAbort by_ arg s
  | .sealVerifyEnd => Sys2Proof.Machine.execSealVerifyEnd s
  | .sealExport by_ arg chain => Sys2Proof.Machine.execSealExport by_ arg chain s
  | .slotPresence k present => Sys2Proof.Machine.execSlotPresence k present s
  | .slotPowerFault k low => Sys2Proof.Machine.execSlotPowerFault k low s
  | .slotAttention k => Sys2Proof.Machine.execSlotAttention k s
  | .attentionWindow k => Sys2Proof.Machine.execAttentionWindow k s
  | .slotPowerOn k by_ => Sys2Proof.Machine.execSlotPowerOn k by_ s
  | .slotSettle k => Sys2Proof.Machine.execSlotSettle k s
  | .dlActive k rate width ident => Sys2Proof.Machine.execDlActive k rate width ident s
  | .slotTrainingTimeout k => Sys2Proof.Machine.execSlotTrainingTimeout k s
  | .slotPowerOff k by_ => Sys2Proof.Machine.execSlotPowerOff k by_ s
  | .slotPwrenOff k => Sys2Proof.Machine.execSlotPwrenOff k s
  | .slotOffWait k => Sys2Proof.Machine.execSlotOffWait k s
  | .slotAtnOff k by_ => Sys2Proof.Machine.execSlotAtnOff k by_ s
  | .slotAtnOn k by_ => Sys2Proof.Machine.execSlotAtnOn k by_ s
  | .slotAtnBlink k by_ => Sys2Proof.Machine.execSlotAtnBlink k by_ s
  | .slotControl k v clear => Sys2Proof.Machine.execSlotControl k v clear s
  | .driveLinkDown k ltssm => Sys2Proof.Machine.execDriveLinkDown k ltssm s
  | .driveError k kind => Sys2Proof.Machine.execDriveError k kind s
  | .driveTimeout k tag => Sys2Proof.Machine.execDriveTimeout k tag s
  | .dpcClear k => Sys2Proof.Machine.execDpcClear k s
  | .rvInstruction t env => Sys2Proof.Machine.execRvInstruction t env s
  | .hostWindowReadReturn t r => Sys2Proof.Machine.execHostWindowReadReturn t r s
  | .machineTimerInterrupt t => Sys2Proof.Machine.execMachineTimerInterrupt t s
  | .kwcmoClean t addr => Sys2Proof.Machine.execKwcmoClean t addr s
  | .kwcmoInvalidate t addr => Sys2Proof.Machine.execKwcmoInvalidate t addr s
  | .kwcmoCleanInvalidate t addr => Sys2Proof.Machine.execKwcmoCleanInvalidate t addr s
  | .kwicfill t v => Sys2Proof.Machine.execKwicfill t v s
  | .cellStart c v => Sys2Proof.Machine.execCellStart c v s
  | .cellWdogKick c => Sys2Proof.Machine.execCellWdogKick c s
  | .cellWatchdogExpiry c => Sys2Proof.Machine.execCellWatchdogExpiry c s
  | .bwAckNoAction b seq => Sys2Proof.Machine.execBwAckNoAction b seq s
  | .bwAckResetRequest b seq => Sys2Proof.Machine.execBwAckResetRequest b seq s
  | .bwConsumerWrite b v => Sys2Proof.Machine.execBwConsumerWrite b v s
  | .cellReset by_ arg => Sys2Proof.Machine.execCellReset by_ arg s
  | .pktGet t rd rs1 => Sys2Proof.Machine.execPktGet t rd rs1 s
  | .pktTryget t rd rs1 => Sys2Proof.Machine.execPktTryget t rd rs1 s
  | .pktPut t rd rs1 rs2 => Sys2Proof.Machine.execPktPut t rd rs1 rs2 s
  | .lkAcq t rd rs1 => Sys2Proof.Machine.execLkAcq t rd rs1 s
  | .lkTry t rd rs1 => Sys2Proof.Machine.execLkTry t rd rs1 s
  | .lkRel t rd rs1 => Sys2Proof.Machine.execLkRel t rd rs1 s
  | .evWait t rd rs1 rs2 => Sys2Proof.Machine.execEvWait t rd rs1 rs2 s
  | .evSig t rd rs1 => Sys2Proof.Machine.execEvSig t rd rs1 s
  | .evAdd t rd rs1 rs2 => Sys2Proof.Machine.execEvAdd t rd rs1 rs2 s
  | .evAddRegister b k v => Sys2Proof.Machine.execEvAddRegister b k v s
  | .chRes t rd rs1 => Sys2Proof.Machine.execChRes t rd rs1 s
  | .chPub t rd rs1 => Sys2Proof.Machine.execChPub t rd rs1 s
  | .chRead t rd rs1 rs2 => Sys2Proof.Machine.execChRead t rd rs1 rs2 s
  | .channelOpen b n v => Sys2Proof.Machine.execChannelOpen b n v s
  | .channelClose b n v => Sys2Proof.Machine.execChannelClose b n v s
  | .leChAbort b n debug => Sys2Proof.Machine.execLeChAbort b n debug s
  | .waitWatchdogExpiry t => Sys2Proof.Machine.execWaitWatchdogExpiry t s
  | .blockStall b => Sys2Proof.Machine.execBlockStall b s
  | .dmaChannelEnable r c v => Sys2Proof.Machine.execDmaChannelEnable r c v s
  | .dmaChannelDisable r c v => Sys2Proof.Machine.execDmaChannelDisable r c v s
  | .dmaChKick r c => Sys2Proof.Machine.execDmaChKick r c s
  | .dmaDescriptorRead r c => Sys2Proof.Machine.execDmaDescriptorRead r c s
  | .dmaCopy r c src => Sys2Proof.Machine.execDmaCopy r c src s
  | .dmaFill r c => Sys2Proof.Machine.execDmaFill r c s
  | .dmaCompare r c src dst => Sys2Proof.Machine.execDmaCompare r c src dst s
  | .dmaBurstStart r line => Sys2Proof.Machine.execDmaBurstStart r line s
  | .dmaDescriptorComplete r c => Sys2Proof.Machine.execDmaDescriptorComplete r c s
  | .dmaBusError r addr space write fn code => Sys2Proof.Machine.execDmaBusError r addr space write fn code s
  | .dmaDrained r => Sys2Proof.Machine.execDmaDrained r s
  | .dmaBusErrorClear r => Sys2Proof.Machine.execDmaBusErrorClear r s
  | .dmaStop r c => Sys2Proof.Machine.execDmaStop r c s
  | .dmaResume r c => Sys2Proof.Machine.execDmaResume r c s
  | .dmaRestart r c => Sys2Proof.Machine.execDmaRestart r c s
  | .dmaSkip r c => Sys2Proof.Machine.execDmaSkip r c s
  | .dmaReqSw r lines => Sys2Proof.Machine.execDmaReqSw r lines s
  | .dmaReqClear r line => Sys2Proof.Machine.execDmaReqClear r line s
  | .dmaTimerPulse r k => Sys2Proof.Machine.execDmaTimerPulse r k s
  | .memoryRead line errs => Sys2Proof.Machine.execMemoryRead line errs s
  | .memoryWrite line off data poison => Sys2Proof.Machine.execMemoryWrite line off data poison s
  | .memDeviceMark by_ arg => Sys2Proof.Machine.execMemDeviceMark by_ arg s
  | .memDeviceClear by_ arg => Sys2Proof.Machine.execMemDeviceClear by_ arg s
  | .memTranslate by_ addr => Sys2Proof.Machine.execMemTranslate by_ addr s
  | .scrubStart by_ arg => Sys2Proof.Machine.execScrubStart by_ arg s
  | .scrubResume by_ arg => Sys2Proof.Machine.execScrubResume by_ arg s
  | .scrubAbort by_ arg => Sys2Proof.Machine.execScrubAbort by_ arg s
  | .scrubLine errs => Sys2Proof.Machine.execScrubLine errs s
  | .eccTestRawWrite by_ arg => Sys2Proof.Machine.execEccTestRawWrite by_ arg s
  | .eccTestDataWrite by_ arg => Sys2Proof.Machine.execEccTestDataWrite by_ arg s
  | .eccTestCheckWrite by_ arg => Sys2Proof.Machine.execEccTestCheckWrite by_ arg s
  | .eccTestRead by_ arg => Sys2Proof.Machine.execEccTestRead by_ arg s
  | .sramPatrolRead store unit addr outcome => Sys2Proof.Machine.execSramPatrolRead store unit addr outcome s
  | .sramCorrectedWriteback => Sys2Proof.Machine.execSramCorrectedWriteback s
  | .monitorSample kind n v => Sys2Proof.Machine.execMonitorSample kind n v s
  | .sensorFailed n => Sys2Proof.Machine.execSensorFailed n s
  | .shepherdCycle occ u => Sys2Proof.Machine.execShepherdCycle occ u s
  | .emergencyReturn r => Sys2Proof.Machine.execEmergencyReturn r s
  | .railSettled r => Sys2Proof.Machine.execRailSettled r s
  | .railSettleTimeout r => Sys2Proof.Machine.execRailSettleTimeout r s
  | .vrWrite acked => Sys2Proof.Machine.execVrWrite acked s
  | .thermtrip => Sys2Proof.Machine.execThermtrip s
  | .thermtripRelease flash => Sys2Proof.Machine.execThermtripRelease flash s
  | .ageingUpdate => Sys2Proof.Machine.execAgeingUpdate s
  | .monProcMeasure by_ arg vals => Sys2Proof.Machine.execMonProcMeasure by_ arg vals s
  | .shepherdSilent => Sys2Proof.Machine.execShepherdSilent s
  | .monTrust by_ arg => Sys2Proof.Machine.execMonTrust by_ arg s
  | .heartbeatSend => Sys2Proof.Machine.execHeartbeatSend s
  | .heartbeatReceived => Sys2Proof.Machine.execHeartbeatReceived s
  | .conflictClear id => Sys2Proof.Machine.execConflictClear id s
  | .membershipObject env => Sys2Proof.Machine.execMembershipObject env s
  | .peerSuspect id => Sys2Proof.Machine.execPeerSuspect id s
  | .peerUnreachable id => Sys2Proof.Machine.execPeerUnreachable id s
  | .rosterCommit by_ arg => Sys2Proof.Machine.execRosterCommit by_ arg s
  | .rosterGraceExpiry => Sys2Proof.Machine.execRosterGraceExpiry s
  | .domainStartHold => Sys2Proof.Machine.execDomainStartHold s
  | .healHold => Sys2Proof.Machine.execHealHold s
  | .domPeerQuery by_ id => Sys2Proof.Machine.execDomPeerQuery by_ id s
  | .journalEventTimer => Sys2Proof.Machine.execJournalEventTimer s
  | .journalClear by_ arg => Sys2Proof.Machine.execJournalClear by_ arg s
  | .tapReset => Sys2Proof.Machine.execTapReset s
  | .extest tdi => Sys2Proof.Machine.execExtest tdi s
  | .tapIdcode => Sys2Proof.Machine.execTapIdcode s
  | .samplePreload tdi => Sys2Proof.Machine.execSamplePreload tdi s
  | .tapHighz => Sys2Proof.Machine.execTapHighz s
  | .tapClamp => Sys2Proof.Machine.execTapClamp s
  | .extestPulse tdi => Sys2Proof.Machine.execExtestPulse tdi s
  | .extestTrain tdi => Sys2Proof.Machine.execExtestTrain tdi s
  | .dbgStatus => Sys2Proof.Machine.execDbgStatus s
  | .tapBypass opcode => Sys2Proof.Machine.execTapBypass opcode s
  | .extestExit opcode => Sys2Proof.Machine.execExtestExit opcode s
  | .dbgUnlock by_ arg => Sys2Proof.Machine.execDbgUnlock by_ arg s
  | .dbgUnlockExpiry => Sys2Proof.Machine.execDbgUnlockExpiry s
  | .dbgHalt p arg => Sys2Proof.Machine.execDbgHalt p arg s
  | .dbgResume p arg => Sys2Proof.Machine.execDbgResume p arg s
  | .dbgStep p arg env => Sys2Proof.Machine.execDbgStep p arg env s
  | .dbgReadReg p arg => Sys2Proof.Machine.execDbgReadReg p arg s
  | .dbgWriteReg p arg => Sys2Proof.Machine.execDbgWriteReg p arg s
  | .dbgReadMem p arg host => Sys2Proof.Machine.execDbgReadMem p arg host s
  | .dbgWriteMem p arg env => Sys2Proof.Machine.execDbgWriteMem p arg env s
  | .dbgChAbort p arg => Sys2Proof.Machine.execDbgChAbort p arg s
  | .traceStart p arg => Sys2Proof.Machine.execTraceStart p arg s
  | .traceStop p arg => Sys2Proof.Machine.execTraceStop p arg s
  | .traceRead p arg => Sys2Proof.Machine.execTraceRead p arg s
  | .serdesTestStart by_ arg => Sys2Proof.Machine.execSerdesTestStart by_ arg s
  | .serdesTestStop by_ arg => Sys2Proof.Machine.execSerdesTestStop by_ arg s
  | .serdesTestClear by_ arg => Sys2Proof.Machine.execSerdesTestClear by_ arg s
  | .pcie0RefclkRestored => Sys2Proof.Machine.execPcie0RefclkRestored s
  | .pcie1RefclkRestored => Sys2Proof.Machine.execPcie1RefclkRestored s
  | .drvRefclkRestored => Sys2Proof.Machine.execDrvRefclkRestored s
  | .downstreamTlp k t => Sys2Proof.Machine.execDownstreamTlp k t s
  | .configurationWrite fn w => Sys2Proof.Machine.execConfigurationWrite fn w s
  | .pageRequestResponse fn index page granted => Sys2Proof.Machine.execPageRequestResponse fn index page granted s
  | .endpointReassign b old => Sys2Proof.Machine.execEndpointReassign b old s
  | .onChangeExpiry id => Sys2Proof.Machine.execOnChangeExpiry id s
  | .proofCompare shadow => Sys2Proof.Machine.execProofCompare shadow s
  | .sealVerifyRead x => Sys2Proof.Machine.execSealVerifyRead x s
  | .checkerLock lane => Sys2Proof.Machine.execCheckerLock lane s
  | .checkerLockLoss lane compared errors => Sys2Proof.Machine.execCheckerLockLoss lane compared errors s

end Sys2Proof.Machine
end

