-- ==== Sys2Proof/Safety.lean ====
section
/-!
DEFINITION. What every state of a run keeps: byte memories in canonical form, a stage the start sequence has, and a clock
that never turns back.
-/
namespace Sys2Proof.Machine

/-- The byte memories of the Kwaith are in canonical form: the SRAMs (R432), the flash (R67), the steward core's memory. -/
def State.memoriesWf (s : State) : Bool :=
  Memory.wf 0 s.mem.sram && Memory.wf 0xFF s.boot.flash && Memory.wf 0 s.boot.steward

/-- R56: the start has stages 0 to 3. -/
def State.legalStage (s : State) : Bool := decide (s.start.stage ≤ 3)

/-- A command runs from `s`, and `P` holds of the state it leaves. -/
def Runs (c : Instr) (s : State) (P : State → Prop) : Prop := ∃ t, exec c s = .next t ∧ P t

/-- The number at an element of the dictionary, 0 where none is held; element 0 is a scalar. -/
def State.num (s : State) (obj sub : Nat) : Nat := dget s.io (idx obj sub) 0

/-- The bytes at an element of the dictionary. -/
def State.blob (s : State) (obj sub : Nat) : Bytes := dgetB s.io (idx obj sub)

/-- What the Kwaith sent last. -/
def State.last (s : State) : Option Sent := s.io.sent.head?

/-- Rights, stage and session let an issuer write a command object (R13, R62, R110). -/
def State.allows (s : State) (by_ : Issuer) (obj : Nat) : Prop := gate s.start.stage by_ obj s.io = none

/-- R87: the loader runs, and the sequence number is not the one it has just answered. -/
def loaderFresh (s : State) (q : Half) : Prop :=
  s.boot.loader.active = true ∧ s.boot.loader.last.all (fun l => l.1 != q.toNat) = true

/-- R96 to R99, R105, R117: a frame that arrives over I3C, outside a session, on an association that has settled on version 2,
and passes every check of its header; its transaction is none, or an open one of the association. Nothing waits for delivery. -/
def frameOk (k : AssocKey) (h : OaHdr) (b : OaBody) (s : State) : Bool :=
  !s.clk.holdAll && k.binding == .mctpI3c && k.session.isNone && s.io.oa.due.isEmpty &&
  s.io.oa.fabricOut.isEmpty && s.io.evAdds.isEmpty &&
  (match assocOf s.io k with
    | some a => a.version == 2 && a.recent.all (fun r => r.1.hdr.tag != h.tag)
    | none => false) &&
  !flagged h && h.version == 2 && lengthFault h b == 0 && decide (16 + h.len ≤ limitOf s k) && decide (h.count ≤ 64) &&
  txnStatus (assocGet s.io k) h.txn s.io == 0

/-- An answer of the server has left on an association, with an opcode and a status. -/
def answered (t : State) (k : AssocKey) (op status : Nat) : Prop :=
  ∃ r, Sent.oaAnswer (assocId k) r ∈ t.io.sent ∧ r.op = op ∧ r.status = status

/-- R111, R118: SPDM requests of an association reach the responder. -/
def spdmKey (a : AssocKey) : AssocKey := { a with session := none }
def spdmReady (a : AssocKey) (s : State) : Bool := spdmBinding a.binding && (admitFrame (spdmKey a) true s).1

/-- An SPDM response has left last. -/
def spdmSaid (t : State) (k : AssocKey) (code : Nat) : Prop := ∃ p b, t.last = some (.spdm k code p b)

/-- A command object's write has been answered with a status and a result. -/
def toldWith (t : State) (by_ : Issuer) (obj status : Nat) (r : Bytes) : Prop := Sent.cmdAnswer by_ (idx obj 0) status r ∈ t.io.sent
def told (t : State) (by_ : Issuer) (obj status : Nat) : Prop := ∃ r, toldWith t by_ obj status r

/-- R175: an operation of 05:0100 that passes every check before its own, on VF `n`. -/
def migReady (by_ : Issuer) (arg : Bytes) (op n : Nat) (s : State) : Bool :=
  (cmdGate s.start.stage by_ 0x050100 arg 32 op s.io).isNone && migMayName by_ (field arg 1 1) && migVf s.io arg == some n &&
  migArgOk arg op && (vfAt s.io n).op.isNone && migAccepts (vfAt s.io n).state op

/-- An operation of 05:0100 that runs on VF `n`. -/
def migRuns (op n : Nat) (o : MigOp) (s : State) : Bool := (vfAt s.io n).op == some o && o.op == op && !o.waits

/-- The ring under an ID exists and satisfies `p`. -/
def ringIs (t : State) (id : Nat) (p : Ring → Bool) : Prop := (ringOf t.io id).any p = true

/-- R339, R342: a command of 0B:0100 with operation `op`, from an issuer that may act for the owner `o`. -/
def rdmaReady (by_ : Issuer) (arg : Bytes) (op o : Nat) (s : State) : Bool :=
  (cmdGate s.start.stage by_ 0x0B0100 arg 128 op s.io).isNone && rdmaOwner s by_ (field arg 2 2) == some o

/-- R353: no completion ring of a QP is in ERROR. -/
def cqsGood (s : State) (q : Qp) : Bool :=
  [q.sendCq, q.recvCq].all (fun k => match ringOf s.io k with | some r => r.state != .error | none => true)

/-- The rows of the work requests a send queue takes (R348), by opcode. -/
def sendRows : List (Nat × (Nat → Word32 → Instr)) :=
  [(0x10, .rdmaSend), (0x11, .rdmaSendImm), (0x12, .rdmaWrite), (0x13, .rdmaWriteImm), (0x14, .rdmaRead), (0x1C, .rdmaWait)]

/-- R338: the oldest packet of engine `r` is `x`, of the kind a row takes, and reaches the resident QP `q`. -/
def rdmaGets (r kind : Nat) (x : Rx) (q : Qp) (s : State) : Bool :=
  (rdmaHead s r).any (fun k => rxOf k.frame == x) && qpOf s x.qpn == some q && cqsGood s q && (rxDrop s r x).isNone &&
  isResident s x.qpn && rxKind q x == kind

/-- R360: a plain RC connection that has received nothing of the message it expects. -/
def plainReady (q : Qp) : Bool :=
  q.service == 1 && !q.lp && q.srq.isNone && q.bound.isEmpty && q.ready.isEmpty && q.asm.isEmpty && q.rxDone.isEmpty &&
  q.rxOff == 0 && q.rxBind == q.rxRsn && q.rxSeq == q.rxRsn && decide (q.rxRsn < 65536) && decide (q.rxMsg < 2 ^ 24)

/-- R373, R389: the completion queue of an SQ takes a completion at once. -/
def cqTakes (s : State) (c sq : Nat) : Bool :=
  match mget (ctlAt s c).sqs sq with
  | some y => y.leaving.isNone &&
    (mget (ctlAt s c).cqs y.cq).any (fun q => !q.error && q.overflow.isEmpty && q.spill.isEmpty && decide (0 < nvFree q))
  | none => false

/-- R378: an admin command with an opcode has been fetched and waits to be carried out, and its completion can be posted. -/
def adminWaits (c cid op : Nat) (m : NvCmd) (s : State) : Bool :=
  cmdAt s c 0 cid == some m && field m.entry 0 1 == op && m.ended.isNone && !m.discard && m.result == 0 &&
  !(ctlAt s c).aers.contains cid && cqTakes s c 0

/-- R384: a command has ended, is in flight no more, and is counted as a success. -/
def nvDone (s t : State) (c sq cid : Nat) : Prop :=
  cmdAt t c sq cid = none ∧ (ctlAt t c).completed = (ctlAt s c).completed + 1 ∧ t.num 0x0C0010 1 = satAdd 64 (s.num 0x0C0010 1) 1

/-- R379: an I/O command with an opcode has been fetched for the namespace `x` and not yet handed to firmware. -/
def ioWaits (c sq cid op : Nat) (m : NvCmd) (x : Ns) (s : State) : Bool :=
  cmdAt s c sq cid == some m && sq != 0 && m.thread.isNone && field m.entry 0 1 == op && nsAt s (entryNs m.entry) == some x

/-- R383: a command in the hands of a thread has come to a status. -/
def cameTo (t : State) (c sq cid th st : Nat) : Prop :=
  ∃ m, cmdAt t c sq cid = some m ∧ m.thread = some th ∧ m.ended = some (st, dnrOf st)

/-- R388: a command in the hands of a thread has its pieces ready for the back-end unit. -/
def hasPieces (t : State) (c sq cid th : Nat) (l : List (Nat × Nat × Nat)) : Prop :=
  ∃ m, cmdAt t c sq cid = some m ∧ m.thread = some th ∧ m.pieces = l

/-- R385: a command of 0C:0020 with operation `op`, from an issuer that may act on controller `c`, for the namespace `x`. -/
def attachReady (by_ : Issuer) (arg : Bytes) (op : Nat) (x : Ns) (s : State) : Bool :=
  (cmdGate s.start.stage by_ 0x0C0020 arg 16 op s.io).isNone && field arg 1 1 == 0 && allZero (slice arg 8 8) &&
  decide (field arg 2 2 < 1028) && ctlExists s (field arg 2 2) && attachMay s.io by_ (field arg 2 2) && nsAt s (field arg 4 4) == some x

/-- R431, R433: a running thread has its slot and takes no interrupt in it. No event addition is on its way. -/
def issues (t : Nat) (s : State) : Bool :=
  s.io.evAdds.isEmpty && slotRuns s t && (intPending s t).isNone && (threadAt s t).st == 1 && (threadAt s t).wait.isNone

/-- R443, R444: the same for an Xkwaith instruction, which the thread may issue. -/
def xkIssues (t : Nat) (s : State) : Bool := issues t s && ((threadAt s t).m || (threadAt s t).kwxen)

/-- An instruction of `len` bytes has completed with a value for x`rd`. -/
def doneWith (s u : State) (t len rd : Nat) (v : Word64) : Prop :=
  (threadAt u t).pc = (threadAt s t).pc + BitVec.ofNat 64 len ∧ (threadAt u t).minstret = (threadAt s t).minstret + 1 ∧
  (rd ≠ 0 → xreg (threadAt u t) rd = v)

/-- R437, R429: a halfword of code that the thread may fetch and its instruction cache holds. -/
def cachedHalf (s : State) (t a : Nat) : Option Nat :=
  let x := threadAt s t
  if pmpOk x x.m a 2 4 && decide (a < 2 ^ 48) then (iFind (cellAt s (t / 8)) (canonAddr t a / 64)).map (fun d => field d (a % 64) 2) else none

/-- The next instruction of a thread, its word and its length, where its instruction cache holds it. -/
def nextCode (s : State) (t : Nat) : Option (Nat × Nat) :=
  let pc := (threadAt s t).pc.toNat
  match cachedHalf s t pc with
  | none => none
  | some h =>
    if h % 4 ≠ 3 then (rvc h).map (fun i => (i, 2))
    else (cachedHalf s t (pc + 2)).map (fun g => (g * 65536 + h, 4))

/-- A thread about to issue an instruction that acts as `a`; no mailbox request waits. -/
def doesNext (t len : Nat) (a : RvAct) (s : State) : Bool :=
  issues t s && s.io.oa.due.isEmpty &&
  (nextCode s t).any (fun n => n.2 == len && decide (rvAct (xreg (threadAt s t)) (threadAt s t).pc n.1 = a))

/-- R447: a thread has taken a trap from M mode or U mode. -/
def trapped (s u : State) (t : Nat) (int : Bool) (code : Nat) : Prop :=
  (threadAt u t).mepc = (threadAt s t).pc &&& ~~~1 ∧ (threadAt u t).mcause = causeWord int code ∧ (threadAt u t).m = true ∧
  (threadAt u t).trapping = true ∧ (threadAt u t).mstatus = mstatusTrap (threadAt s t).mstatus (threadAt s t).m ∧
  (threadAt u t).pc = trapTarget (threadAt s t).mtvec int code

/-- R432: an M-mode thread about to issue a cache maintenance operation on line `m` of attached memory, which it may write. -/
def maintains (t addr m : Nat) (s : State) : Bool :=
  let x := threadAt s t
  issues t s && x.m && spotOf s t (addr % 2 ^ 48 / 64 * 64) == .attached true m && pmpOk x (dataMode x) (addr % 2 ^ 48 / 64 * 64) 64 2

/-- R481, R488: channel `c` carries out descriptor `d` of operation `op`, and may move just its element `n`, the next. -/
def dmaAllows (r c op n : Nat) (d : Bytes) (s : State) : Bool :=
  let x := dmaCh s r c
  x.state == .running && x.desc == some d && x.ending.isNone && dOp d == op && x.progress == n && x.allowed == n + 1 && decide (n < dElems d)

/-- R512: a command of the check-bit test mode that passes its checks. -/
def eccReady (by_ : Issuer) (arg : Bytes) (op : Nat) (s : State) : Bool := (eccGate s.start.stage by_ arg op { io := s.io, mem := s.mem }).isNone

/-- The steward core has taken a membership frame. -/
def afterFrame (k : Pkt) (s : State) : State := { s with net := { s.net with stewardRx := s.net.stewardRx.erase k } }

/-- R541, R542, R545: the oldest membership frame but OBJECT frames is a heartbeat that passes every check and whose sender has
no rival. -/
def heartbeatGood (k : Pkt) (s : State) : Bool :=
  let b := k.frame.drop 14
  let x := domPeer s.dom (field b 2 2)
  s.net.stewardRx.find? (fun k => field (k.frame.drop 14) 1 1 != 2) == some k && s.start.stage == 3 && belongs s &&
  (memberCheck k b (afterFrame k s)).isNone && field b 0x20 4 == field (dgetB s.io (idx 0x110012 0)) 4 4 && x.rivals.isEmpty &&
  x.serial.all (· == field b 0x14 8)

/-- R540, R541: the oldest OBJECT frame passes every check, comes from a member and is for this device. -/
def objectGood (k : Pkt) (s : State) : Bool :=
  let b := k.frame.drop 14
  s.net.stewardRx.find? (fun k => field (k.frame.drop 14) 1 1 == 2) == some k && s.start.stage == 3 && belongs s &&
  (memberCheck k b (afterFrame k s)).isNone && isMember s.dom (field b 2 2) && field b 0xC 2 == s.dom.id

/-- R578, R579: a valid debug command with op `op`, on an unlocked path, for a thread of a cell that is on. -/
def dbgReady (p : DbgPath) (a : Bytes) (op : Nat) (s : State) : Bool :=
  dbgOp a == op && dbgValid a && !cellOff s (dbgThread a / 8) &&
  match p with
  | .jtag => s.start.pwrok && !s.dbg.testmode && !s.clk.holdAll && !extestClass s.dbg.ir && s.dbg.mask.testBit 0
  | .dict by_ clash => (gate s.start.stage by_ 0x130100 s.io).isNone && a.length == 64 && s.dbg.mask.testBit 1 && !clash

/-- R578: a debug command has ended so, and its 64-byte result has left on its path. -/
def dbgSaid (t : State) (p : DbgPath) (a : Bytes) (e : DbgEnd) : Prop :=
  match p with
  | .jtag => t.dbg.last = e.status ∧ t.last = some (.dbgResult 0 e.status (dbgBytes (dbgThread a) e t))
  | .dict by_ _ => toldWith t by_ 0x130100 (if e.status = 0 then 0 else 0x11) (dbgBytes (dbgThread a) e t)

/-- The address of a debug command is SRAM that its thread reaches. -/
def reachesSram (a : Bytes) (x : Nat) (s : State) : Bool :=
  spotOf s (dbgThread a) (dbgAddr a) == .sram x && spotReached s (dbgThread a) (.sram x) && !spotIsolated s (.sram x)

/-- R585: a command of 13:0200 with op `op` for a lane that exists. -/
def serdesReady (i : Issuer) (a : Bytes) (op : Nat) (s : State) : Bool :=
  (gate s.start.stage i 0x130200 s.io).isNone && a.length == 8 && field a 0 1 == op && (laneKind (field a 1 1)).isSome

/-- Every byte of SRAM but `n` from `x` reads as before. -/
def keepsOutside (x n : Nat) (s u : State) : Prop := ∀ a, a < x ∨ x + n ≤ a → memGet 0 u.mem.sram a = memGet 0 s.mem.sram a

/-! ### Frames -/

/-- The parts of the state. -/
inductive Part where
  | time | free | sent | dic | params | regs | oa | rings | host | vf | journal | evAdds | nvSpill | cont | clk
  | start | net | pipe | tabs | burin | dom | mem | cpu | le | dma | rdma | nvme | store | drives | mon | boot | dbg
  deriving DecidableEq, Repr

/-- A part is the same in two states. -/
def Part.same (p : Part) (s t : State) : Prop :=
  match p with
  | .time => t.io.now = s.io.now ∧ t.io.timeBase = s.io.timeBase ∧ t.io.trimAcc = s.io.trimAcc
  | .free => t.io.free = s.io.free
  | .sent => t.io.sent = s.io.sent
  | .dic => t.io.dic = s.io.dic
  | .params => t.io.params = s.io.params ∧ t.io.paramsLost = s.io.paramsLost
  | .regs => t.io.regs = s.io.regs
  | .oa => t.io.oa = s.io.oa
  | .rings => t.io.rings = s.io.rings
  | .host => t.io.host = s.io.host
  | .vf => t.io.vf = s.io.vf
  | .journal => t.io.journal = s.io.journal
  | .evAdds => t.io.evAdds = s.io.evAdds
  | .nvSpill => t.io.nvSpill = s.io.nvSpill
  | .cont => t.cont = s.cont
  | .clk => t.clk = s.clk
  | .start => t.start = s.start
  | .net => t.net = s.net
  | .pipe => t.pipe = s.pipe
  | .tabs => t.tabs = s.tabs
  | .burin => t.burin = s.burin
  | .dom => t.dom = s.dom
  | .mem => t.mem = s.mem
  | .cpu => t.cpu = s.cpu
  | .le => t.le = s.le
  | .dma => t.dma = s.dma
  | .rdma => t.rdma = s.rdma
  | .nvme => t.nvme = s.nvme
  | .store => t.store = s.store
  | .drives => t.drives = s.drives
  | .mon => t.mon = s.mon
  | .boot => t.boot = s.boot
  | .dbg => t.dbg = s.dbg

/-- What an answer to a command object can reach: its own counters, notifications, mailboxes and interrupts. -/
def answering : List Part := [.sent, .dic, .regs, .oa, .host, .evAdds]

/-- What an event can reach besides: rings, functions, identifiers the Kwaith chooses. -/
def reporting : List Part := [.free, .sent, .dic, .regs, .oa, .rings, .host, .vf, .evAdds]

/-- Every part. -/
def everything : List Part :=
  [.time, .free, .sent, .dic, .params, .regs, .oa, .rings, .host, .vf, .journal, .evAdds,
   .nvSpill, .cont, .clk, .start, .net, .pipe, .tabs, .burin, .dom, .mem, .cpu, .le,
   .dma, .rdma, .nvme, .store, .drives, .mon, .boot, .dbg]

/-- The parts of the state a command can change. A frame for the server can carry any command object, and an instruction can
ring a doorbell. -/
def touches : Instr → List Part
  | .registerWrite .. => reporting ++ [.nvSpill, .burin, .nvme]
  | .hardwareFault .. | .meshLinkFailed .. | .chipWarmReset .. | .slotVerifyDone | .enterRecovery .. | .loaderBoot .. |
    .sramPatrolRead .. => everything.filter (fun p => !([.time].contains p))
  | .ceRateExceeded .. => reporting ++ [.cpu]
  | .bwAckTimeout .. | .cellWatchdogExpiry .. => reporting ++ [.time, .cont, .net, .mem, .cpu, .le, .nvme, .dbg]
  | .contRegionReset .. =>
      reporting ++ [.params, .nvSpill, .cont, .clk, .net, .pipe, .tabs, .burin, .mem, .cpu, .le, .dma, .rdma, .nvme, .mon, .dbg]
  | .regionResetCopyDone .. => reporting ++ [.cont, .clk, .pipe, .tabs]
  | .regionResetIncomplete .. | .refclkSysLoss | .refclkSysRestored .. | .powerOnReset .. | .pwrokFall |
    .vddAonBrownout .. | .startWatchdogExpiry | .loaderObject .. | .discover .. | .read .. | .write .. | .describe .. |
    .enumerate .. | .readBlock .. | .writeBlock .. | .txnBegin .. | .txnCommit .. | .txnAbort .. | .subscribe .. |
    .unsubscribe .. | .secured .. | .mboxDoorbell .. | .oaRestoreDefaults .. | .devWarmReset .. | .migResume .. |
    .rvInstruction .. | .thermtrip | .thermtripRelease .. | .membershipObject .. | .tapReset | .extest .. | .tapIdcode |
    .samplePreload .. | .tapHighz | .tapClamp | .extestPulse .. | .extestTrain .. | .dbgStatus | .tapBypass .. |
    .extestExit .. | .dbgStep .. | .dbgWriteMem .. => everything
  | .contBlockReset .. | .hostWindowReadReturn .. | .bwAckNoAction .. | .bwAckResetRequest .. | .cellReset .. =>
      reporting ++ [.cont, .net, .mem, .cpu, .le, .nvme, .dbg]
  | .contReleaseStage0 .. => answering ++ [.cont, .start]
  | .operatingPointSwitch .. => [.clk, .cpu, .mon]
  | .crossingReset .. | .crossingHeld .. | .crossingResync .. => answering ++ [.clk]
  | .refclkEthLoss => answering ++ [.clk, .net, .cpu]
  | .refclkEthRestored => reporting ++ [.clk, .net, .pipe, .burin, .cpu]
  | .pcie0RefclkLoss => reporting ++ [.nvSpill, .clk, .start, .net, .pipe, .tabs, .burin, .cpu, .rdma, .nvme, .drives]
  | .pcie1RefclkLoss => reporting ++ [.nvSpill, .clk, .start, .net, .pipe, .tabs, .burin, .rdma, .nvme, .drives]
  | .drvRefclkLoss => reporting ++ [.journal, .clk, .cpu, .nvme, .store, .drives]
  | .perstAssert .. | .hotReset .. | .flr .. | .linkDown .. =>
      reporting ++ [.nvSpill, .start, .net, .pipe, .tabs, .burin, .rdma, .nvme, .drives]
  | .perstDeassert .. | .hostLinkUp .. | .loaderFrameDiscard | .shortFrame .. | .sealExport .. | .monProcMeasure .. =>
      answering
  | .stage1Entry => reporting ++ [.journal, .start, .mem, .boot]
  | .stage2Entry => reporting ++ [.start, .cpu, .le, .drives, .mon]
  | .memoryTrained .. => answering ++ [.start, .mem]
  | .memoryFullyWritten => reporting ++ [.start, .net, .pipe, .tabs, .dom, .mem, .rdma, .nvme]
  | .stageDeadlineMissed .. => answering ++ [.time, .start]
  | .startHold .. | .adoptionRequest | .adoptionComplete => reporting ++ [.start, .net, .pipe, .tabs, .dom, .rdma, .nvme]
  | .adoptionTimeout => reporting ++ [.time, .start, .net]
  | .slotCommit .. => [.sent, .oa, .boot]
  | .slotRetire .. | .rootKeyRevoke .. | .slotResequence .. | .epochAdvance .. | .loaderEraseDone | .loaderEnd .. |
    .pldmUpdateComponent .. | .pldmFirmwareData .. | .pldmVerifyComplete | .pldmActivate .. => answering ++ [.boot]
  | .flashProgram .. | .flashErase .. | .loaderData .. | .loaderCommit .. => reporting ++ [.journal, .boot]
  | .helloTimer => [.time, .free, .sent, .boot]
  | .helloAck .. | .loaderBaud .. | .loaderBegin .. | .loaderStatus .. | .pldmRequestUpdate | .pldmCancel => [.sent, .boot]
  | .baudSwitch => [.time, .boot]
  | .baudTimeout | .loaderIdleTimeout => [.time, .oa, .boot]
  | .notifyPeriodic .. | .onChangeExpiry .. => answering ++ [.time, .free, .net, .dom, .cpu, .le, .dma, .dbg]
  | .writeBlockTimeout .. | .snapshotTimeout .. | .txnTimeout .. | .assocIdleTimeout .. | .spdmHeartbeatTimeout .. =>
      [.time, .oa]
  | .cmdDone .. => answering ++ [.free, .net, .dom, .cpu, .le, .dma, .dbg]
  | .spdmGetVersion .. | .spdmGetCapabilities .. | .spdmNegotiateAlgorithms .. | .spdmGetDigests .. |
    .spdmGetCertificate .. | .spdmChallenge .. | .spdmGetMeasurements .. | .spdmKeyExchange .. | .spdmFinish .. |
    .completionReceived .. | .improperAccess .. | .fetchBatchReturn .. | .cqCtlblkRead .. => reporting ++ [.journal]
  | .spdmHeartbeat .. | .spdmKeyUpdate .. | .spdmEndSession .. => [.sent, .oa]
  | .mboxNotifyAck .. | .evAddRegister .. => answering ++ [.cpu, .le, .dma, .dbg]
  | .completionTimeout .. | .journalEventTimer => reporting ++ [.time, .journal]
  | .tagQuarantineEnd .. => answering ++ [.time, .free]
  | .bar2Tlp .. => reporting ++ [.params, .journal, .mem, .drives]
  | .peerwinCommit .. => [.regs, .host]
  | .peerwinDrainDone .. => [.regs]
  | .msixUnmask .. | .atsInvalidate .. | .configurationWrite .. => [.sent, .host]
  | .vfEnableSet .. | .vfFlr .. | .migFreeze .. | .migDrain .. | .migSave .. | .migRestore .. | .trackStart .. |
    .trackStop .. | .migHarvest .. => answering ++ [.vf]
  | .vfEnableClear .. | .vfFlrComplete .. => answering ++ [.rings, .vf, .nvSpill, .burin, .rdma, .nvme]
  | .numvfsWrite .. => [.host]
  | .drainComplete .. | .saveComplete .. | .harvestComplete .. => answering ++ [.free, .vf]
  | .drainTimeout .. => answering ++ [.time, .vf]
  | .restoreComplete .. => reporting ++ [.nvSpill, .burin, .rdma, .nvme]
  | .ringDoorbell .. => answering ++ [.free, .rings]
  | .ringNop .. | .transmitDone .. | .admEnableSet .. | .adminRingsDeleted .. | .modifyQueue .. | .resetQueue .. |
    .deleteQueue .. | .queryQueue .. => reporting
  | .ringTransmit .. | .ringDrainDone .. => reporting ++ [.net]
  | .receivePost .. => [.rings]
  | .cqPollTimer .. => answering ++ [.time, .free, .rings]
  | .coalesceTimer .. => [.time, .sent, .rings, .host]
  | .admEnableClear .. => [.regs, .rings]
  | .createCq .. => reporting ++ [.start]
  | .createSq .. => reporting ++ [.start, .net]
  | .macFrameReceived .. => reporting ++ [.journal, .net]
  | .pfcFrame .. | .timeFreqAdj .. | .portLinkUp .. => answering ++ [.net]
  | .pfcPauseExpiry .. => answering ++ [.time, .net]
  | .xoffRefresh .. => [.time, .sent, .net]
  | .egressTransmit .. | .portLinkDown .. => answering ++ [.rings, .net]
  | .timeStep .. | .holdoverExpiry => answering ++ [.time]
  | .ppsOutRise => answering ++ [.time, .net, .dma]
  | .ppsOutFall => [.time, .net]
  | .ppsInEdge | .dmaBusError .. | .dmaReqSw .. => answering ++ [.dma]
  | .droverDeal => answering ++ [.rings, .net, .cpu, .le, .dbg]
  | .pipelinePacket .. | .deepLaneResult .. => reporting ++ [.journal, .net, .pipe, .tabs, .burin, .mem, .cpu, .le, .dbg]
  | .pipelineResult .. | .heldReleaseResume .. => reporting ++ [.net, .pipe]
  | .holeTimeout .. => reporting ++ [.time, .net, .pipe]
  | .plateLoad .. | .platePrepare .. | .plateRelease .. | .plateOpDone => answering ++ [.free, .pipe]
  | .plateCommit .. | .pinnedApply .. => answering ++ [.pipe]
  | .pinnedWrite .. => [.regs, .pipe]
  | .pinWrite .. => [.sent, .regs, .pipe]
  | .counterClear .. => [.sent, .pipe]
  | .learnArbiterEvent | .agerSweep | .proofAbort .. | .proofPassEnd => answering ++ [.tabs]
  | .learnBatchSend => answering ++ [.time, .free, .net, .tabs]
  | .learnFrameReceived => reporting ++ [.journal, .net, .tabs]
  | .learnRefreshTimer => [.time, .tabs]
  | .tblListStart .. | .proofStart .. | .proofResume .. => answering ++ [.free, .tabs]
  | .connInsert .. | .proofRingPoll .. => answering ++ [.time, .free, .vf, .tabs]
  | .connModify .. | .connDelete .. | .brInsert .. | .brDelete .. | .brFlush .. | .proofCompare .. =>
      answering ++ [.free, .vf, .tabs]
  | .keyWrite .. | .keyErase .. => answering ++ [.time, .burin]
  | .keyWindowClear .. => [.time, .regs, .burin]
  | .saCreate .. => answering ++ [.free, .burin]
  | .saDelete .. => answering ++ [.burin]
  | .saQuery .. | .queryQp .. | .queryMr .. | .nsAttachQuery .. | .beQuery .. | .nsQuery .. | .memTranslate .. |
    .domPeerQuery .. => [.sent]
  | .laQueueCreate .. | .laQueueDelete .. => [.sent, .burin]
  | .laDoorbell .. => reporting ++ [.params, .burin, .mem]
  | .laJobComplete .. => reporting ++ [.params, .burin, .mem, .cpu, .le, .dma, .dbg]
  | .maskStarveTimeout .. => reporting ++ [.time, .params, .journal, .net, .burin, .mem, .cpu, .le, .dma, .dbg]
  | .trngHealthFail => reporting ++ [.burin]
  | .trngRetest .. => reporting ++ [.time, .journal, .net, .tabs, .burin, .mem, .cpu, .le, .dbg]
  | .drbgReseed => answering ++ [.net, .burin, .mem, .cpu, .le, .dbg]
  | .createQp .. => answering ++ [.vf, .rdma]
  | .modifyQp .. | .destroyQp .. | .rdmaSend .. | .rdmaSendImm .. | .rdmaWrite .. | .rdmaWriteImm .. | .rdmaRead .. |
    .rdmaRecv .. | .rdmaWait .. | .waitSatisfied .. => reporting ++ [.rdma]
  | .destroyQpDone .. | .revokeMrDone .. => answering ++ [.rdma]
  | .createSrq .. | .createAh .. => [.free, .sent, .rdma]
  | .destroySrq .. | .armSrq .. | .destroyAh .. | .setGid .. | .revokeMr .. => [.sent, .rdma]
  | .regMr .. => [.sent, .vf, .rdma]
  | .requestPacketSend .. | .ackTimeout .. | .rnrTimerExpiry .. => reporting ++ [.time, .net, .rdma]
  | .rocePacketReceived .. => reporting ++ [.params, .journal, .net, .mem, .cpu, .rdma]
  | .contextFetchDone .. => answering ++ [.net, .rdma]
  | .ackReceived .. | .readResponseReceived .. | .cnpReceived .. => reporting ++ [.net, .rdma]
  | .nakReceived .. => reporting ++ [.journal, .net, .rdma]
  | .ackSendTimer .. => [.time, .free, .net, .rdma]
  | .laneReadmit .. | .rateRecoveryPeriod .. => answering ++ [.time, .rdma]
  | .ccEnSet .. | .controllerReady .. | .nvmeCommandComplete .. | .queueMemoryFault .. | .createIoSq .. |
    .deleteIoSq .. | .getLogPage .. | .identify .. | .nvmAbort .. | .setFeatures .. | .getFeatures .. |
    .asyncEventRequest .. => reporting ++ [.nvme]
  | .ccEnClear .. => answering ++ [.nvSpill, .nvme]
  | .ccShn .. | .shutdownComplete .. => [.regs, .nvme]
  | .sqTailDoorbell .. | .cqHeadDoorbell .. => reporting ++ [.journal, .nvme]
  | .fetchPick .. => reporting ++ [.time, .nvme]
  | .createIoCq .. | .deleteIoCq .. => reporting ++ [.nvSpill, .nvme]
  | .nvmFlush .. | .nvmWriteZeroes .. | .datasetManagement .. => [.nvme]
  | .nvmWrite .. | .zoneSend .. | .zoneAppend .. => [.nvme, .store]
  | .nvmRead .. => answering ++ [.vf, .nvme]
  | .zoneReceive .. => [.sent, .vf, .nvme]
  | .nsAttach .. | .nsDetach .. | .nsRecover .. | .logWriteComplete .. | .homeWriteComplete .. | .logReplay .. |
    .backendLost .. | .backendReturn .. => reporting ++ [.nvme, .store]
  | .beDefine .. | .beRemove .. | .checkpointWrite .. => [.sent, .store]
  | .nsCreate .. | .nsDelete .. => answering ++ [.burin, .store]
  | .atomicPiece .. | .zoneSeal .. => answering ++ [.nvme, .store]
  | .resyncComplete .. | .sealVerifyAbort .. | .sealVerifyEnd => answering ++ [.store]
  | .beWaitLimit .. => reporting ++ [.time, .nvme, .store]
  | .sealVerifyStart .. | .sealVerifyResume .. => [.sent, .oa, .store]
  | .slotPresence .. | .slotPowerFault .. | .dlActive .. | .driveLinkDown .. | .driveError .. | .driveTimeout .. =>
      reporting ++ [.journal, .nvme, .store, .drives]
  | .slotAttention .. | .slotPowerOn .. | .slotAtnOff .. | .slotAtnOn .. | .slotAtnBlink .. => [.sent, .drives]
  | .attentionWindow .. => reporting ++ [.time, .nvme, .store, .drives]
  | .slotSettle .. | .slotPwrenOff .. | .slotOffWait .. => [.time, .drives]
  | .slotTrainingTimeout .. => answering ++ [.time, .drives]
  | .slotPowerOff .. | .slotControl .. => reporting ++ [.nvme, .store, .drives]
  | .dpcClear .. => [.drives]
  | .machineTimerInterrupt .. => reporting ++ [.time, .cont, .net, .mem, .cpu, .le, .dma, .nvme, .dbg]
  | .kwcmoClean .. | .kwcmoInvalidate .. | .kwcmoCleanInvalidate .. | .kwicfill .. =>
      reporting ++ [.params, .cont, .net, .mem, .cpu, .le, .dma, .nvme, .dbg]
  | .cellStart .. => [.cpu, .le]
  | .cellWdogKick .. | .bwConsumerWrite .. => [.cpu]
  | .pktGet .. | .pktTryget .. | .pktPut .. | .lkAcq .. | .lkTry .. | .lkRel .. | .evWait .. | .evSig .. | .evAdd .. |
    .chRes .. | .chPub .. | .chRead .. => reporting ++ [.cont, .net, .mem, .cpu, .le, .dma, .nvme, .dbg]
  | .channelOpen .. | .channelClose .. => [.cpu, .le, .dbg]
  | .leChAbort .. => [.le]
  | .waitWatchdogExpiry .. => answering ++ [.time, .cpu, .le, .dbg]
  | .blockStall .. => answering ++ [.time, .cpu, .le]
  | .dmaChannelEnable .. | .dmaChannelDisable .. | .dmaChKick .. | .dmaBurstStart .. | .dmaDrained .. |
    .dmaBusErrorClear .. | .dmaStop .. | .dmaResume .. | .dmaRestart .. | .dmaReqClear .. => [.dma]
  | .dmaDescriptorRead .. | .dmaSkip .. => reporting ++ [.params, .mem, .dma]
  | .dmaCopy .. | .dmaFill .. | .dmaCompare .. => reporting ++ [.params, .net, .mem, .cpu, .dma]
  | .dmaDescriptorComplete .. => answering ++ [.mem, .cpu, .le, .dma, .dbg]
  | .dmaTimerPulse .. => answering ++ [.time, .dma]
  | .memoryRead .. | .scrubLine .. => reporting ++ [.params, .mem]
  | .memoryWrite .. | .scrubStart .. | .scrubResume .. | .scrubAbort .. => answering ++ [.mem]
  | .memDeviceMark .. | .memDeviceClear .. | .ageingUpdate => reporting ++ [.params]
  | .eccTestRawWrite .. | .eccTestDataWrite .. | .eccTestCheckWrite .. | .eccTestRead .. => [.free, .sent, .mem]
  | .sramCorrectedWriteback => [.mem]
  | .monitorSample .. => reporting ++ [.cont, .clk, .mon]
  | .sensorFailed .. => reporting ++ [.mon]
  | .shepherdCycle .. | .shepherdSilent => reporting ++ [.time, .clk, .mon]
  | .emergencyReturn .. => answering ++ [.time, .cont, .mon]
  | .railSettled .. | .pcie1RefclkRestored => [.clk]
  | .railSettleTimeout .. => answering ++ [.time, .mon]
  | .vrWrite .. => [.sent, .mon]
  | .monTrust .. => answering ++ [.mon]
  | .heartbeatSend => answering ++ [.time, .free, .net, .dom]
  | .heartbeatReceived => reporting ++ [.journal, .net, .tabs, .dom, .nvme]
  | .conflictClear .. | .peerSuspect .. => answering ++ [.time, .dom]
  | .peerUnreachable .. | .domainStartHold | .healHold => reporting ++ [.time, .tabs, .dom, .nvme]
  | .rosterCommit .. => reporting ++ [.params, .tabs, .dom, .nvme]
  | .rosterGraceExpiry => [.time, .dom]
  | .journalClear .. => [.sent, .journal]
  | .dbgUnlock .. => [.sent, .cpu, .le, .dbg]
  | .dbgUnlockExpiry => [.time, .cpu, .le, .dbg]
  | .dbgHalt .. | .dbgResume .. | .dbgReadReg .. => answering ++ [.cpu, .le, .dbg]
  | .dbgWriteReg .. => reporting ++ [.params, .mem, .cpu, .le, .dbg]
  | .dbgReadMem .. => reporting ++ [.params, .mem, .dbg]
  | .dbgChAbort .. => answering ++ [.le, .dbg]
  | .traceStart .. | .traceStop .. | .traceRead .. => answering ++ [.dbg]
  | .serdesTestStart .. => answering ++ [.rings, .net, .dbg]
  | .serdesTestStop .. => [.sent, .net, .dbg]
  | .serdesTestClear .. => [.sent, .dbg]
  | .pcie0RefclkRestored | .drvRefclkRestored => [.clk, .cpu]
  | .downstreamTlp .. => reporting ++ [.params, .mem, .drives]
  | .pageRequestResponse .. => [.free, .host]
  | .endpointReassign .. => [.oa]
  | .sealVerifyRead .. => [.time, .store]
  | .checkerLock .. | .checkerLockLoss .. => [.dbg]

/-! ### The invariant -/

/-- What every step keeps. -/
def State.Inv (s : State) : Prop := s.memoriesWf = true ∧ s.legalStage = true

end Sys2Proof.Machine
end

