-- ==== Sys2Proof/Certificates/Slice0/Obligations.lean ====
section
/-!
DEFINITION. The statements for the provers. `Runs c s P` says that command `c` runs from state `s` and that `P` holds of the
state it leaves.
-/
open Sys2Proof Sys2Proof.Machine

/-- For every command and state, a step with the command in front of the queue is the command's effect on the state with the
queue's rest. What the spec leaves open here is the model's choice: log entries 1. -/
def Obligations.StepRunsFront : Prop :=
  ∀ (c : Instr) (s : State), step { s with pending := c :: s.pending } = exec c s

/-- Each command of chapter 02 runs where its rule lets it act: a block fault, and the block fault of an unresponsive
Bellwether, leave a record of R40 with their cause in 0E:0410, with action block reset, block isolated, or reported only
where a reset of the block runs already; a corrected-error rate is counted and resets nothing; a failed mesh link restarts
the Kwaith at stage 0; a commanded block reset is answered SUCCESS, and a commanded region reset IN_PROGRESS with its
outcome to follow, and each leaves the scratch of its block or region zero; a region whose copies are done is neither
isolated nor withdrawn; one whose copies are late is isolated while another region serves; a release ends the hold at stage
0. What the spec leaves open here is the model's choice: log entries 15 to 18. -/
def Obligations.ContainmentCommandsRun : Prop :=
  (∀ (f : FaultReport) (b : BlockNo) (s : State), f.unit = .block b → s.clk.holdAll = false →
    s.cont.regions.contains (b.val / 4) = false → s.cont.blocks.contains b.val = false →
    Runs (.hardwareFault f) s fun t => ∃ k time act n, 1 ≤ k ∧ k ≤ 64 ∧ (act = 1 ∨ act = 5 ∨ act = 6) ∧
      t.blob 0x0E0410 k = contBytes time 2 f.cause.val b.val act n f.address.toNat f.detail.toNat) ∧
  (∀ (b : BlockNo) (r : BwRec) (s : State), oldestOwed (bwAt s b.val) = some r → (threadAt s (64 * b.val)).st ≠ 3 →
    s.cont.regions.contains (b.val / 4) = false → s.cont.blocks.contains b.val = false →
    Runs (.bwAckTimeout b) s fun t => ∃ k time act n, 1 ≤ k ∧ k ≤ 64 ∧ (act = 1 ∨ act = 5 ∨ act = 6) ∧
      t.blob 0x0E0410 k = contBytes time 2 4 b.val act n 0 0) ∧
  (∀ (c : CellNo) (count : Nat) (s : State), s.clk.holdAll = false → dget s.io (idx 0x0E0400 0) 64 < count →
    c.val % 8 ≠ 0 → cellOff s c.val = false →
    Runs (.ceRateExceeded c count) s fun t => t.cont = s.cont ∧ t.cpu.threads = s.cpu.threads ∧
      t.num 0x0E0003 3 = satAdd 32 (s.num 0x0E0003 3) 1) ∧
  (∀ (link : Fin 16) (s : State), s.clk.holdAll = false →
    Runs (.meshLinkFailed link) s fun t => t.start.stage = 0) ∧
  (∀ (by_ : Issuer) (arg : Byte) (s : State), s.allows by_ 0x0E0420 → arg.toNat < 4 → cmdRuns s.io 0x0E0420 = false →
    Runs (.contRegionReset by_ arg) s fun t => t.last = some (.cmdAnswer by_ (idx 0x0E0420 0) 9 []) ∧
      mget t.io.oa.running 0x0E0420 = some by_ ∧
      ∀ a, regionBase arg.toNat ≤ a → a < regionBase arg.toNat + 0x4000000 → memGet 0 t.mem.sram a = 0) ∧
  (∀ (by_ : Issuer) (arg : Byte) (s : State), s.allows by_ 0x0E0421 → arg.toNat < 16 →
    s.cont.blocks.contains arg.toNat = false → s.cont.regions.contains (arg.toNat / 4) = false →
    Runs (.contBlockReset by_ arg) s fun t => t.last = some (.cmdAnswer by_ (idx 0x0E0421 0) 0 []) ∧
      ∀ a, blockBase arg.toNat ≤ a → a < blockBase arg.toNat + 0x200000 → memGet 0 t.mem.sram a = 0) ∧
  (∀ (r : RegionNo) (x : Nat × Bool) (s : State), mget s.cont.regionResets r.val = some x →
    Runs (.regionResetCopyDone r) s fun t => r.val ∉ t.cont.regions ∧ r.val ∉ t.cont.withdrawn) ∧
  (∀ (r q : RegionNo) (x : Nat × Bool) (s : State), mget s.cont.regionResets r.val = some x → q ≠ r →
    q.val ∉ s.cont.regions →
    Runs (.regionResetIncomplete r) s fun t => r.val ∈ t.cont.regions) ∧
  (∀ (by_ : Issuer) (s : State), s.allows by_ 0x0E0422 → s.cont.held = true →
    Runs (.contReleaseStage0 by_ 1) s fun t => t.cont.held = false)

/-- A crossing one side of which is reset stands in RESET, one whose clock stops in HELD, and one both of whose sides run, once
resynchronised, in RUN. An operating-point switch that has locked puts the region's clock at its target and leaves no
target. The loss of a reference is recorded and, except for PCIE1_REFCLK, stops the clocks that run from it; its return is
recorded too. REFCLK_SYS holds everything in reset while it is away and restarts stage 0 when it returns. What the spec
leaves open here is the model's choice: log entries 19. -/
def Obligations.CrossingsFollowTheirClocks : Prop :=
  (∀ (x : Fin 24) (inner : Bool) (l : List XTransfer) (s : State),
    Runs (.crossingReset x inner l) s fun t => xingAt t x.val = .reset) ∧
  (∀ (x : Fin 24) (inner : Bool) (l : List XTransfer) (s : State),
    Runs (.crossingHeld x inner l) s fun t => xingAt t x.val = .held) ∧
  (∀ (x : Fin 24) (s : State), xingReady s x.val = true → Runs (.crossingResync x) s fun t => xingAt t x.val = .run) ∧
  (∀ (r : RegionNo) (f : Nat) (s : State), mget s.clk.target r.val = some f → s.cont.regions.contains r.val = false →
    s.clk.holdAll = false →
    Runs (.operatingPointSwitch r) s fun t => clkFreq t (r.val + 1) = f ∧ mget t.clk.target r.val = none) ∧
  (∀ s : State, Runs .refclkSysLoss s fun t => t.clk.refSys = false ∧ t.clk.holdAll = true) ∧
  (∀ (f : FlashStart) (s : State), s.clk.refSys = false → s.start.pwrok = true → s.mon.trip = false →
    s.dbg.testmode = false → extestClass s.dbg.ir = false →
    Runs (.refclkSysRestored f) s fun t => t.clk.refSys = true ∧ t.clk.holdAll = false ∧ t.start.stage = 0) ∧
  (∀ s : State, s.clk.refEth = true → s.clk.holdAll = false →
    Runs .refclkEthLoss s fun t => t.clk.refEth = false ∧ t.net.frozen = true ∧ clkFreq t 11 = 0) ∧
  (∀ s : State, s.clk.refEth = false → s.clk.holdAll = false →
    Runs .refclkEthRestored s fun t => t.clk.refEth = true ∧ clkFreq t 11 = 1250000) ∧
  (∀ s : State, s.clk.refPcie0 = true → s.clk.holdAll = false →
    Runs .pcie0RefclkLoss s fun t => t.clk.refPcie0 = false ∧ clkFreq t 12 = 0) ∧
  (∀ s : State, s.clk.refPcie0 = false → s.clk.holdAll = false →
    Runs .pcie0RefclkRestored s fun t => t.clk.refPcie0 = true ∧ clkFreq t 12 = 1000000) ∧
  (∀ s : State, s.clk.refPcie1 = true → Runs .pcie1RefclkLoss s fun t => t.clk.refPcie1 = false ∧ clkFreq t 12 = clkFreq s 12) ∧
  (∀ s : State, Runs .pcie1RefclkRestored s fun t => t.clk.refPcie1 = true) ∧
  (∀ s : State, s.clk.refDrv = true → s.clk.holdAll = false →
    Runs .drvRefclkLoss s fun t => t.clk.refDrv = false ∧ clkFreq t 13 = 0) ∧
  (∀ s : State, s.clk.refDrv = false → s.clk.holdAll = false →
    Runs .drvRefclkRestored s fun t => t.clk.refDrv = true ∧ clkFreq t 13 = 1000000)

/-- A power-on reset, the end of a brown-out and a chip warm reset leave stage 0 with the clocks running, and a chip warm reset
adds 1 to START_COUNT; the fall of PWROK holds everything in reset. PERST asserted is recorded, and deasserted it records
the instant the 100 ms of R56 count from. A hot reset takes every link of its port down, and so does DL_Down of one link.
FLR leaves the function's configuration at its reset values. A link that may train comes up with a partner that offers at
least one lane and one rate. What the spec leaves open here is the model's choice: log entries 7, 20, 35. -/
def Obligations.ResetsRun : Prop :=
  (∀ (f : FlashStart) (s : State), s.clk.refSys = true → s.mon.trip = false →
    Runs (.powerOnReset false f) s fun t => t.start.stage = 0 ∧ t.start.pwrok = true ∧ t.clk.holdAll = false) ∧
  (∀ s : State, Runs .pwrokFall s fun t => t.start.pwrok = false ∧ t.clk.holdAll = true) ∧
  (∀ (f : FlashStart) (s : State), s.start.pwrok = true → s.clk.refSys = true → s.mon.trip = false →
    s.dbg.testmode = false → extestClass s.dbg.ir = false →
    Runs (.vddAonBrownout f) s fun t => t.start.stage = 0 ∧ t.clk.holdAll = false) ∧
  (∀ (c : WarmCause) (f : FlashStart) (s : State), s.clk.holdAll = false →
    Runs (.chipWarmReset c f) s fun t => t.start.stage = 0 ∧ t.start.count = s.start.count + 1) ∧
  (∀ (p : Fin 2) (s : State), Runs (.perstAssert p) s fun t => (hostPort t.io p.val).perst = true) ∧
  (∀ (p : Fin 2) (s : State), Runs (.perstDeassert p) s fun t => hostPort t.io p.val = { perst := false, released := s.io.now }) ∧
  (∀ (p : Fin 2) (s : State), Runs (.hotReset p) s fun t => ∀ l ∈ portLinks s.io p.val, (linkAt t.io l).up = false) ∧
  (∀ (l : LinkNo) (pf : Pf) (s : State), l.val ∈ pfLinks s.io pf.val →
    Runs (.flr l pf) s fun t => fnCfg t.io (4 * l.val + pf.val) = FnCfg.reset) ∧
  (∀ (l : LinkNo) (r : Fin 7) (w : Fin 17) (flit : Bool) (s : State), linkMayTrain s l.val = true →
    0 < r.val → 0 < dget s.io (idx 0x040003 (l.val % 2 + 1)) 6 → 0 < w.val →
    Runs (.hostLinkUp l r w flit) s fun t => (linkAt t.io l.val).up = true) ∧
  (∀ (l : LinkNo) (s : State), (linkAt s.io l.val).up = true → Runs (.linkDown l) s fun t => (linkAt t.io l.val).up = false)

/-- From stage 0, with a slot to boot, stage 1 is entered, and without one the recovery loader runs; from stage 1, unheld, stage
2; memory fully written is remembered; a missed stage 1 deadline sets reason 0x04; an expired start watchdog restarts at
stage 0; 02:0010 takes a value of 0 to 3 and is answered SUCCESS; adoption is requested at stage 2 while a Sheepdog ring
stands, completes with ADOPTED set, and times out with reason 0x08. What the spec leaves open here is the model's choice:
log entries 21, 22. -/
def Obligations.StartRuns : Prop :=
  (∀ s : State, s.clk.holdAll = false → s.start.stage = 0 → s.start.held = false → s.start.recovery = false →
    Runs .stage1Entry s fun t =>
      match (bootChoice s.boot s.mem).slot with
      | some _ => t.start.stage = 1
      | none => t.start.stage = 0 ∧ t.start.recovery = true) ∧
  (∀ s : State, s.clk.holdAll = false → s.start.stage = 1 → s.start.held = false →
    Runs .stage2Entry s fun t => t.start.stage = 2 ∧ t.cpu.held = false) ∧
  (∀ s : State, s.start.stage = 2 → s.num 0x100002 0 = 2 →
    Runs .memoryFullyWritten s fun t => t.mem.filled = true ∧ t.start.memWritten = true) ∧
  (∀ s : State, s.clk.holdAll = false → s.start.recovery = false → s.start.stage = 0 →
    Runs (.stageDeadlineMissed 1) s fun t => t.start.reason = 4 ∧ t.start.stage = 0) ∧
  (∀ s : State, s.clk.holdAll = false → dget s.io (idx 0x020011 0) 30 ≠ 0 → s.start.stage ≠ 3 → s.start.held = false →
    s.start.recovery = false → Runs .startWatchdogExpiry s fun t => t.start.stage = 0) ∧
  (∀ (by_ : Issuer) (v : Byte) (s : State), s.allows by_ 0x020010 → v.toNat ≤ 3 →
    Runs (.startHold by_ v) s fun t => t.last = some (.cmdAnswer by_ (idx 0x020010 0) 0 []) ∧ t.num 0x020010 0 = v.toNat) ∧
  (∀ s : State, s.start.stage = 2 → s.start.adopted = false → s.start.adoption = .idle →
    s.io.rings.rings.any (fun p => p.2.sheepdog) = true →
    Runs .adoptionRequest s fun t => t.start.adoption = .requested s.io.now ∧ t.io.rings.adopting = true) ∧
  (∀ (a : Nat) (s : State), s.start.adoption = .requested a → Runs .adoptionComplete s fun t => t.start.adopted = true) ∧
  (∀ (a : Nat) (s : State), s.start.adoption = .requested a →
    Runs .adoptionTimeout s fun t => t.start.reason = 8 ∧ t.start.adoption = .idle)

/-- With no commit under way and no command of the same object running: a commit of the slot that did not boot is answered
IN_PROGRESS and its verification begins, and once that ends no commit is under way; a retirement or a new sequence is
answered SUCCESS where its record can be programmed, and the flash then holds it, else FAILED; a root key other than the
booted image's is revoked; the fused epoch advances to the number given where the booted image's epoch reaches it and
VDD_FUSE is in range; recovery restarts the Kwaith into the loader. What the spec leaves open here is the model's choice:
log entries 24. -/
def Obligations.SecurityCoreCommandsRun : Prop :=
  (∀ (by_ : Issuer) (arg : Byte) (s : State), s.allows by_ 0x020105 → cmdRuns s.io 0x020105 = false → arg.toNat < 2 →
    arg.toNat ≠ bootedSlot s.io → topSeq s.boot.flash < 0xFFFFFFFE →
    Runs (.slotCommit by_ arg) s fun t =>
      t.boot.commit = some (by_, arg.toNat) ∧ t.last = some (.cmdAnswer by_ (idx 0x020105 0) 9 [])) ∧
  (∀ (c : Issuer × Nat) (s : State), s.boot.commit = some c → s.boot.waiting = [] →
    Runs .slotVerifyDone s fun t => t.boot.commit = none ∧ cmdRuns t.io 0x020105 = false) ∧
  (∀ (by_ : Issuer) (arg : Byte) (s : State), s.allows by_ 0x020106 → cmdRuns s.io 0x020106 = false → s.boot.commit = none →
    arg.toNat < 2 → arg.toNat ≠ bootedSlot s.io →
    Runs (.slotRetire by_ arg) s fun t =>
      match retireSlot arg.toNat (time64 s.io) s.boot.flash with
      | some f => t.boot.flash = f ∧ t.last = some (.cmdAnswer by_ (idx 0x020106 0) 0 [])
      | none => t.boot.flash = s.boot.flash ∧ t.last = some (.cmdAnswer by_ (idx 0x020106 0) 0x11 [])) ∧
  (∀ (by_ : Issuer) (s : State), s.allows by_ 0x020106 → principalOf by_.assoc.binding = .m → cmdRuns s.io 0x020106 = false →
    s.boot.commit = none →
    Runs (.enterRecovery by_) s fun t => t.start.stage = 0 ∧ t.start.recovery = true ∧ t.boot.loader.active = true) ∧
  (∀ (by_ : Issuer) (arg : Byte) (s : State), s.allows by_ 0x020107 → cmdRuns s.io 0x020107 = false → s.boot.commit = none →
    arg.toNat < 4 → (bootedSlot s.io < 2 → field (slotHeader s.boot.flash (bootedSlot s.io)) 6 1 ≠ arg.toNat) →
    Runs (.rootKeyRevoke by_ arg) s fun t =>
      arg.toNat ∈ t.boot.revoked ∧ t.last = some (.cmdAnswer by_ (idx 0x020107 0) 0 [])) ∧
  (∀ (by_ : Issuer) (arg : Byte) (s : State), s.allows by_ 0x020108 → cmdRuns s.io 0x020108 = false → s.boot.commit = none →
    arg.toNat = bootedSlot s.io →
    Runs (.slotResequence by_ arg) s fun t =>
      match sealSlot arg.toNat (topSeq s.boot.flash + 1) (time64 s.io) s.boot.flash with
      | some f => t.boot.flash = f ∧ t.last = some (.cmdAnswer by_ (idx 0x020108 0) 0 [])
      | none => t.boot.flash = s.boot.flash ∧ t.last = some (.cmdAnswer by_ (idx 0x020108 0) 0x11 [])) ∧
  (∀ (by_ : Issuer) (n : Half) (s : State), s.allows by_ 0x020110 → cmdRuns s.io 0x020110 = false → s.boot.commit = none →
    fusedEpoch s.boot.blown < n.toNat → bootedSlot s.io < 2 →
    n.toNat ≤ field (slotHeader s.boot.flash (bootedSlot s.io)) 8 2 →
    Runs (.epochAdvance by_ n true) s fun t =>
      t.num 0x020102 0 = n.toNat ∧ t.last = some (.cmdAnswer by_ (idx 0x020110 0) 0 []))

/-- Out of reset, where every byte addressed is one the master may program and the device succeeds, a program leaves at each
addressed byte the AND of what stood there and what was given, and an erase leaves 0xFF in every byte of the sector; every
other byte of the flash reads as before. Where a byte may not be programmed or erased, the whole flash reads as before. What
the spec leaves open here is the model's choice: log entries 11, 24. -/
def Obligations.FlashProgramErase : Prop :=
  (∀ (m : FlashMaster) (a : Nat) (d : Bytes) (s : State), s.clk.holdAll = false →
    (span a d.length).all (flashMay (bootedSlot s.io) false m) = true →
    Runs (.flashProgram m a d true) s fun t => ∀ x,
      memGet 0xFF t.boot.flash x =
        if a ≤ x ∧ x < a + d.length then memGet 0xFF s.boot.flash x &&& d.getD (x - a) 0 else memGet 0xFF s.boot.flash x) ∧
  (∀ (m : FlashMaster) (a : Nat) (s : State), s.clk.holdAll = false →
    (span (a / 0x10000 * 0x10000) 0x10000).all (flashMay (bootedSlot s.io) true m) = true →
    Runs (.flashErase m a true) s fun t => ∀ x,
      memGet 0xFF t.boot.flash x = if a / 0x10000 = x / 0x10000 then 0xFF else memGet 0xFF s.boot.flash x) ∧
  (∀ (m : FlashMaster) (a : Nat) (d : Bytes) (ok : Bool) (s : State), s.clk.holdAll = false →
    (span a d.length).all (flashMay (bootedSlot s.io) false m) = false →
    Runs (.flashProgram m a d ok) s fun t => t.boot.flash = s.boot.flash ∧ t.last = some (.flashDone false))

/-- While the loader runs, with a sequence number it has not just answered: HELLO leaves each second until HELLO_ACK; a frame
discarded is counted; HELLO_ACK of version 1 or 2, BAUD in range, BEGIN that may overwrite a slot, DATA within the transfer
that agrees with what is programmed, are acknowledged and take effect; END answers ACK and phase 3 exactly where the slot
verifies; COMMIT answers ACK and phase 4 where the seal is programmed; STATUS reports; BOOT restarts at stage 0. An erasure
that ends leaves every byte of the slot 0xFF. A rate switch takes its rate; timeouts return to version 0. What the spec
leaves open here is the model's choice: log entries 25. -/
def Obligations.LoaderRuns : Prop :=
  (∀ s : State, s.boot.loader.active = true → s.boot.loader.version = 0 →
    Runs .helloTimer s fun t => t.boot.loader.helloAt = t.io.now + sec 1 ∧ ∃ q p, t.last = some (.loader 1 q p)) ∧
  (∀ s : State, s.boot.loader.active = true →
    Runs .loaderFrameDiscard s fun t => t.num 0x020115 0 = satAdd 32 (s.num 0x020115 0) 1) ∧
  (∀ (q : Half) (v : Byte) (s : State), loaderFresh s q → (v = 1 ∨ v = 2) →
    Runs (.helloAck q v) s fun t => t.boot.loader.version = v.toNat ∧ t.last = some (.loader 0x20 q.toNat [0])) ∧
  (∀ (q : Half) (r : Word32) (s : State), loaderFresh s q → s.boot.loader.version = 2 → 115200 ≤ r.toNat → r.toNat ≤ 3000000 →
    Runs (.loaderBaud q r) s fun t =>
      t.boot.loader.newRate = some (r.toNat, s.io.now) ∧ t.last = some (.loader 0x20 q.toNat [0])) ∧
  (∀ (r a : Nat) (s : State), s.boot.loader.newRate = some (r, a) →
    Runs .baudSwitch s fun t => t.boot.loader.rate = r ∧ t.boot.loader.newRate = none) ∧
  (∀ (a : Nat) (s : State), s.boot.loader.probeAt = some a → Runs .baudTimeout s fun t => t.boot.loader.version = 0) ∧
  (∀ s : State, s.boot.loader.active = true → s.boot.loader.version ≠ 0 →
    Runs .loaderIdleTimeout s fun t => t.boot.loader.version = 0) ∧
  (∀ (q : Half) (slot : Byte) (n : Word32) (s : State), loaderFresh s q → s.boot.loader.version ≠ 0 →
    s.boot.loader.phase ≠ 1 → slot.toNat < 2 → 4097 ≤ n.toNat → n.toNat ≤ 0x02FF0000 →
    Runs (.loaderBegin q slot 1 n) s fun t => t.boot.loader.phase = 1 ∧ t.boot.loader.slot = slot.toNat ∧
      t.boot.loader.total = n.toNat ∧ t.last = some (.loader 0x20 q.toNat [0])) ∧
  (∀ s : State, s.boot.loader.phase = 1 → Runs .loaderEraseDone s fun t => t.boot.loader.phase = 2 ∧
    ∀ x, slotBase s.boot.loader.slot ≤ x → x < slotBase s.boot.loader.slot + slotSpan → memGet 0xFF t.boot.flash x = 0xFF) ∧
  (∀ (q : Half) (o : Word32) (d : Bytes) (s : State), loaderFresh s q → s.boot.loader.version ≠ 0 → s.boot.loader.phase = 2 →
    d.length ≤ 1024 → o.toNat + d.length ≤ s.boot.loader.total →
    sameBytes s.boot.flash (slotBase s.boot.loader.slot) o.toNat d s.boot.loader.got = true →
    Runs (.loaderData q o d none) s fun t => t.last = some (.loader 0x20 q.toNat [0]) ∧
      t.boot.flash = flashWrite (slotBase s.boot.loader.slot + o.toNat) d s.boot.flash) ∧
  (∀ (q : Half) (s : State), loaderFresh s q → s.boot.loader.version ≠ 0 → s.boot.loader.phase = 2 →
    firstMissing s.boot.loader.total s.boot.loader.got = none →
    Runs (.loaderEnd q) s fun t =>
      match verifyNak s s.boot.loader.slot with
      | none => t.boot.loader.phase = 3 ∧ t.last = some (.loader 0x20 q.toNat [0])
      | some n => t.boot.loader.phase = 2 ∧ t.last = some (.loader n.1 q.toNat n.2)) ∧
  (∀ (q : Half) (s : State), loaderFresh s q → s.boot.loader.version ≠ 0 → s.boot.loader.phase = 3 →
    Runs (.loaderCommit q none) s fun t =>
      if (sealDo s.boot.loader.slot s).1 then t.boot.loader.phase = 4 ∧ t.last = some (.loader 0x20 q.toNat [0])
      else ∃ d, t.last = some (.loader 0x21 q.toNat (le 1 0x0C ++ d))) ∧
  (∀ (q : Half) (s : State), loaderFresh s q → s.boot.loader.version ≠ 0 →
    Runs (.loaderStatus q) s fun t => ∃ p, t.last = some (.loader 0x15 q.toNat (le 1 s.boot.loader.phase ++ p))) ∧
  (∀ (q : Half) (s : State), loaderFresh s q → s.boot.loader.version ≠ 0 → Runs (.loaderBoot q) s fun t => t.start.stage = 0)

/-- While the loader runs at version 2 and the sequence number is not the one it has just answered, an OBJECT frame whose
object-access frame can be read is answered with an OBJECT frame of the same sequence number. What the spec leaves open here
is the model's choice: log entries 25. -/
def Obligations.LoaderObjectAnswered : Prop :=
  ∀ (q : Half) (b : Bytes) (env : OaEnv) (r : OaReq) (s : State), loaderFresh s q → s.boot.loader.version = 2 →
    parseFrame { binding := .uart0, key := 0, session := none } b = some r →
    Runs (.loaderObject q b env) s fun t => ∃ p, Sent.loader 0x18 q.toNat p ∈ t.io.sent

/-- An update begins out of reset where none runs and a slot has booted; its component erases the other slot; its data are
programmed there; verification and activation answer 0 exactly where the slot verifies, and where its records can be
programmed; an update cancelled is over. What the spec leaves open here is the model's choice: log entries 26. -/
def Obligations.PldmRuns : Prop :=
  (∀ s : State, s.clk.holdAll = false → s.boot.pldm.phase = 0 → bootedSlot s.io < 2 →
    Runs .pldmRequestUpdate s fun t => t.boot.pldm.phase = 1 ∧ t.last = some (.pldm 0x10 0 [])) ∧
  (∀ (n : Word32) (k : Nat) (s : State), s.boot.pldm.phase = 1 → pldmSlot s = some k → n.toNat ≤ 0x02FF0000 →
    Runs (.pldmUpdateComponent 1 n) s fun t => t.boot.pldm = { phase := 2, size := n.toNat, got := [] } ∧
      ∀ x, slotBase k ≤ x → x < slotBase k + slotSpan → memGet 0xFF t.boot.flash x = 0xFF) ∧
  (∀ (o : Word32) (d : Bytes) (k : Nat) (s : State), s.boot.pldm.phase = 2 → pldmSlot s = some k → d ≠ [] →
    o.toNat + d.length ≤ s.boot.pldm.size →
    Runs (.pldmFirmwareData o d) s fun t => t.boot.flash = flashWrite (slotBase k + o.toNat) d s.boot.flash) ∧
  (∀ (k : Nat) (s : State), s.boot.pldm.phase = 2 → pldmSlot s = some k → firstMissing s.boot.pldm.size s.boot.pldm.got = none →
    Runs .pldmVerifyComplete s fun t =>
      if (verifyDo k s).1 then t.boot.pldm.phase = 3 ∧ t.last = some (.pldm 0x17 0 []) else t.last = some (.pldm 0x17 1 [])) ∧
  (∀ (k : Nat) (s : State), s.boot.pldm.phase = 3 → pldmSlot s = some k →
    Runs (.pldmActivate false) s fun t =>
      if (sealDo k s).1 then t.boot.pldm.phase = 0 ∧ t.last = some (.pldm 0x1A 0 [0, 0]) else t.last = some (.pldm 0x1A 1 [])) ∧
  (∀ s : State, s.clk.holdAll = false → s.boot.pldm.phase ≠ 0 →
    Runs .pldmCancel s fun t => t.boot.pldm.phase = 0 ∧ ∃ p, t.last = some (.pldm 0x1D 0 p))

/-- A DISCOVER over I3C that offers version 2, which the Kwaith supports, leaves the association at version 2. On an association
at version 2, a READ of one object that may be read is answered with one item of that index; DESCRIBE and ENUMERATE are
answered; READ_BLOCK of a readable BLOB that has a value answers SUCCESS or MORE from an offset within it. None of them
changes a value of the dictionary that the server does not clear by reading it. What the spec leaves open here is the
model's choice: log entries 27, 28. -/
def Obligations.ObjectAccessReads : Prop :=
  (∀ (k : AssocKey) (h : OaHdr) (vs m : Nat) (s : State), s.clk.holdAll = false → k.binding = .mctpI3c → k.session = none →
    s.io.oa.due = [] → (assocGet s.io k).recent = [] → h = { h with version := 0, flags := 0, status := 0, len := 8, txn := 0 } →
    vs.testBit 1 = true → (dget s.io (idx 0x000101 2) 3).testBit 1 = true →
    Runs (.discover k h vs m) s fun t => (assocGet t.io k).version = 2 ∧ answered t k 0x00 0) ∧
  (∀ (k : AssocKey) (h : OaHdr) (i : Nat) (s : State), frameOk k h (.read [⟨i, 0, []⟩]) s = true → readerOk k i s.io = 0 →
    blockOnly.contains (i / 256) = false →
    Runs (.read k h [⟨i, 0, []⟩]) s fun t =>
      ∃ r, Sent.oaAnswer (assocId k) r ∈ t.io.sent ∧ r.op = 0x01 ∧ r.items.map (·.index) = [i]) ∧
  (∀ (k : AssocKey) (h : OaHdr) (i : Nat) (s : State), frameOk k h (.describe [⟨i, 0, []⟩]) s = true →
    (descriptor k i s.io).1 = 0 → 48 ≤ limitOf s k →
    Runs (.describe k h [⟨i, 0, []⟩]) s fun t => answered t k 0x03 0 ∧ t.io.dic = s.io.dic) ∧
  (∀ (k : AssocKey) (h : OaHdr) (i : Nat) (s : State), frameOk k h (.enumerate i) s = true →
    Runs (.enumerate k h i) s fun t => (answered t k 0x04 0 ∨ answered t k 0x04 0x12) ∧ t.io.dic = s.io.dic) ∧
  (∀ (k : AssocKey) (h : OaHdr) (n : Nat) (s : State), frameOk k h (.readBlock (idx 0x02010B 0) 0 n) s = true → h.txn = 0 →
    s.io.dic.any (fun p => p.1 == idx 0x02010B 0) = true → s.blob 0x02010B 0 ≠ [] →
    Runs (.readBlock k h (idx 0x02010B 0) 0 n) s fun t =>
      (answered t k 0x05 0 ∨ answered t k 0x05 0x12) ∧ t.io.dic = s.io.dic)

/-- On an association at version 2: a WRITE of 0E:0400 with a value in its range, where the issuer may write it, leaves that
value there; a first WRITE_BLOCK that does not yet reach the total leaves its bytes held; TXN_BEGIN opens one more
transaction and is answered SUCCESS while fewer than 8 are open; TXN_COMMIT and TXN_ABORT leave none of that ID; SUBSCRIBE
within its limits adds a subscription to the object, and UNSUBSCRIBE takes one away; a running action that ends is no longer
running. What the spec leaves open here is the model's choice: log entries 27, 29. -/
def Obligations.ObjectAccessWrites : Prop :=
  (∀ (k : AssocKey) (h : OaHdr) (v : Half) (env : OaEnv) (o : Obj) (s : State), env.flashOk = true → v ≠ 0 → h.txn = 0 →
    frameOk k h (.write [⟨idx 0x0E0400 0, 3, le 2 v.toNat⟩]) s = true → itemAt (idx 0x0E0400 0) = some o →
    writerOk s.start.stage k o 0x0E0400 s.io = 0 →
    Runs (.write k h [⟨idx 0x0E0400 0, 3, le 2 v.toNat⟩] env) s fun t => t.num 0x0E0400 0 = v.toNat) ∧
  (∀ (k : AssocKey) (h : OaHdr) (i n : Nat) (d : Bytes) (env : OaEnv) (s : State),
    frameOk k h (.writeBlock i 0 n d) s = true → h.txn = 0 → blockCheck k i n s = 0 → d.length < n →
    Runs (.writeBlock k h i 0 n d env) s fun t =>
      (assocGet t.io k).part = some { index := i, total := n, data := d, last := s.io.now }) ∧
  (∀ (k : AssocKey) (h : OaHdr) (s : State), frameOk k h .txnBegin s = true → s.io.oa.txns.length < 8 → s.io.oa.txnIds.length < 8 →
    Runs (.txnBegin k h) s fun t => t.io.oa.txns.length = s.io.oa.txns.length + 1 ∧ answered t k 0x10 0) ∧
  (∀ (k : AssocKey) (h : OaHdr) (env : OaEnv) (s : State), frameOk k h .txnCommit s = true → h.txn ≠ 0 →
    Runs (.txnCommit k h env) s fun t => t.io.oa.txns.all (fun x => x.id != h.txn) = true) ∧
  (∀ (k : AssocKey) (h : OaHdr) (s : State), frameOk k h .txnAbort s = true → h.txn ≠ 0 →
    Runs (.txnAbort k h) s fun t => t.io.oa.txns.all (fun x => x.id != h.txn) = true ∧ answered t k 0x12 0) ∧
  (∀ (k : AssocKey) (h : OaHdr) (i n : Nat) (s : State), frameOk k h (.subscribe i 2 n) s = true → readerOk k i s.io = 0 →
    10 ≤ n → n ≤ 3600000 → s.io.oa.subs.length < 64 →
    Runs (.subscribe k h i 2 n) s fun t => answered t k 0x20 0 ∧
      t.io.oa.subs.any (fun x => x.assoc == assocId k && x.index == i && x.mode == 2 && x.interval == n) = true) ∧
  (∀ (k : AssocKey) (h : OaHdr) (id : Nat) (s : State), frameOk k h (.unsubscribe id) s = true →
    s.io.oa.subs.any (fun x => x.id == id && x.assoc == assocId k) = true →
    Runs (.unsubscribe k h id) s fun t => answered t k 0x21 0 ∧
      t.io.oa.subs.any (fun x => x.id == id && x.assoc == assocId k) = false) ∧
  (∀ (i st : Nat) (res : Bytes) (s : State), st ≠ 9 → cmdRuns s.io (i / 256) = true →
    Runs (.cmdDone i st res) s fun t => cmdRuns t.io (i / 256) = false)

/-- A frame under 16 bytes on a binding without a mailbox is counted and discarded. The intervals of a periodic subscription and
of a waiting on-change subscription pass; partial sequences, snapshots, transactions and idle Ethernet associations end with
their timers, and a reassigned endpoint ID ends its association. A secured record that is authentic is answered. A mailbox
request in place is answered. An acknowledged notification buffer is the Kwaith's again where nothing waits. Commands to
restore defaults and to reset restart stage 0. What the spec leaves open here is the model's choice: log entries 30, 31. -/
def Obligations.ObjectAccessExpiries : Prop :=
  (∀ (a : AssocKey) (b : Bytes) (s : State), s.clk.holdAll = false → b.length < 16 → (mboxOf a).isSome = false →
    Runs (.shortFrame a b) s fun t =>
      t.num 0x010111 (bindingNo a.binding) = satAdd 32 (s.num 0x010111 (bindingNo a.binding)) 1) ∧
  (∀ (x : Sub) (s : State), s.io.oa.subs = [x] → x.mode = 2 →
    Runs (.notifyPeriodic x.id) s fun t => x.sentAt.getD s.io.now + ms x.interval ≤ t.io.now) ∧
  (∀ (x : Sub) (s : State), s.io.oa.subs = [x] → x.mode = 1 → x.waiting = true →
    Runs (.onChangeExpiry x.id) s fun t => x.sentAt.getD s.io.now + ms x.interval ≤ t.io.now) ∧
  (∀ (a : AssocKey) (x : Assoc) (p : PartialBlock) (s : State), assocOf s.io a = some x → x.part = some p →
    Runs (.writeBlockTimeout a) s fun t => (assocGet t.io a).part = none ∧ p.last + sec 10 ≤ t.io.now) ∧
  (∀ (a : AssocKey) (x : Assoc) (p : Snapshot) (s : State), assocOf s.io a = some x → x.snapshot = some p →
    Runs (.snapshotTimeout a) s fun t => (assocGet t.io a).snapshot = none ∧ p.last + sec 10 ≤ t.io.now) ∧
  (∀ (x : Txn) (s : State), s.io.oa.txns.find? (fun t => t.id == x.id) = some x →
    Runs (.txnTimeout x.id) s fun t => t.io.oa.txns.all (fun y => y.id != x.id) = true ∧ x.last + sec 10 ≤ t.io.now) ∧
  (∀ (a : AssocKey) (x : Assoc) (s : State), a.binding = .mgmtEth → assocOf s.io a = some x →
    Runs (.assocIdleTimeout a) s fun t => assocOf t.io a = none) ∧
  (∀ (b : Binding) (e : Nat) (s : State), (b = .mctpI3c ∨ b = .mctpVdm) →
    Runs (.endpointReassign b e) s fun t => t.io.oa.assocs.all (fun x => !(x.key.binding == b && x.key.key == e)) = true) ∧
  (∀ (a : AssocKey) (n : Nat) (q : OaReq) (env : OaEnv) (x : Session) (s : State), a.binding = .mgmtEth →
    (admitFrame { a with session := some n } true s).1 = true → s.io.oa.sessions.find? (fun y => y.id == n) = some x →
    (assocGet s.io { x.assoc with session := some n }).recent = [] →
    Runs (.secured a n true q env) s fun t =>
      ∃ r, Sent.oaAnswer (assocId { x.assoc with session := some n }) r ∈ t.io.sent ∧ r.op = bodyOp q.body) ∧
  (∀ (fn : MboxNo) (len : BitVec 13) (env : OaEnv) (q : OaReq) (s : State), fn.val < 16 → s.clk.holdAll = false → s.io.oa.due = [] →
    regBit .mboxStatus fn.val 0 s.io = false → 16 ≤ len.toNat → len.toNat ≤ 4096 →
    parseFrame (mboxKey fn.val) (memGets 0 (mboxAt s.io fn.val).request 0 len.toNat) = some q →
    (assocGet s.io (mboxKey fn.val)).recent = [] →
    Runs (.mboxDoorbell fn len env) s fun t =>
      ∃ r, Sent.oaAnswer (mboxKey fn.val) r ∈ t.io.sent ∧ r.op = bodyOp q.body) ∧
  (∀ (fn : MboxNo) (s : State), mboxExists fn.val = true → assocOf s.io (mboxKey fn.val) = none →
    Runs (.mboxNotifyAck fn true) s fun t => (mboxAt t.io fn.val).held = false) ∧
  (∀ (by_ : Issuer) (s : State), s.allows by_ 0x010120 → Runs (.oaRestoreDefaults by_ 1) s fun t => t.start.stage = 0) ∧
  (∀ (by_ : Issuer) (s : State), s.allows by_ 0x010010 → Runs (.devWarmReset by_ 1) s fun t => t.start.stage = 0)

/-- A request that the server admits, in the order SPDM asks for, is answered with its own response: the version, the
capabilities, the algorithms, digests, a portion of the chain of slot 0, and with the attestation identity present a
challenge, measurements and a key exchange, which opens a session below eight. A finished session answers heartbeats and key
updates and ends on request; one that has been silent ends. FINISH that verifies finishes the session. What the spec leaves
open here is the model's choice: log entries 14, 26. -/
def Obligations.SpdmRuns : Prop :=
  (∀ (a : AssocKey) (s : State), spdmReady a s = true → Runs (.spdmGetVersion a) s fun t => spdmSaid t (spdmKey a) 0x04) ∧
  (∀ (a : AssocKey) (f : Nat) (s : State), spdmReady a s = true → (spdmAt s.io (spdmKey a)).version = true →
    Runs (.spdmGetCapabilities a f) s fun t => spdmSaid t (spdmKey a) 0x61 ∧ (spdmAt t.io (spdmKey a)).caps = true) ∧
  (∀ (a : AssocKey) (y h d e : Nat) (s : State), spdmReady a s = true → (spdmAt s.io (spdmKey a)).caps = true →
    Runs (.spdmNegotiateAlgorithms a y h d e) s fun t => spdmSaid t (spdmKey a) 0x63 ∧
      (spdmAt t.io (spdmKey a)).algorithms = (y &&& 0x80 != 0 && h &&& 2 != 0)) ∧
  (∀ (a : AssocKey) (s : State), spdmReady a s = true → (spdmAt s.io (spdmKey a)).algorithms = true →
    Runs (.spdmGetDigests a) s fun t => spdmSaid t (spdmKey a) 0x01) ∧
  (∀ (a : AssocKey) (n : Nat) (s : State), spdmReady a s = true → (spdmAt s.io (spdmKey a)).algorithms = true →
    Runs (.spdmGetCertificate a 0 0 n) s fun t => spdmSaid t (spdmKey a) 0x02) ∧
  (∀ (a : AssocKey) (nonce : Bytes) (s : State), spdmReady a s = true → (spdmAt s.io (spdmKey a)).algorithms = true →
    s.num 0x02010A 0 = 0 → Runs (.spdmChallenge a 0 nonce) s fun t => spdmSaid t (spdmKey a) 0x03) ∧
  (∀ (a : AssocKey) (i : Nat) (sign : Bool) (nonce : Bytes) (s : State), spdmReady a s = true →
    (spdmAt s.io (spdmKey a)).algorithms = true → (i ≤ 3 ∨ i = 0xFF) → s.num 0x02010A 0 = 0 →
    Runs (.spdmGetMeasurements a i sign nonce) s fun t => spdmSaid t (spdmKey a) 0x60) ∧
  (∀ (a : AssocKey) (mu : Bool) (x : Bytes) (s : State), spdmReady a s = true → (spdmAt s.io (spdmKey a)).keys = true →
    s.num 0x02010A 0 = 0 → s.io.oa.sessions.length < 8 →
    Runs (.spdmKeyExchange a mu x) s fun t => spdmSaid t (spdmKey a) 0x64 ∧
      t.io.oa.sessions.length = s.io.oa.sessions.length + 1) ∧
  (∀ (x : Session) (chain fin : Bytes) (s : State), s.clk.holdAll = false →
    s.io.oa.sessions = [x] → x.finished = false → x.mutualAuth = false →
    Runs (.spdmFinish x.id chain fin) s fun t =>
      if Config.finishVerified x.id fin then spdmSaid t x.assoc 0x65 ∧ t.io.oa.sessions.any (fun y => y.id == x.id && y.finished) = true
      else spdmSaid t x.assoc 0x7F) ∧
  (∀ (x : Session) (s : State), s.clk.holdAll = false → s.io.oa.sessions.find? (fun y => y.id == x.id) = some x → x.finished = true →
    Runs (.spdmHeartbeat x.id) s fun t => spdmSaid t x.assoc 0x68) ∧
  (∀ (x : Session) (s : State), s.clk.holdAll = false → s.io.oa.sessions.find? (fun y => y.id == x.id) = some x → x.finished = true →
    Runs (.spdmKeyUpdate x.id) s fun t => spdmSaid t x.assoc 0x69 ∧
      t.io.oa.sessions.any (fun y => y.id == x.id && y.keyGen == x.keyGen + 1) = true) ∧
  (∀ (x : Session) (s : State), s.clk.holdAll = false → s.io.oa.sessions.find? (fun y => y.id == x.id) = some x → x.finished = true →
    Runs (.spdmEndSession x.id) s fun t => spdmSaid t x.assoc 0x6C ∧ t.io.oa.sessions.all (fun y => y.id != x.id) = true) ∧
  (∀ (x : Session) (s : State), s.io.oa.sessions.find? (fun y => y.id == x.id) = some x →
    Runs (.spdmHeartbeatTimeout x.id) s fun t => t.io.oa.sessions.all (fun y => y.id != x.id) = true)

/-- On a link that is up, the last bytes of an outstanding read finish it with status 0; an expired read is finished with status
3, its tag quarantined; a quarantine that ends leaves no such tag. An improper access is counted against class 1 of the
journal, and a read of it completes with CA. A write TLP inside an active, write-enabled window to a live drive port goes
downstream. A commit without a cause of refusal activates the shadow windows, one with a cause reports it; drained windows
clear BUSY. Unmasking sends a pending message; an invalidation drops the pages and completes; a supported configuration
write is in the function's space; a page response fills the cache or faults the page. A host write of an admin queue base of
a function that takes writes, while the queue is off, sets the RW bits. What the spec leaves open here is the model's
choice: log entries 6, 33, 34, 36. -/
def Obligations.HostCommandsRun : Prop :=
  (∀ (l : LinkNo) (c : CplTlp) (r : HostReq) (s : State), (linkAt s.io l).up = true →
    (linkAt s.io l).reqs.find? (fun x => x.tag == c.tag) = some r → c.status = 0 → cplAgrees r c = true → c.poisoned = false →
    r.got + c.data.length = r.len → Runs (.completionReceived l c) s fun t => (c.tag, 0) ∈ (linkAt t.io l).done) ∧
  (∀ (l : LinkNo) (r : HostReq) (s : State), (linkAt s.io l).reqs.find? (fun x => x.tag == r.tag) = some r →
    Runs (.completionTimeout l r.tag) s fun t => (r.tag, 3) ∈ (linkAt t.io l).done ∧
      (linkAt t.io l).quarantined.any (fun q => q.tag == r.tag && q.fn == r.fn) = true) ∧
  (∀ (l : LinkNo) (q : Quarantine) (s : State), (linkAt s.io l).quarantined.find? (fun x => x.tag == q.tag) = some q →
    Runs (.tagQuarantineEnd l q.tag) s fun t => (linkAt t.io l).quarantined.all (fun x => x.tag != q.tag) = true ∧ q.ends ≤ t.io.now) ∧
  (∀ (fn : Fn) (o n : Nat) (w : Bool) (s : State),
    Runs (.improperAccess fn o n w) s fun t => t.num 0x120101 3 = satAdd 64 (s.num 0x120101 3) 1 ∧
      (w = false → Sent.completion fn 4 [] ∈ t.io.sent)) ∧
  (∀ (l : LinkNo) (pf : Pf) (x : Bar2Tlp) (w : PeerWin) (s : State), (linkAt s.io l).up = true →
    (pfLinks s.io pf).contains l.val = true → x.poisoned = false → x.write = true → (fnCfg s.io (4 * l + pf)).memEnable = true →
    bar2Size s.io pf ≠ 0 → winFor s.io (4 * l + pf) x = some w → w.ty = 1 → (bayOf s w.port).link = true →
    (bayOf s w.port).contained = false →
    Runs (.bar2Tlp l pf x) s fun t =>
      t.last = some (.downstream w.port true (w.target + (x.offset - w.offset)) x.data x.data.length false)) ∧
  (∀ (l : LinkNo) (pf : Pf) (s : State),
    Runs (.peerwinCommit l pf true) s fun t =>
      if commitCause (4 * l + pf) s.start.stage s.io = 0 then (winsAt t.io (4 * l + pf)).active = shadowWins (4 * l + pf) s.io
      else regField .peerStatus (4 * l + pf) 7 4 t.io = commitCause (4 * l + pf) s.start.stage s.io) ∧
  (∀ (l : LinkNo) (pf : Pf) (s : State), winsDrained s (4 * l + pf) = true →
    Runs (.peerwinDrainDone l pf) s fun t => regBit .peerStatus (4 * l + pf) 1 t.io = false) ∧
  (∀ (fn : Fn) (v : Fin 2048) (s : State), v.val < fnVectors fn → (fnCfg s.io fn).msix = true → (fnCfg s.io fn).fmask = false →
    frozen s.io fn = false → (fnCfg s.io fn).pending.contains v.val = true →
    Runs (.msixUnmask fn v) s fun t => Sent.msix fn v (messageOf (fnCfg s.io fn) v).1 (messageOf (fnCfg s.io fn) v).2 ∈ t.io.sent ∧ (fnCfg t.io fn).pending.contains v.val = false) ∧
  (∀ (fn : Fn) (tag page count : Nat) (s : State), (fnCfg s.io fn).ats = true →
    Runs (.atsInvalidate fn tag page count) s fun t => t.last = some (.atsCompletion fn tag) ∧
      t.io.host.atc.all (fun x => !(x.1 == fn.val && page ≤ x.2 && x.2 < page + count)) = true) ∧
  (∀ (fn : Fn) (w : CfgWrite) (s : State), cfgTakes w = true →
    Runs (.configurationWrite fn w) s fun t => ∃ l, fnCfg t.io fn = { cfgWritten (fnCfg s.io fn) w with pending := l }) ∧
  (∀ (fn : Fn) (i page : Nat) (granted : Bool) (s : State), (fnCfg s.io fn).ats = true → (fnCfg s.io fn).pri = true →
    Runs (.pageRequestResponse fn i page granted) s fun t =>
      if granted then (fn.val, page) ∈ t.io.host.atc else (fn.val, page) ∈ t.io.host.pageFaults) ∧
  (∀ (fn : Fn) (v : Word64) (s : State), fnTakes s.io fn = true → admTakes s.io fn = true →
    Runs (.registerWrite (.whole ⟨.admSqBase, fn⟩ v)) s fun t => regGet .admSqBase fn t.io = written .admSqBase (regGet .admSqBase fn s.io) v)

/-- At stage 3, VF Enable written 1 where it is 0 sets it and brings up the VFs that the runs in force cover; written 0 where it
is 1 it reads 0 and, where VFs were up, none is. NumVFs within TotalVFs is taken while VF Enable is 0. An FLR of a VF that
is up begins, and its completion leaves the VF fresh and out of FLR. What the spec leaves open here is the model's choice:
log entries 37. -/
def Obligations.VfCommandsRun : Prop :=
  (∀ (pf : Pf) (s : State), s.start.stage = 3 → (fnCfg s.io (activeTwin s.io pf)).vfEnable = false →
    Runs (.vfEnableSet pf) s fun t => (fnCfg t.io (activeTwin s.io pf)).vfEnable = true ∧
      ∀ n ∈ span (vfBase s.io pf) (fnCfg s.io (activeTwin s.io pf)).numVfs, vfCovered s.io n = true → (vfAt t.io n).up = true) ∧
  (∀ (pf : Pf) (s : State), s.start.stage = 3 → (fnCfg s.io (activeTwin s.io pf)).vfEnable = true →
    Runs (.vfEnableClear pf) s fun t => (fnCfg t.io (activeTwin t.io pf)).vfEnable = false ∧
      ∀ n ∈ vfsUp s.io pf, (vfAt t.io n).up = false) ∧
  (∀ (pf : Pf) (n : Nat) (s : State), (fnCfg s.io (activeTwin s.io pf)).vfEnable = false → n ≤ vfTotal s.io pf →
    Runs (.numvfsWrite pf n) s fun t => (fnCfg t.io (activeTwin s.io pf)).numVfs = n) ∧
  (∀ (vf : Vf) (s : State), (vfAt s.io vf).up = true → (vfAt s.io vf).inFlr = false →
    Runs (.vfFlr vf) s fun t => (vfAt t.io vf).inFlr = true) ∧
  (∀ (vf : Vf) (s : State), (vfAt s.io vf).inFlr = true →
    Runs (.vfFlrComplete vf) s fun t => (vfAt t.io vf).inFlr = false ∧ (vfAt t.io vf).fresh = true)

/-- An operation of 05:0100 that passes the checks of R173 and R175: FREEZE freezes; DRAIN is in progress; SAVE with a large
enough buffer and no other SAVE or RESTORE waiting is SAVING, RESTORE of a fresh VF RESTORING; RESUME with no mailbox
request held runs; TRACK_START of an aligned range within the pool tracks it, TRACK_STOP tracks nothing; HARVEST into a
large enough buffer swaps the banks. A drain that is done leaves DRAINED, a late one fails with result 2; a written save
leaves SAVED, a failed write DRAINED with result 4; a restore whose blob passes leaves DRAINED, one that could not be read
leaves a fresh FROZEN VF with result 5; a copied harvest gives up the retired bank, a failed one ends with result 4. What
the spec leaves open here is the model's choice: log entries 38, 39. -/
def Obligations.MigrationRuns : Prop :=
  (∀ (b : Issuer) (arg : Bytes) (n : Nat) (s : State), migReady b arg 1 n s = true →
    Runs (.migFreeze b arg) s fun t => (vfAt t.io n).state = .frozen ∧ told t b 0x050100 0) ∧
  (∀ (b : Issuer) (arg : Bytes) (n : Nat) (s : State), migReady b arg 2 n s = true →
    Runs (.migDrain b arg) s fun t => (∃ o, (vfAt t.io n).op = some o ∧ o.op = 2) ∧ told t b 0x050100 9) ∧
  (∀ (b : Issuer) (arg : Bytes) (n : Nat) (s : State), migReady b arg 3 n s = true → s.io.vf.queue = [] → migRunning s.io < 8 →
    blobSize (vfAt s.io n) ≤ field arg 0x10 8 →
    Runs (.migSave b arg) s fun t => (vfAt t.io n).state = .saving ∧ told t b 0x050100 9) ∧
  (∀ (b : Issuer) (arg : Bytes) (n : Nat) (s : State), migReady b arg 4 n s = true → s.io.vf.queue = [] → migRunning s.io < 8 →
    (vfAt s.io n).fresh = true →
    Runs (.migRestore b arg) s fun t => (vfAt t.io n).state = .restoring ∧ told t b 0x050100 9) ∧
  (∀ (b : Issuer) (arg : Bytes) (env : OaEnv) (n : Nat) (s : State), migReady b arg 5 n s = true → s.io.oa.due = [] →
    (vfAt s.io n).mboxHeld = none →
    Runs (.migResume b arg env) s fun t => (vfAt t.io n).state = .running ∧ told t b 0x050100 0) ∧
  (∀ (b : Issuer) (arg : Bytes) (n : Nat) (s : State), migReady b arg 6 n s = true →
    Runs (.trackStart b arg) s fun t => (told t b 0x050100 0 ∨ told t b 0x050100 0x11) ∧
      (field arg 8 8 % 2097152 = 0 → field arg 0x10 8 % 2097152 = 0 → field arg 0x10 8 ≠ 0 → field arg 0x10 8 ≤ 2 ^ 40 →
        trackUsed s.io + 2 * ceilDiv (field arg 0x10 8 / (if field arg 4 1 = 0 then 4096 else 2097152)) 8 ≤ s.io.vf.trackPool * 2 ^ 20 →
        ∃ x, (vfAt t.io n).track = some x ∧ x.base = field arg 8 8 ∧ x.len = field arg 0x10 8 ∧ x.live = [] ∧ x.retired = none ∧
          x.granule = (if field arg 4 1 = 0 then 4096 else 2097152))) ∧
  (∀ (b : Issuer) (arg : Bytes) (n : Nat) (s : State), migReady b arg 7 n s = true →
    Runs (.trackStop b arg) s fun t => (vfAt t.io n).track = none ∧ told t b 0x050100 0) ∧
  (∀ (b : Issuer) (arg : Bytes) (n : Nat) (x : Track) (s : State), migReady b arg 8 n s = true → (vfAt s.io n).track = some x →
    bankBytes x ≤ field arg 0x10 8 →
    Runs (.migHarvest b arg) s fun t => (vfAt t.io n).track = some { x with live := [], retired := some x.live } ∧ told t b 0x050100 9) ∧
  (∀ (vf : Vf) (o : MigOp) (s : State), (vfAt s.io vf).op = some o → o.op = 2 → vfIdle s vf = true →
    Runs (.drainComplete vf) s fun t => (vfAt t.io vf).state = .drained ∧ (vfAt t.io vf).lastResult = 0 ∧ (vfAt t.io vf).op = none) ∧
  (∀ (vf : Vf) (o : MigOp) (s : State), (vfAt s.io vf).op = some o → o.op = 2 →
    Runs (.drainTimeout vf) s fun t => (vfAt t.io vf).op = none ∧ (vfAt t.io vf).lastResult = 2) ∧
  (∀ (vf : Vf) (o : MigOp) (ok : Bool) (s : State), migRuns 3 vf o s = true →
    Runs (.saveComplete vf ok) s fun t => (vfAt t.io vf).state = (if ok then .saved else .drained) ∧
      (vfAt t.io vf).lastResult = (if ok then 0 else 4)) ∧
  (∀ (vf : Vf) (o : MigOp) (s : State), migRuns 4 vf o s = true →
    Runs (.restoreComplete vf none) s fun t => (vfAt t.io vf).state = .frozen ∧ (vfAt t.io vf).lastResult = 5) ∧
  (∀ (vf : Vf) (o : MigOp) (b : MigBlob) (s : State), migRuns 4 vf o s = true → blobResult s vf o.len b = 0 →
    Runs (.restoreComplete vf (some b)) s fun t => (vfAt t.io vf).state = .drained ∧ (vfAt t.io vf).lastResult = 0) ∧
  (∀ (vf : Vf) (o : MigOp) (x : Track) (ok : Bool) (s : State), (vfAt s.io vf).op = some o → o.op = 8 → (vfAt s.io vf).track = some x →
    Runs (.harvestComplete vf ok) s fun t => (vfAt t.io vf).op = none ∧ (vfAt t.io vf).lastResult = (if ok then 0 else 4))

/-- A doorbell of an idle, active submission ring starts a scan. A batch whose one entry passes every check accepts it. A
fetched NOP completes; a fetched RECEIVE_POST posts its buffer; a fetched TRANSMIT whose frame was read and has room enters
staging with its offloads applied, and completes once done. A control block read gives the consumer counter seen where it is
valid, a failed one puts the ring in ERROR; the poll timer reads again while completions are held; the coalescing timer
interrupts and restarts its count. A drain with nothing left ends: the ring is gone, or no longer drains. What the spec
leaves open here is the model's choice: log entries 40, 42. -/
def Obligations.RingsRun : Prop :=
  (∀ (fn : Fn) (page : Nat) (slot : Fin 16) (id : Nat) (r : Ring) (s : State),
    s.io.rings.rings.find? (fun p => p.2.owner == fn.val && p.2.page == page && p.2.slot == slot.val) = some (id, r) →
    ringOf s.io id = some r → frozen s.io fn = false → r.isCq = false → r.state = .active → r.scan = false → r.sheepdog = false →
    r.fetched.length < 64 → Runs (.ringDoorbell fn page slot) s fun t => ringIs t id (fun x => x.scan && !x.scanAgain)) ∧
  (∀ (id : Nat) (r : Ring) (b : Bytes) (e : EntryRead) (f : Fetched) (s : State), ringOf s.io id = some r → r.scan = true →
    r.state = .active → r.fetched = [] → e.entry = some b → entryPhase r.fmt b = wantPhase r → r.doubleRead = false →
    takeEntry r b e = .entry f 0 → f.done = none →
    Runs (.fetchBatchReturn id [e]) s fun t => ringIs t id (fun x => x.counter == r.counter + 1 && x.fetched == [f])) ∧
  (∀ (id : Nat) (c : Word32) (r : Ring) (f : Fetched) (s : State), ringOf s.io id = some r → r.fetched = [f] →
    f.counter = c.toNat → f.done = none → f.opcode = 0 → Runs (.ringNop id c) s fun t => ringIs t id (fun x => x.fetched.isEmpty)) ∧
  (∀ (id : Nat) (c : Word32) (r : Ring) (f : Fetched) (s : State), ringOf s.io id = some r → r.fetched = [f] → r.kind = 2 →
    r.state = .active → f.counter = c.toNat → f.done = none → f.opcode = 2 →
    Runs (.receivePost id c) s fun t => ringIs t id (fun x => x.fetched == [{ f with started := true }])) ∧
  (∀ (id : Nat) (c : Word32) (r : Ring) (f : Fetched) (b : Bytes) (s : State), ringOf s.io id = some r →
    fetchedAt r c.toNat = some f → f.opcode = 1 → f.started = false →
    unitsIn s.net.hostQ + unitsOf (offloads f (padTo f.length b)) ≤ 4 * dget s.io (idx 0x070121 0) 8192 →
    Runs (.ringTransmit id c (some b)) s fun t => ∃ k, t.net.hostQ = s.net.hostQ ++ [k] ∧ k.frame = offloads f (padTo f.length b)) ∧
  (∀ (id : Nat) (c : Word32) (r : Ring) (f : Fetched) (s : State), ringOf s.io id = some r → r.fetched = [f] →
    f.counter = c.toNat → f.done = none → f.opcode = 1 → f.started = true → f.timestamp = false →
    Runs (.transmitDone id c) s fun t => ringIs t id (fun x => x.fetched.isEmpty)) ∧
  (∀ (id : Nat) (c : Word32) (arm : Bool) (r : Ring) (s : State), ringOf s.io id = some r → r.awaiting = [] → r.overflow = [] →
    r.spill = [] → r.stopped = false → (r.counter - c).toNat ≤ 2 ^ r.log2n →
    Runs (.cqCtlblkRead id (some (c, arm))) s fun t => ringIs t id (fun x => x.seen == c)) ∧
  (∀ (id : Nat) (r : Ring) (s : State), ringOf s.io id = some r →
    Runs (.cqCtlblkRead id none) s fun t => ringIs t id (fun x => x.state == .error)) ∧
  (∀ (id : Nat) (r : Ring) (s : State), ringOf s.io id = some r → (r.overflow ≠ [] ∨ r.spill ≠ []) →
    Runs (.cqPollTimer id) s fun t => ringIs t id (fun x => x.reads.length == r.reads.length + 1)) ∧
  (∀ (id : Nat) (r : Ring) (s : State), ringOf s.io id = some r → r.armed = true → 0 < r.k → 1 ≤ r.since →
    Runs (.coalesceTimer id) s fun t => ringIs t id (fun x => x.since == 0 && x.armed == r.autoArm) ∧ r.firstAt + us r.t ≤ t.io.now) ∧
  (∀ (id : Nat) (r : Ring) (d : Drain) (s : State), ringOf s.io id = some r → r.drain = some d → r.fetched = [] →
    s.net.fold.any (fun x => x.src == ringSrc id) = false → s.net.hostQ.any (fun x => x.src == ringSrc id) = false →
    Runs (.ringDrainDone id) s fun t =>
      if d.start.isSome then ringIs t id (fun x => x.drain.isNone) else ringOf t.io id = none)

/-- ENABLE written 1 with the registers of R211 in range, and two ring IDs free, creates both admin rings and sets READY;
written 0 it drains the admin submission ring; the rings' deletion takes it and READY away. With a running admin queue at
stage 3: a CREATE_CQ and a CREATE_SQ whose arguments pass, while an ID is free, create a ring with the base and owner asked
for; MODIFY_QUEUE changes the selected fields; RESET_QUEUE leaves a completion ring active with no cause and a submission
ring draining; DELETE_QUEUE drains a submission ring and takes away a completion ring that none is bound to; QUERY_QUEUE
writes the 24 bytes of R212 into the admin completion ring where it has a free slot. What the spec leaves open here is the
model's choice: log entries 41. -/
def Obligations.AdminQueueRuns : Prop :=
  (∀ (fn : Fn) (a b : Nat) (s : State), (admOf s.io fn).stopping = false → (admOf s.io fn).sq = none → (admOf s.io fn).events = [] →
    admCause fn s.start.stage true s.io = 0 → a < b → b < 2 ^ 20 → ringOf s.io a = none → ringOf s.io b = none →
    Runs (.admEnableSet fn true) s fun t => (admOf t.io fn).sq.isSome = true ∧ (admOf t.io fn).cq.isSome = true ∧
      regBit .admStatus fn 0 t.io = true ∧ regBit .admCtrl fn 0 t.io = true) ∧
  (∀ (fn : Fn) (k : Nat) (r : Ring) (s : State), (admOf s.io fn).stopping = false → (admOf s.io fn).sq = some k →
    ringOf s.io k = some r → Runs (.admEnableClear fn) s fun t => ringIs t k (fun x => x.state == .draining) ∧
      (admOf t.io fn).stopping = true ∧ regBit .admCtrl fn 0 t.io = false) ∧
  (∀ (fn : Fn) (k : Nat) (tr : Bool) (s : State), (admOf s.io fn).stopping = true → (admOf s.io fn).startHeld = false →
    (admOf s.io fn).sq = some k → Runs (.adminRingsDeleted fn tr) s fun t => ringOf t.io k = none ∧ (admOf t.io fn).sq = none ∧
      regBit .admStatus fn 0 t.io = false) ∧
  (∀ (fn : Fn) (e : Bytes) (k : Nat) (s : State), adoptHolds fn s = false → admRuns s.io fn = true →
    createCqStatus fn s.start.stage s.start.adopted e s.io = 0 → k < 2 ^ 20 → ringOf s.io k = none →
    Runs (.createCq fn e) s fun t => ∃ id r, ringOf s.io id = none ∧ ringOf t.io id = some r ∧ r.isCq = true ∧
      r.owner = fn.val ∧ r.base = BitVec.ofNat 64 (field e 8 8) ∧ r.log2n = field e 0x18 1) ∧
  (∀ (fn : Fn) (e : Bytes) (k : Nat) (s : State), adoptHolds fn s = false → admRuns s.io fn = true →
    createSqStatus fn s.start.stage s.start.adopted e (wireOf s) = 0 → k < 2 ^ 20 → ringOf s.io k = none →
    Runs (.createSq fn e) s fun t => ∃ id r, ringOf s.io id = none ∧ ringOf t.io id = some r ∧ r.isCq = false ∧
      r.owner = fn.val ∧ r.base = BitVec.ofNat 64 (field e 8 8) ∧ r.cq = field e 0x10 4) ∧
  (∀ (fn : Fn) (e : Bytes) (id : Nat) (r : Ring) (s : State), admRuns s.io fn = true →
    admRing fn s.start.stage e [(0x0D, 3), (0x1C, 36)] false s.io = .inr (id, r) → modifyStatus fn e r s.io = 0 →
    Runs (.modifyQueue fn e) s fun t => ringIs t id (fun x => x.vector == (modified e r).vector && x.k == (modified e r).k &&
      x.t == (modified e r).t && x.quota == (modified e r).quota && x.weight == (modified e r).weight)) ∧
  (∀ (fn : Fn) (e : Bytes) (id : Nat) (r : Ring) (s : State), admRuns s.io fn = true →
    admRing fn s.start.stage e [(0x10, 48)] false s.io = .inr (id, r) → r.state ≠ .draining →
    Runs (.resetQueue fn e) s fun t => ringIs t id (fun x => x.state == (if r.isCq then .active else .draining))) ∧
  (∀ (fn : Fn) (e : Bytes) (id : Nat) (r : Ring) (s : State), admRuns s.io fn = true →
    admRing fn s.start.stage e [(0x0C, 52)] false s.io = .inr (id, r) → r.state ≠ .draining → boundTo s.io id = [] →
    Runs (.deleteQueue fn e) s fun t => if r.isCq then ringOf t.io id = none else ringIs t id (fun x => x.state == .draining)) ∧
  (∀ (fn : Fn) (e : Bytes) (id k : Nat) (r q c : Ring) (f : Fetched) (s : State), admRuns s.io fn = true →
    admRing fn s.start.stage e [(0x0C, 52)] true s.io = .inr (id, r) → (admOf s.io fn).sq = some k → (admOf s.io fn).stopping = false →
    ringOf s.io k = some q → q.fetched = [f] → f.done = none → f.tag = field e 4 4 → f.opcode = field e 1 1 → f.suppress = false →
    ringOf s.io q.cq = some c → q.cq ≠ k → c.fmt = 2 → c.state = .active → c.awaiting = [] → c.overflow = [] → c.spill = [] →
    0 < cqFree c c.seen →
    Runs (.queryQueue fn e) s fun t => ∃ p a, p.status = 0 ∧ p.extra = queryBytes s.io id r ∧
      Sent.hostWrite c.owner a (cplBodyV2 p) ∈ t.io.sent)

/-- A good data frame on a port that is up, where its ingress queue may take it, enters that queue last; one whose FEC failed is
counted. A PFC frame pauses the priority for its quanta; a pause that runs out is gone; an XOFF that still holds is sent
again. A port that is up transmits the head of the highest unpaused priority. A link that goes down empties the port; a port
that may run comes up. What the spec leaves open here is the model's choice: log entries 44. -/
def Obligations.PortsRun : Prop :=
  (∀ (p : PortNo) (f : Bytes) (s : State), s.net.frozen = false → portExists s.net p = true → (portAt s.net p).up = true →
    60 ≤ f.length → f.length + 4 ≤ dget s.io (idx 0x070002 (p + 1)) 9622 → fb f 12 2 ≠ 0x8808 →
    mayTake (wireOf s) p (ingressUse (wireOf s) p (if tagged f then fb f 14 2 / 2 ^ 13 else dget s.io (idx 0x070011 (p + 1)) 0)) (unitsOf f) = true →
    Runs (.macFrameReceived p f true true) s fun t =>
      (portAt t.net p).inQ.map (·.frame) = (portAt s.net p).inQ.map (·.frame) ++ [f]) ∧
  (∀ (p : PortNo) (f : Bytes) (ok : Bool) (s : State), s.net.frozen = false → portExists s.net p = true → (portAt s.net p).up = true →
    Runs (.macFrameReceived p f false ok) s fun t => t.num 0x070005 (p + 1) = satAdd 64 (s.num 0x070005 (p + 1)) 1) ∧
  (∀ (p : PortNo) (q : Fin 8) (n : Half) (s : State), s.net.frozen = false → portExists s.net p = true → (portAt s.net p).up = true →
    Runs (.pfcFrame p q n) s fun t => mget (portAt t.net p).paused q =
      if n = 0 then none else some (s.io.now + ceilDiv (n.toNat * 512) (modeSpeed s.net.mode))) ∧
  (∀ (p : PortNo) (q : Fin 8) (e : Nat) (s : State), mget (portAt s.net p).paused q = some e →
    Runs (.pfcPauseExpiry p q) s fun t => mget (portAt t.net p).paused q = none ∧ e ≤ t.io.now) ∧
  (∀ (p : PortNo) (q : Fin 8) (e : Nat) (s : State), mget (portAt s.net p).xoff q = some e →
    Runs (.xoffRefresh p q) s fun t => t.last = some (.pfc p q 0xFFFF) ∧ mget (portAt t.net p).xoff q = some t.io.now) ∧
  (∀ (p : PortNo) (q : Nat) (k : Pkt) (r : List Pkt) (s : State), s.net.frozen = false → (portAt s.net p).up = true →
    egressPick (portAt s.net p) s.io.now = some q → mgetD (portAt s.net p).egress q [] = k :: r →
    s.net.damaged.contains k.handle = false →
    Runs (.egressTransmit p) s fun t => t.last = some (.frame p q k.frame) ∧ mgetD (portAt t.net p).egress q [] = r) ∧
  (∀ (p : PortNo) (s : State), (portAt s.net p).up = true →
    Runs (.portLinkDown p) s fun t => (portAt t.net p).up = false ∧ (portAt t.net p).egress = [] ∧ (portAt t.net p).paused = []) ∧
  (∀ (p : PortNo) (s : State), portMayRun (wireOf s) s.start.stage p = true →
    lanesTested s.dbg (fun l => laneKind l == some 0 && laneEthPort s.net l == p.val) = false →
    Runs (.portLinkUp p) s fun t => (portAt t.net p).up = true)

/-- Allowed writes of the trim within its range and of a step are answered 0, the trim held and the time base stepped. Without a
trim the source falls to holdover. The output pulse rises where its width is not 0 and it is low, and falls after its width;
an edge of the input is time-stamped. What the spec leaves open here is the model's choice: log entries 46. -/
def Obligations.TimeBaseRuns : Prop :=
  (∀ (b : Issuer) (v : Word32) (s : State), s.allows b 0x070020 → -500000000 ≤ toSigned 32 v.toNat → toSigned 32 v.toNat ≤ 500000000 →
    Runs (.timeFreqAdj b v) s fun t => t.num 0x070020 0 = v.toNat ∧ t.num 0x010003 0 = 1 ∧ told t b 0x070020 0) ∧
  (∀ (b : Issuer) (v : Word64) (s : State), s.allows b 0x070021 →
    Runs (.timeStep b v) s fun t => t.io.timeBase = s.io.timeBase + v ∧ told t b 0x070021 0) ∧
  (∀ (s : State), s.num 0x010003 0 = 1 → Runs .holdoverExpiry s fun t => t.num 0x010003 0 = 2) ∧
  (∀ (s : State), dget s.io (idx 0x070025 0) 100 ≠ 0 → s.net.ppsOut = false →
    Runs .ppsOutRise s fun t => t.net.ppsOut = true ∧ s.io.now ≤ t.net.ppsAt) ∧
  (∀ (s : State), s.net.ppsOut = true → Runs .ppsOutFall s fun t => t.net.ppsOut = false ∧
    s.net.ppsAt + ms (dget s.io (idx 0x070025 0) 100) ≤ t.io.now) ∧
  (∀ (s : State), Runs .ppsInEdge s fun t => t.num 0x070024 0 = time64 s.io)

/-- Where a region is eligible, an input waits and the Fold has a slot, dealing takes one. The oldest result of a pipeline
leaves it and its packet's slot has its result. A hole with later results behind it is given up when its time has passed. A
held release whose destinations now take it leaves the Fold. What the spec leaves open here is the model's choice: log
entries 45. -/
def Obligations.DroverAndFoldRun : Prop :=
  (∀ (r : Nat) (i : Nat × Nat) (s : State), s.net.frozen = false → nextRegion (wireOf s) s.cont = some r → nextInput (wireOf s) = some i →
    (takeInput (wireOf s) i).isSome = true → s.net.fold.length < 16384 →
    Runs .droverDeal s fun t => s.net.fold.length < t.net.fold.length) ∧
  (∀ (r : RegionNo) (x : Result) (l : List Result) (s : State), s.net.frozen = false → (pipeQ s.net r).outbox = x :: l →
    s.net.lost.find? (fun y => y.1 == x.src && y.2.1 == x.seq) = none →
    Runs (.pipelineResult r) s fun t => (pipeQ t.net r).outbox = l ∧
      t.net.fold.all (fun y => !(y.src == x.src && y.seq == x.seq) || y.result.isSome) = true) ∧
  (∀ (c : BitVec 24) (x : FoldSlot) (y : FoldSlot) (s : State), s.net.frozen = false →
    s.net.fold.find? (fun y => y.src == c.toNat && y.seq == mgetD s.net.next c.toNat 0 && y.result.isNone) = some x →
    y ∈ s.net.fold → y.src = c.toNat → y.result.isSome = true →
    Runs (.holeTimeout c) s fun t => t.net.fold.all (fun z => !(z.src == x.src && z.seq == x.seq)) = true) ∧
  (∀ (c : BitVec 24) (x : FoldSlot) (outs : List Out) (a : Nat) (s : State), s.net.held.contains c.toNat = true →
    s.net.fold.find? (fun y => y.src == c.toNat && y.seq == mgetD s.net.next c.toNat 0) = some x → x.result = some (outs, a) →
    (deliverOuts outs (wireOf s)).1 = [] →
    Runs (.heldReleaseResume c) s fun t => t.net.fold.all (fun z => !(z.src == x.src && z.seq == x.seq)) = true)

/-- Loading from the registers of PF0 while its engine is idle applies the list's records and sets BUSY; 08:0021 with a well-
formed argument is answered IN_PROGRESS, queues its operation, and a RELEASE that starts at once frees its slot. The end of
a PREPARE whose plate has no failure makes its slot READY. A commit of a READY slot makes it LIVE. A pinned body write where
no slot of the mask is VALID is accepted, a control write of 0 takes VALID away, and each applies in a region in order;
08:0030 with a well-formed rule leaves it VALID where asked. A counter cleared holds nothing in any region. What the spec
leaves open here is the model's choice: log entries 48, 49. -/
def Obligations.PlatesRun : Prop :=
  (∀ (l : LinkNo) (slot : Fin 4) (b : Bytes) (s : State), s.start.stage = 3 → s.pipe.ops = [] →
    regBit .pipeLoadStatus (4 * l) 0 s.io = false → regField .pipeLoadLen (4 * l) 26 0 s.io ≤ 2 ^ 26 →
    Runs (.plateLoad (.regs l slot) (some b)) s fun t => regBit .pipeLoadStatus (4 * l) 0 t.io = true ∧ t.pipe.ops.length = 1 ∧
      { t.pipe with ops := [] } = (loadList (b.take (regField .pipeLoadLen (4 * l) 26 0 s.io)) s.pipe).2) ∧
  (∀ (by_ : Issuer) (slot : Fin 4) (s : State), s.allows by_ 0x080021 → cmdRuns s.io 0x080021 = false →
    principalOf by_.assoc.binding ≠ .f →
    Runs (.plateLoad (.cmd by_ [1, BitVec.ofNat 8 slot, 0, 0]) none) s (fun t => told t by_ 0x080021 9 ∧
      t.pipe.ops.length = s.pipe.ops.length + 1) ∧
    Runs (.platePrepare (.cmd by_ [2, BitVec.ofNat 8 slot, 0, 0])) s (fun t => told t by_ 0x080021 9 ∧
      t.pipe.ops.length = s.pipe.ops.length + 1) ∧
    Runs (.plateRelease (.cmd by_ [3, BitVec.ofNat 8 slot, 0, 0])) s (fun t => told t by_ 0x080021 9 ∧
      (s.pipe.ops = [] → slotState s.pipe slot = 2 → slotState t.pipe slot = 0))) ∧
  (∀ (o : LoadOp) (s : State), s.pipe.ops = [o] → o.op = 2 → o.res.cause = 0 → (plateOf s.net s.pipe o.slot).fails = [] →
    o.slot < s.pipe.states.length →
    Runs .plateOpDone s fun t => slotState t.pipe o.slot = 2 ∧ t.pipe.ops = []) ∧
  (∀ (l : LinkNo) (slot : Fin 4) (s : State), s.start.stage = 3 → slotState s.pipe slot = 2 →
    Runs (.plateCommit (.regs l slot)) s fun t => slotState t.pipe slot = 3 ∧ t.pipe.live = slot ∧ t.num 0x080000 0 = slot) ∧
  (∀ (l : LinkNo) (k : Fin 64) (off : Nat) (b : Bytes) (s : State), off < 0x60 →
    (bitsOf 4 (regField .pipePinMask (4 * l) 3 0 s.io)).any (fun r => (pinAcc s.pipe r k).valid) = false →
    Runs (.pinnedWrite l k off b) s fun t => t.pipe.pinQ.length = s.pipe.pinQ.length + 1 ∧ regBit .pipePinStatus 0 0 t.io = true) ∧
  (∀ (l : LinkNo) (k : Fin 64) (b : Byte) (s : State), b.getLsbD 0 = false →
    Runs (.pinnedWrite l k 0x78 [b]) s fun t =>
      ∀ r ∈ bitsOf 4 (regField .pipePinMask (4 * l) 3 0 s.io), (pinAcc t.pipe r k).valid = false) ∧
  (∀ (r : RegionNo) (x : PinWrite) (s : State), s.pipe.pinQ.find? (fun x => x.mask.testBit r) = some x →
    Runs (.pinnedApply r) s fun t => pinAt t.pipe r x.slot =
      match x.valid with
      | some v => { pinAt s.pipe r x.slot with valid := v }
      | none => { pinAt s.pipe r x.slot with body := splice (pinAt s.pipe r x.slot).body x.off x.bytes }) ∧
  (∀ (by_ : Issuer) (arg : Bytes) (s : State), s.allows by_ 0x080030 → arg.length = 132 → field arg 0 1 ≤ 63 → 1 ≤ field arg 1 1 →
    field arg 1 1 ≤ 15 → field arg 2 2 = 0 → field arg 0x7C 8 = 1 → pinBad s.net (slice arg 4 0x78) = false →
    Runs (.pinWrite by_ arg) s fun t => told t by_ 0x080030 0 ∧
      ∀ r ∈ bitsOf 4 (field arg 1 1), (pinAcc t.pipe r (field arg 0 1)).valid = true) ∧
  (∀ (by_ : Issuer) (n : Half) (s : State), s.allows by_ 0x080101 → n.toNat < 8192 →
    Runs (.counterClear by_ n) s fun t => told t by_ 0x080101 0 ∧ ∀ r < 4, mget t.pipe.counters (r * 8192 + n.toNat) = none)

/-- A packet at the head of a region's queue leaves it unless the walker must hold it. A packet classified with no pinned hit
and no diversion, whose walk ends in a leaf with a winner, and whose action is a plain delivery to a virtual port, gives one
copy to that port; one stamped under the Sheepdog rules, received by port 0 for the broadcast address, goes to the Sheepdog
ring; a read of a bad entry gives a skip token. A packet of the deep lane that comes back poisoned gives a skip token; one
whose walk there ends in such a leaf and action gives its copy. What the spec leaves open here is the model's choice: log
entries 47. -/
def Obligations.PipelineRuns : Prop :=
  (∀ (r : RegionNo) (ue : Bool) (k : Pkt) (l : List Pkt) (s : State), (pipeQ s.net r).queue = k :: l →
    (packet s.cont s.dom ue k ((wireOf s).onNet (pipeQPut r { pipeQ s.net r with queue := l }))).isSome = true →
    Runs (.pipelinePacket r ue) s fun t => (pipeQ t.net r).queue = l) ∧
  (∀ (r : RegionNo) (k : Pkt) (l : List Pkt) (v a : Nat) (s : State), (pipeQ s.net r).queue = k :: l → k.region = r → k.direct = false →
    underSheepdog s.pipe k = false → pinHit s.pipe r (contextOf s.pipe k).key = none → diverted s.io k = none →
    walk s.pipe k.slot (contextOf s.pipe k).key false = .leaf v → leafWinner s.pipe v (contextOf s.pipe k).key = some a →
    field (actionAt s.pipe a) 0 1 = 1 → field (actionAt s.pipe a) 1 1 = 0 → (contextOf s.pipe k).parsed.err = false →
    Runs (.pipelinePacket r false) s fun t => ∃ o, o.dest = .vport (field (actionAt s.pipe a) 2 2) ∧
      (pipeQ t.net r).outbox = (pipeQ s.net r).outbox ++ [{ src := k.src, seq := k.seq, outs := [o] }]) ∧
  (∀ (r : RegionNo) (k : Pkt) (l : List Pkt) (s : State), (pipeQ s.net r).queue = k :: l → k.region = r →
    underSheepdog s.pipe k = true → pinHit s.pipe r (contextOf s.pipe k).key = none → k.src = 0 → slice k.frame 0 6 = broadcast →
    Runs (.pipelinePacket r false) s fun t => ∃ o, o.dest = .sheepdog ∧
      (pipeQ t.net r).outbox = (pipeQ s.net r).outbox ++ [{ src := k.src, seq := k.seq, outs := [o] }]) ∧
  (∀ (r : RegionNo) (k : Pkt) (l : List Pkt) (s : State), (pipeQ s.net r).queue = k :: l → k.region = r →
    Runs (.pipelinePacket r true) s fun t =>
      (pipeQ t.net r).outbox = (pipeQ s.net r).outbox ++ [{ src := k.src, seq := k.seq, outs := [] }]) ∧
  (∀ (r : RegionNo) (n : Fin 256) (e : DeepPkt) (s : State), (pipeQ s.net r).deep[n.val]? = some e → e.pkt.region = r →
    Runs (.deepLaneResult r n true) s fun t => (pipeQ t.net r).deep = (pipeQ s.net r).deep.eraseIdx n ∧
      (pipeQ t.net r).outbox = (pipeQ s.net r).outbox ++ [{ src := e.pkt.src, seq := e.pkt.seq, outs := e.outs }]) ∧
  (∀ (r : RegionNo) (n : Fin 256) (e : DeepPkt) (v a : Nat) (s : State), (pipeQ s.net r).deep[n.val]? = some e → e.pkt.region = r →
    e.conn = false → walk s.pipe e.pkt.slot (contextOf s.pipe e.pkt).key true = .leaf v →
    leafWinner s.pipe v (contextOf s.pipe e.pkt).key = some a →
    field (actionAt s.pipe a) 0 1 = 1 → field (actionAt s.pipe a) 1 1 = 0 →
    Runs (.deepLaneResult r n false) s fun t => (pipeQ t.net r).deep = (pipeQ s.net r).deep.eraseIdx n ∧
      ∃ o, o.dest = .vport (field (actionAt s.pipe a) 2 2) ∧
        (pipeQ t.net r).outbox = (pipeQ s.net r).outbox ++ [{ src := e.pkt.src, seq := e.pkt.seq, outs := [o] }])

/-- The arbiter takes the oldest event, and installs one that meets no entry, is within its port's limit and finds a free place.
A sweep takes an entry that ages, has no hit in a region in service and has reached the age, and counts one sweep more for
one that has not. A batch that is sent leaves the outbox. A received learn message is counted. The refresh announces every
owned entry again where the device is PRIMARY, once its period has passed. What the spec leaves open here is the model's
choice: log entries 51. -/
def Obligations.LearningRuns : Prop :=
  (∀ (x : LearnEv) (xs : List LearnEv) (i : Nat) (s : State), s.tabs.arb = x :: xs → x.withdraw = false →
    brFind s.tabs x.mac x.bd = none → overLimit x (wireOf s) = false → brPlace s.tabs x.mac x.bd = some i →
    Runs .learnArbiterEvent s fun t => t.tabs.arb = xs ∧ mget t.tabs.br i = some (learnEntry x)) ∧
  (∀ (i : Nat) (e : BrEntry) (s : State), s.tabs.br = [(i, e)] → ages s.dom e = true →
    e.hit.any (fun r => (inService s.cont).contains r) = false →
    Runs .agerSweep s fun t => if dget s.io (idx 0x090000 0) 300 ≠ 0 ∧ dget s.io (idx 0x090000 0) 300 ≤ e.idle + 1 then t.tabs.br = []
      else (mget t.tabs.br i).any (fun x => x.idle == e.idle + 1) = true) ∧
  (∀ (r : LearnRec) (l : List LearnRec) (s : State), s.tabs.outbox = r :: l → s.tabs.sweepQueued = false →
    Runs .learnBatchSend s fun t => t.tabs.outbox =
      (r :: l).drop (batchOf (if (learnVersions s.io s.dom).contains 2 then 60 else 64) (r :: l)).length) ∧
  (∀ (k : Pkt) (ks : List Pkt) (s : State), s.net.learnRx = k :: ks →
    Runs .learnFrameReceived s fun t => t.net.learnRx = ks ∧ t.num 0x090035 2 = satAdd 64 (s.num 0x090035 2) 1) ∧
  (∀ (s : State), dget s.io (idx 0x090034 0) 300 ≠ 0 → s.dom.state = 1 →
    Runs .learnRefreshTimer s fun t => s.tabs.refreshAt + sec (dget s.io (idx 0x090034 0) 300) ≤ t.io.now ∧ t.tabs.refreshAt = t.io.now ∧
      t.tabs.outbox.length = s.tabs.outbox.length + (s.tabs.br.filter (fun e => ownedBy s.dom e.2)).length)

/-- A list started from the registers of PF0 at stage 3 while they are not busy, of a whole number of records up to 16 MiB, or
by 09:0201 of another issuer than the firmware over a list of whole records, is queued with its record count, BUSY or
IN_PROGRESS said. The next record of the running list in host memory, well formed, does its work: CONN_INSERT of a new key
with a free slot writes the entry, CONN_MODIFY rewrites and CONN_DELETE clears the entry with that key; BR_INSERT of a new
key with a free place writes its entry, BR_DELETE with no hit in service takes its entry, BR_FLUSH takes every match, where
the device is not isolated. What the spec leaves open here is the model's choice: log entries 51, 52. -/
def Obligations.TableCommandsRun : Prop :=
  (∀ (l : LinkNo) (s : State), s.start.stage = 3 → regBit .tblCmdStatus (4 * l) 0 s.io = false →
    regField .tblCmdLen (4 * l) 24 0 s.io % 128 = 0 → regField .tblCmdLen (4 * l) 24 0 s.io ≤ 2 ^ 24 →
    regField .tblCmdLen (4 * l) 24 0 s.io ≠ 0 →
    Runs (.tblListStart (.regs l true)) s fun t => regBit .tblCmdStatus (4 * l) 0 t.io = true ∧
      ∃ x, t.tabs.lists = s.tabs.lists ++ [x] ∧ x.records = regField .tblCmdLen (4 * l) 24 0 s.io / 128 ∧ x.done = 0) ∧
  (∀ (b : Issuer) (s : State), s.allows b 0x090201 → cmdRuns s.io 0x090201 = false → principalOf b.assoc.binding ≠ .f →
    (s.blob 0x090200 0).length % 128 = 0 → s.blob 0x090200 0 ≠ [] →
    Runs (.tblListStart (.cmd b [0, 0, 0, 0])) s fun t => told t b 0x090201 9 ∧
      ∃ x, t.tabs.lists = s.tabs.lists ++ [x] ∧ x.records = (s.blob 0x090200 0).length / 128 ∧ x.done = 0) ∧
  (∀ (l : TblList) (ls : List TblList) (r : Bytes) (i : Nat) (s : State), s.tabs.lists = l :: ls → l.origin = 0 → r.length = 128 →
    recordOk r = true → field r 0x3A 3 < 16384 → (field r 0x35 1 = 1 ∨ field r 0x35 1 = 2) →
    (field r 0 1 = 1 → connFind s.tabs (slice r 0x10 40) = none →
      (connSlots (slice r 0x10 40)).find? (fun i => !connValid s.tabs i) = some i →
      Runs (.connInsert (some r)) s fun t => connAt t.tabs i = splice (slice r 0x10 64) 0x28 (le 1 1)) ∧
    (field r 0 1 = 2 → connFind s.tabs (slice r 0x10 40) = some i →
      Runs (.connModify (some r)) s fun t => connAt t.tabs i = splice (slice r 0x10 64) 0x28 (le 1 1)) ∧
    (field r 0 1 = 3 → connFind s.tabs (slice r 0x10 40) = some i →
      Runs (.connDelete (some r)) s fun t => mget t.tabs.conn i = none)) ∧
  (∀ (l : TblList) (ls : List TblList) (r : Bytes) (i : Nat) (s : State), s.tabs.lists = l :: ls → l.origin = 0 → r.length = 128 →
    recordOk r = true → s.dom.state ≠ 2 →
    (field r 0 1 = 0x11 → field r 0x18 2 ≠ 0xFFFF → brFind s.tabs (slice r 0x10 6) (field r 0x16 2) = none →
      brPlace s.tabs (slice r 0x10 6) (field r 0x16 2) = some i →
      Runs (.brInsert (some r)) s fun t => ∃ e, mget t.tabs.br i = some e ∧ e.mac = slice r 0x10 6 ∧ e.bd = field r 0x16 2 ∧
        e.dest = field r 0x18 2 ∧ e.owner = field r 0x1A 2 ∧ e.static = (field r 0x1C 1).testBit 1) ∧
    (∀ (e : BrEntry), field r 0 1 = 0x12 → brFind s.tabs (slice r 0x10 6) (field r 0x16 2) = some (i, e) →
      e.hit.any (fun x => (inService s.cont).contains x) = false →
      Runs (.brDelete (some r)) s fun t => mget t.tabs.br i = none) ∧
    (field r 0 1 = 0x13 → Runs (.brFlush (some r)) s fun t => t.tabs.br.all (fun e => !flushMatch r e.2) = true))

/-- With no pass running, a start with arguments in range runs one from its first index and is answered IN_PROGRESS, a resume
from the cursor or the first index, whichever is later. A running pass aborts. A comparison moves the cursor on by one, or
ends the pass with state 6 where the shadow could not be read. A paused pass whose ring has room again runs. A pass past its
last index is complete. What the spec leaves open here is the model's choice: log entries 52. -/
def Obligations.ProofPassRuns : Prop :=
  (∀ (b : Issuer) (a : Bytes) (s : State), proofGate s.start.stage b a s.io = none → proofRuns s.tabs.proof = false → proofArgOk a = true →
    Runs (.proofStart b a) s (fun t => told t b 0x090300 9 ∧ t.tabs.proof.state = 1 ∧ t.tabs.proof.cursor = field a 4 4 ∧
      t.tabs.proof.last = field a 8 4 ∧ t.tabs.proof.compared = 0) ∧
    Runs (.proofResume b a) s (fun t => told t b 0x090300 9 ∧ t.tabs.proof.state = 1 ∧
      t.tabs.proof.cursor = max s.tabs.proof.cursor (field a 4 4) ∧ t.tabs.proof.compared = s.tabs.proof.compared)) ∧
  (∀ (b : Issuer) (a : Bytes) (s : State), proofGate s.start.stage b a s.io = none → proofRuns s.tabs.proof = true →
    Runs (.proofAbort b a) s fun t => told t b 0x090300 0 ∧ t.tabs.proof.state = 4) ∧
  (∀ (sh : Option Bytes) (s : State), s.tabs.proof.state = 1 → s.tabs.proof.cursor ≤ s.tabs.proof.last →
    Runs (.proofCompare sh) s fun t => if sh.isSome then t.tabs.proof.cursor = s.tabs.proof.cursor + 1 else t.tabs.proof.state = 6) ∧
  (∀ (c : Word32) (s : State), s.tabs.proof.state = 2 → (s.tabs.proof.counter - c).toNat < 2 ^ s.tabs.proof.log2n →
    Runs (.proofRingPoll (some c)) s fun t => t.tabs.proof.state = 1 ∧ t.tabs.proof.seen = c) ∧
  (∀ (s : State), s.tabs.proof.state = 1 → s.tabs.proof.last < s.tabs.proof.cursor →
    Runs .proofPassEnd s fun t => t.tabs.proof.state = 3)

/-- A WRITE of a window that no cause refuses, of a clear key that is not an XTS key, leaves its target slot KEYED with that key
and sets DONE; an ERASE leaves it empty; by 0A:0110 an ERASE that no cause refuses is answered 0. Data words left for 100 ms
clear. An SA is created at a free index for a pool the issuer may use, with a well-formed descriptor and slots that fit,
deleted, and queried with its counter and drops. What the spec leaves open here is the model's choice: log entries 53, 54. -/
def Obligations.KeysAndAssociationsRun : Prop :=
  (∀ (fn : Fn) (p : Nat) (s : State), keyCause s.start.stage false (keyWinCmd fn (wireOf s)) (wireOf s) = 0 →
    (keyWinCmd fn (wireOf s)).target = some p → (keyWinCmd fn (wireOf s)).form = 0 →
    (keyWinCmd fn (wireOf s)).usage ≠ 4 → (keyWinCmd fn (wireOf s)).usage ≠ 5 →
    (slotAt s.burin p (keyWinCmd fn (wireOf s)).slot).refs = 0 →
    Runs (.keyWrite (.win fn)) s fun t => regBit .keyWinStatus fn 1 t.io = true ∧
      (slotAt t.burin p (keyWinCmd fn (wireOf s)).slot).state = .keyed ∧
      (slotAt t.burin p (keyWinCmd fn (wireOf s)).slot).key =
        padTo (keyBytes (keyWinCmd fn (wireOf s)).usage) (keyWinCmd fn (wireOf s)).data) ∧
  (∀ (fn : Fn) (p : Nat) (s : State), keyCause s.start.stage true (keyWinCmd fn (wireOf s)) (wireOf s) = 0 →
    (keyWinCmd fn (wireOf s)).target = some p →
    Runs (.keyErase (.win fn)) s fun t => regBit .keyWinStatus fn 1 t.io = true ∧
      slotAt t.burin p (keyWinCmd fn (wireOf s)).slot = KeySlot.reset) ∧
  (∀ (b : Issuer) (arg : Bytes) (s : State), s.allows b 0x0A0110 → arg.length = 88 → field arg 0 1 = 2 → field arg 3 1 = 0 →
    field arg 0x0C 4 = 0xFFFF → field arg 4 4 < 16384 → (slotAt s.burin devicePool (field arg 4 4)).refs = 0 → s.start.stage = 3 →
    Runs (.keyErase (.cmd b arg)) s fun t => told t b 0x0A0110 0 ∧ slotAt t.burin devicePool (field arg 4 4) = KeySlot.reset) ∧
  (∀ (fn : Fn) (s : State), (keyWin s.burin fn).words ≠ [] →
    Runs (.keyWindowClear fn) s fun t => (keyWin t.burin fn).words = [] ∧ regField .keyWinFill fn 17 0 t.io = 0 ∧
      (keyWin s.burin fn).last + ms 100 ≤ t.io.now) ∧
  (∀ (b : Issuer) (arg : Bytes) (p k : Nat) (s : State), saGate s.start.stage b arg 1 s.io = none →
    saPool s.io b (field arg 2 2) = some p → saDescOk arg = true → (saSlots arg).all (slotFits (wireOf s) p (field arg 1 1)) = true →
    k < 262144 → mget s.burin.sas k = none →
    Runs (.saCreate b arg) s fun t => told t b 0x0A0100 0 ∧
      ∃ i a, mget s.burin.sas i = none ∧ mget t.burin.sas i = some a ∧ a.pool = p ∧ a.desc = arg) ∧
  (∀ (b : Issuer) (arg : Bytes) (i : Nat) (a : Sa) (s : State), saGate s.start.stage b arg 2 s.io = none →
    saOf s.burin (field arg 4 4) = some (i, a) → saMay s.io b a.pool = true →
    Runs (.saDelete b arg) s fun t => told t b 0x0A0100 0 ∧ mget t.burin.sas i = none ∧
      mget t.burin.tags i = some ((a.tag + 1) % 4096)) ∧
  (∀ (b : Issuer) (arg : Bytes) (i : Nat) (a : Sa) (s : State), saGate s.start.stage b arg 3 s.io = none →
    saOf s.burin (field arg 4 4) = some (i, a) → saMay s.io b a.pool = true →
    Runs (.saQuery b arg) s fun t =>
      toldWith t b 0x0A0100 0 (splice (slice a.desc 0 64) 0x10 (le 8 a.counter.toNat) ++ le 8 a.drops) ∧ t.burin = s.burin)

/-- A queue is created over a good base where there is none, and deleted where it holds no job. A doorbell takes at least one
job where none is under way and the next entry's PHASE fits; a job that is not kept waiting ends and the one behind it is
the oldest. A packet that lacks mask randomness fails when its time has passed. A health failure stops the generator; the
third retest passed in a row restarts it, a failed one counts from zero; a reseed leaves it running. What the spec leaves
open here is the model's choice: log entries 55. -/
def Obligations.LookasideRuns : Prop :=
  (∀ (b : Issuer) (arg : Bytes) (s : State), cmdGate s.start.stage b 0x0A0200 arg 24 1 s.io = none → field arg 1 1 < 4 →
    field arg 2 1 < 32 → 4 ≤ field arg 3 1 → field arg 3 1 ≤ 12 → allZero (slice arg 0x10 8) = true →
    laBaseOk s.mem (field arg 1 1) (field arg 8 8) (field arg 3 1) = true → mget s.burin.queues (laKey (field arg 1 1) (field arg 2 1)) = none →
    Runs (.laQueueCreate b arg) s fun t => told t b 0x0A0200 0 ∧
      ∃ x, mget t.burin.queues (laKey (field arg 1 1) (field arg 2 1)) = some x ∧ x.base = field arg 8 8 ∧ x.log2n = field arg 3 1 ∧ x.jobs = []) ∧
  (∀ (b : Issuer) (arg : Bytes) (x : LaQueue) (s : State), cmdGate s.start.stage b 0x0A0200 arg 24 2 s.io = none → field arg 1 1 < 4 →
    field arg 2 1 < 32 → mget s.burin.queues (laKey (field arg 1 1) (field arg 2 1)) = some x → x.jobs = [] →
    Runs (.laQueueDelete b arg) s fun t => told t b 0x0A0200 0 ∧ mget t.burin.queues (laKey (field arg 1 1) (field arg 2 1)) = none) ∧
  (∀ (r : RegionNo) (q : Fin 32) (x : LaQueue) (e : Bytes) (s : State), mget s.burin.queues (laKey r q) = some x → x.jobs = [] →
    (coreRead (x.base + 64 * (x.counter.toNat % 2 ^ x.log2n)) 64 s).1 = .ok e → (field e 0 1).testBit 0 = phaseAt x.log2n x.counter →
    Runs (.laDoorbell r q) s fun t => ∃ y, mget t.burin.queues (laKey r q) = some y ∧ (y.jobs.head?.map (·.entry)) = some e) ∧
  (∀ (r : RegionNo) (q : Fin 32) (x : LaQueue) (j : LaJob) (k : LaJob) (l : List LaJob) (s : State),
    mget s.burin.queues (laKey r q) = some x → x.jobs = j :: k :: l → s.burin.rng ≠ 2 →
    Runs (.laJobComplete r q) s fun t => (mget t.burin.queues (laKey r q)).map (·.jobs) = some (k :: l)) ∧
  (∀ (r : RegionNo) (x : Starved) (s : State), s.burin.rng = 2 → s.burin.starved.find? (fun x => x.pkt.region == r.val) = some x →
    Runs (.maskStarveTimeout r) s fun t => t.burin.starved = s.burin.starved.erase x ∧
      x.at_ + us (dget s.io (idx 0x0A0003 0) 100) ≤ t.io.now) ∧
  (∀ (s : State), Runs .trngHealthFail s fun t => t.burin.rng = 2 ∧ t.num 0x0A0004 0 = 2) ∧
  (∀ (p : Bool) (s : State), s.burin.rng = 2 → s.burin.passes = 2 →
    Runs (.trngRetest p) s fun t => t.burin.passes = 0 ∧ t.burin.rng = if p then 0 else 2) ∧
  (∀ (s : State), s.burin.rng ≠ 2 → Runs .drbgReseed s fun t => t.burin.rng = 0 ∧ t.num 0x0A0004 0 = 0)

/-- For an issuer that may act for the owner: CREATE_QP with an argument in range, completion rings and SRQ that fit and room
makes a QP in RESET under the QPN it answers; MODIFY_QP of a QP with an empty send queue, with a mask and values that are
permitted, takes the fields over, enters the state asked for, and in ERROR leaves both queues empty; DESTROY_QP is answered
9, the QP in ERROR and leaving, and when it is done the QPN is free; QUERY_QP answers with the QP's block. What the spec
leaves open here is the model's choice: log entries 56. -/
def Obligations.QueuePairCommandsRun : Prop :=
  (∀ (b : Issuer) (arg : Bytes) (o k : Nat) (s : State), rdmaReady b arg 1 o s = true → createQpOk o arg = true →
    rdmaCqOk s o (field arg 0x14 4) = true → rdmaCqOk s o (field arg 0x18 4) = true →
    (∀ n, (newQp o arg).srq = some n → (ownSrq s o n).isSome = true) →
    (if field arg 4 4 = 1 then (if (qpOf s 1).isSome then none else some 1) else pickQpn s) = some k →
    rdmaRoom s o (2 ^ 20) (vfQps s.io) (fun p => (s.rdma.qps.filter (fun x => p x.2.owner)).length) = true →
    workRoom s (64 * 2 ^ field arg 0x20 1 + (if (newQp o arg).srq.isSome then 0 else 64 * 2 ^ field arg 0x21 1)) = true →
    Runs (.createQp b arg) s fun t => toldWith t b 0x0B0100 0 (rdmaResult 0 0 1 k 0 0) ∧ qpOf t k = some (newQp o arg)) ∧
  (∀ (b : Issuer) (arg : Bytes) (o : Nat) (q : Qp) (s : State), rdmaReady b arg 2 o s = true →
    ownQp s o (field arg 4 4) = some q → modifyOk arg (field arg 8 4) = true → moveOk q arg (field arg 8 4) = true → q.sq = [] →
    Runs (.modifyQp b arg) s fun t => told t b 0x0B0100 0 ∧ ∃ x, qpOf t (field arg 4 4) = some x ∧
      (if (field arg 8 4).testBit 0 then x.state = field arg 0x0C 1 else x = applyMask q arg (field arg 8 4)) ∧
      (x.state = 4 → q.state ≠ 4 → x.sq = [] ∧ x.rq = [])) ∧
  (∀ (b : Issuer) (arg : Bytes) (o : Nat) (q : Qp) (s : State), rdmaReady b arg 3 o s = true →
    ownQp s o (field arg 4 4) = some q → q.leaving = none →
    Runs (.destroyQp b arg) s fun t => toldWith t b 0x0B0100 9 (rdmaResult 0 0 0 (field arg 4 4) 0 0) ∧
      ∃ x, qpOf t (field arg 4 4) = some x ∧ x.state = 4 ∧ x.leaving = some (b, s.io.now)) ∧
  (∀ (n : Nat) (q : Qp) (s : State), qpOf s n = some q → q.leaving.isSome = true →
    Runs (.destroyQpDone n) s fun t => qpOf t n = none ∧ isResident t n = false) ∧
  (∀ (b : Issuer) (arg : Bytes) (o : Nat) (q : Qp) (s : State), rdmaReady b arg 4 o s = true →
    ownQp s o (field arg 4 4) = some q →
    Runs (.queryQp b arg) s fun t => t.rdma = s.rdma ∧ toldWith t b 0x0B0100 0
      (rdmaResult 0 q.state q.lanesUsed (field arg 4 4) 0 0 ++ queryBlock (field arg 4 4) q))

/-- For an issuer that may act for the owner, with arguments in range and room: CREATE_SRQ and CREATE_AH answer a number that
was free and make the object; DESTROY_SRQ of one no QP uses, and DESTROY_AH, take it away; ARM_SRQ arms it with the limit;
SET_GID sets or clears the entry; REG_MR answers a key whose tag follows the index's last and makes the region; REVOKE_MR is
answered 9 and the region closes, and when it is done the index is free; QUERY_MR tells whether it closes. What the spec
leaves open here is the model's choice: log entries 56, 57. -/
def Obligations.RdmaObjectsRun : Prop :=
  (∀ (b : Issuer) (arg : Bytes) (o k : Nat) (s : State), rdmaReady b arg 8 o s = true →
    argZero arg [(1, 1), (9, 3), (0x10, 112)] = true → 4 ≤ field arg 8 1 → field arg 8 1 ≤ 15 →
    rdmaRoom s o 65536 (vfSrqs s.io) (fun p => (s.rdma.srqs.filter (fun x => p x.2.owner)).length) = true → s.rdma.srqs.length < 65536 →
    workRoom s (64 * 2 ^ field arg 8 1) = true → k < 65536 → mget s.rdma.srqs k = none →
    Runs (.createSrq b arg) s fun t => ∃ n x, mget s.rdma.srqs n = none ∧ toldWith t b 0x0B0100 0 (rdmaResult 0 0 0 n 0 0) ∧
      mget t.rdma.srqs n = some x ∧ x.owner = o ∧ x.pd = field arg 4 4 ∧ x.depth = field arg 8 1 ∧ x.rq = []) ∧
  (∀ (b : Issuer) (arg : Bytes) (o : Nat) (s : State), rdmaReady b arg 9 o s = true → argZero arg [(1, 1), (8, 120)] = true →
    (ownSrq s o (field arg 4 4)).isSome = true → s.rdma.qps.any (fun p => p.2.srq == some (field arg 4 4)) = false →
    Runs (.destroySrq b arg) s fun t => told t b 0x0B0100 0 ∧ mget t.rdma.srqs (field arg 4 4) = none) ∧
  (∀ (b : Issuer) (arg : Bytes) (o : Nat) (x : Srq) (s : State), rdmaReady b arg 0xA o s = true → argZero arg [(1, 1), (0xC, 116)] = true →
    ownSrq s o (field arg 4 4) = some x →
    Runs (.armSrq b arg) s fun t => told t b 0x0B0100 0 ∧
      mget t.rdma.srqs (field arg 4 4) = some { x with limit := field arg 8 4, armed := true }) ∧
  (∀ (b : Issuer) (arg : Bytes) (o k : Nat) (s : State), rdmaReady b arg 0xC o s = true →
    argZero arg [(1, 1), (0xA, 6), (0x26, 90)] = true → field arg 4 1 ≤ 15 → field arg 7 1 ≤ 7 → field arg 6 1 % 4 = 0 →
    s.rdma.ahs.length < 262144 → k < 262144 → mget s.rdma.ahs k = none →
    Runs (.createAh b arg) s fun t => ∃ n, mget s.rdma.ahs n = none ∧ toldWith t b 0x0B0100 0 (rdmaResult 0 0 0 n 0 0) ∧
      mget t.rdma.ahs n = some { owner := o, arg := arg }) ∧
  (∀ (b : Issuer) (arg : Bytes) (o : Nat) (s : State), rdmaReady b arg 0xD o s = true → argZero arg [(1, 1), (8, 120)] = true →
    (ownAh s o (field arg 4 4)).isSome = true →
    Runs (.destroyAh b arg) s fun t => told t b 0x0B0100 0 ∧ mget t.rdma.ahs (field arg 4 4) = none) ∧
  (∀ (b : Issuer) (arg : Bytes) (o : Nat) (s : State), rdmaReady b arg 0xE o s = true →
    argZero arg [(1, 1), (6, 10), (0x20, 96)] = true → field arg 4 1 ≤ 15 → field arg 5 1 ≤ 1 →
    Runs (.setGid b arg) s fun t => told t b 0x0B0100 0 ∧
      mget t.rdma.gids (o * 16 + field arg 4 1) = if field arg 5 1 = 1 then some (slice arg 0x10 16) else none) ∧
  (∀ (b : Issuer) (arg : Bytes) (o k : Nat) (s : State), rdmaReady b arg 0x10 o s = true → argZero arg [(0x20, 96)] = true →
    field arg 1 1 < 4 → 1 ≤ field arg 0x18 8 → field arg 0x18 8 ≤ 2 ^ 40 →
    rdmaRoom s o (2 ^ 20) (vfMrs s.io) (fun p => (s.rdma.mrs.filter (fun x => p x.2.owner)).length) = true →
    k < 2 ^ 20 → mget s.rdma.mrs k = none →
    Runs (.regMr b arg) s fun t => ∃ n x, mget s.rdma.mrs n = none ∧
      toldWith t b 0x0B0100 0 (rdmaResult 0 0 0 (x.tag * 2 ^ 20 + n) 0 0) ∧ mget t.rdma.mrs n = some x ∧ x.owner = o ∧
      x.tag = nextTag (mgetD s.rdma.tags n 0) ∧ x.va = field arg 8 8 ∧ x.host = field arg 0x10 8 ∧ x.len = field arg 0x18 8) ∧
  (∀ (b : Issuer) (arg : Bytes) (o : Nat) (x : Mr) (s : State), rdmaReady b arg 0x11 o s = true → argZero arg [(1, 1), (8, 120)] = true →
    ownMr s o (field arg 4 4) = some x → x.closing = none →
    Runs (.revokeMr b arg) s fun t => told t b 0x0B0100 9 ∧
      mget t.rdma.mrs (field arg 4 4 % 2 ^ 20) = some { x with closing := some (b, s.io.now) }) ∧
  (∀ (key : Nat) (x : Mr) (s : State), mget s.rdma.mrs (key % 2 ^ 20) = some x → x.closing.isSome = true → x.tag = key / 2 ^ 20 →
    Runs (.revokeMrDone key) s fun t => mget t.rdma.mrs (key % 2 ^ 20) = none ∧ t.rdma.tags = s.rdma.tags) ∧
  (∀ (b : Issuer) (arg : Bytes) (o : Nat) (x : Mr) (s : State), rdmaReady b arg 0x12 o s = true → argZero arg [(1, 1), (8, 120)] = true →
    ownMr s o (field arg 4 4) = some x →
    Runs (.queryMr b arg) s fun t => t.rdma = s.rdma ∧ ∃ d, toldWith t b 0x0B0100 0
      (rdmaResult 0 (b2n x.closing.isSome) 0 (field arg 4 4) 0 0 ++ d))

/-- A work request fetched on a work queue ring that names a QP of the ring's function whose completion rings are not in ERROR,
and that passes the checks, joins the QP's send queue in RTS where every WAIT in it names a QP of the function; a RECV joins
the receive queue of a QP below ERROR, or the SRQ it names. A WAIT at the head of a queue in RTS, nothing behind it sent and
none of it a WAIT, whose condition holds leaves the queue, and the QP's send counter counts it. What the spec leaves open
here is the model's choice: log entries 56, 60. -/
def Obligations.WorkRequestsRun : Prop :=
  (∀ (op : Nat) (mk : Nat → Word32 → Instr) (ring : Nat) (c : Word32) (r : Ring) (f : Fetched) (q : Qp) (s : State),
    (op, mk) ∈ sendRows → ringOf s.io ring = some r → r.kind = 0x10 → fetchedAt r c.toNat = some f → f.opcode = op →
    (field f.entry 0xB 1).testBit 2 = false → ownQp s r.owner (field f.entry 8 3) = some q → cqsGood s q = true → q.state = 3 →
    qpPostStatus r f q = 0 → (q.sq ++ [workOf ring f]).all (fun w => w.op != 0x1C || (waitTarget s q w).isSome) = true →
    Runs (mk ring c) s fun t => ∃ x, qpOf t (field f.entry 8 3) = some x ∧ workOf ring f ∈ x.sq) ∧
  (∀ (ring : Nat) (c : Word32) (r : Ring) (f : Fetched) (q : Qp) (s : State),
    ringOf s.io ring = some r → r.kind = 0x11 → fetchedAt r c.toNat = some f → f.opcode = 0x18 →
    (field f.entry 0xB 1).testBit 2 = false → ownQp s r.owner (field f.entry 8 3) = some q → cqsGood s q = true → q.state < 4 →
    qpPostStatus r f q = 0 →
    Runs (.rdmaRecv ring c) s fun t => ∃ x, qpOf t (field f.entry 8 3) = some x ∧ x.rq = q.rq ++ [workOf ring f]) ∧
  (∀ (ring : Nat) (c : Word32) (r : Ring) (f : Fetched) (x : Srq) (s : State),
    ringOf s.io ring = some r → r.kind = 0x11 → fetchedAt r c.toNat = some f → f.opcode = 0x18 →
    (field f.entry 0xB 1).testBit 2 = true → ownSrq s r.owner (field f.entry 8 3) = some x → x.rq.length < 2 ^ x.depth →
    workFits f 0x18 1 0 = true → workClean f 0x18 1 = true →
    Runs (.rdmaRecv ring c) s fun t => mget t.rdma.srqs (field f.entry 8 3) = some { x with rq := x.rq ++ [workOf ring f] }) ∧
  (∀ (n : Nat) (q y : Qp) (w : Work) (l : List Work) (s : State), qpOf s n = some q → cqsGood s q = true → q.state = 3 →
    q.sq = w :: l → w.op = 0x1C → w.sent = false → l.all (fun v => !v.sent && v.op != 0x1C) = true →
    waitTarget s q w = some y → waitHolds y w = true →
    Runs (.waitSatisfied n) s fun t => ∃ x, qpOf t n = some x ∧ x.sq = l ∧ x.sendCount = q.sendCount + 1)

/-- A queue pair in RTS with one active lane and one work request that may start, its first packet's data at hand, sends that
packet: the lane has one packet more in flight and the engine's queue one more to the Drover. A request packet an engine
gets, a SEND of one packet that a plain connection expects and a receive takes, advances the lane, completes the receive and
counts it. An ACK takes the packets it covers off its lane; a NAK of a fatal syndrome that covers a packet puts the QP in
ERROR; a response to the READ at the head of its lane adds its bytes, and the last one takes the READ off the lane; a CNP
cuts the rate of an active lane not cut of late. When a context arrives it is resident and the packets that waited for it
come back to the head of the queue. What the spec leaves open here is the model's choice: log entries 58 to 60. -/
def Obligations.RdmaPacketsRun : Prop :=
  (∀ (n : Nat) (q : Qp) (w : Work) (d : Bytes) (s : State), qpOf s n = some q → cqsGood s q = true → q.state = 3 → q.service = 1 →
    q.rnrHold = none → activeLanes q = [0] → q.sq = [w] → w.sent = false → w.op ≠ 0x1C → frozen s.io q.owner = false →
    engineRuns s (homeRegion n) = true → (w.started || mayStart s q 0 w) = true →
    Runs (.requestPacketSend n (.data d)) s fun t => ∃ x, qpOf t n = some x ∧
      (laneAt x 0).unacked.length = (laneAt q 0).unacked.length + 1 ∧ q.paceAt ≤ t.io.now ∧
      (mgetD t.net.engineQ (homeRegion n) []).length = (mgetD s.net.engineQ (homeRegion n) []).length + 1) ∧
  (∀ (r : RegionNo) (x : Rx) (q : Qp) (w : Work) (l : List Work) (d : Bytes) (s : State), rdmaGets r.val 0 x q s = true →
    plainReady q = true → x.op = 4 → x.ce = false → x.psn = (laneAt q 0).expect → x.body.length ≤ mtuOf q →
    x.body.length ≤ w.len → q.rq = w :: l → cqFull s q.recvCq = false →
    Runs (.rocePacketReceived r (.data d)) s fun t => ∃ y, qpOf t x.qpn = some y ∧ (laneAt y 0).expect = (x.psn + 1) % 2 ^ 24 ∧
      y.rq = l ∧ y.recvCount = q.recvCount + 1 ∧ y.rxMsg = (q.rxMsg + 1) % 2 ^ 24) ∧
  (∀ (r : RegionNo) (x : Rx) (q : Qp) (s : State), rdmaGets r.val 1 x q s = true → q.state = 3 →
    Runs (.ackReceived r) s fun t => ∃ y, qpOf t x.qpn = some y ∧
      ((laneAt y (answerLane q x).1).unacked.head?.all (fun p => p.op == 0x0C || !psnLe p.psn x.psn)) = true) ∧
  (∀ (r : RegionNo) (x : Rx) (q : Qp) (s : State), rdmaGets r.val 2 x q s = true → q.state = 3 → (answerLane q x).2 / 32 % 4 = 3 →
    1 ≤ (answerLane q x).2 % 32 → (answerLane q x).2 % 32 ≤ 3 → (coverIdx (laneAt q (answerLane q x).1) x.psn).isSome = true →
    Runs (.nakReceived r) s fun t => (qpOf t x.qpn).map (·.state) = some 4) ∧
  (∀ (r : RegionNo) (x : Rx) (q : Qp) (p : RPkt) (ps : List RPkt) (w : Work) (l : List Work) (d : Bytes) (s : State),
    rdmaGets r.val 3 x q s = true → q.state = 3 → q.lp = false → x.op ≠ 0x0E → (laneAt q 0).unacked = p :: ps → p.op = 0x0C →
    coverIdx (laneAt q 0) x.psn = some 0 → q.sq = w :: l → w.started = true → w.sent = true → w.msg = p.msg → (activeLanes q).contains 0 = true →
    q.service = 1 → q.sq.all (fun v => v.op != 0x1C) = true →
    (x.psn + 2 ^ 24 - p.psn) % 2 ^ 24 * mtuOf q = w.got → (x.body.drop 4).length = min (mtuOf q) (w.len - w.got) →
    Runs (.readResponseReceived r (.data d)) s fun t => ∃ y, qpOf t x.qpn = some y ∧
      if w.len ≤ w.got + (x.body.drop 4).length then (laneAt y 0).unacked.all (fun p' => p'.psn != p.psn) = true
      else y.sq.head? = some { w with got := w.got + (x.body.drop 4).length }) ∧
  (∀ (r : RegionNo) (x : Rx) (q : Qp) (s : State), rdmaGets r.val 4 x q s = true → (laneAt q (answerLane q x).1).state = 1 →
    (laneAt q (answerLane q x).1).cutAt = none →
    Runs (.cnpReceived r) s fun t => ∃ y, qpOf t x.qpn = some y ∧
      (let a := laneAt q (answerLane q x).1
       let z := laneAt y (answerLane q x).1
       z.cutAt = some s.io.now ∧ z.rate = (if a.rate * (1 - (1 + a.h) / 4) < rateMin s.io then rateMin s.io else a.rate * (1 - (1 + a.h) / 4)) ∧
         z.h = (if 1 < a.h + 1 / 4 then 1 else a.h + 1 / 4))) ∧
  (∀ (n : Nat) (s : State), (qpOf s n).isSome = true → isResident s n = false →
    Runs (.contextFetchDone n) s fun t => isResident t n = true ∧ t.rdma.parked = s.rdma.parked.filter (fun p => p.1 != n) ∧
      mgetD t.net.rdmaQ (homeRegion n) [] =
        (s.rdma.parked.filter (fun p => p.1 == n)).map (·.2) ++ mgetD s.net.rdmaQ (homeRegion n) [])

/-- Where the engine works and the owner is not frozen: packets owed an acknowledgement for 4 µs get it; after the ACK timeout
the packets of a lane of a plain connection in RTS are sent again, each try counted, while none exceeds the retry count; a
withdrawn lane is active again at the lowest rate with RESYNC, reason 6, after its time; an RNR hold ends when its time has
come; a period without a cut raises the rate, at most to the highest. What the spec leaves open here is the model's choice:
log entries 58. -/
def Obligations.RdmaTimersRun : Prop :=
  (∀ (n : Nat) (l : Fin 8) (q : Qp) (s : State), timed s n = some q → (laneAt q l).owed ≠ 0 →
    Runs (.ackSendTimer n l) s fun t => ∃ x, qpOf t n = some x ∧ (laneAt x l).owed = 0 ∧ (laneAt q l).owedAt + us 4 ≤ t.io.now) ∧
  (∀ (n : Nat) (l : Fin 8) (q : Qp) (p : RPkt) (ps : List RPkt) (s : State), timed s n = some q → (laneAt q l).unacked = p :: ps →
    q.state = 3 → q.rnrHold = none → q.lp = false → (p :: ps).all (fun y => decide (y.tries < q.retry)) = true →
    Runs (.ackTimeout n l) s fun t => p.sentAt + ackNs q ≤ t.io.now ∧
      ∃ x, qpOf t n = some x ∧ (laneAt x l).unacked.map (fun y => (y.psn, y.tries)) = (p :: ps).map (fun y => (y.psn, y.tries + 1))) ∧
  (∀ (n : Nat) (l : Fin 8) (q : Qp) (s : State), timed s n = some q → (laneAt q l).state = 2 →
    Runs (.laneReadmit n l) s fun t => (laneAt q l).goneAt + ms (dget s.io (idx 0x0B0013 0) 10) ≤ t.io.now ∧
      ∃ x, qpOf t n = some x ∧ (laneAt x l).state = 1 ∧ (laneAt x l).rate = rateMin s.io ∧ (laneAt x l).resync = true ∧ (laneAt x l).reason = 6) ∧
  (∀ (n a m : Nat) (q : Qp) (s : State), timed s n = some q → q.rnrHold = some (a, m) →
    Runs (.rnrTimerExpiry n) s fun t => a ≤ t.io.now ∧ ∃ x, qpOf t n = some x ∧ x.rnrHold = none) ∧
  (∀ (n : Nat) (l : Fin 8) (q : Qp) (s : State), timed s n = some q → (laneAt q l).state = 1 → (laneAt q l).cutAt = none →
    Runs (.rateRecoveryPeriod n l) s fun t => ∃ x, qpOf t n = some x ∧ (laneAt x l).q = (laneAt q l).q + 1 ∧
      (laneAt x l).rate ≤ rateMax s.io ∧ ((laneAt q l).rate ≤ rateMax s.io → (laneAt q l).rate ≤ (laneAt x l).rate))

/-- CC.EN written 1 on a controller that exists and is disabled starts it, before stage 3 or where CC passes its check; at stage
3 it becomes ready, with its admin queue pair alone. Written 0, its queues go, and where nothing was handed to firmware RDY
clears. CC.SHN begins shutdown processing and SHST 10b ends it. A tail doorbell within the queue is its tail, a valid head
doorbell its head. A pick that finds one entry that passes every check puts its command in flight and moves the head. Failed
queue memory marks an I/O queue, and sets CFS for the admin queue. A command that has come to success is completed. What the
spec leaves open here is the model's choice: log entries 61, 62. -/
def Obligations.NvmeControllersRun : Prop :=
  (∀ (c : CtlNo) (v : Word32) (s : State), ctlExists s c = true → regBit .nvCc c 0 s.io = false → v.getLsbD 0 = true →
    (s.start.stage < 3 ∨ ccOk (ccWrite c v s).io c = true) →
    Runs (.ccEnSet c v) s fun t => (ctlAt t c).rising = some s.io.now ∧ regBit .nvCc c 0 t.io = true) ∧
  (∀ (c : CtlNo) (s : State), (ctlAt s c).rising.isSome = true → s.start.stage = 3 → (ctlAt s c).falling = false → ccOk s.io c = true →
    Runs (.controllerReady c) s fun t => ctlReady t.io c = true ∧ (ctlAt t c).st = 3 ∧ (ctlAt t c).rising = none ∧
      (ctlAt t c).sqs = (adminPair s.io c (ctlAt s c)).sqs ∧ (ctlAt t c).cqs = (adminPair s.io c (ctlAt s c)).cqs) ∧
  (∀ (c : CtlNo) (v : Word32) (s : State), ctlExists s c = true → regBit .nvCc c 0 s.io = true → v.getLsbD 0 = false →
    Runs (.ccEnClear c v) s fun t => regBit .nvCc c 0 t.io = false ∧ (ctlAt t c).sqs = [] ∧ (ctlAt t c).cqs = [] ∧
      ((ctlAt s c).cmds.all (fun m => m.thread.isNone) = true → ctlReady t.io c = false)) ∧
  (∀ (c : CtlNo) (v : Word32) (s : State), ctlExists s c = true → regBit .nvCc c 0 s.io = true →
    (bits v.toNat 15 14 = 1 ∨ bits v.toNat 15 14 = 2) →
    Runs (.ccShn c v) s fun t => (ctlAt t c).shn = true ∧ regField .nvCsts c 3 2 t.io = 1) ∧
  (∀ (c : CtlNo) (s : State), (ctlAt s c).shn = true → ctlQuiet (ctlAt s c) = true → regField .nvCsts c 3 2 s.io = 1 →
    Runs (.shutdownComplete c) s fun t => regField .nvCsts c 3 2 t.io = 2) ∧
  (∀ (c : CtlNo) (q : Nat) (v : Half) (y : NvSq) (s : State), ctlExists s c = true → mget (ctlAt s c).sqs q = some y → v.toNat < y.size →
    Runs (.sqTailDoorbell c q v) s fun t => mget (ctlAt t c).sqs q = some { y with tail := v.toNat }) ∧
  (∀ (c : CtlNo) (q : Nat) (v : Half) (y : NvCq) (s : State), ctlExists s c = true → mget (ctlAt s c).cqs q = some y → v.toNat < y.size →
    (v.toNat + y.size - y.head) % y.size ≤ (y.tail + y.size - y.head) % y.size →
    Runs (.cqHeadDoorbell c q v) s fun t => (mget (ctlAt t c).cqs q).map (·.head) = some v.toNat) ∧
  (∀ (b : Bytes) (p : NvPick) (y : NvSq) (s : State), (nvPick (on (reach (s.nvme.pickAt + 200)) s)).1 = some p → 1 ≤ p.n →
    mget (ctlAt s p.ctl).sqs p.sq = some y → b.length = 64 → cmdCheck s p.ctl p.sq b = none →
    Runs (.fetchPick [some b]) s fun t => s.nvme.pickAt + 200 ≤ t.io.now ∧ cmdAt t p.ctl p.sq (field b 2 2) = some (cmdOf p.sq b) ∧
      (mget (ctlAt t p.ctl).sqs p.sq).map (·.head) = some ((y.head + 1) % y.size)) ∧
  (∀ (c : CtlNo) (k : Nat) (s : State), ctlReady s.io c = true → k ≠ 0 → (mget (ctlAt s c).sqs k).isSome = true →
    Runs (.queueMemoryFault c false k) s fun t => (mget (ctlAt t c).sqs k).map (·.failed) = some true) ∧
  (∀ (c : CtlNo) (isCq : Bool) (s : State), ctlReady s.io c = true →
    Runs (.queueMemoryFault c isCq 0) s fun t => regBit .nvCsts c 1 t.io = true ∧ (ctlAt t c).st = 4) ∧
  (∀ (c : CtlNo) (sq cid : Nat) (m : NvCmd) (d : Bool) (s : State), cmdAt s c sq cid = some m → m.ended = some (0, d) →
    m.discard = false → cqTakes s c sq = true → Runs (.nvmeCommandComplete c sq cid none) s fun t => nvDone s t c sq cid)

/-- An admin command that waits, with a completion queue that has room, is completed as a success: a CREATE I/O CQ and SQ with
arguments in range make the queue; DELETE takes away a completion queue no SQ uses, and an SQ no command uses; GET LOG PAGE
and IDENTIFY of what exists, with a data pointer that is good, and with no event waiting; an ABORT of a command that is not
in flight answers 1; SET FEATURES holds the value of a feature it takes, GET FEATURES answers. An ASYNC EVENT REQUEST stays
outstanding while fewer than eight are and no event waits. What the spec leaves open here is the model's choice: log entries
61. -/
def Obligations.NvmeAdminRuns : Prop :=
  (∀ (c : CtlNo) (cid : Nat) (m : NvCmd) (s : State), adminWaits c cid 5 m s = true → entrySizes s c = true → cdw11 m % 4 = 3 →
    1 ≤ cdw10 m % 65536 → cdw10 m % 65536 ≤ ctlQuota s.io c → mget (ctlAt s c).cqs (cdw10 m % 65536) = none → 1 ≤ cdw10 m / 65536 →
    spillRoom s (ctlCfg s.io c).2.2.2 = true → cdw11 m / 65536 < ctlVectors s.io c → field m.entry 24 8 % ctlPage s.io c = 0 →
    Runs (.createIoCq c cid) s fun t => nvDone s t c 0 cid ∧ ∃ q, mget (ctlAt t c).cqs (cdw10 m % 65536) = some q ∧
      q.base = field m.entry 24 8 ∧ q.size = cdw10 m / 65536 + 1 ∧ q.vector = cdw11 m / 65536) ∧
  (∀ (c : CtlNo) (cid : Nat) (m : NvCmd) (s : State), adminWaits c cid 1 m s = true → entrySizes s c = true → cdw11 m % 2 = 1 →
    1 ≤ cdw10 m % 65536 → cdw10 m % 65536 ≤ ctlQuota s.io c → mget (ctlAt s c).sqs (cdw10 m % 65536) = none → 1 ≤ cdw10 m / 65536 →
    cdw11 m / 65536 ≠ 0 → (mget (ctlAt s c).cqs (cdw11 m / 65536)).isSome = true → field m.entry 24 8 % ctlPage s.io c = 0 →
    Runs (.createIoSq c cid) s fun t => nvDone s t c 0 cid ∧ ∃ q, mget (ctlAt t c).sqs (cdw10 m % 65536) = some q ∧
      q.base = field m.entry 24 8 ∧ q.size = cdw10 m / 65536 + 1 ∧ q.cq = cdw11 m / 65536) ∧
  (∀ (c : CtlNo) (cid : Nat) (m : NvCmd) (y : NvSq) (s : State), adminWaits c cid 0 m s = true → cdw10 m % 65536 ≠ 0 →
    mget (ctlAt s c).sqs (cdw10 m % 65536) = some y → y.leaving = none → (ctlAt s c).cmds.all (fun n => n.sq != cdw10 m % 65536) = true →
    Runs (.deleteIoSq c cid) s fun t => nvDone s t c 0 cid ∧ mget (ctlAt t c).sqs (cdw10 m % 65536) = none) ∧
  (∀ (c : CtlNo) (cid : Nat) (m : NvCmd) (s : State), adminWaits c cid 4 m s = true → cdw10 m % 65536 ≠ 0 →
    (mget (ctlAt s c).cqs (cdw10 m % 65536)).isSome = true → sqsOf (ctlAt s c) (cdw10 m % 65536) = [] →
    Runs (.deleteIoCq c cid) s fun t => nvDone s t c 0 cid ∧ mget (ctlAt t c).cqs (cdw10 m % 65536) = none) ∧
  (∀ (c : CtlNo) (cid len : Nat) (m : NvCmd) (l : List Segment) (es : List (Nat × Nat)) (s : State), adminWaits c cid 2 m s = true →
    (logPage s c (cdw10 m % 256)).isSome = true → len = ((cdw11 m % 65536) * 65536 + cdw10 m / 65536 + 1) * 4 → len ≤ 2 ^ 20 →
    dataSegs m.entry l (ctlPage s.io c) len = .ok es → (ctlAt s c).events = [] →
    Runs (.getLogPage c cid l) s fun t => nvDone s t c 0 cid) ∧
  (∀ (c : CtlNo) (cid : Nat) (m : NvCmd) (l : List Segment) (es : List (Nat × Nat)) (b : Bytes) (s : State), adminWaits c cid 6 m s = true →
    identifyData s c (cdw10 m % 256) (entryNs m.entry) (cdw11 m / 2 ^ 24) = .ok b → dataSegs m.entry l (ctlPage s.io c) 4096 = .ok es →
    Runs (.identify c cid l) s fun t => nvDone s t c 0 cid) ∧
  (∀ (c : CtlNo) (cid : Nat) (m : NvCmd) (s : State), adminWaits c cid 8 m s = true → cmdAt s c (cdw10 m % 65536) (cdw10 m / 65536) = none →
    Runs (.nvmAbort c cid) s fun t => nvDone s t c 0 cid) ∧
  (∀ (c : CtlNo) (cid : Nat) (m : NvCmd) (h : HostRead) (s : State), adminWaits c cid 9 m s = true →
    [1, 4, 8, 9, 0xA, 0xB].contains (cdw10 m % 256) = true →
    Runs (.setFeatures c cid h) s fun t => nvDone s t c 0 cid ∧
      mget (ctlAt t c).feats (featKey (cdw10 m % 256) (cdw11 m)) = some (cdw11 m)) ∧
  (∀ (c : CtlNo) (cid : Nat) (m : NvCmd) (l : List Segment) (s : State), adminWaits c cid 0xA m s = true →
    features.contains (cdw10 m % 256) = true → cdw10 m % 256 ≠ 0x16 →
    Runs (.getFeatures c cid l) s fun t => nvDone s t c 0 cid) ∧
  (∀ (c : CtlNo) (cid : Nat) (m : NvCmd) (s : State), adminWaits c cid 0xC m s = true → (ctlAt s c).aers.length < 8 → (ctlAt s c).events = [] →
    Runs (.asyncEventRequest c cid) s fun t => (ctlAt t c).aers = (ctlAt s c).aers ++ [m.cid])

/-- A fetched I/O command handed to a thread: FLUSH has come to success; a WRITE, WRITE ZEROES, DATASET MANAGEMENT and ZONE
APPEND with a good data pointer, ranges and zone has the pieces for the back-end unit, and a zone it writes has moved; a
READ of media that answers, with a usable key, has come to success; a ZONE MANAGEMENT SEND has changed its zones and come to
success, unless it waits for a seal; a REPORT ZONES has come to success. By 0C:0020 a namespace is attached, detached and
queried. What the spec leaves open here is the model's choice: log entries 61, 62. -/
def Obligations.NvmeIoRuns : Prop :=
  (∀ (c : CtlNo) (sq cid : Nat) (th : ThreadNo) (m : NvCmd) (s : State), cmdAt s c sq cid = some m → sq ≠ 0 → m.thread = none →
    field m.entry 0 1 = 0 → Runs (.nvmFlush c sq cid th) s fun t => cameTo t c sq cid th 0) ∧
  (∀ (c : CtlNo) (sq cid : Nat) (th : ThreadNo) (l : List Segment) (es : List (Nat × Nat)) (m : NvCmd) (x y : Ns) (s : State),
    ioWaits c sq cid 1 m x s = true → dataSegs m.entry l (ctlPage s.io c) (entryBlocks m.entry * lbaBytes x.fmt) = .ok es →
    (if x.kind = 0 then .ok x else zoneWrite x (entryLba m.entry) (entryBlocks m.entry)) = Except.ok y →
    Runs (.nvmWrite c sq cid th l) s fun t => nsAt t (entryNs m.entry) = some y ∧
      hasPieces t c sq cid th (piecesOf 1 x.fmt (entryLba m.entry) (entryBlocks m.entry))) ∧
  (∀ (c : CtlNo) (sq cid : Nat) (th : ThreadNo) (l : List Segment) (es : List (Nat × Nat)) (d : Bytes) (k : Option (Bytes × Nat)) (m : NvCmd)
    (x : Ns) (s : State), ioWaits c sq cid 2 m x s = true → rangePending s (entryNs m.entry) (entryLba m.entry) (entryBlocks m.entry) = false →
    dataSegs m.entry l (ctlPage s.io c) (entryBlocks m.entry * lbaBytes x.fmt) = .ok es → nsCipher s x = .ok k →
    Runs (.nvmRead c sq cid th l (.data d)) s fun t => cameTo t c sq cid th 0) ∧
  (∀ (c : CtlNo) (sq cid : Nat) (th : ThreadNo) (m : NvCmd) (x : Ns) (s : State), ioWaits c sq cid 8 m x s = true →
    Runs (.nvmWriteZeroes c sq cid th) s fun t =>
      hasPieces t c sq cid th (piecesOf (if (field m.entry 51 1).testBit 1 then 3 else 2) x.fmt (entryLba m.entry) (entryBlocks m.entry))) ∧
  (∀ (c : CtlNo) (sq cid : Nat) (th : ThreadNo) (b : Bytes) (rs : List (Nat × Nat)) (m : NvCmd) (x : Ns) (s : State),
    ioWaits c sq cid 9 m x s = true → (field m.entry 44 4).testBit 2 = true →
    rs = (dsmRanges b (field m.entry 40 1 + 1)).filter (fun r => r.2 != 0) → rs ≠ [] → rs.all (fun r => decide (r.1 + r.2 ≤ x.size)) = true →
    Runs (.datasetManagement c sq cid th (.data b)) s fun t => hasPieces t c sq cid th (rs.flatMap (fun r => piecesOf 3 x.fmt r.1 r.2))) ∧
  (∀ (c : CtlNo) (sq cid : Nat) (th : ThreadNo) (m : NvCmd) (x y : Ns) (z : Nat) (s : State), ioWaits c sq cid 0x79 m x s = true →
    z = zoneOf x (entryLba m.entry) → (zoneAll m = true ∨ entryLba m.entry = zoneStart x z) →
    zoneActs (zsa m) (if zoneAll m then zonesFor (zsa m) x else [z]) x = .ok y →
    Runs (.zoneSend c sq cid th) s fun t =>
      if (x.kind == 2 && zsa m == 2 && !zoneAll m && !(zoneAt x z).sealed) = true then
        nsAt t (entryNs m.entry) = some (zonePut z { zoneAt y z with finisher := some (c.val, sq, cid) } y)
      else nsAt t (entryNs m.entry) = some y ∧ cameTo t c sq cid th 0) ∧
  (∀ (c : CtlNo) (sq cid : Nat) (th : ThreadNo) (l : List Segment) (es : List (Nat × Nat)) (m : NvCmd) (x : Ns) (s : State),
    ioWaits c sq cid 0x7A m x s = true → field m.entry 52 1 = 0 → (field m.entry 48 4 + 1) * 4 ≤ 2 ^ 20 →
    dataSegs m.entry l (ctlPage s.io c) ((field m.entry 48 4 + 1) * 4) = .ok es →
    Runs (.zoneReceive c sq cid th l) s fun t => cameTo t c sq cid th 0) ∧
  (∀ (c : CtlNo) (sq cid : Nat) (th : ThreadNo) (l : List Segment) (es : List (Nat × Nat)) (m : NvCmd) (x y : Ns) (z : Nat) (s : State),
    ioWaits c sq cid 0x7D m x s = true → z = zoneOf x (entryLba m.entry) → entryLba m.entry = zoneStart x z → (zoneAt x z).st ≠ 3 →
    dataSegs m.entry l (ctlPage s.io c) (entryBlocks m.entry * lbaBytes x.fmt) = .ok es →
    (zoneAt x z).wp + entryBlocks m.entry ≤ x.zoneSize → zoneOpen x z false = (true, y) →
    Runs (.zoneAppend c sq cid th l) s fun t => nsAt t (entryNs m.entry) = some (zoneAssign s y z (entryBlocks m.entry)).2 ∧
      hasPieces t c sq cid th [(4, zoneStart x z + (zoneAt x z).wp, entryBlocks m.entry)]) ∧
  (∀ (b : Issuer) (arg : Bytes) (x : Ns) (s : State), attachReady b arg 1 x s = true → x.attached.contains (field arg 2 2) = false →
    (s.store.nss.filter (fun p => p.2.attached.contains (field arg 2 2))).length < 1024 →
    Runs (.nsAttach b arg) s fun t => told t b 0x0C0020 0 ∧
      nsAt t (field arg 4 4) = some { x with attached := sadd x.attached (field arg 2 2) }) ∧
  (∀ (b : Issuer) (arg : Bytes) (x : Ns) (s : State), attachReady b arg 2 x s = true → x.attached.contains (field arg 2 2) = true →
    Runs (.nsDetach b arg) s fun t => told t b 0x0C0020 0 ∧
      nsAt t (field arg 4 4) = some { x with attached := sdel x.attached (field arg 2 2) }) ∧
  (∀ (b : Issuer) (arg : Bytes) (x : Ns) (s : State), attachReady b arg 3 x s = true →
    Runs (.nsAttachQuery b arg) s fun t => toldWith t b 0x0C0020 0 (le 1 x.kind ++ le 1 (nsState s x) ++ le 2 x.attached.length))

/-- By 0C:1010 a back end not yet defined, identified with 512 or 4,096-byte blocks and no metadata, is defined present; one
nothing names is removed; any is queried. By 0C:1000 a namespace with valid arguments that fits its back ends, log and keys
is created, one that nothing holds is deleted, any is queried, and a FAILED one is recovered READY. A verification is
started, resumed after an end, aborted, ended at its last zone, and checks a record a read. An export of a zone of a sealed
namespace fills 0C:1051 with the entries and, of a zone not sealed, zeros. What the spec leaves open here is the model's
choice: log entries 63, 64. -/
def Obligations.BackEndsAndNamespacesRun : Prop :=
  (∀ (b : Issuer) (arg : Bytes) (d : BeIdent) (s : State), cmdGate s.start.stage b 0x0C1010 arg 32 1 s.io = none → field arg 1 1 < 64 →
    allZero (slice arg 5 3) = true → allZero (slice arg 0x1A 6) = true → (principalOf b.assoc.binding = .m → field arg 2 1 = 1) →
    defineOk s arg = true → beAt s (field arg 1 1) = none → d.metadata = 0 → (d.lba = 512 ∨ d.lba = 4096) →
    Runs (.beDefine b arg (some d)) s fun t => told t b 0x0C1010 0 ∧ ∃ x, beAt t (field arg 1 1) = some x ∧ x.st = 1 ∧
      x.kind = field arg 2 1 ∧ x.blocks = d.blocks ∧ x.fmt = (if d.lba = 512 then 0 else 1)) ∧
  (∀ (b : Issuer) (arg : Bytes) (s : State), cmdGate s.start.stage b 0x0C1010 arg 32 2 s.io = none → field arg 1 1 < 64 →
    allZero (slice arg 5 3) = true → allZero (slice arg 0x1A 6) = true → (beAt s (field arg 1 1)).isSome = true → beNamed s (field arg 1 1) = false →
    Runs (.beRemove b arg) s fun t => told t b 0x0C1010 0 ∧ beAt t (field arg 1 1) = none) ∧
  (∀ (b : Issuer) (arg : Bytes) (s : State), cmdGate s.start.stage b 0x0C1010 arg 32 3 s.io = none → field arg 1 1 < 64 →
    allZero (slice arg 5 3) = true → allZero (slice arg 0x1A 6) = true →
    Runs (.beQuery b arg) s fun t => toldWith t b 0x0C1010 0 (beBlock (field arg 1 1) (beAt s (field arg 1 1)))) ∧
  (∀ (b : Issuer) (arg : Bytes) (x : Ns) (s : State), cmdGate s.start.stage b 0x0C1000 arg 80 1 s.io = none → x = nsOf arg →
    nsArgsOk arg x = true → nsAt s (field arg 4 4) = none → copyFits s x x.beA x.baseA = true →
    (x.copies = 2 → copyFits s x x.beB x.baseB = true) → logOk s x.log = true → nsKeysOk s x = true →
    Runs (.nsCreate b arg) s fun t => told t b 0x0C1000 0 ∧ nsAt t (field arg 4 4) = some x) ∧
  (∀ (b : Issuer) (arg : Bytes) (x : Ns) (s : State), cmdGate s.start.stage b 0x0C1000 arg 80 2 s.io = none →
    nsAt s (field arg 4 4) = some x → (x.kind = 2 → principalOf b.assoc.binding ≠ .f ∧ lacksSession s b = false) → x.attached = [] →
    ¬(s.store.ver.st = 1 ∧ s.store.ver.ns = field arg 4 4) →
    Runs (.nsDelete b arg) s fun t => told t b 0x0C1000 0 ∧ nsAt t (field arg 4 4) = none) ∧
  (∀ (b : Issuer) (arg : Bytes) (s : State), cmdGate s.start.stage b 0x0C1000 arg 80 3 s.io = none → (nsAt s (field arg 4 4)).isSome = true →
    Runs (.nsQuery b arg) s fun t => toldWith t b 0x0C1000 0 (nsResult s 0 (field arg 4 4))) ∧
  (∀ (b : Issuer) (arg : Bytes) (x : Ns) (s : State), cmdGate s.start.stage b 0x0C1000 arg 80 4 s.io = none →
    nsAt s (field arg 4 4) = some x → x.state = 4 → lacksSession s b = false →
    Runs (.nsRecover b arg) s fun t => told t b 0x0C1000 0 ∧ (nsAt t (field arg 4 4)).map (·.state) = some 0) ∧
  (∀ (b : Issuer) (arg : Bytes) (x : Ns) (s : State), cmdGate s.start.stage b 0x0C1040 arg 16 1 s.io = none →
    verMay s b (field arg 4 4) = true → s.store.ver.st ≠ 1 → nsAt s (field arg 4 4) = some x → x.kind = 2 → allZero (slice arg 1 3) = true →
    1 ≤ field arg 0xC 4 → field arg 8 4 + field arg 0xC 4 ≤ x.size / max 1 x.zoneSize →
    Runs (.sealVerifyStart b arg) s fun t => told t b 0x0C1040 9 ∧ t.store.ver.st = 1 ∧ t.store.ver.ns = field arg 4 4 ∧
      t.store.ver.zone = field arg 8 4 ∧ t.store.ver.stop = field arg 8 4 + field arg 0xC 4) ∧
  (∀ (b : Issuer) (arg : Bytes) (s : State), cmdGate s.start.stage b 0x0C1040 arg 16 2 s.io = none → verMay s b s.store.ver.ns = true →
    (s.store.ver.st = 4 ∨ s.store.ver.st = 5 ∨ s.store.ver.st = 6) → (nsAt s s.store.ver.ns).isSome = true →
    Runs (.sealVerifyResume b arg) s fun t => told t b 0x0C1040 9 ∧ t.store.ver.st = 1 ∧ t.store.ver.zone = s.store.ver.zone ∧
      t.store.ver.rec_ = s.store.ver.rec_) ∧
  (∀ (b : Issuer) (arg : Bytes) (s : State), cmdGate s.start.stage b 0x0C1040 arg 16 3 s.io = none → verMay s b s.store.ver.ns = true →
    s.store.ver.st = 1 → Runs (.sealVerifyAbort b arg) s fun t => told t b 0x0C1040 0 ∧ t.store.ver.st = 4 ∧ cmdRuns t.io 0x0C1040 = false) ∧
  (∀ (x : Ns) (r : SealRead) (s : State), s.store.ver.st = 1 → s.store.ver.zone < s.store.ver.stop → nsAt s s.store.ver.ns = some x →
    s.store.ver.rec_ < (zoneAt x s.store.ver.zone).tab.2.1 →
    Runs (.sealVerifyRead r) s fun t => t.store.ver.rec_ = s.store.ver.rec_ + 1 ∧ t.store.ver.records = s.store.ver.records + 1 ∧
      s.store.ver.paceAt ≤ t.io.now ∧
      t.store.ver.fails = s.store.ver.fails + if verRecord (on (reach s.store.ver.paceAt) s) x s.store.ver r = 0 then 0 else 1) ∧
  (∀ (s : State), s.store.ver.st = 1 → s.store.ver.stop ≤ s.store.ver.zone →
    Runs .sealVerifyEnd s fun t => t.store.ver.st = 3 ∧ cmdRuns t.io 0x0C1040 = false) ∧
  (∀ (b : Issuer) (arg c : Bytes) (x : Ns) (s : State), gate s.start.stage b 0x0C1050 s.io = none → arg.length = 16 →
    verMay s b (field arg 0 4) = true → nsAt s (field arg 0 4) = some x → x.kind = 2 → 1 ≤ field arg 0xC 4 → field arg 0xC 4 ≤ 16384 →
    field arg 4 4 < x.size / max 1 x.zoneSize → field arg 8 4 + field arg 0xC 4 ≤ (zoneAt x (field arg 4 4)).tab.2.1 →
    Runs (.sealExport b arg (some c)) s fun t => told t b 0x0C1050 0 ∧ t.blob 0x0C1051 0 = slice c 0 (64 * field arg 0xC 4) ++
      (if (zoneAt x (field arg 4 4)).st = 3 ∧ (zoneAt x (field arg 4 4)).sealed = true then slice c (64 * field arg 0xC 4 + 0x60) 160
       else List.replicate 160 0))

/-- The next piece of a command, its data read and its key and, in a sealed zone, its link known, becomes the log's next record.
A log write that ends well takes its record on; a home write that ends retires it, and with the last of a command completes
that command. A checkpoint due is written; a replay takes the log's namespaces out of REPLAYING. A present back end that is
lost is LOST, and one that returns is present. A copy written again is current; a namespace that has waited its time is
FAILED; a full sealed zone whose appends are done gets its seal record. What the spec leaves open here is the model's
choice: log entries 63, 64. -/
def Obligations.WriteIntentLogRuns : Prop :=
  (∀ (c : CtlNo) (sq cid kind lba n : Nat) (l : List (Nat × Nat × Nat)) (d : Bytes) (m : NvCmd) (x : Ns) (k : Option (Bytes × Nat)) (s : State),
    cmdAt s c sq cid = some m → m.pieces = (kind, lba, n) :: l → m.ended = none → nsAt s (entryNs m.entry) = some x → nsCipher s x = .ok k →
    (kind = 4 → x.kind = 2 → ∃ ck h, chainKey s x = some ck ∧
      (zoneAt x (zoneOf x lba)).heads.find? (fun h => field h.2 8 8 == lba) = some h ∧ (zoneAt x (zoneOf x lba)).linked = h.1) →
    Runs (.atomicPiece c sq cid (.data d)) s fun t => (cmdAt t c sq cid).map (fun y => (y.pieces, y.out)) = some (l, m.out + 1) ∧
      ∃ r ∈ (wilAt t x.log).recs, r.seq = (wilAt s x.log).next ∧ r.kind = kind ∧ r.ns = entryNs m.entry ∧ r.lba = lba ∧ r.blocks = n ∧
        r.cmd = some (c.val, sq, cid)) ∧
  (∀ (k : Fin 8) (seq : Nat) (r : LogRec) (s : State), recAt s k seq = some r → r.stage = 1 →
    Runs (.logWriteComplete k seq true) s fun t => ∃ y, recAt t k seq = some y ∧ (y.stage = 2 ∨ y.stage = 3)) ∧
  (∀ (k : Fin 8) (seq : Nat) (ok : Bool) (r : LogRec) (s : State), recAt s k seq = some r → r.stage = 3 →
    Runs (.homeWriteComplete k seq ok) s fun t => (recAt t k seq).all (fun y => y.stage == 4) = true ∧
      ∀ c sq cid m, r.cmd = some (c, sq, cid) → cmdAt s c sq cid = some m → m.out = 1 → m.pieces = [] → m.ended = none → m.discard = false →
        cqTakes s c sq = true → (nsAt s r.ns).all (fun x => x.state != 2) = true → ok = true → nvDone s t c sq cid) ∧
  (∀ (k : Fin 8) (c : Nat × Nat × Nat) (s : State), (wilAt s k).dueAt.isSome = true → wilCfg s.io k = some c → (beAt s c.1).isSome = true →
    Runs (.checkpointWrite k) s fun t => (wilAt t k).gen = (wilAt s k).gen + 1 ∧ (wilAt t k).cpW = (wilAt s k).w ∧ (wilAt t k).dueAt = none) ∧
  (∀ (k : Fin 8) (c : Nat × Nat × Nat) (cps : List Bytes) (l : List (Bytes × Bytes)) (n : Nat) (x : Ns) (s : State), wilCfg s.io k = some c →
    bePresent s c.1 = true → nsAt s n = some x → x.log = k → x.state = 1 →
    Runs (.logReplay k cps l) s fun t => ∃ y, nsAt t n = some y ∧ (y.state = 0 ∨ y.state = 2)) ∧
  (∀ (k : Fin 64) (s : State), (beAt s k).map (·.st) = some 1 → Runs (.backendLost k) s fun t => (beAt t k).map (·.st) = some 3) ∧
  (∀ (k : Fin 64) (b : Be) (s : State), beAt s k = some b → b.st ≠ 1 → Runs (.backendReturn k) s fun t => (beAt t k).map (·.st) = some 1) ∧
  (∀ (n : Nat) (x : Ns) (s : State), nsAt s n = some x → x.resync = true →
    Runs (.resyncComplete n) s fun t => nsAt t n = some { x with resync := false, curA := true, curB := true }) ∧
  (∀ (n a : Nat) (x : Ns) (s : State), nsAt s n = some x → x.state = 2 → x.waitAt = some a →
    Runs (.beWaitLimit n) s fun t => (nsAt t n).map (·.state) = some 4 ∧ a + sec (dget s.io (idx 0x0C1003 0) 30) ≤ t.io.now) ∧
  (∀ (n z : Nat) (x : Ns) (s : State), nsAt s n = some x → x.kind = 2 → x.state = 0 → (zoneAt x z).st = 3 → (zoneAt x z).sealing = false →
    (zoneAt x z).count ≤ (zoneAt x z).done → (chainKey s x).isSome = true →
    Runs (.zoneSeal n z) s fun t => (nsAt t n).map (fun y => (zoneAt y z).sealing) = some true ∧
      ∃ r ∈ (wilAt t x.log).recs, r.seq = (wilAt s x.log).next ∧ r.kind = 5 ∧ r.ns = n ∧ r.lba = zoneStart x z)

/-- On a root port that exists: a change of presence, a power fault and a press set their Slot Status bits; a fault contains the
port and takes its power; a press starts the 5 s window, at whose end a powered slot goes off and an empty-handed one on. By
0D:0100 or Slot Control a present slot without a fault powers up and a powered one begins to go off; the timers, DL_Active,
indicators, Slot Control, containment and its clearing do what R420 to R423 say; a completion answers the request it names,
and a TLP that reaches no memory is answered UR. What the spec leaves open here is the model's choice: log entries 65, 66. -/
def Obligations.SlotsRun : Prop :=
  (∀ (k : SlotNo) (p : Bool) (s : State), k.val < portCount s → (bayOf s k).present ≠ p →
    Runs (.slotPresence k p) s fun t => (bayOf t k).present = p ∧ (bayOf t k).pdc = true) ∧
  (∀ (k : SlotNo) (low : Bool) (s : State), k.val < portCount s →
    Runs (.slotPowerFault k low) s fun t => (bayOf t k).fault = low ∧ (low = true → (bayOf t k).pfd = true ∧ (bayOf t k).contained = true ∧
      (bayOf t k).pwren = false ∧ (bayOf t k).perst = true ∧ (bayOf t k).atnLed = 1)) ∧
  (∀ (k : SlotNo) (s : State), k.val < portCount s → (dget s.io (idx 0x0D0014 0) 0xFF).testBit k = true → (bayOf s k).window = none →
    (bayOf s k).phase = 0 → ((bayOf s k).pwren || (bayOf s k).present) = true →
    Runs (.slotAttention k) s fun t => (bayOf t k).window = some s.io.now ∧ (bayOf t k).pwrLed = 2 ∧ (bayOf t k).abp = true) ∧
  (∀ (k : SlotNo) (a : Nat) (s : State), (bayOf s k).window = some a → (bayOf s k).phase = 0 → (bayOf s k).fault = false → (bayOf s k).present = true →
    Runs (.attentionWindow k) s fun t => a + sec 5 ≤ t.io.now ∧ (bayOf t k).window = none ∧
      if (bayOf s k).pwren = true then (bayOf t k).phase = 3 ∧ (bayOf t k).perst = true else (bayOf t k).pwren = true ∧ (bayOf t k).phase = 1) ∧
  (∀ (k : SlotNo) (b : Option Issuer) (s : State), k.val < portCount s → (∀ i, b = some i → s.allows i 0x0D0100) → (bayOf s k).present = true →
    (bayOf s k).fault = false → (bayOf s k).pwren = false → (bayOf s k).phase = 0 →
    Runs (.slotPowerOn k b) s fun t => (∀ i, b = some i → toldWith t i 0x0D0100 0 (le 1 0)) ∧ (bayOf t k).pwren = true ∧ (bayOf t k).st = 2 ∧
      (bayOf t k).phase = 1 ∧ (bayOf t k).at_ = s.io.now) ∧
  (∀ (k : SlotNo) (s : State), (bayOf s k).phase = 1 →
    Runs (.slotSettle k) s fun t => (bayOf t k).perst = false ∧ (bayOf t k).phase = 2 ∧
      (bayOf s k).at_ + ms (dget s.io (idx 0x0D0012 0) 100) ≤ t.io.now) ∧
  (∀ (k : SlotNo) (r : Fin 6) (w : Fin 17) (d : Option BeIdent) (s : State), (bayOf s k).phase = 2 →
    lanesTested s.dbg (fun l => laneKind l == some 2 && laneRoot s l == k.val) = false →
    Runs (.dlActive k r w d) s fun t => (bayOf t k).st = 3 ∧ (bayOf t k).link = true ∧ (bayOf t k).rate = r ∧ (bayOf t k).width = w ∧
      (bayOf t k).contained = false ∧ (bayOf t k).dllsc = true ∧ Sent.identifyDrive k ∈ t.io.sent) ∧
  (∀ (k : SlotNo) (s : State), (bayOf s k).phase = 2 → (bayOf s k).pwren = true →
    Runs (.slotTrainingTimeout k) s fun t => (bayOf t k).phase = 3 ∧ (bayOf t k).perst = true ∧ (bayOf s k).at_ + ms 100 ≤ t.io.now ∧
      t.num 0x0D0030 5 = satAdd 64 (s.num 0x0D0030 5) 1) ∧
  (∀ (k : SlotNo) (b : Option Issuer) (s : State), k.val < portCount s → (∀ i, b = some i → s.allows i 0x0D0100) → (bayOf s k).pwren = true →
    (bayOf s k).phase ≠ 3 →
    Runs (.slotPowerOff k b) s fun t => (∀ i, b = some i → toldWith t i 0x0D0100 0 (le 1 0)) ∧ (bayOf t k).perst = true ∧
      (bayOf t k).phase = 3 ∧ (bayOf t k).link = false) ∧
  (∀ (k : SlotNo) (s : State), (bayOf s k).phase = 3 →
    Runs (.slotPwrenOff k) s fun t => (bayOf t k).pwren = false ∧ (bayOf t k).phase = 4 ∧ (bayOf s k).at_ + ms 1 ≤ t.io.now) ∧
  (∀ (k : SlotNo) (s : State), (bayOf s k).phase = 4 →
    Runs (.slotOffWait k) s fun t => (bayOf t k).phase = 0 ∧ (bayOf t k).pwrLed = 0 ∧ (bayOf t k).st = 1 ∧
      (bayOf s k).at_ + ms (dget s.io (idx 0x0D0013 0) 1000) ≤ t.io.now) ∧
  (∀ (k : SlotNo) (b : Issuer) (v : Nat) (c : Instr) (s : State), k.val < portCount s → s.allows b 0x0D0100 →
    (v, c) ∈ [(0, .slotAtnOff k b), (1, .slotAtnOn k b), (2, .slotAtnBlink k b)] →
    Runs c s fun t => toldWith t b 0x0D0100 0 (le 1 0) ∧ (bayOf t k).atnLed = v) ∧
  (∀ (k : SlotNo) (v c : Half) (s : State), k.val < portCount s →
    Runs (.slotControl k v c) s fun t => (bayOf t k).control = v.toNat ∧ (bayOf t k).cc = true ∧
      (bayOf t k).atnLed = ledOf (bits v.toNat 7 6) (bayOf s k).atnLed) ∧
  (∀ (k : SlotNo) (l : Byte) (s : State), (bayOf s k).link = true → (bayOf s k).contained = false →
    Runs (.driveLinkDown k l) s fun t => (bayOf t k).contained = true ∧ (bayOf t k).cause = 3 ∧ (bayOf t k).link = false) ∧
  (∀ (k : SlotNo) (e : Fin 3) (s : State), (bayOf s k).link = true → (bayOf s k).contained = false →
    Runs (.driveError k e) s fun t => if e = 0 then t.num 0x0D0030 6 = satAdd 64 (s.num 0x0D0030 6) 1 ∧ bayOf t k = bayOf s k
      else (bayOf t k).contained = true ∧ (bayOf t k).cause = 4) ∧
  (∀ (k : SlotNo) (g : Fin 1024) (s : State), (bayOf s k).link = true → (bayOf s k).contained = false →
    Runs (.driveTimeout k g) s fun t => (bayOf t k).contained = true ∧ (bayOf t k).cause = 4 ∧ (bayOf t k).reqs = []) ∧
  (∀ (k : SlotNo) (s : State), (bayOf s k).contained = true → ((bayOf s k).cause = 1 → (bayOf s k).pwren = true ∧ (bayOf s k).phase ≤ 2) →
    Runs (.dpcClear k) s fun t => (bayOf t k).contained = false ∧ (bayOf t k).cause = 0) ∧
  (∀ (k : SlotNo) (g st : Nat) (d : Bytes) (p : Bool) (fn n : Nat) (s : State), (bayOf s k).link = true →
    (bayOf s k).reqs.find? (fun r => r.1 == g) = some (g, some (fn, n)) →
    Runs (.downstreamTlp k (.completion g st d p)) s fun t => (bayOf t k).reqs = (bayOf s k).reqs.filter (fun r => r.1 != g) ∧
      t.last = some (.completion fn (if st ≠ 0 then st else if p then 2 else 0) d)) ∧
  (∀ (k : SlotNo) (a n : Nat) (s : State), (bayOf s k).link = true → attachedRun s.mem a n = false →
    Runs (.downstreamTlp k (.read a n)) s fun t => t.last = some (.driveCompletion k 1 []) ∧ t.mem = s.mem)

/-- A running thread that takes no interrupt and whose next instruction is in its instruction cache: an instruction that gives
rd a value gives it that value and goes on; a jump and a taken branch go to their target; a load of readable SRAM and a
store to SRAM that can be reached complete; an environment call and an illegal instruction trap with their causes. Data for
an outstanding host-window load completes it, a failure traps it. A pending enabled timer interrupt traps. In M mode cache
maintenance leaves a line clean or absent, and kwicfill puts a line that can be read into a locked way. What the spec leaves
open here is the model's choice: log entries 67 to 70. -/
def Obligations.InstructionsRun : Prop :=
  (∀ (t : ThreadNo) (env : OaEnv) (len rd : Nat) (v : Word64) (s : State), doesNext t len (.put rd v) s = true →
    Runs (.rvInstruction t env) s fun u => doneWith s u t len rd v) ∧
  (∀ (t : ThreadNo) (env : OaEnv) (len rd : Nat) (g : Word64) (s : State), doesNext t len (.jump rd g) s = true →
    Runs (.rvInstruction t env) s fun u => (threadAt u t).pc = g ∧
      (rd ≠ 0 → xreg (threadAt u t) rd = (threadAt s t).pc + BitVec.ofNat 64 len)) ∧
  (∀ (t : ThreadNo) (env : OaEnv) (len : Nat) (b : Bool) (g : Word64) (s : State), doesNext t len (.branch b g) s = true →
    Runs (.rvInstruction t env) s fun u => (threadAt u t).pc = (if b then g else (threadAt s t).pc + BitVec.ofNat 64 len) ∧
      (threadAt u t).regs = (threadAt s t).regs) ∧
  (∀ (t : ThreadNo) (env : OaEnv) (len rd n : Nat) (a : Word64) (sg : Bool) (d : Bytes) (s : State), doesNext t len (.load rd a n sg) s = true →
    a.toNat % n = 0 → pmpOk (threadAt s t) (dataMode (threadAt s t)) a.toNat n 1 = true → readAt t a.toNat n s = (.done d, s) →
    Runs (.rvInstruction t env) s fun u => doneWith s u t len rd (loadVal d sg)) ∧
  (∀ (t : ThreadNo) (env : OaEnv) (len n x : Nat) (a v : Word64) (s : State), doesNext t len (.store a n v) s = true →
    a.toNat % n = 0 → pmpOk (threadAt s t) (dataMode (threadAt s t)) a.toNat n 2 = true → spotOf s t a.toNat = .sram x →
    spotReached s t (.sram x) = true → spotIsolated s (.sram x) = false →
    Runs (.rvInstruction t env) s fun u => doneWith s u t len 0 0 ∧ u.mem = (sramWrite x (le n v.toNat) s).mem) ∧
  (∀ (t : ThreadNo) (env : OaEnv) (len : Nat) (s : State), (threadAt s t).trapping = false →
    (doesNext t len .ecall s = true → Runs (.rvInstruction t env) s fun u => trapped s u t false (if (threadAt s t).m then 11 else 8)) ∧
    (doesNext t len .illegal s = true → Runs (.rvInstruction t env) s fun u => trapped s u t false 2)) ∧
  (∀ (t : ThreadNo) (b : Bytes) (l : HostLoad) (s : State), (threadAt s t).load = some l →
    Runs (.hostWindowReadReturn t (.data b)) s fun u => doneWith s u t l.len l.rd (loadVal (padTo l.bytes b) l.signed) ∧ (threadAt u t).load = none) ∧
  (∀ (t : ThreadNo) (c : Fin 8) (l : HostLoad) (s : State), (threadAt s t).load = some l → (threadAt s t).trapping = false →
    Runs (.hostWindowReadReturn t (.fail c)) s fun u => trapped s u t false 5 ∧ (threadAt u t).kwtrapinfo = hostCode c.val) ∧
  (∀ (t : ThreadNo) (s r : State), evArrive (on (timeReach (threadAt s t).kwtimecmp.toNat 64) s) = r → slotRuns r t = true →
    intPending r t = some 7 → (threadAt r t).st = 1 → (threadAt r t).trapping = false →
    Runs (.machineTimerInterrupt t) s fun u => trapped r u t true 7) ∧
  (∀ (t : ThreadNo) (a m : Nat) (s : State), maintains t a m s = true →
    (Runs (.kwcmoClean t a) s fun u => doneWith s u t 4 0 0 ∧ ∀ e ∈ cacheOf u.mem (t / 64), e.1 = m / 64 → e.2.dirty = false) ∧
    (Runs (.kwcmoInvalidate t a) s fun u => doneWith s u t 4 0 0 ∧ ∀ e ∈ cacheOf u.mem (t / 64), e.1 ≠ m / 64) ∧
    (Runs (.kwcmoCleanInvalidate t a) s fun u => doneWith s u t 4 0 0 ∧ ∀ e ∈ cacheOf u.mem (t / 64), e.1 ≠ m / 64)) ∧
  (∀ (t : ThreadNo) (v : Word64) (line : Nat) (d : Bytes) (s : State), issues t s = true → (threadAt s t).m = true → bits v.toNat 1 0 ≠ 3 →
    (cellAt s (t / 8)).locked.testBit (bits v.toNat 1 0) = true → canonAddr t (bits v.toNat 47 6 * 64) / 64 = line →
    lineRead t line s = (.done d, s) →
    Runs (.kwicfill t v) s fun u => doneWith s u t 4 0 0 ∧ iFind (cellAt u (t / 8)) line = some d)

/-- CELL_START of a stopped thread of a cell that is on starts it in M mode at the address written; any other sets
START_REFUSED. A kick reloads the watchdog; its expiry, for a cell that is on and not paused, counts a containment reset of
the cell, or of the block for a Bellwether's own cell. An acknowledgement without action removes the record; one that asks
for a reset of a cell that is on, not reset since the record was raised, counts a containment reset. BW_CONSUMER takes a
value at most 64 behind BW_PRODUCER. 0E:0020 resets a cell that is not isolated: its thread 0 starts at the reset vector.
What the spec leaves open here is the model's choice: log entries 15, 71. -/
def Obligations.CellRegistersRun : Prop :=
  (∀ (c : CellNo) (v : Word64) (s : State),
    Runs (.cellStart c v) s fun u =>
      if cellOff s c = false ∧ ((threadAt s (8 * c + bits v.toNat 50 48)).st = 0 ∨ (threadAt s (8 * c + bits v.toNat 50 48)).st = 4) then
        (threadAt u (8 * c + bits v.toNat 50 48)).st = 1 ∧ (threadAt u (8 * c + bits v.toNat 50 48)).m = true ∧
        (threadAt u (8 * c + bits v.toNat 50 48)).pc = BitVec.ofNat 64 (2 * bits v.toNat 47 1) ∧ (threadAt u (8 * c + bits v.toNat 50 48)).regs = []
      else (cellAt u c).refused = true ∧ u.cpu.threads = s.cpu.threads) ∧
  (∀ (c : CellNo) (s : State), Runs (.cellWdogKick c) s fun u => (cellAt u c).wdogAt = s.io.now) ∧
  (∀ (c : CellNo) (s : State), wdogPeriod s ≠ 0 → wdogPaused s c = false → cellOff s c = false → s.cpu.held = false → s.clk.holdAll = false →
    Runs (.cellWatchdogExpiry c) s fun u => (cellAt s c).wdogAt + wdogPeriod s ≤ u.io.now ∧ ∃ r ∈ u.cont.resets,
      r.level = (if c.val % 8 = 0 then 2 else 1) ∧ r.unit = (if c.val % 8 = 0 then c.val / 8 else c) ∧ r.time = u.io.now) ∧
  (∀ (b : BlockNo) (q : Half) (s : State), (bwAt s b).unacked.any (fun p => p.1 == q.toNat) = true →
    Runs (.bwAckNoAction b q) s fun u => (bwAt u b).unacked = (bwAt s b).unacked.filter (fun p => p.1 != q.toNat)) ∧
  (∀ (b : BlockNo) (q : Half) (p : Nat × BwRec) (s : State), (bwAt s b).unacked.find? (fun p => p.1 == q.toNat) = some p → p.2.kind ≠ 4 →
    p.2.cell % 8 ≠ 0 → cellOff s p.2.cell = false → (cellAt s p.2.cell).resetAt.all (fun z => decide (z < p.2.raised)) = true →
    Runs (.bwAckResetRequest b q) s fun u => { level := 1, unit := p.2.cell, time := s.io.now } ∈ u.cont.resets) ∧
  (∀ (b : BlockNo) (v : Word32) (s : State), ((bwAt s b).producer - v).toNat ≤ 64 →
    Runs (.bwConsumerWrite b v) s fun u => (bwAt u b).consumer = v) ∧
  (∀ (i : Issuer) (arg : Byte) (s : State), s.allows i 0x0E0020 → arg.toNat < 128 → s.cont.cells.contains arg.toNat = false →
    s.cont.blocks.contains (arg.toNat / 8) = false → s.cont.regions.contains (arg.toNat / 32) = false →
    Runs (.cellReset i arg) s fun u => told u i 0x0E0020 0 ∧ (cellAt u arg.toNat).resetAt = some s.io.now ∧
      (threadAt u (8 * arg.toNat)).st = 1 ∧ (threadAt u (8 * arg.toNat)).pc = BitVec.ofNat 64 (resetVector s))

/-- A thread that may issue them, with operands read from rs1 and rs2: LK.ACQ and LK.TRY take a free lock and report whether it
was abandoned; of a lock another thread holds, LK.ACQ waits and LK.TRY gives 2; the holder's LK.REL frees a lock nobody
waits for. EV.WAIT on a counter that has reached its target goes on; EV.SIG and EV.ADD add. CH.RES of the writer reserves a
slot and gives its address, CH.PUB publishes it, CH.READ of the reader copies slot HEAD and frees it. PKT.GET and PKT.TRYGET
take the oldest packet; without one TRYGET gives 0. A valid PKT.PUT gives up its packet or, back-pressured, waits. What the
spec leaves open here is the model's choice: log entries 70, 72. -/
def Obligations.XkwaithRuns : Prop :=
  (∀ (t : ThreadNo) (rd a : Fin 32) (s : State), xkIssues t s = true → (xreg (threadAt s t) a).toNat < 4096 →
    (lockAt s (t / 64) (xreg (threadAt s t) a).toNat).holder = none → ∀ c ∈ [Instr.lkAcq t rd a, .lkTry t rd a],
    Runs c s fun u => doneWith s u t 4 rd (flagW (lockAt s (t / 64) (xreg (threadAt s t) a).toNat).abandoned) ∧
      (lockAt u (t / 64) (xreg (threadAt s t) a).toNat).holder = some (t % 64)) ∧
  (∀ (t : ThreadNo) (rd a : Fin 32) (h : Nat) (s : State), xkIssues t s = true → (xreg (threadAt s t) a).toNat < 4096 →
    (lockAt s (t / 64) (xreg (threadAt s t) a).toNat).holder = some h → h ≠ t % 64 →
    (Runs (.lkTry t rd a) s fun u => doneWith s u t 4 rd 2) ∧
    (Runs (.lkAcq t rd a) s fun u => (threadAt u t).st = 2 ∧ (threadAt u t).pc = (threadAt s t).pc ∧
      (lockAt u (t / 64) (xreg (threadAt s t) a).toNat).queue = (lockAt s (t / 64) (xreg (threadAt s t) a).toNat).queue ++ [t.val % 64])) ∧
  (∀ (t : ThreadNo) (rd a : Fin 32) (s : State), xkIssues t s = true → (xreg (threadAt s t) a).toNat < 4096 →
    (lockAt s (t / 64) (xreg (threadAt s t) a).toNat).holder = some (t % 64) → (lockAt s (t / 64) (xreg (threadAt s t) a).toNat).queue = [] →
    Runs (.lkRel t rd a) s fun u => doneWith s u t 4 rd 0 ∧ (lockAt u (t / 64) (xreg (threadAt s t) a).toNat).holder = none) ∧
  (∀ (t : ThreadNo) (rd a b : Fin 32) (s : State), xkIssues t s = true → (xreg (threadAt s t) a).toNat < 1024 →
    evReached (evAt s (t / 64) (xreg (threadAt s t) a).toNat) (xreg (threadAt s t) b) = true →
    Runs (.evWait t rd a b) s fun u => doneWith s u t 4 rd 0) ∧
  (∀ (t : ThreadNo) (rd a b : Fin 32) (s : State), xkIssues t s = true → (xreg (threadAt s t) a).toNat < 1024 →
    (Runs (.evSig t rd a) s fun u => doneWith s u t 4 rd 0 ∧
      evAt u (t / 64) (xreg (threadAt s t) a).toNat = evAt s (t / 64) (xreg (threadAt s t) a).toNat + 1) ∧
    (Runs (.evAdd t rd a b) s fun u => doneWith s u t 4 rd 0 ∧
      evAt u (t / 64) (xreg (threadAt s t) a).toNat = evAt s (t / 64) (xreg (threadAt s t) a).toNat + xreg (threadAt s t) b)) ∧
  (∀ (t : ThreadNo) (rd a : Fin 32) (c : Chan) (s : State), xkIssues t s = true → (xreg (threadAt s t) a).toNat < 256 →
    chanAt s (t / 64) (xreg (threadAt s t) a).toNat = c → c.state = .open → c.writer = t % 64 → c.reserved = false → c.pub < 16 →
    Runs (.chRes t rd a) s fun u => doneWith s u t 4 rd (BitVec.ofNat 64 (chanSlot (t / 64) c (c.head + c.pub))) ∧
      chanAt u (t / 64) (xreg (threadAt s t) a).toNat = { c with reserved := true, aborted := false }) ∧
  (∀ (t : ThreadNo) (rd a : Fin 32) (c : Chan) (s : State), xkIssues t s = true → (xreg (threadAt s t) a).toNat < 256 →
    chanAt s (t / 64) (xreg (threadAt s t) a).toNat = c → c.state = .open → c.writer = t % 64 → c.reserved = true →
    chanReaderWaits s (t / 64) (xreg (threadAt s t) a).toNat = [] →
    Runs (.chPub t rd a) s fun u => doneWith s u t 4 rd 0 ∧
      chanAt u (t / 64) (xreg (threadAt s t) a).toNat = { c with reserved := false, pub := c.pub + 1 }) ∧
  (∀ (t : ThreadNo) (rd a b : Fin 32) (c : Chan) (dst : Nat) (s : State), xkIssues t s = true → (xreg (threadAt s t) a).toNat < 256 →
    xkArea t (xreg (threadAt s t) b) 64 64 2 true s = .inr dst → chanAt s (t / 64) (xreg (threadAt s t) a).toNat = c → c.state = .open →
    c.reader = t % 64 → 0 < c.pub → chanWriterWaits s (t / 64) (xreg (threadAt s t) a).toNat = [] →
    Runs (.chRead t rd a b) s fun u => doneWith s u t 4 rd 0 ∧ u.mem = (sramCopy (chanSlot (t / 64) c c.head) dst s).mem ∧
      chanAt u (t / 64) (xreg (threadAt s t) a).toNat = { c with head := (c.head + 1) % 16, pub := c.pub - 1 }) ∧
  (∀ (t : ThreadNo) (rd a : Fin 32) (k : Pkt) (r : List Pkt) (area : Nat) (s : State), xkIssues t s = true →
    xkArea t (xreg (threadAt s t) a) 288 32 2 false s = .inr area → mget s.net.punts t = some (k :: r) →
    ∀ c ∈ [Instr.pktGet t rd a, .pktTryget t rd a],
    Runs c s fun u => doneWith s u t 4 rd (BitVec.ofNat 64 (headBytes k)) ∧ mget u.net.got k.handle = some (t.val, k) ∧
      mgetD u.net.punts t [] = r ∧ u.mem = (sramWrite area (stampBytes k ++ k.frame.take (headBytes k)) s).mem) ∧
  (∀ (t : ThreadNo) (rd a : Fin 32) (area : Nat) (s : State), xkIssues t s = true →
    xkArea t (xreg (threadAt s t) a) 288 32 2 false s = .inr area → mget s.net.punts t = none →
    Runs (.pktTryget t rd a) s fun u => doneWith s u t 4 rd 0) ∧
  (∀ (t : ThreadNo) (rd a b : Fin 32) (area : Nat) (s : State), xkIssues t s = true →
    xkArea t (xreg (threadAt s t) a) 288 32 1 false s = .inr area → (sramRead s.mem area 288).isSome = true →
    putStatus s t (areaBytes s area) (xreg (threadAt s t) b).toNat = 0 →
    Runs (.pktPut t rd a b) s fun u =>
      if (!(xreg (threadAt s t) b).toNat.testBit 9 && putBlocked s) = true then (threadAt u t).st = 2 ∧ u.net = s.net
      else doneWith s u t 4 rd 0 ∧ mget u.net.got (field (areaBytes s area) 0x0C 4) = none)

/-- EV_ADD adds to a counter. ENABLE written 1 opens a closed channel whose slots fit the block's scratch, whose base no other
open channel uses and whose ends differ, with the fields written; written 0 it closes a channel that is not closed.
LE_CH_ABORT by the debug unit ends the reservation of a halted writer on an open channel; from a thread it sets
ABORT_REFUSED. The wait watchdog, where not 0, ends a wait on a lock, a counter or a channel with status 5. A block whose
stall condition holds, not yet reported, is reported once and counted. What the spec leaves open here is the model's choice:
log entries 73. -/
def Obligations.LockAndEventUnitRuns : Prop :=
  (∀ (b : BlockNo) (k : Fin 1024) (v : Word64) (s : State), Runs (.evAddRegister b k v) s fun u => evAt u b k = evAt s b k + v) ∧
  (∀ (b : BlockNo) (n : Fin 256) (v : Word32) (s : State), (chanAt s b n).state = .closed → 1024 * bits v.toNat 26 16 + 1024 ≤ scratchSize s.mem b →
    (leAt s b).chans.all (fun p => p.1 == n.val || p.2.state == .closed || p.2.base != bits v.toNat 26 16) = true →
    bits v.toNat 13 8 ≠ bits v.toNat 5 0 →
    Runs (.channelOpen b n v) s fun u => chanAt u b n =
      { Chan.reset with state := .open, base := bits v.toNat 26 16, reader := bits v.toNat 13 8, writer := bits v.toNat 5 0 }) ∧
  (∀ (b : BlockNo) (n : Fin 256) (v : Word32) (s : State), (chanAt s b n).state ≠ .closed →
    Runs (.channelClose b n v) s fun u => (chanAt u b n).state = .closed ∧ (chanAt u b n).base = (chanAt s b n).base) ∧
  (∀ (b : BlockNo) (n : Fin 256) (s : State),
    (Runs (.leChAbort b n false) s fun u => (leAt u b).abortRefused = true ∧ chanAt u b n = chanAt s b n) ∧
    ((chanAt s b n).state = .open → (chanAt s b n).reserved = true → (threadAt s (64 * b + (chanAt s b n).writer)).st = 3 →
      Runs (.leChAbort b n true) s fun u => chanAt u b n = { chanAt s b n with reserved := false, aborted := true })) ∧
  (∀ (t : ThreadNo) (w : Waiting) (s : State), (threadAt s t).wait = some w → mgetD (leAt s (t / 64)).wdog (t % 64) 0 ≠ 0 →
    (match w.on_ with | .packet _ => false | .put _ _ => false | _ => true) = true →
    Runs (.waitWatchdogExpiry t) s fun u => doneWith s u t 4 w.rd 5 ∧ (threadAt u t).wait = none ∧
      w.since + us (mgetD (leAt s (t / 64)).wdog (t % 64) 0) ≤ u.io.now ∧ u.num 0x0E0103 (t / 64 + 1) = satAdd 32 (s.num 0x0E0103 (t / 64 + 1)) 1) ∧
  (∀ (b : BlockNo) (s : State), stallHolds s b = true → (leAt s b).stalled = false →
    Runs (.blockStall b) s fun u => (leAt u b).stalled = true ∧ (leAt s b).quiet + us (leAt s b).stallHold ≤ u.io.now ∧
      u.num 0x0E0100 2 = satAdd 32 (s.num 0x0E0100 2) 1)

/-- A DMA_CH_CFG write with a legal weight and size enables a disabled channel, which is IDLE, and disables one neither RUNNING
nor WAITING. A kick makes an IDLE channel read its descriptor; a valid one that passes R482 begins, RUNNING or WAITING by
its line. An allowed element is copied, filled or compared. A waiting channel takes a request for a burst. An ended
descriptor is written back, counted and left. A first bus error stops every enabled channel with cause 1, a further one sets
MULTIPLE; drained, it clears. STOP, RESUME, RESTART and SKIP do what R491 says; software pulses, clears and timers move a
line's count. What the spec leaves open here is the model's choice: log entries 74, 75. -/
def Obligations.DmaChannelsRun : Prop :=
  (∀ (r : RegionNo) (c : Fin 32) (v : Word32) (s : State), (dmaCh s r c).enable = false → bits v.toNat 19 16 ≠ 0 → bits v.toNat 3 0 ≤ 12 →
    Runs (.dmaChannelEnable r c v) s fun t => (dmaCh t r c).enable = true ∧ (dmaCh t r c).state = .idle ∧
      (dmaCh t r c).weight = bits v.toNat 19 16 ∧ (dmaCh t r c).log2n = bits v.toNat 3 0 ∧ (dmaCh t r c).base = (dmaCh s r c).base) ∧
  (∀ (r : RegionNo) (c : Fin 32) (v : Word32) (s : State), (dmaCh s r c).enable = true → bits v.toNat 19 16 ≠ 0 →
    bits v.toNat 3 0 = (dmaCh s r c).log2n → (dmaCh s r c).log2n ≤ 12 → (dmaCh s r c).state ≠ .running → (dmaCh s r c).state ≠ .waiting →
    Runs (.dmaChannelDisable r c v) s fun t => (dmaCh t r c).enable = false ∧ (dmaCh t r c).state = .disabled ∧
      (dmaCh t r c).base = (dmaCh s r c).base) ∧
  (∀ (r : RegionNo) (c : Fin 32) (s : State), (dmaCh s r c).state = .idle →
    Runs (.dmaChKick r c) s fun t => (dmaCh t r c).state = .running ∧ (dmaCh t r c).reading = true) ∧
  (∀ (r : RegionNo) (c : Fin 32) (d : Bytes) (s : State), (dmaCh s r c).state = .running → (dmaCh s r c).reading = true →
    coreRead (dmaDescAddr (dmaCh s r c)) 64 s = (.ok d, s) → (field d 0 1).testBit 0 = true → dCheck s.mem s.io d = 0 →
    Runs (.dmaDescriptorRead r c) s fun t => (dmaCh t r c).desc = some d ∧ (dmaCh t r c).progress = 0 ∧
      (dmaCh t r c).state = (if dLine d = 0xFF then .running else .waiting) ∧
      (dmaCh t r c).allowed = (if dLine d = 0xFF then dElems d else 0)) ∧
  (∀ (r : RegionNo) (c : Fin 32) (n : Nat) (d b : Bytes) (src rest : List HostRead) (s u v : State), dmaAllows r c 0 n d s = true →
    elemRead r d 0 n src s = (.ok b rest, u) → elemWrite r d n (swapBytes (dSwap d) (dLen d) b) u = (none, v) →
    Runs (.dmaCopy r c src) s fun t => t.mem = v.mem ∧ t.net = v.net ∧ t.io = v.io ∧ (dmaCh t r c).progress = n + 1 ∧
      (n + 1 = dElems d → (dmaCh t r c).ending = some (0, 0))) ∧
  (∀ (r : RegionNo) (c : Fin 32) (n : Nat) (d : Bytes) (s v : State), dmaAllows r c 1 n d s = true →
    elemWrite r d n (fillBytes d (dAddr d 1 n).toNat (dLen d)) s = (none, v) →
    Runs (.dmaFill r c) s fun t => t.mem = v.mem ∧ t.net = v.net ∧ t.io = v.io ∧ (dmaCh t r c).progress = n + 1 ∧
      (n + 1 = dElems d → (dmaCh t r c).ending = some (0, 0))) ∧
  (∀ (r : RegionNo) (c : Fin 32) (n : Nat) (d a b : Bytes) (src dst x y : List HostRead) (s u v : State), dmaAllows r c 2 n d s = true →
    elemRead r d 0 n src s = (.ok a x, u) → elemRead r d 1 n dst u = (.ok b y, v) →
    Runs (.dmaCompare r c src dst) s fun t => match firstDiff (swapBytes (dSwap d) (dLen d) a) b with
      | some k => (dmaCh t r c).ending = some (1, n * dLen d + k)
      | none => (dmaCh t r c).progress = n + 1 ∧ (n + 1 = dElems d → (dmaCh t r c).ending = some (0, 0))) ∧
  (∀ (r : RegionNo) (l : Fin 64) (s : State), lineWaiters (dmaAt s r) l ≠ [] → (mgetD (dmaAt s r).lines l DmaLine.reset).count ≠ 0 →
    Runs (.dmaBurstStart r l) s fun t =>
      (mgetD (dmaAt t r).lines l DmaLine.reset).count = (mgetD (dmaAt s r).lines l DmaLine.reset).count - 1 ∧
      ∃ c ∈ lineWaiters (dmaAt s r) l, (dmaCh t r c).state = .running ∧ (dmaCh t r c).desc = (dmaCh s r c).desc ∧
        (dmaCh t r c).allowed = (dmaCh s r c).progress + ((dmaCh s r c).desc.map burstSize).getD 0) ∧
  (∀ (r : RegionNo) (c : Fin 32) (d : Bytes) (e : Nat × Nat) (s u : State), (dmaCh s r c).state = .running → (dmaCh s r c).desc = some d →
    (dmaCh s r c).ending = some e → (dmaCh s r c).refusal = false → writeBackDesc (dmaDescAddr (dmaCh s r c)) e.1 e.2 s = (none, u) →
    Runs (.dmaDescriptorComplete r c) s fun t => t.mem = u.mem ∧ (dmaCh t r c).index = ((dmaCh s r c).index + 1) % 2 ^ (dmaCh s r c).log2n ∧
      (dmaCh t r c).desc = none ∧ t.num 0x0F0001 (r + 1) = satAdd 64 (u.num 0x0F0001 (r + 1)) 1 ∧
      (dmaCh t r c).state = (if (dFlag d 2 && !(dmaCh s r c).kicked) = true then .idle else .running)) ∧
  (∀ (r : RegionNo) (a : Word64) (sp : Fin 3) (w : Bool) (f : BitVec 12) (k : Fin 8) (s : State),
    Runs (.dmaBusError r a sp w f k) s fun t => (dmaAt t r).busError = true ∧ t.num 0x0F0000 (r + 1) = satAdd 32 (s.num 0x0F0000 (r + 1)) 1 ∧
      if (dmaAt s r).busError = true then (dmaAt t r).multiple = true ∧ (dmaAt t r).errAddr = (dmaAt s r).errAddr
      else (dmaAt t r).errAddr = a.toNat ∧ ∀ c, (dmaCh s r c).state ≠ .disabled → (dmaCh t r c).state = .stopped ∧ (dmaCh t r c).cause = 1) ∧
  (∀ (r : RegionNo) (s : State), Runs (.dmaDrained r) s fun t => (dmaAt t r).drained = true) ∧
  (∀ (r : RegionNo) (s : State), (dmaAt s r).drained = true → Runs (.dmaBusErrorClear r) s fun t => (dmaAt t r).busError = false) ∧
  (∀ (r : RegionNo) (c : Fin 32) (s : State), ((dmaCh s r c).state = .running ∨ (dmaCh s r c).state = .waiting) →
    Runs (.dmaStop r c) s fun t => (dmaCh t r c).state = .stopped ∧ (dmaCh t r c).cause = 3) ∧
  (∀ (r : RegionNo) (c : Fin 32) (s : State), dmaHeld s r c = false →
    Runs (.dmaResume r c) s fun t => (dmaCh t r c).cause = 0 ∧
      if (dmaCh s r c).cause = 2 ∨ (dmaCh s r c).desc = none then (dmaCh t r c).state = .running ∧ (dmaCh t r c).reading = true
      else (dmaCh t r c).progress = (dmaCh s r c).progress ∧ (dmaCh t r c).desc = (dmaCh s r c).desc) ∧
  (∀ (r : RegionNo) (c : Fin 32) (s : State), dmaHeld s r c = false →
    Runs (.dmaRestart r c) s fun t => (dmaCh t r c).state = .running ∧ (dmaCh t r c).reading = true ∧ (dmaCh t r c).progress = 0 ∧
      (dmaCh t r c).index = (dmaCh s r c).index) ∧
  (∀ (r : RegionNo) (c : Fin 32) (d : Bytes) (s : State), dmaHeld s r c = false → coreRead (dmaDescAddr (dmaCh s r c)) 64 s = (.ok d, s) →
    Runs (.dmaSkip r c) s fun t => (dmaCh t r c).state = .running ∧ (dmaCh t r c).cause = 0 ∧
      if (field d 0 1).testBit 0 = true then (dmaCh t r c).ending = some (0x20, 0)
      else (dmaCh t r c).index = ((dmaCh s r c).index + 1) % 2 ^ (dmaCh s r c).log2n ∧ (dmaCh t r c).reading = true) ∧
  (∀ (r : RegionNo) (w : Half) (s : State), Runs (.dmaReqSw r w) s fun t => ∀ l, w.toNat.testBit l = true →
      (mgetD (dmaAt s r).lines l DmaLine.reset).count < 65535 →
      (mgetD (dmaAt t r).lines l DmaLine.reset).count = (mgetD (dmaAt s r).lines l DmaLine.reset).count + 1) ∧
  (∀ (r : RegionNo) (l : Fin 64) (s : State), Runs (.dmaReqClear r l) s fun t => (mgetD (dmaAt t r).lines l DmaLine.reset).count = 0) ∧
  (∀ (r : RegionNo) (k : Fin 4) (s : State), mgetD (dmaAt s r).timers k 0 ≠ 0 → (mgetD (dmaAt s r).lines (48 + k) DmaLine.reset).count < 65535 →
    Runs (.dmaTimerPulse r k) s fun t =>
      (mgetD (dmaAt t r).lines (48 + k) DmaLine.reset).count = (mgetD (dmaAt s r).lines (48 + k) DmaLine.reset).count + 1)

/-- Training that is under way ends with the devices found and nothing written, ready or failed. A read of a line that exists is
answered with its decoded data, counting a correction, or with poison, counted as poison or uncorrectable. A write of a
whole line or with the poison marking stores its code word; part of a readable line is merged, of any other refused and
counted. By 10:0032 a device is marked where its rank has none and a mark is cleared; 10:0020 tells the placement; 10:0110,
enabled, writes and reads raw symbols and tells the decode result. What the spec leaves open here is the model's choice: log
entries 10, 76, 89. -/
def Obligations.MemoryLinesRun : Prop :=
  (∀ (d : Fin 4) (two : Bool) (f : List (Fin 8)) (s : State), s.num 0x100002 0 = 1 →
    Runs (.memoryTrained d two f) s fun t => t.mem.density = 8 * (d + 1) ∧ t.mem.ranks = (if two then 2 else 1) ∧ t.mem.filled = false ∧
      t.mem.lines = [] ∧ t.num 0x100002 0 = (if f.isEmpty then 2 else 3)) ∧
  (∀ (l : Nat) (errs : List (Fin 80 × Byte)) (s : State), lineExists s.mem l = true →
    Runs (.memoryRead l errs) s fun t => match readStored s.mem s.io l errs with
      | .ok d _ c => t.last = some (.memData (64 * l) (some d)) ∧ t.num 0x100010 1 = (if c then satAdd 64 (s.num 0x100010 1) 1 else s.num 0x100010 1)
      | .poison => t.last = some (.memData (64 * l) none) ∧ t.num 0x100010 4 = satAdd 64 (s.num 0x100010 4) 1
      | .uncorrectable => t.last = some (.memData (64 * l) none) ∧ t.num 0x100010 3 = satAdd 64 (s.num 0x100010 3) 1) ∧
  (∀ (l : Nat) (o : Fin 64) (d : Bytes) (p : Bool) (s : State), lineExists s.mem l = true → (p = true ∨ (o.val = 0 ∧ d.length = 64)) →
    Runs (.memoryWrite l o d p) s fun t => lineOf t.mem l = some (codeLine p (padTo 64 d))) ∧
  (∀ (l : Nat) (o : Fin 64) (d : Bytes) (s : State), lineExists s.mem l = true → d.length + o ≤ 64 → d.length < 64 →
    Runs (.memoryWrite l o d false) s fun t => match readStored s.mem s.io l [] with
      | .ok b _ _ => lineOf t.mem l = some (codeLine false (padTo 64 (splice b o d)))
      | _ => t.mem = s.mem ∧ t.last = some (.memRefused (64 * l)) ∧ t.num 0x100010 7 = satAdd 64 (s.num 0x100010 7) 1) ∧
  (∀ (b : Issuer) (a : Bytes) (s : State), cmdGate s.start.stage b 0x100032 a 4 1 s.io = none → markArg s.mem a = true →
    markOf s.io (field a 1 1) (field a 2 1) = none →
    Runs (.memDeviceMark b a) s fun t => told t b 0x100032 0 ∧ markOf t.io (field a 1 1) (field a 2 1) = some (field a 3 1)) ∧
  (∀ (b : Issuer) (a : Bytes) (s : State), cmdGate s.start.stage b 0x100032 a 4 2 s.io = none → markArg s.mem a = true →
    markOf s.io (field a 1 1) (field a 2 1) = some (field a 3 1) →
    Runs (.memDeviceClear b a) s fun t => told t b 0x100032 0 ∧ markOf t.io (field a 1 1) (field a 2 1) = none) ∧
  (∀ (b : Issuer) (a : Word64) (p : Place) (s : State), s.allows b 0x100020 → a.toNat < memCapacity s.mem → placeOf s.mem a.toNat = p →
    Runs (.memTranslate b a) s fun t => toldWith t b 0x100020 0
      (le 1 p.sub ++ le 1 p.rank ++ le 1 p.group ++ le 1 p.bank ++ le 4 p.row ++ le 2 p.column ++ le 2 0)) ∧
  (∀ (b : Issuer) (a old : Bytes) (op : Nat) (c : Instr) (s : State), eccReady b a op s = true → lineOf s.mem (field a 8 8 / 64) = some old →
    (op, c) ∈ [(1, .eccTestRawWrite b a), (2, .eccTestDataWrite b a), (3, .eccTestCheckWrite b a)] →
    Runs c s fun t => told t b 0x100110 0 ∧ lineOf t.mem (field a 8 8 / 64) =
      some ((if op = 3 then slice old 0 64 else slice a 0x10 64) ++ (if op = 2 then slice old 64 16 else slice a 0x50 16))) ∧
  (∀ (b : Issuer) (a old : Bytes) (s : State), eccReady b a 4 s = true → lineOf s.mem (field a 8 8 / 64) = some old →
    Runs (.eccTestRead b a) s fun t => t.mem = s.mem ∧
      toldWith t b 0x100110 0 (old ++ eccDecode (readStored s.mem s.io (field a 8 8 / 64) [])))

/-- By 10:0100 START of an aligned range within memory, none running, runs from its first address; RESUME of a range that holds
the cursor runs from the cursor; ABORT of a running scrub ends it in state 4. Each line moves the cursor of a running scrub
and counts; at the end of the range a pass is counted and the scrub starts again or is done. A corrected SRAM word is
counted in its row and waits for its write-back, which removes the oldest; an uncorrectable one of the region tables, the
event queues or the packet buffer is counted; a clean read changes nothing. What the spec leaves open here is the model's
choice: log entries 76, 77. -/
def Obligations.ScrubAndPatrolRun : Prop :=
  (∀ (b : Issuer) (a : Bytes) (s : State), cmdGate s.start.stage b 0x100100 a 32 1 s.io = none → s.mem.scrub.state ≠ 1 →
    scrubRange s.mem a = true →
    Runs (.scrubStart b a) s fun t => told t b 0x100100 9 ∧ t.mem.scrub.state = 1 ∧ t.mem.scrub.cursor = field a 8 8 ∧
      t.mem.scrub.first = field a 8 8 ∧ t.mem.scrub.length = field a 0x10 8 ∧ t.mem.scrub.lines = 0) ∧
  (∀ (b : Issuer) (a : Bytes) (s : State), cmdGate s.start.stage b 0x100100 a 32 2 s.io = none → s.mem.scrub.state ≠ 1 →
    scrubRange s.mem a = true → field a 8 8 ≤ s.mem.scrub.cursor → s.mem.scrub.cursor < field a 8 8 + field a 0x10 8 →
    Runs (.scrubResume b a) s fun t => told t b 0x100100 9 ∧ t.mem.scrub.state = 1 ∧ t.mem.scrub.cursor = s.mem.scrub.cursor ∧
      t.mem.scrub.lines = s.mem.scrub.lines) ∧
  (∀ (b : Issuer) (a : Bytes) (s : State), cmdGate s.start.stage b 0x100100 a 32 3 s.io = none → s.mem.scrub.state = 1 →
    Runs (.scrubAbort b a) s fun t => told t b 0x100100 0 ∧ t.mem.scrub.state = 4 ∧ t.mem.scrub.cursor = s.mem.scrub.cursor) ∧
  (∀ (errs : List (Fin 80 × Byte)) (s : State), s.mem.scrub.state = 1 →
    Runs (.scrubLine errs) s fun t => t.mem.scrub.lines = satAdd 64 s.mem.scrub.lines 1 ∧
      if s.mem.scrub.cursor + 64 < s.mem.scrub.first + s.mem.scrub.length then
        t.mem.scrub.cursor = s.mem.scrub.cursor + 64 ∧ t.mem.scrub.state = 1 ∧ t.mem.scrub.passes = s.mem.scrub.passes
      else t.mem.scrub.passes = (s.mem.scrub.passes + 1) % 65536 ∧
        if s.mem.scrub.flags.testBit 0 = true then t.mem.scrub.cursor = s.mem.scrub.first ∧ t.mem.scrub.state = 1 else t.mem.scrub.state = 3) ∧
  (∀ (x : Fin 9) (u : Fin 128) (a : Nat) (s : State),
    (Runs (.sramPatrolRead x u a 0) s fun t => t = s) ∧
    (Runs (.sramPatrolRead x u a 1) s fun t => t.mem.fixing = s.mem.fixing ++ [(storeRow x, a)] ∧
      t.num 0x100050 (storeRow x) = satAdd 64 (s.num 0x100050 (storeRow x)) 1) ∧
    (3 < x.val → x.val < 8 → Runs (.sramPatrolRead x u a 2) s fun t => t.num 0x100051 (storeRow x) = satAdd 64 (s.num 0x100051 (storeRow x)) 1)) ∧
  (∀ s : State, Runs .sramCorrectedWriteback s fun t => t.mem.fixing = s.mem.fixing.drop 1)

/-- A sample of a sensor that has not failed and is in range is published, of a voltage monitor taken, of a process monitor
taken or 0. A failed sensor reads 0x7FFF and is distrusted until 03:0120 trusts it; 03:0121 measures. From stage 2 a cycle
comes 1 ms after the last and sets the scrub rate; silence of 10 ms is counted and moves every region in service to P7. An
emergency ends 100 ms after its region is cool. A rail that has settled lets the frequency follow, one that has not within
500 us takes its point back. The regulator write that is next leaves, ageing offsets only rise, and a trip holds everything
until 1 s after the sensors are cool. What the spec leaves open here is the model's choice: log entries 78, 79. -/
def Obligations.MonitorsAndShepherdRun : Prop :=
  (∀ (n : Fin 80) (v : Word32) (s : State),
    (n.val < 48 → -440 ≤ v.toInt → v.toInt ≤ 1200 → s.mon.failed.contains n.val = false →
      Runs (.monitorSample 0 n v) s fun t => t.num 0x030000 (n + 1) = ofSigned 16 v.toInt) ∧
    (n.val < 32 → Runs (.monitorSample 1 n v) s fun t => t.num 0x030002 (n + 1) = v.toNat % 65536) ∧
    (Runs (.monitorSample 2 n v) s fun t => t.num 0x030003 (n + 1) = if v.toInt < 0 then 0 else v.toNat)) ∧
  (∀ (n : Fin 48) (s : State), s.mon.failed.contains n.val = false →
    Runs (.sensorFailed n) s fun t => t.num 0x030000 (n + 1) = 0x7FFF ∧ t.mon.failed.contains n.val = true ∧ distrusted t.io n = true) ∧
  (∀ (i : Issuer) (a : Byte) (s : State), s.allows i 0x030120 → a.toNat < 48 →
    Runs (.monTrust i a) s fun t => told t i 0x030120 0 ∧ t.mon.failed.contains a.toNat = false ∧ distrusted t.io a.toNat = false) ∧
  (∀ (i : Issuer) (vs : List Word32) (s : State), s.allows i 0x030121 →
    Runs (.monProcMeasure i 1 vs) s fun t => told t i 0x030121 0 ∧
      ∀ k v, (vs.take 80)[k]? = some v → t.num 0x030003 (k + 1) = if v.toInt < 0 then 0 else v.toNat) ∧
  (∀ (occ : List (Fin 1001)) (u : Fin 1001) (s : State), 2 ≤ s.start.stage → s.clk.holdAll = false →
    Runs (.shepherdCycle occ u) s fun t => s.mon.beatAt + ms 1 ≤ t.io.now ∧ t.mon.beatAt = t.io.now ∧ t.mon.silent = false ∧
      t.num 0x100104 0 = (((dget s.io (idx 0x100102 0) 100 : Int) * 1000 +
        ((dget s.io (idx 0x100103 0) 2000 : Int) - dget s.io (idx 0x100102 0) 100) * (1000 - u.val)) / 1000).toNat) ∧
  (∀ s : State, 2 ≤ s.start.stage → s.clk.holdAll = false → s.mon.silent = false →
    Runs .shepherdSilent s fun t => t.mon.silent = true ∧ s.mon.beatAt + ms 10 ≤ t.io.now ∧
      t.num 0x030202 0 = satAdd 32 (s.num 0x030202 0) 1 ∧ ∀ r, served s r = true → (shepAt t r).point = 7) ∧
  (∀ (r : RegionNo) (c : Nat) (s : State), 2 ≤ s.start.stage → (shepAt s r).emergency = true → (shepAt s r).coolAt = some c →
    Runs (.emergencyReturn r) s fun t => (shepAt t r).emergency = false ∧ c + ms 100 ≤ t.io.now) ∧
  (∀ (r : RegionNo) (p z : Nat) (s : State), (shepAt s r).change = some (true, p, z) →
    (span (4 * r) 4).all (fun n => decide (s.num 0x030002 (n + 1) ≤ (shepAt s r).rail + 10) && decide ((shepAt s r).rail ≤ s.num 0x030002 (n + 1) + 10)) = true →
    Runs (.railSettled r) s fun t => mget t.clk.target r = some (pointKhz (shepAt s r).point)) ∧
  (∀ (r : RegionNo) (p z : Nat) (s : State), (shepAt s r).change = some (true, p, z) → mget s.clk.target r = none →
    Runs (.railSettleTimeout r) s fun t => (shepAt t r).point = p ∧ (shepAt t r).change = none ∧ z + us 500 ≤ t.io.now ∧
      (shepAt t r).settleBar = t.io.now + sec 1) ∧
  (∀ (r c : Nat) (q : List (Nat × Nat)) (ack : Bool) (s : State), s.mon.vrQ = (r, c) :: q →
    Runs (.vrWrite ack) s fun t => t.mon.vrQ = q ∧ t.last = some (.vout r c) ∧ (ack = true → mget t.mon.vrSet r = some c)) ∧
  (∀ s : State, 2 ≤ s.start.stage → s.clk.holdAll = false →
    Runs .ageingUpdate s fun t => ∀ r, r < 4 → if dget s.io (idx 0x030110 0) 1 = 1 then
        t.num 0x030111 (r + 1) = max (s.num 0x030111 (r + 1))
          (min 40 (5 * ceilDiv (8 * ((span (16 * r) 16).map (fun n => s.num 0x030003 (n + 1))).foldl max 0) 50000))
      else t.num 0x030111 (r + 1) = s.num 0x030111 (r + 1) ∧ t.num 0x030112 (r + 1) = 0) ∧
  (∀ s : State, s.mon.trip = false → Runs .thermtrip s fun t => t.mon.trip = true ∧ t.clk.holdAll = true) ∧
  (∀ (f : FlashStart) (z : Nat) (s : State), s.mon.trip = true → s.mon.tripCool = some z →
    Runs (.thermtripRelease f) s fun t => t.mon.trip = false ∧ z + sec 1 ≤ t.io.now)

/-- A device at stage 3 that belongs to its domain and has no conflict counts its heartbeat every 10 ms. A good heartbeat makes
its sender MEMBER and is counted; a new OBJECT frame of a member for this device reaches the server. A peer silent for 50 ms
is SUSPECT, for 100 ms UNREACHABLE; a conflict of IDs clears 50 ms after the rival fell silent. A roster that passes R537
and R549 is in force with its generation, and starts the start hold; its grace, the start hold and the heal hold end on
time, the last with the device PRIMARY where it has quorum. 11:0020 tells a peer. What the spec leaves open here is the
model's choice: log entries 80. -/
def Obligations.DomainRuns : Prop :=
  (∀ s : State, s.start.stage = 3 → belongs s = true → s.dom.conflict = false →
    Runs .heartbeatSend s fun t => s.dom.sentAt + ms 10 ≤ t.io.now ∧ t.dom.sentAt = t.io.now ∧ t.dom.seqHb = (s.dom.seqHb + 1) % 2 ^ 32 ∧
      t.num 0x110030 1 = satAdd 64 (s.num 0x110030 1) 1) ∧
  (∀ (k : Pkt) (s : State), heartbeatGood k s = true →
    Runs .heartbeatReceived s fun t => (domPeer t.dom (field (k.frame.drop 14) 2 2)).state = 1 ∧
      (domPeer t.dom (field (k.frame.drop 14) 2 2)).heard = s.io.now ∧
      (domPeer t.dom (field (k.frame.drop 14) 2 2)).seqHb = some (field (k.frame.drop 14) 8 4) ∧
      t.num 0x110030 2 = satAdd 64 (s.num 0x110030 2) 1) ∧
  (∀ (k : Pkt) (q : OaReq) (env : OaEnv) (id : Nat) (s : State), objectGood k s = true → field (k.frame.drop 14) 2 2 = id →
    parseFrame { binding := .fabric, key := id, session := none } (objectFrame k.frame.length (k.frame.drop 30)) = some q →
    Runs (.membershipObject env) s fun t => t = oaRow q env (domCount 10
      (peerPut id { domPeer s.dom id with seqObj := some (field (k.frame.drop 14) 8 4) } (afterFrame k s)))) ∧
  (∀ (id : Half) (s : State), (domPeer s.dom id.toNat).state = 1 →
    Runs (.peerSuspect id) s fun t => (domPeer t.dom id.toNat).state = 2 ∧ (domPeer s.dom id.toNat).heard + ms 50 ≤ t.io.now) ∧
  (∀ (id : Half) (s : State), (domPeer s.dom id.toNat).state = 2 →
    Runs (.peerUnreachable id) s fun t => (domPeer t.dom id.toNat).state = 3 ∧ (domPeer t.dom id.toNat).seqHb = none ∧
      (domPeer s.dom id.toNat).heard + ms 100 ≤ t.io.now) ∧
  (∀ (id : Half) (a : Nat × Nat) (l : List (Nat × Nat)) (s : State), (domPeer s.dom id.toNat).rivals = a :: l →
    Runs (.conflictClear id) s fun t => (domPeer t.dom id.toNat).rivals = [] ∧ (domPeer t.dom id.toNat).serial = none ∧
      (domPeer t.dom id.toNat).state = 0 ∧ (l.map (·.2)).foldl max 0 + ms 50 ≤ t.io.now) ∧
  (∀ (i : Issuer) (a : Bytes) (s : State), s.allows i 0x110011 → a.length = 8 → field a 0 4 ≠ 0 → field a 4 1 ≤ 1 → allZero (slice a 5 3) = true →
    rosterOk (s.blob 0x110010 0) = true → (rosterEntries (s.blob 0x110010 0)).any (fun e => e.1 == s.dom.id) = true →
    (s.dom.state ≠ 2 ∨ field a 4 1 = 1) → s.dom.id ≠ 0 →
    Runs (.rosterCommit i a) s fun t => told t i 0x110011 0 ∧ t.blob 0x110013 0 = s.blob 0x110010 0 ∧
      field (t.blob 0x110012 0) 0 4 = field a 0 4 ∧ t.dom.startAt = some s.io.now ∧ t.dom.state = 2) ∧
  (∀ (p : Nat × Nat) (s : State), s.dom.prev = some p → Runs .rosterGraceExpiry s fun t => t.dom.prev = none ∧ p.2 ≤ t.io.now) ∧
  (∀ (z : Nat) (s : State), s.dom.startAt = some z → Runs .domainStartHold s fun t => t.dom.startAt = none ∧ z + ms 100 ≤ t.io.now) ∧
  (∀ (z : Nat) (s : State), s.dom.state = 2 → s.dom.healAt = some z → (quorum s).1 = true →
    Runs .healHold s fun t => t.dom.state = 1 ∧ t.dom.reason = (quorum s).2 ∧ z + ms (dget s.io (idx 0x110004 0) 100) ≤ t.io.now ∧
      t.num 0x110030 8 = satAdd 64 (s.num 0x110030 8) 1) ∧
  (∀ (i : Issuer) (id : Half) (x : DomPeer) (e : Nat × Nat × Nat) (s : State), s.allows i 0x110020 → id ≠ 0 → id ≠ 0xFFFF →
    domPeer s.dom id.toNat = x → (rosterOf s.io id.toNat).getD (0, 0, 0) = e →
    Runs (.domPeerQuery i id) s fun t => toldWith t i 0x110020 0
      (le 1 x.state ++ le 1 e.2.1 ++ le 1 e.2.2 ++ le 1 x.learn ++ le 1 x.port ++ le 3 0 ++ le 8 (x.serial.getD 0) ++ le 8 x.heardTime))

/-- The journal's event timer leaves everything as it is where every entry has been reported; otherwise, 100 ms after the last
event, the newest entry is reported. 12:0006 written 1 removes every entry, and the oldest sequence follows the newest. What
the spec leaves open here is the model's choice: log entries 81. -/
def Obligations.JournalRuns : Prop :=
  (∀ s : State, s.io.journal.evSeq < s.io.journal.newest →
    Runs .journalEventTimer s fun t => t.io.journal.evSeq = s.io.journal.newest ∧ t.io.journal.entries = s.io.journal.entries ∧
      ∀ z, s.io.journal.evAt = some z → z + ms 100 ≤ t.io.now) ∧
  (∀ s : State, s.io.journal.newest ≤ s.io.journal.evSeq → s.io.journal.evAt = none → Runs .journalEventTimer s fun t => t = s) ∧
  (∀ (i : Issuer) (s : State), s.allows i 0x120006 →
    Runs (.journalClear i 1) s fun t => told t i 0x120006 0 ∧ t.io.journal.entries = [] ∧ t.io.journal.newest = s.io.journal.newest ∧
      t.io.journal.oldest = (if s.io.journal.newest = 0 then 0 else s.io.journal.newest + 1))

/-- While PWROK is high the TAP takes its instructions: a reset and IDCODE select IDCODE, which shifts out its code; outside
production test EXTEST, EXTEST_PULSE, EXTEST_TRAIN and SAMPLE/PRELOAD take what is shifted in, HIGHZ and CLAMP are selected,
entering one of the EXTEST class holds every domain in reset, an opcode outside it leaves it, and DBG_STATUS tells the
unlock. BYPASS shifts out a 0. A valid 13:0010 unlocks the paths for its duration, at whose end the unlock is gone. By
13:0200 a test starts on a lane that may leave service, stops, and has its counts cleared; a checker locks and loses lock
with its counts. What the spec leaves open here is the model's choice: log entries 83. -/
def Obligations.TestPortAndTestersRun : Prop :=
  (∀ s : State, s.start.pwrok = true → Runs .tapReset s fun t => t.dbg.ir = 1) ∧
  (∀ s : State, s.start.pwrok = true → Runs .tapIdcode s fun t => t.dbg.ir = 1 ∧ t.last = some (.tdo 32 0x194160B3)) ∧
  (∀ (d : Bytes) (op : Nat) (c : Instr) (s : State), s.start.pwrok = true → s.dbg.testmode = false →
    (op, c) ∈ [(0, .extest d), (2, .samplePreload d), (5, .extestPulse d), (6, .extestTrain d)] →
    Runs c s fun t => t.dbg.ir = op ∧ t.dbg.boundary = d ∧ (∃ v, v < 2 ^ (8 * d.length) ∧ t.last = some (.tdo (8 * d.length) v)) ∧
      (op ≠ 2 → extestClass s.dbg.ir = false → t.clk.holdAll = true)) ∧
  (∀ (op : Nat) (c : Instr) (s : State), s.start.pwrok = true → s.dbg.testmode = false → (op, c) ∈ [(3, .tapHighz), (4, .tapClamp)] →
    Runs c s fun t => t.dbg.ir = op ∧ (extestClass s.dbg.ir = false → t.clk.holdAll = true)) ∧
  (∀ s : State, s.start.pwrok = true → s.dbg.testmode = false →
    Runs .dbgStatus s fun t => t.dbg.ir = 0x10 ∧ t.last = some (.tdo 32 (dbgStatusBits t.dbg))) ∧
  (∀ (o : Byte) (s : State), s.start.pwrok = true → [0, 1, 2, 3, 4, 5, 6, 0x10, 0x11].contains o.toNat = false →
    Runs (.tapBypass o) s fun t => t.dbg.ir = 0xFF ∧ t.last = some (.tdo 1 0)) ∧
  (∀ (o : Byte) (s : State), s.start.pwrok = true → s.dbg.testmode = false → extestClass s.dbg.ir = true → extestClass o.toNat = false →
    Runs (.extestExit o) s fun t => t.dbg.ir = o.toNat) ∧
  (∀ (i : Issuer) (a : Bytes) (s : State), s.allows i 0x130010 → unlockArgOk a = true →
    Runs (.dbgUnlock i a) s fun t => told t i 0x130010 0 ∧ t.dbg.mask = field a 0 1 ∧
      (field a 0 1 ≠ 0 → t.dbg.ends = s.io.now + sec (field a 4 4))) ∧
  (∀ s : State, s.dbg.mask ≠ 0 → Runs .dbgUnlockExpiry s fun t => t.dbg.mask = 0 ∧ t.dbg.stepping = [] ∧ s.dbg.ends ≤ t.io.now) ∧
  (∀ (i : Issuer) (a : Bytes) (s : State), serdesReady i a 1 s = true → serArgOk a = true → serMayStart s (field a 1 1) = true →
    Runs (.serdesTestStart i a) s fun t => told t i 0x130200 0 ∧ serAt t (field a 1 1) =
      { SerTest.reset with st := field a 4 1, pattern := field a 2 1, loopback := field a 3 1, rate := field a 5 1 }) ∧
  (∀ (i : Issuer) (a : Bytes) (s : State), serdesReady i a 2 s = true →
    Runs (.serdesTestStop i a) s fun t => told t i 0x130200 0 ∧ serAt t (field a 1 1) = SerTest.reset) ∧
  (∀ (i : Issuer) (a : Bytes) (s : State), serdesReady i a 3 s = true →
    Runs (.serdesTestClear i a) s fun t => told t i 0x130200 0 ∧ (serAt t (field a 1 1)).compared = 0 ∧ (serAt t (field a 1 1)).errors = 0) ∧
  (∀ (l : Fin 56) (s : State), (serAt s (l + 1)).st.testBit 1 = true → Runs (.checkerLock l) s fun t => (serAt t (l + 1)).lock = true) ∧
  (∀ (l : Fin 56) (n e : Word64) (s : State), (serAt s (l + 1)).lock = true →
    Runs (.checkerLockLoss l n e) s fun t => (serAt t (l + 1)).lock = false ∧ (serAt t (l + 1)).compared = satAdd 64 (serAt s (l + 1)).compared n.toNat ∧
      (serAt t (l + 1)).errors = satAdd 64 (serAt s (l + 1)).errors (e.toNat + 1))

/-- On an unlocked path a valid command for a thread of a cell that is on answers status 0: HALT halts a running or waiting
thread and RESUME runs a halted one; STEP of a halted thread does its next instruction, here one that gives rd a value, and
halts it again; READ_REG and WRITE_REG read and write x0 to x31 and the pc of a halted thread; READ_MEM and WRITE_MEM read
and write SRAM that can be reached; CH_ABORT ends the reservation of a halted writer; a trace starts, stops and is read.
What the spec leaves open here is the model's choice: log entries 82. -/
def Obligations.DebugCommandsRun : Prop :=
  (∀ (p : DbgPath) (a : Bytes) (s : State), dbgReady p a 1 s = true → ((threadAt s (dbgThread a)).st = 1 ∨ (threadAt s (dbgThread a)).st = 2) →
    Runs (.dbgHalt p a) s fun t => dbgSaid t p a { status := 0 } ∧ (threadAt t (dbgThread a)).st = 3 ∧ (threadAt t (dbgThread a)).reserve = none ∧
      (threadAt t (dbgThread a)).pc = (threadAt s (dbgThread a)).pc) ∧
  (∀ (p : DbgPath) (a : Bytes) (s : State), dbgReady p a 2 s = true → (threadAt s (dbgThread a)).st = 3 →
    Runs (.dbgResume p a) s fun t => dbgSaid t p a { status := 0 } ∧ (threadAt t (dbgThread a)).st = 1) ∧
  (∀ (p : DbgPath) (a : Bytes) (env : OaEnv) (len rd : Nat) (v : Word64) (s : State), dbgReady p a 3 s = true → (threadAt s (dbgThread a)).st = 3 →
    doesNext (dbgThread a) len (.put rd v) (unhalt (dbgThread a) s) = true →
    Runs (.dbgStep p a env) s fun t => dbgSaid t p a { status := 0 } ∧ (threadAt t (dbgThread a)).st = 3 ∧ doneWith s t (dbgThread a) len rd v) ∧
  (∀ (p : DbgPath) (a : Bytes) (s : State), dbgReady p a 4 s = true → (threadAt s (dbgThread a)).st = 3 → dbgParam a ≤ 32 →
    Runs (.dbgReadReg p a) s fun t => t.cpu = s.cpu ∧ dbgSaid t p a
      { status := 0, data := le 8 (if dbgParam a = 32 then (threadAt s (dbgThread a)).pc else xreg (threadAt s (dbgThread a)) (dbgParam a)).toNat }) ∧
  (∀ (p : DbgPath) (a : Bytes) (s : State), dbgReady p a 5 s = true → (threadAt s (dbgThread a)).st = 3 → dbgParam a ≤ 32 →
    Runs (.dbgWriteReg p a) s fun t => dbgSaid t p a { status := 0 } ∧
      (dbgParam a = 32 → (threadAt t (dbgThread a)).pc = BitVec.ofNat 64 (field a 0x10 8) &&& ~~~1) ∧
      (dbgParam a ≠ 0 → dbgParam a < 32 → xreg (threadAt t (dbgThread a)) (dbgParam a) = BitVec.ofNat 64 (field a 0x10 8))) ∧
  (∀ (p : DbgPath) (a b : Bytes) (h : HostRead) (x : Nat) (s : State), dbgReady p a 6 s = true → dbgSizeOk a = true → reachesSram a x s = true →
    sramRead s.mem x (dbgParam a) = some b →
    Runs (.dbgReadMem p a h) s fun t => dbgSaid t p a { status := 0, data := b } ∧ t.mem = s.mem) ∧
  (∀ (p : DbgPath) (a : Bytes) (env : OaEnv) (x : Nat) (s : State), dbgReady p a 7 s = true → dbgSizeOk a = true → reachesSram a x s = true →
    s.io.oa.due = [] →
    Runs (.dbgWriteMem p a env) s fun t => dbgSaid t p a { status := 0 } ∧ t.mem = (sramWrite x (slice a 0x10 (dbgParam a)) s).mem) ∧
  (∀ (p : DbgPath) (a : Bytes) (c : Chan) (s : State), dbgReady p a 8 s = true → dbgParam a < 256 →
    chanAt s (dbgThread a / 64) (dbgParam a) = c → c.state = .open → c.reserved = true → (threadAt s (64 * (dbgThread a / 64) + c.writer)).st = 3 →
    Runs (.dbgChAbort p a) s fun t => dbgSaid t p a { status := 0 } ∧
      chanAt t (dbgThread a / 64) (dbgParam a) = { c with reserved := false, aborted := true }) ∧
  (∀ (p : DbgPath) (a : Bytes) (s : State), dbgReady p a 9 s = true → dbgParam a = 1 →
    Runs (.traceStart p a) s fun t => dbgSaid t p a { status := 0 } ∧ mget t.dbg.traces (dbgThread a / 8) =
      some { thread := dbgThread a, on_ := true, wrap := (dbgFlags a).testBit 0, entries := [], count := 0 }) ∧
  (∀ (p : DbgPath) (a : Bytes) (x : Trace) (s : State), dbgReady p a 9 s = true → dbgParam a = 2 →
    mget s.dbg.traces (dbgThread a / 8) = some x → x.thread = dbgThread a →
    Runs (.traceStop p a) s fun t => dbgSaid t p a { status := 0 } ∧ mget t.dbg.traces (dbgThread a / 8) = some { x with on_ := false }) ∧
  (∀ (p : DbgPath) (a : Bytes) (x : Trace) (s : State), dbgReady p a 10 s = true → dbgAddr a < 512 →
    mget s.dbg.traces (dbgThread a / 8) = some x →
    Runs (.traceRead p a) s fun t => dbgSaid t p a { status := 0, count := x.count % 2 ^ 32,
                                                           data := padTo 16 (mgetD x.entries (dbgAddr a) []) ++
                                                                   padTo 16 (mgetD x.entries ((dbgAddr a + 1) % 512) []) })

/-- A thread that is not being stepped: an instruction that gives rd a value, a fence, and a branch not taken change that
thread's rd, pc and instruction count and nothing else in the machine; a jump and a taken branch likewise where the cell is
not traced; a store changes its bytes and the reservations it breaks besides; an environment call changes only its thread's
trap state. A lock or channel instruction that is refused with a status changes rd, pc and count alone. What the spec leaves
open here is the model's choice: log entries 67, 68. -/
def Obligations.InstructionsChangeNothingElse : Prop :=
  (∀ (t : ThreadNo) (env : OaEnv) (len rd : Nat) (v : Word64) (s : State), doesNext t len (.put rd v) s = true → s.dbg.stepping.contains t.val = false →
    exec (.rvInstruction t env) s = .next (threadPut t { setX rd v (threadAt s t) with
      pc := (threadAt s t).pc + BitVec.ofNat 64 len, minstret := (threadAt s t).minstret + 1 } s)) ∧
  (∀ (t : ThreadNo) (env : OaEnv) (len : Nat) (a : RvAct) (s : State), a = .fence ∨ (∃ g, a = .branch false g) → doesNext t len a s = true →
    s.dbg.stepping.contains t.val = false →
    exec (.rvInstruction t env) s = .next (threadPut t { threadAt s t with
      pc := (threadAt s t).pc + BitVec.ofNat 64 len, minstret := (threadAt s t).minstret + 1 } s)) ∧
  (∀ (t : ThreadNo) (env : OaEnv) (len : Nat) (g : Word64) (s : State), doesNext t len (.branch true g) s = true →
    s.dbg.stepping.contains t.val = false → mget s.dbg.traces (t / 8) = none →
    exec (.rvInstruction t env) s = .next (threadPut t { threadAt s t with pc := g, minstret := (threadAt s t).minstret + 1 } s)) ∧
  (∀ (t : ThreadNo) (env : OaEnv) (len rd : Nat) (g : Word64) (s : State), doesNext t len (.jump rd g) s = true →
    s.dbg.stepping.contains t.val = false → mget s.dbg.traces (t / 8) = none →
    exec (.rvInstruction t env) s = .next (threadPut t { setX rd ((threadAt s t).pc + BitVec.ofNat 64 len) (threadAt s t) with
      pc := g, minstret := (threadAt s t).minstret + 1 } s)) ∧
  (∀ (t : ThreadNo) (env : OaEnv) (len n x : Nat) (a v : Word64) (s u : State), doesNext t len (.store a n v) s = true →
    s.dbg.stepping.contains t.val = false → a.toNat % n = 0 → pmpOk (threadAt s t) (dataMode (threadAt s t)) a.toNat n 2 = true →
    spotOf s t a.toNat = .sram x → spotReached s t (.sram x) = true → spotIsolated s (.sram x) = false → sramWrite x (le n v.toNat) s = u →
    exec (.rvInstruction t env) s = .next (threadPut t { threadAt u t with
      pc := (threadAt u t).pc + BitVec.ofNat 64 len, minstret := (threadAt u t).minstret + 1 } u)) ∧
  (∀ (t : ThreadNo) (env : OaEnv) (len : Nat) (s : State), doesNext t len .ecall s = true → s.dbg.stepping.contains t.val = false →
    mget s.dbg.traces (t / 8) = none → (threadAt s t).trapping = false →
    exec (.rvInstruction t env) s = .next (threadPut t { threadAt s t with
      mepc := (threadAt s t).pc &&& ~~~1, mcause := causeWord false (if (threadAt s t).m then 11 else 8),
      mtval := Config.mtval (if (threadAt s t).m then 11 else 8) 0, reserve := none, trapping := true, m := true,
      mstatus := mstatusTrap (threadAt s t).mstatus (threadAt s t).m,
      pc := trapTarget (threadAt s t).mtvec false (if (threadAt s t).m then 11 else 8) } s)) ∧
  (∀ (t : ThreadNo) (rd a b : Fin 32) (n : Nat) (s : State), xkIssues t s = true → s.dbg.stepping.contains t.val = false →
    (xreg (threadAt s t) a).toNat = n →
    ∀ p ∈ [(4096, Instr.lkAcq t rd a), (4096, .lkTry t rd a), (4096, .lkRel t rd a), (1024, .evWait t rd a b), (1024, .evSig t rd a),
      (1024, .evAdd t rd a b), (256, .chRes t rd a), (256, .chPub t rd a)], p.1 ≤ n →
    exec p.2 s = .next (threadPut t { setX rd 11 (threadAt s t) with pc := (threadAt s t).pc + 4, minstret := (threadAt s t).minstret + 1 } s)) ∧
  (∀ (t : ThreadNo) (rd a : Fin 32) (s : State), xkIssues t s = true → s.dbg.stepping.contains t.val = false →
    (xreg (threadAt s t) a).toNat < 256 → (chanAt s (t / 64) (xreg (threadAt s t) a).toNat).state ≠ .closed →
    (chanAt s (t / 64) (xreg (threadAt s t) a).toNat).writer ≠ t % 64 → ∀ c ∈ [Instr.chRes t rd a, .chPub t rd a],
    exec c s = .next (threadPut t { setX rd 6 (threadAt s t) with pc := (threadAt s t).pc + 4, minstret := (threadAt s t).minstret + 1 } s))

/-- Where the SRAM is in canonical form, every byte of it outside the bytes stored reads as before: outside the operand of a
store instruction, the 64 bytes CH.READ copies to, the area PKT.GET fills, the element a COPY or FILL of a region's engine
writes, and the bytes of a debug WRITE_MEM; a write of a line of attached memory changes no other line, and none of these
changes attached memory but that one. What the spec leaves open here is the model's choice: log entries 10, 67. -/
def Obligations.OtherBytesUnchanged : Prop :=
  (∀ (t : ThreadNo) (env : OaEnv) (len n x : Nat) (a v : Word64) (s : State), Memory.wf 0 s.mem.sram = true → doesNext t len (.store a n v) s = true →
    a.toNat % n = 0 → pmpOk (threadAt s t) (dataMode (threadAt s t)) a.toNat n 2 = true →
    spotOf s t a.toNat = .sram x → spotReached s t (.sram x) = true → spotIsolated s (.sram x) = false →
    Runs (.rvInstruction t env) s fun u => memGets 0 u.mem.sram x n = le n v.toNat ∧ keepsOutside x n s u) ∧
  (∀ (t : ThreadNo) (rd a b : Fin 32) (c : Chan) (dst : Nat) (s : State), Memory.wf 0 s.mem.sram = true → xkIssues t s = true →
    (xreg (threadAt s t) a).toNat < 256 → xkArea t (xreg (threadAt s t) b) 64 64 2 true s = .inr dst →
    chanAt s (t / 64) (xreg (threadAt s t) a).toNat = c → c.state = .open → c.reader = t % 64 → 0 < c.pub →
    chanWriterWaits s (t / 64) (xreg (threadAt s t) a).toNat = [] →
    Runs (.chRead t rd a b) s fun u => memGets 0 u.mem.sram dst 64 = memGets 0 s.mem.sram (chanSlot (t / 64) c c.head) 64 ∧ keepsOutside dst 64 s u) ∧
  (∀ (t : ThreadNo) (rd a : Fin 32) (k : Pkt) (r : List Pkt) (area : Nat) (s : State), Memory.wf 0 s.mem.sram = true → xkIssues t s = true →
    xkArea t (xreg (threadAt s t) a) 288 32 2 false s = .inr area → mget s.net.punts t = some (k :: r) →
    ∀ c ∈ [Instr.pktGet t rd a, .pktTryget t rd a], Runs c s fun u =>
      memGets 0 u.mem.sram area (32 + headBytes k) = stampBytes k ++ k.frame.take (headBytes k) ∧ keepsOutside area (32 + headBytes k) s u) ∧
  (∀ (r : RegionNo) (c : Fin 32) (n x : Nat) (d b : Bytes) (src rest : List HostRead) (s : State), Memory.wf 0 s.mem.sram = true →
    dmaAllows r c 0 n d s = true → elemRead r d 0 n src s = (.ok b rest, s) → b.length = dLen d → dSwap d = 0 → dSpace d 1 = 0 →
    spotAt s.mem (dAddr d 1 n).toNat = .sram x → sramOff s x = false →
    Runs (.dmaCopy r c src) s fun u => memGets 0 u.mem.sram x (dLen d) = b ∧ keepsOutside x (dLen d) s u) ∧
  (∀ (r : RegionNo) (c : Fin 32) (n x : Nat) (d : Bytes) (s : State), Memory.wf 0 s.mem.sram = true →
    dmaAllows r c 1 n d s = true → dSpace d 1 = 0 → spotAt s.mem (dAddr d 1 n).toNat = .sram x → sramOff s x = false →
    Runs (.dmaFill r c) s fun u => memGets 0 u.mem.sram x (dLen d) = fillBytes d (dAddr d 1 n).toNat (dLen d) ∧ keepsOutside x (dLen d) s u) ∧
  (∀ (p : DbgPath) (a : Bytes) (env : OaEnv) (x : Nat) (s : State), Memory.wf 0 s.mem.sram = true → dbgReady p a 7 s = true → dbgSizeOk a = true →
    reachesSram a x s = true → s.io.oa.due = [] →
    Runs (.dbgWriteMem p a env) s fun u => memGets 0 u.mem.sram x (dbgParam a) = slice a 0x10 (dbgParam a) ∧ keepsOutside x (dbgParam a) s u) ∧
  (∀ (l : Nat) (o : Fin 64) (d : Bytes) (p : Bool) (s : State),
    Runs (.memoryWrite l o d p) s fun u => u.mem.sram = s.mem.sram ∧ ∀ k, k ≠ l → lineOf u.mem k = lineOf s.mem k)

/-- One of the first 225 commands, as Instr lists them, that answers a next state leaves the queue as it was, and every part of
the state that `touches` does not list for it. What the spec leaves open here is the model's choice: log entries 86. -/
def Obligations.CommandsKeepOtherPartsFirstHalf : Prop :=
  ∀ (c : Instr) (s t : State), c.ctorIdx < 225 → exec c s = .next t → t.pending = s.pending ∧ ∀ p : Part, p ∉ touches c → p.same s t

/-- One of the other commands, as Instr lists them, that answers a next state leaves the queue as it was, and every part of the
state that `touches` does not list for it. What the spec leaves open here is the model's choice: log entries 86. -/
def Obligations.CommandsKeepOtherPartsSecondHalf : Prop :=
  ∀ (c : Instr) (s t : State), 225 ≤ c.ctorIdx → exec c s = .next t → t.pending = s.pending ∧ ∀ p : Part, p ∉ touches c → p.same s t

/-- After reset the byte memories are in canonical form and the start sequence is in one of its stages. What the spec leaves
open here is the model's choice: log entries 7, 10, 11. -/
def Obligations.ResetHasInvariant : Prop :=
  State.reset.Inv

/-- From every state whose byte memories (the SRAMs, the flash, the steward core's memory) are in canonical form and whose start
stage is 0 to 3, every step, of whatever command or of a tick, that answers a next state leaves them so. What the spec
leaves open here is the model's choice: log entries 2, 10, 11. -/
def Obligations.EveryStepKeepsInvariant : Prop :=
  ∀ s t : State, s.Inv → step s = .next t → t.Inv

/-- S is the roster's entries of this device and of its peers in MEMBER or SUSPECT. The device qualifies exactly when twice the
weight of S exceeds the roster's weight W, or equals it and S contains the lowest anchor. Two devices with the same roster
whose sets S have no device in common never both qualify. -/
def Obligations.QuorumIsExclusive : Prop :=
  (∀ (s : State) (e : Nat × Nat × Nat), e ∈ reachable s ↔ e ∈ roster s.io ∧
    (e.1 = s.dom.id ∨ (domPeer s.dom e.1).state = 1 ∨ (domPeer s.dom e.1).state = 2)) ∧
  (∀ s : State, (quorum s).1 = true ↔ rosterWeight (roster s.io) < 2 * rosterWeight (reachable s) ∨
    (2 * rosterWeight (reachable s) = rosterWeight (roster s.io) ∧ ∃ a, (∃ w f, (a, w, f) ∈ reachable s) ∧ a ≠ 0 ∧ lowestAnchor (roster s.io) = a)) ∧
  (∀ s t : State, roster s.io = roster t.io → (∀ e ∈ reachable s, ∀ f ∈ reachable t, e.1 ≠ f.1) → ¬((quorum s).1 = true ∧ (quorum t).1 = true))

/-- With none of the fuses 0 to 255 blown the fused epoch is 0; otherwise it is one more than the number of a blown fuse, no
blown fuse has a higher number, and it is at most 256. Blowing a fuse never lowers it. -/
def Obligations.FusedEpochIsHighestFuse : Prop :=
  fusedEpoch [] = 0 ∧
  ∀ l : List Nat, (∀ k ∈ l, k ≤ 255) → fusedEpoch l ≤ 256 ∧
    (l ≠ [] → ∃ k ∈ l, fusedEpoch l = k + 1 ∧ ∀ j ∈ l, j ≤ k) ∧ ∀ j, fusedEpoch l ≤ fusedEpoch (j :: l)
end

