-- ==== Sys2Proof/Laws/Maps.lean ====
section
/-!
SUPPORT. Laws of the maps and sets of Machine/Base.lean: reading after writing, reading elsewhere, membership.
-/
namespace Sys2Proof.Machine

@[simp] theorem mget_nil {α : Type} (k : Nat) : mget ([] : List (Nat × α)) k = none := rfl

/-- Reading the key just written gives the value written. -/
@[simp] theorem mget_mput_same {α : Type} (m : List (Nat × α)) (k : Nat) (v : α) :
    mget (mput m k v) k = some v := by
  induction m with
  | nil => simp [mput, mget]
  | cons p r ih =>
    obtain ⟨j, w⟩ := p
    simp only [mput]
    split
    · simp [mget]
    · split
      · simp [mget]
      · simp [mget, *]

/-- Writing one key leaves every other key's value. -/
theorem mget_mput_other {α : Type} (m : List (Nat × α)) {k j : Nat} (v : α) (h : j ≠ k) :
    mget (mput m k v) j = mget m j := by
  induction m with
  | nil => simp [mput, mget, Ne.symm h]
  | cons p r ih =>
    obtain ⟨i, w⟩ := p
    simp only [mput]
    split
    · simp [mget, Ne.symm h]
    · split
      · subst_vars; simp [mget, Ne.symm h]
      · simp [mget, ih]

/-- Reading any key after one was written. -/
theorem mget_mput {α : Type} (m : List (Nat × α)) (k j : Nat) (v : α) :
    mget (mput m k v) j = if j = k then some v else mget m j := by
  split
  · subst_vars; simp
  · exact mget_mput_other m v ‹_›

/-- A deleted key is absent. -/
@[simp] theorem mget_mdel_same {α : Type} (m : List (Nat × α)) (k : Nat) : mget (mdel m k) k = none := by
  induction m with
  | nil => rfl
  | cons p r ih =>
    obtain ⟨j, w⟩ := p
    by_cases e : j = k <;> simp_all [mdel, mget]

/-- Deleting one key leaves every other key's value. -/
theorem mget_mdel_other {α : Type} (m : List (Nat × α)) {k j : Nat} (h : j ≠ k) :
    mget (mdel m k) j = mget m j := by
  induction m with
  | nil => rfl
  | cons p r ih =>
    obtain ⟨i, w⟩ := p
    simp only [mdel] at ih ⊢
    by_cases e : i = k
    · subst e; simp [mget, Ne.symm h, ih]
    · simp [mget, e, ih]

/-- A function over every value is applied to the value under each key. -/
theorem mget_mmap {α : Type} (m : List (Nat × α)) (f : Nat → α → α) (k : Nat) :
    mget (mmap m f) k = (mget m k).map (f k) := by
  induction m with
  | nil => rfl
  | cons p r ih =>
    obtain ⟨i, w⟩ := p
    simp only [mmap, List.map_cons, mget] at ih ⊢
    split
    · subst_vars; rfl
    · exact ih

@[simp] theorem mgetD_mput_same {α : Type} (m : List (Nat × α)) (k : Nat) (v d : α) :
    mgetD (mput m k v) k d = v := by simp [mgetD]

theorem mgetD_mput_other {α : Type} (m : List (Nat × α)) {k j : Nat} (v d : α) (h : j ≠ k) :
    mgetD (mput m k v) j d = mgetD m j d := by simp [mgetD, mget_mput_other m v h]

@[simp] theorem mgetD_mupd_same {α : Type} (m : List (Nat × α)) (k : Nat) (d : α) (f : α → α) :
    mgetD (mupd m k d f) k d = f (mgetD m k d) := by simp [mupd]

theorem mgetD_mupd_other {α : Type} (m : List (Nat × α)) {k j : Nat} (d e : α) (f : α → α) (h : j ≠ k) :
    mgetD (mupd m k d f) j e = mgetD m j e := by simp [mupd, mgetD_mput_other m _ e h]

/-- What a set holds after a number is added. -/
@[simp] theorem mem_sadd (s : List Nat) (k j : Nat) : j ∈ sadd s k ↔ j = k ∨ j ∈ s := by
  induction s with
  | nil => simp [sadd]
  | cons i r ih =>
    simp only [sadd]
    split
    · simp
    · split
      · subst_vars; simp
      · simp only [List.mem_cons, ih]; exact or_left_comm

/-- What a set holds after a number is taken out. -/
@[simp] theorem mem_sdel (s : List Nat) (k j : Nat) : j ∈ sdel s k ↔ j ∈ s ∧ j ≠ k := by
  simp [sdel]

/-- The numbers of a run. -/
@[simp] theorem mem_span (lo n k : Nat) : k ∈ span lo n ↔ lo ≤ k ∧ k < lo + n := by
  simp only [span, List.mem_map, List.mem_range]
  constructor
  · rintro ⟨a, h, rfl⟩; omega
  · rintro ⟨h, i⟩; exact ⟨k - lo, by omega, by omega⟩

@[simp] theorem length_span (lo n : Nat) : (span lo n).length = n := by simp [span]

/-- A run is its first number and the run after it. -/
theorem span_succ (lo n : Nat) : span lo (n + 1) = lo :: span (lo + 1) n := by
  simp only [span, List.range_succ_eq_map, List.map_cons, List.map_map, Nat.zero_add, List.cons.injEq, true_and]
  apply List.map_congr_left; intro a _; simp only [Function.comp]; omega

@[simp] theorem length_le (n v : Nat) : (le n v).length = n := by
  induction n generalizing v with
  | zero => rfl
  | succ n ih => simp [le, ih]

@[simp] theorem length_be (n v : Nat) : (be n v).length = n := by simp [be]

/-- The number that n little-endian bytes of v spell is v modulo 256^n. -/
@[simp] theorem leVal_le (n v : Nat) : leVal (le n v) = v % 256 ^ n := by
  induction n generalizing v with
  | zero => simp [le, leVal, Nat.mod_one]
  | succ n ih =>
    simp only [le, leVal, ih, BitVec.toNat_ofNat]
    rw [show (256 : Nat) ^ (n + 1) = 256 * 256 ^ n from Nat.pow_add_one', Nat.mod_mul (a := 256)]

@[simp] theorem beVal_be (n v : Nat) : beVal (be n v) = v % 256 ^ n := by simp [beVal, be]

@[simp] theorem length_slice (bs : Bytes) (o n : Nat) : (slice bs o n).length = n := by
  simp only [slice, List.length_append, List.length_replicate, List.length_take, List.length_drop]; omega

@[simp] theorem length_padTo (n : Nat) (bs : Bytes) : (padTo n bs).length = n := by simp [padTo]

end Sys2Proof.Machine
end

