-- ==== Sys2Proof/Laws/Memory.lean ====
section
/-!
SUPPORT. Laws of the byte memories: every operation keeps the canonical form; a read after a write; other bytes are left.
-/
namespace Sys2Proof.Machine

/-- The canonical form from an address on is the canonical form from any lower one. -/
theorem memWfFrom_mono {d : Byte} {lo hi : Nat} (m : Mem) (h : lo ≤ hi) (w : memWfFrom d hi m = true) :
    memWfFrom d lo m = true := by
  cases m with
  | nil => rfl
  | cons p r =>
    obtain ⟨a, b⟩ := p
    simp only [memWfFrom, Bool.and_eq_true, decide_eq_true_eq] at w ⊢
    exact ⟨⟨by omega, w.1.2⟩, w.2⟩

/-- Every address a canonical memory lists is at or above the address it is canonical from. -/
theorem memWfFrom_below {d : Byte} {lo : Nat} (m : Mem) (w : memWfFrom d lo m = true) (k : Nat) (h : k < lo) :
    memGet d m k = d := by
  induction m generalizing lo with
  | nil => rfl
  | cons p r ih =>
    obtain ⟨a, b⟩ := p
    simp only [memWfFrom, Bool.and_eq_true, decide_eq_true_eq] at w
    have : a ≠ k := by omega
    simp only [memGet, this, if_false]
    exact ih w.2 (by omega)

/-- Writing a byte keeps the canonical form. -/
theorem memWfFrom_memPut {d : Byte} {lo : Nat} (m : Mem) (k : Nat) (v : Byte) (h : lo ≤ k)
    (w : memWfFrom d lo m = true) : memWfFrom d lo (memPut d m k v) = true := by
  induction m generalizing lo with
  | nil => by_cases e : v = d <;> simp [memPut, memWfFrom, e, h]
  | cons p r ih =>
    obtain ⟨a, b⟩ := p
    simp only [memWfFrom, Bool.and_eq_true, decide_eq_true_eq] at w
    obtain ⟨⟨w1, w2⟩, w3⟩ := w
    simp only [memPut]
    split
    · split
      · simp_all [memWfFrom]
      · simp only [memWfFrom, Bool.and_eq_true, decide_eq_true_eq, bne_iff_ne] at w2 ⊢
        exact ⟨⟨h, ‹_›⟩, ⟨by omega, w2⟩, w3⟩
    · split
      · subst_vars
        split
        · exact memWfFrom_mono r (by omega) w3
        · simp_all [memWfFrom]
      · simp only [memWfFrom, Bool.and_eq_true, decide_eq_true_eq]
        exact ⟨⟨w1, w2⟩, ih (by omega) w3⟩

/-- Writing a byte keeps the canonical form. -/
theorem wf_memPut {d : Byte} (m : Mem) (k : Nat) (v : Byte) (w : Memory.wf d m = true) :
    Memory.wf d (memPut d m k v) = true := memWfFrom_memPut m k v (Nat.zero_le k) w

/-- Writing a byte string keeps the canonical form. -/
theorem wf_memPuts {d : Byte} (bs : Bytes) (m : Mem) (a : Nat) (w : Memory.wf d m = true) :
    Memory.wf d (memPuts d m a bs) = true := by
  induction bs generalizing m a with
  | nil => exact w
  | cons b r ih => exact ih _ _ (wf_memPut m a b w)

/-- Dropping entries keeps the canonical form. -/
theorem memWfFrom_filter {d : Byte} {lo : Nat} (m : Mem) (p : Nat × Byte → Bool) (w : memWfFrom d lo m = true) :
    memWfFrom d lo (m.filter p) = true := by
  induction m generalizing lo with
  | nil => exact w
  | cons q r ih =>
    obtain ⟨a, b⟩ := q
    simp only [memWfFrom, Bool.and_eq_true, decide_eq_true_eq] at w
    simp only [List.filter_cons]
    split
    · simp only [memWfFrom, Bool.and_eq_true, decide_eq_true_eq]
      exact ⟨w.1, ih w.2⟩
    · exact memWfFrom_mono _ (by omega) (ih w.2)

/-- Clearing a range keeps the canonical form. -/
theorem wf_memClear {d : Byte} (m : Mem) (lo hi : Nat) (w : Memory.wf d m = true) :
    Memory.wf d (memClear m lo hi) = true := memWfFrom_filter m _ w

@[simp] theorem wf_nil (d : Byte) : Memory.wf d [] = true := rfl

/-- A byte written reads back. -/
theorem memGet_memPut_same {d : Byte} (m : Mem) (k : Nat) (v : Byte) {lo : Nat} (w : memWfFrom d lo m = true) :
    memGet d (memPut d m k v) k = v := by
  induction m generalizing lo with
  | nil => by_cases e : v = d <;> simp [memPut, memGet, e]
  | cons p r ih =>
    obtain ⟨a, b⟩ := p
    simp only [memWfFrom, Bool.and_eq_true, decide_eq_true_eq] at w
    simp only [memPut]
    split
    · split
      · subst_vars
        have : a ≠ k := by omega
        simp only [memGet, this, if_false]
        exact memWfFrom_below r w.2 k (by omega)
      · simp [memGet]
    · split
      · subst_vars
        split
        · subst_vars; exact memWfFrom_below r w.2 a (by omega)
        · simp [memGet]
      · rename_i h1 h2
        simp only [memGet, h2, if_false]
        exact ih w.2

/-- Writing a byte leaves every other address. -/
theorem memGet_memPut_other {d : Byte} (m : Mem) {k j : Nat} (v : Byte) (h : j ≠ k) :
    memGet d (memPut d m k v) j = memGet d m j := by
  induction m with
  | nil => by_cases e : v = d <;> simp [memPut, memGet, e, Ne.symm h]
  | cons p r ih =>
    obtain ⟨a, b⟩ := p
    simp only [memPut]
    split
    · split <;> simp [memGet, Ne.symm h]
    · split
      · subst_vars
        split <;> simp [memGet, Ne.symm h]
      · simp [memGet, ih]

/-- A byte string leaves every address outside it. -/
theorem memGet_memPuts_other {d : Byte} (bs : Bytes) (m : Mem) (a k : Nat) (h : k < a ∨ a + bs.length ≤ k) :
    memGet d (memPuts d m a bs) k = memGet d m k := by
  induction bs generalizing m a with
  | nil => rfl
  | cons b r ih =>
    simp only [List.length_cons] at h
    simp only [memPuts]
    rw [ih _ _ (by omega), memGet_memPut_other m b (by omega)]

/-- A byte string written reads back. -/
theorem memGets_memPuts {d : Byte} (bs : Bytes) (m : Mem) (a : Nat) (w : Memory.wf d m = true) :
    memGets d (memPuts d m a bs) a bs.length = bs := by
  induction bs generalizing m a with
  | nil => rfl
  | cons b r ih =>
    have e := ih (memPut d m a b) (a + 1) (wf_memPut m a b w)
    simp only [memGets, memPuts, List.length_cons, span_succ, List.map_cons] at e ⊢
    rw [e, memGet_memPuts_other _ _ _ _ (by omega), memGet_memPut_same m a b w]

/-- Outside a cleared range every byte is left; inside it reads as an unlisted address. -/
theorem memGet_memClear {d : Byte} (m : Mem) (lo hi k : Nat) :
    memGet d (memClear m lo hi) k = if lo ≤ k ∧ k < hi then d else memGet d m k := by
  induction m with
  | nil => simp [memClear, memGet]
  | cons p r ih =>
    obtain ⟨a, b⟩ := p
    simp only [memClear, List.filter_cons] at ih ⊢
    by_cases e : a = k
    · subst e
      by_cases c : lo ≤ a ∧ a < hi
      · have n : (decide (a < lo) || decide (hi ≤ a)) = false := by simp; omega
        simp only [n, ih, c, and_self, if_true, Bool.false_eq_true, if_false]
      · have n : (decide (a < lo) || decide (hi ≤ a)) = true := by simp; omega
        simp only [n, memGet, if_true, c, if_false]
    · split
      · simp only [memGet, e, if_false]; exact ih
      · simp only [memGet, e, if_false]; exact ih

/-- Two canonical memories that read alike everywhere are equal data. -/
theorem memWfFrom_ext {d : Byte} {lo : Nat} (m n : Mem) (wm : memWfFrom d lo m = true) (wn : memWfFrom d lo n = true)
    (h : ∀ k, memGet d m k = memGet d n k) : m = n := by
  induction m generalizing n lo with
  | nil =>
    cases n with
    | nil => rfl
    | cons q r =>
      obtain ⟨a, b⟩ := q
      simp only [memWfFrom, Bool.and_eq_true, decide_eq_true_eq, bne_iff_ne] at wn
      have := h a
      simp only [memGet, if_true] at this
      exact absurd this.symm wn.1.2
  | cons p r ih =>
    obtain ⟨a, b⟩ := p
    simp only [memWfFrom, Bool.and_eq_true, decide_eq_true_eq, bne_iff_ne] at wm
    cases n with
    | nil =>
      have := h a
      simp only [memGet, if_true] at this
      exact absurd this wm.1.2
    | cons q t =>
      obtain ⟨c, e⟩ := q
      simp only [memWfFrom, Bool.and_eq_true, decide_eq_true_eq, bne_iff_ne] at wn
      have ac : a = c := by
        rcases Nat.lt_trichotomy a c with l | l | l
        · have x := h a
          have y := memWfFrom_below t wn.2 a (by omega)
          have z : c ≠ a := by omega
          simp only [memGet, if_true, z, if_false, y] at x
          exact absurd x wm.1.2
        · exact l
        · have x := h c
          have y := memWfFrom_below r wm.2 c (by omega)
          have z : a ≠ c := by omega
          simp only [memGet, if_true, z, if_false, y] at x
          exact absurd x.symm wn.1.2
      subst ac
      have be : b = e := by have x := h a; simpa only [memGet, if_true] using x
      subst be
      have : r = t := by
        refine ih (lo := a + 1) t wm.2 wn.2 (fun k => ?_)
        by_cases g : k < a + 1
        · rw [memWfFrom_below r wm.2 k g, memWfFrom_below t wn.2 k g]
        · have x := h k
          have z : a ≠ k := by omega
          simpa only [memGet, z, if_false] using x
      rw [this]

end Sys2Proof.Machine
end

