-- ==== Sys2Proof/Laws/State.lean ====
section
/-!
SUPPORT. What each elementary update leaves alone: one lemma per field, true by rfl. The two or three fields an update does
change are given by its definition and, for keyed stores, by the lemmas at the end of this file.
-/
namespace Sys2Proof.Machine

/-! ### `on` alters only io -/

@[simp] theorem on_pending (f : Io → Io) (s : State) : (on f s).pending = s.pending := rfl
@[simp] theorem on_cont (f : Io → Io) (s : State) : (on f s).cont = s.cont := rfl
@[simp] theorem on_clk (f : Io → Io) (s : State) : (on f s).clk = s.clk := rfl
@[simp] theorem on_start (f : Io → Io) (s : State) : (on f s).start = s.start := rfl
@[simp] theorem on_net (f : Io → Io) (s : State) : (on f s).net = s.net := rfl
@[simp] theorem on_pipe (f : Io → Io) (s : State) : (on f s).pipe = s.pipe := rfl
@[simp] theorem on_tabs (f : Io → Io) (s : State) : (on f s).tabs = s.tabs := rfl
@[simp] theorem on_burin (f : Io → Io) (s : State) : (on f s).burin = s.burin := rfl
@[simp] theorem on_dom (f : Io → Io) (s : State) : (on f s).dom = s.dom := rfl
@[simp] theorem on_mem (f : Io → Io) (s : State) : (on f s).mem = s.mem := rfl
@[simp] theorem on_cpu (f : Io → Io) (s : State) : (on f s).cpu = s.cpu := rfl
@[simp] theorem on_le (f : Io → Io) (s : State) : (on f s).le = s.le := rfl
@[simp] theorem on_dma (f : Io → Io) (s : State) : (on f s).dma = s.dma := rfl
@[simp] theorem on_rdma (f : Io → Io) (s : State) : (on f s).rdma = s.rdma := rfl
@[simp] theorem on_nvme (f : Io → Io) (s : State) : (on f s).nvme = s.nvme := rfl
@[simp] theorem on_store (f : Io → Io) (s : State) : (on f s).store = s.store := rfl
@[simp] theorem on_drives (f : Io → Io) (s : State) : (on f s).drives = s.drives := rfl
@[simp] theorem on_mon (f : Io → Io) (s : State) : (on f s).mon = s.mon := rfl
@[simp] theorem on_boot (f : Io → Io) (s : State) : (on f s).boot = s.boot := rfl
@[simp] theorem on_dbg (f : Io → Io) (s : State) : (on f s).dbg = s.dbg := rfl

/-! ### `onWire` alters only io, net, pipe, tabs, burin -/

@[simp] theorem onWire_pending (f : Wire → Wire) (s : State) : (onWire f s).pending = s.pending := rfl
@[simp] theorem onWire_cont (f : Wire → Wire) (s : State) : (onWire f s).cont = s.cont := rfl
@[simp] theorem onWire_clk (f : Wire → Wire) (s : State) : (onWire f s).clk = s.clk := rfl
@[simp] theorem onWire_start (f : Wire → Wire) (s : State) : (onWire f s).start = s.start := rfl
@[simp] theorem onWire_dom (f : Wire → Wire) (s : State) : (onWire f s).dom = s.dom := rfl
@[simp] theorem onWire_mem (f : Wire → Wire) (s : State) : (onWire f s).mem = s.mem := rfl
@[simp] theorem onWire_cpu (f : Wire → Wire) (s : State) : (onWire f s).cpu = s.cpu := rfl
@[simp] theorem onWire_le (f : Wire → Wire) (s : State) : (onWire f s).le = s.le := rfl
@[simp] theorem onWire_dma (f : Wire → Wire) (s : State) : (onWire f s).dma = s.dma := rfl
@[simp] theorem onWire_rdma (f : Wire → Wire) (s : State) : (onWire f s).rdma = s.rdma := rfl
@[simp] theorem onWire_nvme (f : Wire → Wire) (s : State) : (onWire f s).nvme = s.nvme := rfl
@[simp] theorem onWire_store (f : Wire → Wire) (s : State) : (onWire f s).store = s.store := rfl
@[simp] theorem onWire_drives (f : Wire → Wire) (s : State) : (onWire f s).drives = s.drives := rfl
@[simp] theorem onWire_mon (f : Wire → Wire) (s : State) : (onWire f s).mon = s.mon := rfl
@[simp] theorem onWire_boot (f : Wire → Wire) (s : State) : (onWire f s).boot = s.boot := rfl
@[simp] theorem onWire_dbg (f : Wire → Wire) (s : State) : (onWire f s).dbg = s.dbg := rfl

/-! ### `onMem` alters only io, mem -/

@[simp] theorem onMem_pending (f : MemIo → MemIo) (s : State) : (onMem f s).pending = s.pending := rfl
@[simp] theorem onMem_cont (f : MemIo → MemIo) (s : State) : (onMem f s).cont = s.cont := rfl
@[simp] theorem onMem_clk (f : MemIo → MemIo) (s : State) : (onMem f s).clk = s.clk := rfl
@[simp] theorem onMem_start (f : MemIo → MemIo) (s : State) : (onMem f s).start = s.start := rfl
@[simp] theorem onMem_net (f : MemIo → MemIo) (s : State) : (onMem f s).net = s.net := rfl
@[simp] theorem onMem_pipe (f : MemIo → MemIo) (s : State) : (onMem f s).pipe = s.pipe := rfl
@[simp] theorem onMem_tabs (f : MemIo → MemIo) (s : State) : (onMem f s).tabs = s.tabs := rfl
@[simp] theorem onMem_burin (f : MemIo → MemIo) (s : State) : (onMem f s).burin = s.burin := rfl
@[simp] theorem onMem_dom (f : MemIo → MemIo) (s : State) : (onMem f s).dom = s.dom := rfl
@[simp] theorem onMem_cpu (f : MemIo → MemIo) (s : State) : (onMem f s).cpu = s.cpu := rfl
@[simp] theorem onMem_le (f : MemIo → MemIo) (s : State) : (onMem f s).le = s.le := rfl
@[simp] theorem onMem_dma (f : MemIo → MemIo) (s : State) : (onMem f s).dma = s.dma := rfl
@[simp] theorem onMem_rdma (f : MemIo → MemIo) (s : State) : (onMem f s).rdma = s.rdma := rfl
@[simp] theorem onMem_nvme (f : MemIo → MemIo) (s : State) : (onMem f s).nvme = s.nvme := rfl
@[simp] theorem onMem_store (f : MemIo → MemIo) (s : State) : (onMem f s).store = s.store := rfl
@[simp] theorem onMem_drives (f : MemIo → MemIo) (s : State) : (onMem f s).drives = s.drives := rfl
@[simp] theorem onMem_mon (f : MemIo → MemIo) (s : State) : (onMem f s).mon = s.mon := rfl
@[simp] theorem onMem_boot (f : MemIo → MemIo) (s : State) : (onMem f s).boot = s.boot := rfl
@[simp] theorem onMem_dbg (f : MemIo → MemIo) (s : State) : (onMem f s).dbg = s.dbg := rfl

/-! ### `onRdma` alters only rdma -/

@[simp] theorem onRdma_pending (f : Rdma → Rdma) (s : State) : (onRdma f s).pending = s.pending := rfl
@[simp] theorem onRdma_io (f : Rdma → Rdma) (s : State) : (onRdma f s).io = s.io := rfl
@[simp] theorem onRdma_cont (f : Rdma → Rdma) (s : State) : (onRdma f s).cont = s.cont := rfl
@[simp] theorem onRdma_clk (f : Rdma → Rdma) (s : State) : (onRdma f s).clk = s.clk := rfl
@[simp] theorem onRdma_start (f : Rdma → Rdma) (s : State) : (onRdma f s).start = s.start := rfl
@[simp] theorem onRdma_net (f : Rdma → Rdma) (s : State) : (onRdma f s).net = s.net := rfl
@[simp] theorem onRdma_pipe (f : Rdma → Rdma) (s : State) : (onRdma f s).pipe = s.pipe := rfl
@[simp] theorem onRdma_tabs (f : Rdma → Rdma) (s : State) : (onRdma f s).tabs = s.tabs := rfl
@[simp] theorem onRdma_burin (f : Rdma → Rdma) (s : State) : (onRdma f s).burin = s.burin := rfl
@[simp] theorem onRdma_dom (f : Rdma → Rdma) (s : State) : (onRdma f s).dom = s.dom := rfl
@[simp] theorem onRdma_mem (f : Rdma → Rdma) (s : State) : (onRdma f s).mem = s.mem := rfl
@[simp] theorem onRdma_cpu (f : Rdma → Rdma) (s : State) : (onRdma f s).cpu = s.cpu := rfl
@[simp] theorem onRdma_le (f : Rdma → Rdma) (s : State) : (onRdma f s).le = s.le := rfl
@[simp] theorem onRdma_dma (f : Rdma → Rdma) (s : State) : (onRdma f s).dma = s.dma := rfl
@[simp] theorem onRdma_nvme (f : Rdma → Rdma) (s : State) : (onRdma f s).nvme = s.nvme := rfl
@[simp] theorem onRdma_store (f : Rdma → Rdma) (s : State) : (onRdma f s).store = s.store := rfl
@[simp] theorem onRdma_drives (f : Rdma → Rdma) (s : State) : (onRdma f s).drives = s.drives := rfl
@[simp] theorem onRdma_mon (f : Rdma → Rdma) (s : State) : (onRdma f s).mon = s.mon := rfl
@[simp] theorem onRdma_boot (f : Rdma → Rdma) (s : State) : (onRdma f s).boot = s.boot := rfl
@[simp] theorem onRdma_dbg (f : Rdma → Rdma) (s : State) : (onRdma f s).dbg = s.dbg := rfl

/-! ### `contPut` alters only io, cont -/

@[simp] theorem contPut_pending (c : Cont) (s : State) : (contPut c s).pending = s.pending := rfl
@[simp] theorem contPut_clk (c : Cont) (s : State) : (contPut c s).clk = s.clk := rfl
@[simp] theorem contPut_start (c : Cont) (s : State) : (contPut c s).start = s.start := rfl
@[simp] theorem contPut_net (c : Cont) (s : State) : (contPut c s).net = s.net := rfl
@[simp] theorem contPut_pipe (c : Cont) (s : State) : (contPut c s).pipe = s.pipe := rfl
@[simp] theorem contPut_tabs (c : Cont) (s : State) : (contPut c s).tabs = s.tabs := rfl
@[simp] theorem contPut_burin (c : Cont) (s : State) : (contPut c s).burin = s.burin := rfl
@[simp] theorem contPut_dom (c : Cont) (s : State) : (contPut c s).dom = s.dom := rfl
@[simp] theorem contPut_mem (c : Cont) (s : State) : (contPut c s).mem = s.mem := rfl
@[simp] theorem contPut_cpu (c : Cont) (s : State) : (contPut c s).cpu = s.cpu := rfl
@[simp] theorem contPut_le (c : Cont) (s : State) : (contPut c s).le = s.le := rfl
@[simp] theorem contPut_dma (c : Cont) (s : State) : (contPut c s).dma = s.dma := rfl
@[simp] theorem contPut_rdma (c : Cont) (s : State) : (contPut c s).rdma = s.rdma := rfl
@[simp] theorem contPut_nvme (c : Cont) (s : State) : (contPut c s).nvme = s.nvme := rfl
@[simp] theorem contPut_store (c : Cont) (s : State) : (contPut c s).store = s.store := rfl
@[simp] theorem contPut_drives (c : Cont) (s : State) : (contPut c s).drives = s.drives := rfl
@[simp] theorem contPut_mon (c : Cont) (s : State) : (contPut c s).mon = s.mon := rfl
@[simp] theorem contPut_boot (c : Cont) (s : State) : (contPut c s).boot = s.boot := rfl
@[simp] theorem contPut_dbg (c : Cont) (s : State) : (contPut c s).dbg = s.dbg := rfl

/-! ### `startPut` alters only io, start -/

@[simp] theorem startPut_pending (x : Start) (s : State) : (startPut x s).pending = s.pending := rfl
@[simp] theorem startPut_cont (x : Start) (s : State) : (startPut x s).cont = s.cont := rfl
@[simp] theorem startPut_clk (x : Start) (s : State) : (startPut x s).clk = s.clk := rfl
@[simp] theorem startPut_net (x : Start) (s : State) : (startPut x s).net = s.net := rfl
@[simp] theorem startPut_pipe (x : Start) (s : State) : (startPut x s).pipe = s.pipe := rfl
@[simp] theorem startPut_tabs (x : Start) (s : State) : (startPut x s).tabs = s.tabs := rfl
@[simp] theorem startPut_burin (x : Start) (s : State) : (startPut x s).burin = s.burin := rfl
@[simp] theorem startPut_dom (x : Start) (s : State) : (startPut x s).dom = s.dom := rfl
@[simp] theorem startPut_mem (x : Start) (s : State) : (startPut x s).mem = s.mem := rfl
@[simp] theorem startPut_cpu (x : Start) (s : State) : (startPut x s).cpu = s.cpu := rfl
@[simp] theorem startPut_le (x : Start) (s : State) : (startPut x s).le = s.le := rfl
@[simp] theorem startPut_dma (x : Start) (s : State) : (startPut x s).dma = s.dma := rfl
@[simp] theorem startPut_rdma (x : Start) (s : State) : (startPut x s).rdma = s.rdma := rfl
@[simp] theorem startPut_nvme (x : Start) (s : State) : (startPut x s).nvme = s.nvme := rfl
@[simp] theorem startPut_store (x : Start) (s : State) : (startPut x s).store = s.store := rfl
@[simp] theorem startPut_drives (x : Start) (s : State) : (startPut x s).drives = s.drives := rfl
@[simp] theorem startPut_mon (x : Start) (s : State) : (startPut x s).mon = s.mon := rfl
@[simp] theorem startPut_boot (x : Start) (s : State) : (startPut x s).boot = s.boot := rfl
@[simp] theorem startPut_dbg (x : Start) (s : State) : (startPut x s).dbg = s.dbg := rfl

/-! ### `xingPut` alters only clk -/

@[simp] theorem xingPut_pending (n : Nat) (x : XState) (s : State) : (xingPut n x s).pending = s.pending := rfl
@[simp] theorem xingPut_io (n : Nat) (x : XState) (s : State) : (xingPut n x s).io = s.io := rfl
@[simp] theorem xingPut_cont (n : Nat) (x : XState) (s : State) : (xingPut n x s).cont = s.cont := rfl
@[simp] theorem xingPut_start (n : Nat) (x : XState) (s : State) : (xingPut n x s).start = s.start := rfl
@[simp] theorem xingPut_net (n : Nat) (x : XState) (s : State) : (xingPut n x s).net = s.net := rfl
@[simp] theorem xingPut_pipe (n : Nat) (x : XState) (s : State) : (xingPut n x s).pipe = s.pipe := rfl
@[simp] theorem xingPut_tabs (n : Nat) (x : XState) (s : State) : (xingPut n x s).tabs = s.tabs := rfl
@[simp] theorem xingPut_burin (n : Nat) (x : XState) (s : State) : (xingPut n x s).burin = s.burin := rfl
@[simp] theorem xingPut_dom (n : Nat) (x : XState) (s : State) : (xingPut n x s).dom = s.dom := rfl
@[simp] theorem xingPut_mem (n : Nat) (x : XState) (s : State) : (xingPut n x s).mem = s.mem := rfl
@[simp] theorem xingPut_cpu (n : Nat) (x : XState) (s : State) : (xingPut n x s).cpu = s.cpu := rfl
@[simp] theorem xingPut_le (n : Nat) (x : XState) (s : State) : (xingPut n x s).le = s.le := rfl
@[simp] theorem xingPut_dma (n : Nat) (x : XState) (s : State) : (xingPut n x s).dma = s.dma := rfl
@[simp] theorem xingPut_rdma (n : Nat) (x : XState) (s : State) : (xingPut n x s).rdma = s.rdma := rfl
@[simp] theorem xingPut_nvme (n : Nat) (x : XState) (s : State) : (xingPut n x s).nvme = s.nvme := rfl
@[simp] theorem xingPut_store (n : Nat) (x : XState) (s : State) : (xingPut n x s).store = s.store := rfl
@[simp] theorem xingPut_drives (n : Nat) (x : XState) (s : State) : (xingPut n x s).drives = s.drives := rfl
@[simp] theorem xingPut_mon (n : Nat) (x : XState) (s : State) : (xingPut n x s).mon = s.mon := rfl
@[simp] theorem xingPut_boot (n : Nat) (x : XState) (s : State) : (xingPut n x s).boot = s.boot := rfl
@[simp] theorem xingPut_dbg (n : Nat) (x : XState) (s : State) : (xingPut n x s).dbg = s.dbg := rfl

/-! ### `cellPut` alters only cpu -/

@[simp] theorem cellPut_pending (n : Nat) (x : Cell) (s : State) : (cellPut n x s).pending = s.pending := rfl
@[simp] theorem cellPut_io (n : Nat) (x : Cell) (s : State) : (cellPut n x s).io = s.io := rfl
@[simp] theorem cellPut_cont (n : Nat) (x : Cell) (s : State) : (cellPut n x s).cont = s.cont := rfl
@[simp] theorem cellPut_clk (n : Nat) (x : Cell) (s : State) : (cellPut n x s).clk = s.clk := rfl
@[simp] theorem cellPut_start (n : Nat) (x : Cell) (s : State) : (cellPut n x s).start = s.start := rfl
@[simp] theorem cellPut_net (n : Nat) (x : Cell) (s : State) : (cellPut n x s).net = s.net := rfl
@[simp] theorem cellPut_pipe (n : Nat) (x : Cell) (s : State) : (cellPut n x s).pipe = s.pipe := rfl
@[simp] theorem cellPut_tabs (n : Nat) (x : Cell) (s : State) : (cellPut n x s).tabs = s.tabs := rfl
@[simp] theorem cellPut_burin (n : Nat) (x : Cell) (s : State) : (cellPut n x s).burin = s.burin := rfl
@[simp] theorem cellPut_dom (n : Nat) (x : Cell) (s : State) : (cellPut n x s).dom = s.dom := rfl
@[simp] theorem cellPut_mem (n : Nat) (x : Cell) (s : State) : (cellPut n x s).mem = s.mem := rfl
@[simp] theorem cellPut_le (n : Nat) (x : Cell) (s : State) : (cellPut n x s).le = s.le := rfl
@[simp] theorem cellPut_dma (n : Nat) (x : Cell) (s : State) : (cellPut n x s).dma = s.dma := rfl
@[simp] theorem cellPut_rdma (n : Nat) (x : Cell) (s : State) : (cellPut n x s).rdma = s.rdma := rfl
@[simp] theorem cellPut_nvme (n : Nat) (x : Cell) (s : State) : (cellPut n x s).nvme = s.nvme := rfl
@[simp] theorem cellPut_store (n : Nat) (x : Cell) (s : State) : (cellPut n x s).store = s.store := rfl
@[simp] theorem cellPut_drives (n : Nat) (x : Cell) (s : State) : (cellPut n x s).drives = s.drives := rfl
@[simp] theorem cellPut_mon (n : Nat) (x : Cell) (s : State) : (cellPut n x s).mon = s.mon := rfl
@[simp] theorem cellPut_boot (n : Nat) (x : Cell) (s : State) : (cellPut n x s).boot = s.boot := rfl
@[simp] theorem cellPut_dbg (n : Nat) (x : Cell) (s : State) : (cellPut n x s).dbg = s.dbg := rfl

/-! ### `bwPut` alters only cpu -/

@[simp] theorem bwPut_pending (n : Nat) (x : Bw) (s : State) : (bwPut n x s).pending = s.pending := rfl
@[simp] theorem bwPut_io (n : Nat) (x : Bw) (s : State) : (bwPut n x s).io = s.io := rfl
@[simp] theorem bwPut_cont (n : Nat) (x : Bw) (s : State) : (bwPut n x s).cont = s.cont := rfl
@[simp] theorem bwPut_clk (n : Nat) (x : Bw) (s : State) : (bwPut n x s).clk = s.clk := rfl
@[simp] theorem bwPut_start (n : Nat) (x : Bw) (s : State) : (bwPut n x s).start = s.start := rfl
@[simp] theorem bwPut_net (n : Nat) (x : Bw) (s : State) : (bwPut n x s).net = s.net := rfl
@[simp] theorem bwPut_pipe (n : Nat) (x : Bw) (s : State) : (bwPut n x s).pipe = s.pipe := rfl
@[simp] theorem bwPut_tabs (n : Nat) (x : Bw) (s : State) : (bwPut n x s).tabs = s.tabs := rfl
@[simp] theorem bwPut_burin (n : Nat) (x : Bw) (s : State) : (bwPut n x s).burin = s.burin := rfl
@[simp] theorem bwPut_dom (n : Nat) (x : Bw) (s : State) : (bwPut n x s).dom = s.dom := rfl
@[simp] theorem bwPut_mem (n : Nat) (x : Bw) (s : State) : (bwPut n x s).mem = s.mem := rfl
@[simp] theorem bwPut_le (n : Nat) (x : Bw) (s : State) : (bwPut n x s).le = s.le := rfl
@[simp] theorem bwPut_dma (n : Nat) (x : Bw) (s : State) : (bwPut n x s).dma = s.dma := rfl
@[simp] theorem bwPut_rdma (n : Nat) (x : Bw) (s : State) : (bwPut n x s).rdma = s.rdma := rfl
@[simp] theorem bwPut_nvme (n : Nat) (x : Bw) (s : State) : (bwPut n x s).nvme = s.nvme := rfl
@[simp] theorem bwPut_store (n : Nat) (x : Bw) (s : State) : (bwPut n x s).store = s.store := rfl
@[simp] theorem bwPut_drives (n : Nat) (x : Bw) (s : State) : (bwPut n x s).drives = s.drives := rfl
@[simp] theorem bwPut_mon (n : Nat) (x : Bw) (s : State) : (bwPut n x s).mon = s.mon := rfl
@[simp] theorem bwPut_boot (n : Nat) (x : Bw) (s : State) : (bwPut n x s).boot = s.boot := rfl
@[simp] theorem bwPut_dbg (n : Nat) (x : Bw) (s : State) : (bwPut n x s).dbg = s.dbg := rfl

/-! ### `lePut` alters only le -/

@[simp] theorem lePut_pending (n : Nat) (x : LeUnit) (s : State) : (lePut n x s).pending = s.pending := rfl
@[simp] theorem lePut_io (n : Nat) (x : LeUnit) (s : State) : (lePut n x s).io = s.io := rfl
@[simp] theorem lePut_cont (n : Nat) (x : LeUnit) (s : State) : (lePut n x s).cont = s.cont := rfl
@[simp] theorem lePut_clk (n : Nat) (x : LeUnit) (s : State) : (lePut n x s).clk = s.clk := rfl
@[simp] theorem lePut_start (n : Nat) (x : LeUnit) (s : State) : (lePut n x s).start = s.start := rfl
@[simp] theorem lePut_net (n : Nat) (x : LeUnit) (s : State) : (lePut n x s).net = s.net := rfl
@[simp] theorem lePut_pipe (n : Nat) (x : LeUnit) (s : State) : (lePut n x s).pipe = s.pipe := rfl
@[simp] theorem lePut_tabs (n : Nat) (x : LeUnit) (s : State) : (lePut n x s).tabs = s.tabs := rfl
@[simp] theorem lePut_burin (n : Nat) (x : LeUnit) (s : State) : (lePut n x s).burin = s.burin := rfl
@[simp] theorem lePut_dom (n : Nat) (x : LeUnit) (s : State) : (lePut n x s).dom = s.dom := rfl
@[simp] theorem lePut_mem (n : Nat) (x : LeUnit) (s : State) : (lePut n x s).mem = s.mem := rfl
@[simp] theorem lePut_cpu (n : Nat) (x : LeUnit) (s : State) : (lePut n x s).cpu = s.cpu := rfl
@[simp] theorem lePut_dma (n : Nat) (x : LeUnit) (s : State) : (lePut n x s).dma = s.dma := rfl
@[simp] theorem lePut_rdma (n : Nat) (x : LeUnit) (s : State) : (lePut n x s).rdma = s.rdma := rfl
@[simp] theorem lePut_nvme (n : Nat) (x : LeUnit) (s : State) : (lePut n x s).nvme = s.nvme := rfl
@[simp] theorem lePut_store (n : Nat) (x : LeUnit) (s : State) : (lePut n x s).store = s.store := rfl
@[simp] theorem lePut_drives (n : Nat) (x : LeUnit) (s : State) : (lePut n x s).drives = s.drives := rfl
@[simp] theorem lePut_mon (n : Nat) (x : LeUnit) (s : State) : (lePut n x s).mon = s.mon := rfl
@[simp] theorem lePut_boot (n : Nat) (x : LeUnit) (s : State) : (lePut n x s).boot = s.boot := rfl
@[simp] theorem lePut_dbg (n : Nat) (x : LeUnit) (s : State) : (lePut n x s).dbg = s.dbg := rfl

/-! ### `lockPut` alters only le -/

@[simp] theorem lockPut_pending (b n : Nat) (x : Lock) (s : State) : (lockPut b n x s).pending = s.pending := rfl
@[simp] theorem lockPut_io (b n : Nat) (x : Lock) (s : State) : (lockPut b n x s).io = s.io := rfl
@[simp] theorem lockPut_cont (b n : Nat) (x : Lock) (s : State) : (lockPut b n x s).cont = s.cont := rfl
@[simp] theorem lockPut_clk (b n : Nat) (x : Lock) (s : State) : (lockPut b n x s).clk = s.clk := rfl
@[simp] theorem lockPut_start (b n : Nat) (x : Lock) (s : State) : (lockPut b n x s).start = s.start := rfl
@[simp] theorem lockPut_net (b n : Nat) (x : Lock) (s : State) : (lockPut b n x s).net = s.net := rfl
@[simp] theorem lockPut_pipe (b n : Nat) (x : Lock) (s : State) : (lockPut b n x s).pipe = s.pipe := rfl
@[simp] theorem lockPut_tabs (b n : Nat) (x : Lock) (s : State) : (lockPut b n x s).tabs = s.tabs := rfl
@[simp] theorem lockPut_burin (b n : Nat) (x : Lock) (s : State) : (lockPut b n x s).burin = s.burin := rfl
@[simp] theorem lockPut_dom (b n : Nat) (x : Lock) (s : State) : (lockPut b n x s).dom = s.dom := rfl
@[simp] theorem lockPut_mem (b n : Nat) (x : Lock) (s : State) : (lockPut b n x s).mem = s.mem := rfl
@[simp] theorem lockPut_cpu (b n : Nat) (x : Lock) (s : State) : (lockPut b n x s).cpu = s.cpu := rfl
@[simp] theorem lockPut_dma (b n : Nat) (x : Lock) (s : State) : (lockPut b n x s).dma = s.dma := rfl
@[simp] theorem lockPut_rdma (b n : Nat) (x : Lock) (s : State) : (lockPut b n x s).rdma = s.rdma := rfl
@[simp] theorem lockPut_nvme (b n : Nat) (x : Lock) (s : State) : (lockPut b n x s).nvme = s.nvme := rfl
@[simp] theorem lockPut_store (b n : Nat) (x : Lock) (s : State) : (lockPut b n x s).store = s.store := rfl
@[simp] theorem lockPut_drives (b n : Nat) (x : Lock) (s : State) : (lockPut b n x s).drives = s.drives := rfl
@[simp] theorem lockPut_mon (b n : Nat) (x : Lock) (s : State) : (lockPut b n x s).mon = s.mon := rfl
@[simp] theorem lockPut_boot (b n : Nat) (x : Lock) (s : State) : (lockPut b n x s).boot = s.boot := rfl
@[simp] theorem lockPut_dbg (b n : Nat) (x : Lock) (s : State) : (lockPut b n x s).dbg = s.dbg := rfl

/-! ### `chanPut` alters only le -/

@[simp] theorem chanPut_pending (b n : Nat) (x : Chan) (s : State) : (chanPut b n x s).pending = s.pending := rfl
@[simp] theorem chanPut_io (b n : Nat) (x : Chan) (s : State) : (chanPut b n x s).io = s.io := rfl
@[simp] theorem chanPut_cont (b n : Nat) (x : Chan) (s : State) : (chanPut b n x s).cont = s.cont := rfl
@[simp] theorem chanPut_clk (b n : Nat) (x : Chan) (s : State) : (chanPut b n x s).clk = s.clk := rfl
@[simp] theorem chanPut_start (b n : Nat) (x : Chan) (s : State) : (chanPut b n x s).start = s.start := rfl
@[simp] theorem chanPut_net (b n : Nat) (x : Chan) (s : State) : (chanPut b n x s).net = s.net := rfl
@[simp] theorem chanPut_pipe (b n : Nat) (x : Chan) (s : State) : (chanPut b n x s).pipe = s.pipe := rfl
@[simp] theorem chanPut_tabs (b n : Nat) (x : Chan) (s : State) : (chanPut b n x s).tabs = s.tabs := rfl
@[simp] theorem chanPut_burin (b n : Nat) (x : Chan) (s : State) : (chanPut b n x s).burin = s.burin := rfl
@[simp] theorem chanPut_dom (b n : Nat) (x : Chan) (s : State) : (chanPut b n x s).dom = s.dom := rfl
@[simp] theorem chanPut_mem (b n : Nat) (x : Chan) (s : State) : (chanPut b n x s).mem = s.mem := rfl
@[simp] theorem chanPut_cpu (b n : Nat) (x : Chan) (s : State) : (chanPut b n x s).cpu = s.cpu := rfl
@[simp] theorem chanPut_dma (b n : Nat) (x : Chan) (s : State) : (chanPut b n x s).dma = s.dma := rfl
@[simp] theorem chanPut_rdma (b n : Nat) (x : Chan) (s : State) : (chanPut b n x s).rdma = s.rdma := rfl
@[simp] theorem chanPut_nvme (b n : Nat) (x : Chan) (s : State) : (chanPut b n x s).nvme = s.nvme := rfl
@[simp] theorem chanPut_store (b n : Nat) (x : Chan) (s : State) : (chanPut b n x s).store = s.store := rfl
@[simp] theorem chanPut_drives (b n : Nat) (x : Chan) (s : State) : (chanPut b n x s).drives = s.drives := rfl
@[simp] theorem chanPut_mon (b n : Nat) (x : Chan) (s : State) : (chanPut b n x s).mon = s.mon := rfl
@[simp] theorem chanPut_boot (b n : Nat) (x : Chan) (s : State) : (chanPut b n x s).boot = s.boot := rfl
@[simp] theorem chanPut_dbg (b n : Nat) (x : Chan) (s : State) : (chanPut b n x s).dbg = s.dbg := rfl

/-! ### `dmaPut` alters only dma -/

@[simp] theorem dmaPut_pending (n : Nat) (x : DmaEng) (s : State) : (dmaPut n x s).pending = s.pending := rfl
@[simp] theorem dmaPut_io (n : Nat) (x : DmaEng) (s : State) : (dmaPut n x s).io = s.io := rfl
@[simp] theorem dmaPut_cont (n : Nat) (x : DmaEng) (s : State) : (dmaPut n x s).cont = s.cont := rfl
@[simp] theorem dmaPut_clk (n : Nat) (x : DmaEng) (s : State) : (dmaPut n x s).clk = s.clk := rfl
@[simp] theorem dmaPut_start (n : Nat) (x : DmaEng) (s : State) : (dmaPut n x s).start = s.start := rfl
@[simp] theorem dmaPut_net (n : Nat) (x : DmaEng) (s : State) : (dmaPut n x s).net = s.net := rfl
@[simp] theorem dmaPut_pipe (n : Nat) (x : DmaEng) (s : State) : (dmaPut n x s).pipe = s.pipe := rfl
@[simp] theorem dmaPut_tabs (n : Nat) (x : DmaEng) (s : State) : (dmaPut n x s).tabs = s.tabs := rfl
@[simp] theorem dmaPut_burin (n : Nat) (x : DmaEng) (s : State) : (dmaPut n x s).burin = s.burin := rfl
@[simp] theorem dmaPut_dom (n : Nat) (x : DmaEng) (s : State) : (dmaPut n x s).dom = s.dom := rfl
@[simp] theorem dmaPut_mem (n : Nat) (x : DmaEng) (s : State) : (dmaPut n x s).mem = s.mem := rfl
@[simp] theorem dmaPut_cpu (n : Nat) (x : DmaEng) (s : State) : (dmaPut n x s).cpu = s.cpu := rfl
@[simp] theorem dmaPut_le (n : Nat) (x : DmaEng) (s : State) : (dmaPut n x s).le = s.le := rfl
@[simp] theorem dmaPut_rdma (n : Nat) (x : DmaEng) (s : State) : (dmaPut n x s).rdma = s.rdma := rfl
@[simp] theorem dmaPut_nvme (n : Nat) (x : DmaEng) (s : State) : (dmaPut n x s).nvme = s.nvme := rfl
@[simp] theorem dmaPut_store (n : Nat) (x : DmaEng) (s : State) : (dmaPut n x s).store = s.store := rfl
@[simp] theorem dmaPut_drives (n : Nat) (x : DmaEng) (s : State) : (dmaPut n x s).drives = s.drives := rfl
@[simp] theorem dmaPut_mon (n : Nat) (x : DmaEng) (s : State) : (dmaPut n x s).mon = s.mon := rfl
@[simp] theorem dmaPut_boot (n : Nat) (x : DmaEng) (s : State) : (dmaPut n x s).boot = s.boot := rfl
@[simp] theorem dmaPut_dbg (n : Nat) (x : DmaEng) (s : State) : (dmaPut n x s).dbg = s.dbg := rfl

/-! ### `dmaChPut` alters only dma -/

@[simp] theorem dmaChPut_pending (r n : Nat) (x : DmaCh) (s : State) : (dmaChPut r n x s).pending = s.pending := rfl
@[simp] theorem dmaChPut_io (r n : Nat) (x : DmaCh) (s : State) : (dmaChPut r n x s).io = s.io := rfl
@[simp] theorem dmaChPut_cont (r n : Nat) (x : DmaCh) (s : State) : (dmaChPut r n x s).cont = s.cont := rfl
@[simp] theorem dmaChPut_clk (r n : Nat) (x : DmaCh) (s : State) : (dmaChPut r n x s).clk = s.clk := rfl
@[simp] theorem dmaChPut_start (r n : Nat) (x : DmaCh) (s : State) : (dmaChPut r n x s).start = s.start := rfl
@[simp] theorem dmaChPut_net (r n : Nat) (x : DmaCh) (s : State) : (dmaChPut r n x s).net = s.net := rfl
@[simp] theorem dmaChPut_pipe (r n : Nat) (x : DmaCh) (s : State) : (dmaChPut r n x s).pipe = s.pipe := rfl
@[simp] theorem dmaChPut_tabs (r n : Nat) (x : DmaCh) (s : State) : (dmaChPut r n x s).tabs = s.tabs := rfl
@[simp] theorem dmaChPut_burin (r n : Nat) (x : DmaCh) (s : State) : (dmaChPut r n x s).burin = s.burin := rfl
@[simp] theorem dmaChPut_dom (r n : Nat) (x : DmaCh) (s : State) : (dmaChPut r n x s).dom = s.dom := rfl
@[simp] theorem dmaChPut_mem (r n : Nat) (x : DmaCh) (s : State) : (dmaChPut r n x s).mem = s.mem := rfl
@[simp] theorem dmaChPut_cpu (r n : Nat) (x : DmaCh) (s : State) : (dmaChPut r n x s).cpu = s.cpu := rfl
@[simp] theorem dmaChPut_le (r n : Nat) (x : DmaCh) (s : State) : (dmaChPut r n x s).le = s.le := rfl
@[simp] theorem dmaChPut_rdma (r n : Nat) (x : DmaCh) (s : State) : (dmaChPut r n x s).rdma = s.rdma := rfl
@[simp] theorem dmaChPut_nvme (r n : Nat) (x : DmaCh) (s : State) : (dmaChPut r n x s).nvme = s.nvme := rfl
@[simp] theorem dmaChPut_store (r n : Nat) (x : DmaCh) (s : State) : (dmaChPut r n x s).store = s.store := rfl
@[simp] theorem dmaChPut_drives (r n : Nat) (x : DmaCh) (s : State) : (dmaChPut r n x s).drives = s.drives := rfl
@[simp] theorem dmaChPut_mon (r n : Nat) (x : DmaCh) (s : State) : (dmaChPut r n x s).mon = s.mon := rfl
@[simp] theorem dmaChPut_boot (r n : Nat) (x : DmaCh) (s : State) : (dmaChPut r n x s).boot = s.boot := rfl
@[simp] theorem dmaChPut_dbg (r n : Nat) (x : DmaCh) (s : State) : (dmaChPut r n x s).dbg = s.dbg := rfl

/-! ### `laPut` alters only burin -/

@[simp] theorem laPut_pending (r n : Nat) (x : LaQueue) (s : State) : (laPut r n x s).pending = s.pending := rfl
@[simp] theorem laPut_io (r n : Nat) (x : LaQueue) (s : State) : (laPut r n x s).io = s.io := rfl
@[simp] theorem laPut_cont (r n : Nat) (x : LaQueue) (s : State) : (laPut r n x s).cont = s.cont := rfl
@[simp] theorem laPut_clk (r n : Nat) (x : LaQueue) (s : State) : (laPut r n x s).clk = s.clk := rfl
@[simp] theorem laPut_start (r n : Nat) (x : LaQueue) (s : State) : (laPut r n x s).start = s.start := rfl
@[simp] theorem laPut_net (r n : Nat) (x : LaQueue) (s : State) : (laPut r n x s).net = s.net := rfl
@[simp] theorem laPut_pipe (r n : Nat) (x : LaQueue) (s : State) : (laPut r n x s).pipe = s.pipe := rfl
@[simp] theorem laPut_tabs (r n : Nat) (x : LaQueue) (s : State) : (laPut r n x s).tabs = s.tabs := rfl
@[simp] theorem laPut_dom (r n : Nat) (x : LaQueue) (s : State) : (laPut r n x s).dom = s.dom := rfl
@[simp] theorem laPut_mem (r n : Nat) (x : LaQueue) (s : State) : (laPut r n x s).mem = s.mem := rfl
@[simp] theorem laPut_cpu (r n : Nat) (x : LaQueue) (s : State) : (laPut r n x s).cpu = s.cpu := rfl
@[simp] theorem laPut_le (r n : Nat) (x : LaQueue) (s : State) : (laPut r n x s).le = s.le := rfl
@[simp] theorem laPut_dma (r n : Nat) (x : LaQueue) (s : State) : (laPut r n x s).dma = s.dma := rfl
@[simp] theorem laPut_rdma (r n : Nat) (x : LaQueue) (s : State) : (laPut r n x s).rdma = s.rdma := rfl
@[simp] theorem laPut_nvme (r n : Nat) (x : LaQueue) (s : State) : (laPut r n x s).nvme = s.nvme := rfl
@[simp] theorem laPut_store (r n : Nat) (x : LaQueue) (s : State) : (laPut r n x s).store = s.store := rfl
@[simp] theorem laPut_drives (r n : Nat) (x : LaQueue) (s : State) : (laPut r n x s).drives = s.drives := rfl
@[simp] theorem laPut_mon (r n : Nat) (x : LaQueue) (s : State) : (laPut r n x s).mon = s.mon := rfl
@[simp] theorem laPut_boot (r n : Nat) (x : LaQueue) (s : State) : (laPut r n x s).boot = s.boot := rfl
@[simp] theorem laPut_dbg (r n : Nat) (x : LaQueue) (s : State) : (laPut r n x s).dbg = s.dbg := rfl

/-! ### `qpPut` alters only rdma -/

@[simp] theorem qpPut_pending (n : Nat) (x : Qp) (s : State) : (qpPut n x s).pending = s.pending := rfl
@[simp] theorem qpPut_io (n : Nat) (x : Qp) (s : State) : (qpPut n x s).io = s.io := rfl
@[simp] theorem qpPut_cont (n : Nat) (x : Qp) (s : State) : (qpPut n x s).cont = s.cont := rfl
@[simp] theorem qpPut_clk (n : Nat) (x : Qp) (s : State) : (qpPut n x s).clk = s.clk := rfl
@[simp] theorem qpPut_start (n : Nat) (x : Qp) (s : State) : (qpPut n x s).start = s.start := rfl
@[simp] theorem qpPut_net (n : Nat) (x : Qp) (s : State) : (qpPut n x s).net = s.net := rfl
@[simp] theorem qpPut_pipe (n : Nat) (x : Qp) (s : State) : (qpPut n x s).pipe = s.pipe := rfl
@[simp] theorem qpPut_tabs (n : Nat) (x : Qp) (s : State) : (qpPut n x s).tabs = s.tabs := rfl
@[simp] theorem qpPut_burin (n : Nat) (x : Qp) (s : State) : (qpPut n x s).burin = s.burin := rfl
@[simp] theorem qpPut_dom (n : Nat) (x : Qp) (s : State) : (qpPut n x s).dom = s.dom := rfl
@[simp] theorem qpPut_mem (n : Nat) (x : Qp) (s : State) : (qpPut n x s).mem = s.mem := rfl
@[simp] theorem qpPut_cpu (n : Nat) (x : Qp) (s : State) : (qpPut n x s).cpu = s.cpu := rfl
@[simp] theorem qpPut_le (n : Nat) (x : Qp) (s : State) : (qpPut n x s).le = s.le := rfl
@[simp] theorem qpPut_dma (n : Nat) (x : Qp) (s : State) : (qpPut n x s).dma = s.dma := rfl
@[simp] theorem qpPut_nvme (n : Nat) (x : Qp) (s : State) : (qpPut n x s).nvme = s.nvme := rfl
@[simp] theorem qpPut_store (n : Nat) (x : Qp) (s : State) : (qpPut n x s).store = s.store := rfl
@[simp] theorem qpPut_drives (n : Nat) (x : Qp) (s : State) : (qpPut n x s).drives = s.drives := rfl
@[simp] theorem qpPut_mon (n : Nat) (x : Qp) (s : State) : (qpPut n x s).mon = s.mon := rfl
@[simp] theorem qpPut_boot (n : Nat) (x : Qp) (s : State) : (qpPut n x s).boot = s.boot := rfl
@[simp] theorem qpPut_dbg (n : Nat) (x : Qp) (s : State) : (qpPut n x s).dbg = s.dbg := rfl

/-! ### `ctlPut` alters only nvme -/

@[simp] theorem ctlPut_pending (n : Nat) (x : NvCtl) (s : State) : (ctlPut n x s).pending = s.pending := rfl
@[simp] theorem ctlPut_io (n : Nat) (x : NvCtl) (s : State) : (ctlPut n x s).io = s.io := rfl
@[simp] theorem ctlPut_cont (n : Nat) (x : NvCtl) (s : State) : (ctlPut n x s).cont = s.cont := rfl
@[simp] theorem ctlPut_clk (n : Nat) (x : NvCtl) (s : State) : (ctlPut n x s).clk = s.clk := rfl
@[simp] theorem ctlPut_start (n : Nat) (x : NvCtl) (s : State) : (ctlPut n x s).start = s.start := rfl
@[simp] theorem ctlPut_net (n : Nat) (x : NvCtl) (s : State) : (ctlPut n x s).net = s.net := rfl
@[simp] theorem ctlPut_pipe (n : Nat) (x : NvCtl) (s : State) : (ctlPut n x s).pipe = s.pipe := rfl
@[simp] theorem ctlPut_tabs (n : Nat) (x : NvCtl) (s : State) : (ctlPut n x s).tabs = s.tabs := rfl
@[simp] theorem ctlPut_burin (n : Nat) (x : NvCtl) (s : State) : (ctlPut n x s).burin = s.burin := rfl
@[simp] theorem ctlPut_dom (n : Nat) (x : NvCtl) (s : State) : (ctlPut n x s).dom = s.dom := rfl
@[simp] theorem ctlPut_mem (n : Nat) (x : NvCtl) (s : State) : (ctlPut n x s).mem = s.mem := rfl
@[simp] theorem ctlPut_cpu (n : Nat) (x : NvCtl) (s : State) : (ctlPut n x s).cpu = s.cpu := rfl
@[simp] theorem ctlPut_le (n : Nat) (x : NvCtl) (s : State) : (ctlPut n x s).le = s.le := rfl
@[simp] theorem ctlPut_dma (n : Nat) (x : NvCtl) (s : State) : (ctlPut n x s).dma = s.dma := rfl
@[simp] theorem ctlPut_rdma (n : Nat) (x : NvCtl) (s : State) : (ctlPut n x s).rdma = s.rdma := rfl
@[simp] theorem ctlPut_store (n : Nat) (x : NvCtl) (s : State) : (ctlPut n x s).store = s.store := rfl
@[simp] theorem ctlPut_drives (n : Nat) (x : NvCtl) (s : State) : (ctlPut n x s).drives = s.drives := rfl
@[simp] theorem ctlPut_mon (n : Nat) (x : NvCtl) (s : State) : (ctlPut n x s).mon = s.mon := rfl
@[simp] theorem ctlPut_boot (n : Nat) (x : NvCtl) (s : State) : (ctlPut n x s).boot = s.boot := rfl
@[simp] theorem ctlPut_dbg (n : Nat) (x : NvCtl) (s : State) : (ctlPut n x s).dbg = s.dbg := rfl

/-! ### `cmdPut` alters only nvme -/

@[simp] theorem cmdPut_pending (n : Nat) (x : NvCmd) (s : State) : (cmdPut n x s).pending = s.pending := rfl
@[simp] theorem cmdPut_io (n : Nat) (x : NvCmd) (s : State) : (cmdPut n x s).io = s.io := rfl
@[simp] theorem cmdPut_cont (n : Nat) (x : NvCmd) (s : State) : (cmdPut n x s).cont = s.cont := rfl
@[simp] theorem cmdPut_clk (n : Nat) (x : NvCmd) (s : State) : (cmdPut n x s).clk = s.clk := rfl
@[simp] theorem cmdPut_start (n : Nat) (x : NvCmd) (s : State) : (cmdPut n x s).start = s.start := rfl
@[simp] theorem cmdPut_net (n : Nat) (x : NvCmd) (s : State) : (cmdPut n x s).net = s.net := rfl
@[simp] theorem cmdPut_pipe (n : Nat) (x : NvCmd) (s : State) : (cmdPut n x s).pipe = s.pipe := rfl
@[simp] theorem cmdPut_tabs (n : Nat) (x : NvCmd) (s : State) : (cmdPut n x s).tabs = s.tabs := rfl
@[simp] theorem cmdPut_burin (n : Nat) (x : NvCmd) (s : State) : (cmdPut n x s).burin = s.burin := rfl
@[simp] theorem cmdPut_dom (n : Nat) (x : NvCmd) (s : State) : (cmdPut n x s).dom = s.dom := rfl
@[simp] theorem cmdPut_mem (n : Nat) (x : NvCmd) (s : State) : (cmdPut n x s).mem = s.mem := rfl
@[simp] theorem cmdPut_cpu (n : Nat) (x : NvCmd) (s : State) : (cmdPut n x s).cpu = s.cpu := rfl
@[simp] theorem cmdPut_le (n : Nat) (x : NvCmd) (s : State) : (cmdPut n x s).le = s.le := rfl
@[simp] theorem cmdPut_dma (n : Nat) (x : NvCmd) (s : State) : (cmdPut n x s).dma = s.dma := rfl
@[simp] theorem cmdPut_rdma (n : Nat) (x : NvCmd) (s : State) : (cmdPut n x s).rdma = s.rdma := rfl
@[simp] theorem cmdPut_store (n : Nat) (x : NvCmd) (s : State) : (cmdPut n x s).store = s.store := rfl
@[simp] theorem cmdPut_drives (n : Nat) (x : NvCmd) (s : State) : (cmdPut n x s).drives = s.drives := rfl
@[simp] theorem cmdPut_mon (n : Nat) (x : NvCmd) (s : State) : (cmdPut n x s).mon = s.mon := rfl
@[simp] theorem cmdPut_boot (n : Nat) (x : NvCmd) (s : State) : (cmdPut n x s).boot = s.boot := rfl
@[simp] theorem cmdPut_dbg (n : Nat) (x : NvCmd) (s : State) : (cmdPut n x s).dbg = s.dbg := rfl

/-! ### `nsPut` alters only store -/

@[simp] theorem nsPut_pending (n : Nat) (x : Ns) (s : State) : (nsPut n x s).pending = s.pending := rfl
@[simp] theorem nsPut_io (n : Nat) (x : Ns) (s : State) : (nsPut n x s).io = s.io := rfl
@[simp] theorem nsPut_cont (n : Nat) (x : Ns) (s : State) : (nsPut n x s).cont = s.cont := rfl
@[simp] theorem nsPut_clk (n : Nat) (x : Ns) (s : State) : (nsPut n x s).clk = s.clk := rfl
@[simp] theorem nsPut_start (n : Nat) (x : Ns) (s : State) : (nsPut n x s).start = s.start := rfl
@[simp] theorem nsPut_net (n : Nat) (x : Ns) (s : State) : (nsPut n x s).net = s.net := rfl
@[simp] theorem nsPut_pipe (n : Nat) (x : Ns) (s : State) : (nsPut n x s).pipe = s.pipe := rfl
@[simp] theorem nsPut_tabs (n : Nat) (x : Ns) (s : State) : (nsPut n x s).tabs = s.tabs := rfl
@[simp] theorem nsPut_burin (n : Nat) (x : Ns) (s : State) : (nsPut n x s).burin = s.burin := rfl
@[simp] theorem nsPut_dom (n : Nat) (x : Ns) (s : State) : (nsPut n x s).dom = s.dom := rfl
@[simp] theorem nsPut_mem (n : Nat) (x : Ns) (s : State) : (nsPut n x s).mem = s.mem := rfl
@[simp] theorem nsPut_cpu (n : Nat) (x : Ns) (s : State) : (nsPut n x s).cpu = s.cpu := rfl
@[simp] theorem nsPut_le (n : Nat) (x : Ns) (s : State) : (nsPut n x s).le = s.le := rfl
@[simp] theorem nsPut_dma (n : Nat) (x : Ns) (s : State) : (nsPut n x s).dma = s.dma := rfl
@[simp] theorem nsPut_rdma (n : Nat) (x : Ns) (s : State) : (nsPut n x s).rdma = s.rdma := rfl
@[simp] theorem nsPut_nvme (n : Nat) (x : Ns) (s : State) : (nsPut n x s).nvme = s.nvme := rfl
@[simp] theorem nsPut_drives (n : Nat) (x : Ns) (s : State) : (nsPut n x s).drives = s.drives := rfl
@[simp] theorem nsPut_mon (n : Nat) (x : Ns) (s : State) : (nsPut n x s).mon = s.mon := rfl
@[simp] theorem nsPut_boot (n : Nat) (x : Ns) (s : State) : (nsPut n x s).boot = s.boot := rfl
@[simp] theorem nsPut_dbg (n : Nat) (x : Ns) (s : State) : (nsPut n x s).dbg = s.dbg := rfl

/-! ### `bePut` alters only store -/

@[simp] theorem bePut_pending (n : Nat) (x : Be) (s : State) : (bePut n x s).pending = s.pending := rfl
@[simp] theorem bePut_io (n : Nat) (x : Be) (s : State) : (bePut n x s).io = s.io := rfl
@[simp] theorem bePut_cont (n : Nat) (x : Be) (s : State) : (bePut n x s).cont = s.cont := rfl
@[simp] theorem bePut_clk (n : Nat) (x : Be) (s : State) : (bePut n x s).clk = s.clk := rfl
@[simp] theorem bePut_start (n : Nat) (x : Be) (s : State) : (bePut n x s).start = s.start := rfl
@[simp] theorem bePut_net (n : Nat) (x : Be) (s : State) : (bePut n x s).net = s.net := rfl
@[simp] theorem bePut_pipe (n : Nat) (x : Be) (s : State) : (bePut n x s).pipe = s.pipe := rfl
@[simp] theorem bePut_tabs (n : Nat) (x : Be) (s : State) : (bePut n x s).tabs = s.tabs := rfl
@[simp] theorem bePut_burin (n : Nat) (x : Be) (s : State) : (bePut n x s).burin = s.burin := rfl
@[simp] theorem bePut_dom (n : Nat) (x : Be) (s : State) : (bePut n x s).dom = s.dom := rfl
@[simp] theorem bePut_mem (n : Nat) (x : Be) (s : State) : (bePut n x s).mem = s.mem := rfl
@[simp] theorem bePut_cpu (n : Nat) (x : Be) (s : State) : (bePut n x s).cpu = s.cpu := rfl
@[simp] theorem bePut_le (n : Nat) (x : Be) (s : State) : (bePut n x s).le = s.le := rfl
@[simp] theorem bePut_dma (n : Nat) (x : Be) (s : State) : (bePut n x s).dma = s.dma := rfl
@[simp] theorem bePut_rdma (n : Nat) (x : Be) (s : State) : (bePut n x s).rdma = s.rdma := rfl
@[simp] theorem bePut_nvme (n : Nat) (x : Be) (s : State) : (bePut n x s).nvme = s.nvme := rfl
@[simp] theorem bePut_drives (n : Nat) (x : Be) (s : State) : (bePut n x s).drives = s.drives := rfl
@[simp] theorem bePut_mon (n : Nat) (x : Be) (s : State) : (bePut n x s).mon = s.mon := rfl
@[simp] theorem bePut_boot (n : Nat) (x : Be) (s : State) : (bePut n x s).boot = s.boot := rfl
@[simp] theorem bePut_dbg (n : Nat) (x : Be) (s : State) : (bePut n x s).dbg = s.dbg := rfl

/-! ### `wilPut` alters only store -/

@[simp] theorem wilPut_pending (n : Nat) (x : Wil) (s : State) : (wilPut n x s).pending = s.pending := rfl
@[simp] theorem wilPut_io (n : Nat) (x : Wil) (s : State) : (wilPut n x s).io = s.io := rfl
@[simp] theorem wilPut_cont (n : Nat) (x : Wil) (s : State) : (wilPut n x s).cont = s.cont := rfl
@[simp] theorem wilPut_clk (n : Nat) (x : Wil) (s : State) : (wilPut n x s).clk = s.clk := rfl
@[simp] theorem wilPut_start (n : Nat) (x : Wil) (s : State) : (wilPut n x s).start = s.start := rfl
@[simp] theorem wilPut_net (n : Nat) (x : Wil) (s : State) : (wilPut n x s).net = s.net := rfl
@[simp] theorem wilPut_pipe (n : Nat) (x : Wil) (s : State) : (wilPut n x s).pipe = s.pipe := rfl
@[simp] theorem wilPut_tabs (n : Nat) (x : Wil) (s : State) : (wilPut n x s).tabs = s.tabs := rfl
@[simp] theorem wilPut_burin (n : Nat) (x : Wil) (s : State) : (wilPut n x s).burin = s.burin := rfl
@[simp] theorem wilPut_dom (n : Nat) (x : Wil) (s : State) : (wilPut n x s).dom = s.dom := rfl
@[simp] theorem wilPut_mem (n : Nat) (x : Wil) (s : State) : (wilPut n x s).mem = s.mem := rfl
@[simp] theorem wilPut_cpu (n : Nat) (x : Wil) (s : State) : (wilPut n x s).cpu = s.cpu := rfl
@[simp] theorem wilPut_le (n : Nat) (x : Wil) (s : State) : (wilPut n x s).le = s.le := rfl
@[simp] theorem wilPut_dma (n : Nat) (x : Wil) (s : State) : (wilPut n x s).dma = s.dma := rfl
@[simp] theorem wilPut_rdma (n : Nat) (x : Wil) (s : State) : (wilPut n x s).rdma = s.rdma := rfl
@[simp] theorem wilPut_nvme (n : Nat) (x : Wil) (s : State) : (wilPut n x s).nvme = s.nvme := rfl
@[simp] theorem wilPut_drives (n : Nat) (x : Wil) (s : State) : (wilPut n x s).drives = s.drives := rfl
@[simp] theorem wilPut_mon (n : Nat) (x : Wil) (s : State) : (wilPut n x s).mon = s.mon := rfl
@[simp] theorem wilPut_boot (n : Nat) (x : Wil) (s : State) : (wilPut n x s).boot = s.boot := rfl
@[simp] theorem wilPut_dbg (n : Nat) (x : Wil) (s : State) : (wilPut n x s).dbg = s.dbg := rfl

/-! ### `verPut` alters only store -/

@[simp] theorem verPut_pending (x : SealVer) (s : State) : (verPut x s).pending = s.pending := rfl
@[simp] theorem verPut_io (x : SealVer) (s : State) : (verPut x s).io = s.io := rfl
@[simp] theorem verPut_cont (x : SealVer) (s : State) : (verPut x s).cont = s.cont := rfl
@[simp] theorem verPut_clk (x : SealVer) (s : State) : (verPut x s).clk = s.clk := rfl
@[simp] theorem verPut_start (x : SealVer) (s : State) : (verPut x s).start = s.start := rfl
@[simp] theorem verPut_net (x : SealVer) (s : State) : (verPut x s).net = s.net := rfl
@[simp] theorem verPut_pipe (x : SealVer) (s : State) : (verPut x s).pipe = s.pipe := rfl
@[simp] theorem verPut_tabs (x : SealVer) (s : State) : (verPut x s).tabs = s.tabs := rfl
@[simp] theorem verPut_burin (x : SealVer) (s : State) : (verPut x s).burin = s.burin := rfl
@[simp] theorem verPut_dom (x : SealVer) (s : State) : (verPut x s).dom = s.dom := rfl
@[simp] theorem verPut_mem (x : SealVer) (s : State) : (verPut x s).mem = s.mem := rfl
@[simp] theorem verPut_cpu (x : SealVer) (s : State) : (verPut x s).cpu = s.cpu := rfl
@[simp] theorem verPut_le (x : SealVer) (s : State) : (verPut x s).le = s.le := rfl
@[simp] theorem verPut_dma (x : SealVer) (s : State) : (verPut x s).dma = s.dma := rfl
@[simp] theorem verPut_rdma (x : SealVer) (s : State) : (verPut x s).rdma = s.rdma := rfl
@[simp] theorem verPut_nvme (x : SealVer) (s : State) : (verPut x s).nvme = s.nvme := rfl
@[simp] theorem verPut_drives (x : SealVer) (s : State) : (verPut x s).drives = s.drives := rfl
@[simp] theorem verPut_mon (x : SealVer) (s : State) : (verPut x s).mon = s.mon := rfl
@[simp] theorem verPut_boot (x : SealVer) (s : State) : (verPut x s).boot = s.boot := rfl
@[simp] theorem verPut_dbg (x : SealVer) (s : State) : (verPut x s).dbg = s.dbg := rfl

/-! ### `bayPut` alters only drives -/

@[simp] theorem bayPut_pending (n : Nat) (x : Slot) (s : State) : (bayPut n x s).pending = s.pending := rfl
@[simp] theorem bayPut_io (n : Nat) (x : Slot) (s : State) : (bayPut n x s).io = s.io := rfl
@[simp] theorem bayPut_cont (n : Nat) (x : Slot) (s : State) : (bayPut n x s).cont = s.cont := rfl
@[simp] theorem bayPut_clk (n : Nat) (x : Slot) (s : State) : (bayPut n x s).clk = s.clk := rfl
@[simp] theorem bayPut_start (n : Nat) (x : Slot) (s : State) : (bayPut n x s).start = s.start := rfl
@[simp] theorem bayPut_net (n : Nat) (x : Slot) (s : State) : (bayPut n x s).net = s.net := rfl
@[simp] theorem bayPut_pipe (n : Nat) (x : Slot) (s : State) : (bayPut n x s).pipe = s.pipe := rfl
@[simp] theorem bayPut_tabs (n : Nat) (x : Slot) (s : State) : (bayPut n x s).tabs = s.tabs := rfl
@[simp] theorem bayPut_burin (n : Nat) (x : Slot) (s : State) : (bayPut n x s).burin = s.burin := rfl
@[simp] theorem bayPut_dom (n : Nat) (x : Slot) (s : State) : (bayPut n x s).dom = s.dom := rfl
@[simp] theorem bayPut_mem (n : Nat) (x : Slot) (s : State) : (bayPut n x s).mem = s.mem := rfl
@[simp] theorem bayPut_cpu (n : Nat) (x : Slot) (s : State) : (bayPut n x s).cpu = s.cpu := rfl
@[simp] theorem bayPut_le (n : Nat) (x : Slot) (s : State) : (bayPut n x s).le = s.le := rfl
@[simp] theorem bayPut_dma (n : Nat) (x : Slot) (s : State) : (bayPut n x s).dma = s.dma := rfl
@[simp] theorem bayPut_rdma (n : Nat) (x : Slot) (s : State) : (bayPut n x s).rdma = s.rdma := rfl
@[simp] theorem bayPut_nvme (n : Nat) (x : Slot) (s : State) : (bayPut n x s).nvme = s.nvme := rfl
@[simp] theorem bayPut_store (n : Nat) (x : Slot) (s : State) : (bayPut n x s).store = s.store := rfl
@[simp] theorem bayPut_mon (n : Nat) (x : Slot) (s : State) : (bayPut n x s).mon = s.mon := rfl
@[simp] theorem bayPut_boot (n : Nat) (x : Slot) (s : State) : (bayPut n x s).boot = s.boot := rfl
@[simp] theorem bayPut_dbg (n : Nat) (x : Slot) (s : State) : (bayPut n x s).dbg = s.dbg := rfl

/-! ### `shepPut` alters only mon -/

@[simp] theorem shepPut_pending (n : Nat) (x : ShepR) (s : State) : (shepPut n x s).pending = s.pending := rfl
@[simp] theorem shepPut_io (n : Nat) (x : ShepR) (s : State) : (shepPut n x s).io = s.io := rfl
@[simp] theorem shepPut_cont (n : Nat) (x : ShepR) (s : State) : (shepPut n x s).cont = s.cont := rfl
@[simp] theorem shepPut_clk (n : Nat) (x : ShepR) (s : State) : (shepPut n x s).clk = s.clk := rfl
@[simp] theorem shepPut_start (n : Nat) (x : ShepR) (s : State) : (shepPut n x s).start = s.start := rfl
@[simp] theorem shepPut_net (n : Nat) (x : ShepR) (s : State) : (shepPut n x s).net = s.net := rfl
@[simp] theorem shepPut_pipe (n : Nat) (x : ShepR) (s : State) : (shepPut n x s).pipe = s.pipe := rfl
@[simp] theorem shepPut_tabs (n : Nat) (x : ShepR) (s : State) : (shepPut n x s).tabs = s.tabs := rfl
@[simp] theorem shepPut_burin (n : Nat) (x : ShepR) (s : State) : (shepPut n x s).burin = s.burin := rfl
@[simp] theorem shepPut_dom (n : Nat) (x : ShepR) (s : State) : (shepPut n x s).dom = s.dom := rfl
@[simp] theorem shepPut_mem (n : Nat) (x : ShepR) (s : State) : (shepPut n x s).mem = s.mem := rfl
@[simp] theorem shepPut_cpu (n : Nat) (x : ShepR) (s : State) : (shepPut n x s).cpu = s.cpu := rfl
@[simp] theorem shepPut_le (n : Nat) (x : ShepR) (s : State) : (shepPut n x s).le = s.le := rfl
@[simp] theorem shepPut_dma (n : Nat) (x : ShepR) (s : State) : (shepPut n x s).dma = s.dma := rfl
@[simp] theorem shepPut_rdma (n : Nat) (x : ShepR) (s : State) : (shepPut n x s).rdma = s.rdma := rfl
@[simp] theorem shepPut_nvme (n : Nat) (x : ShepR) (s : State) : (shepPut n x s).nvme = s.nvme := rfl
@[simp] theorem shepPut_store (n : Nat) (x : ShepR) (s : State) : (shepPut n x s).store = s.store := rfl
@[simp] theorem shepPut_drives (n : Nat) (x : ShepR) (s : State) : (shepPut n x s).drives = s.drives := rfl
@[simp] theorem shepPut_boot (n : Nat) (x : ShepR) (s : State) : (shepPut n x s).boot = s.boot := rfl
@[simp] theorem shepPut_dbg (n : Nat) (x : ShepR) (s : State) : (shepPut n x s).dbg = s.dbg := rfl

/-! ### `peerPut` alters only dom -/

@[simp] theorem peerPut_pending (n : Nat) (x : DomPeer) (s : State) : (peerPut n x s).pending = s.pending := rfl
@[simp] theorem peerPut_io (n : Nat) (x : DomPeer) (s : State) : (peerPut n x s).io = s.io := rfl
@[simp] theorem peerPut_cont (n : Nat) (x : DomPeer) (s : State) : (peerPut n x s).cont = s.cont := rfl
@[simp] theorem peerPut_clk (n : Nat) (x : DomPeer) (s : State) : (peerPut n x s).clk = s.clk := rfl
@[simp] theorem peerPut_start (n : Nat) (x : DomPeer) (s : State) : (peerPut n x s).start = s.start := rfl
@[simp] theorem peerPut_net (n : Nat) (x : DomPeer) (s : State) : (peerPut n x s).net = s.net := rfl
@[simp] theorem peerPut_pipe (n : Nat) (x : DomPeer) (s : State) : (peerPut n x s).pipe = s.pipe := rfl
@[simp] theorem peerPut_tabs (n : Nat) (x : DomPeer) (s : State) : (peerPut n x s).tabs = s.tabs := rfl
@[simp] theorem peerPut_burin (n : Nat) (x : DomPeer) (s : State) : (peerPut n x s).burin = s.burin := rfl
@[simp] theorem peerPut_mem (n : Nat) (x : DomPeer) (s : State) : (peerPut n x s).mem = s.mem := rfl
@[simp] theorem peerPut_cpu (n : Nat) (x : DomPeer) (s : State) : (peerPut n x s).cpu = s.cpu := rfl
@[simp] theorem peerPut_le (n : Nat) (x : DomPeer) (s : State) : (peerPut n x s).le = s.le := rfl
@[simp] theorem peerPut_dma (n : Nat) (x : DomPeer) (s : State) : (peerPut n x s).dma = s.dma := rfl
@[simp] theorem peerPut_rdma (n : Nat) (x : DomPeer) (s : State) : (peerPut n x s).rdma = s.rdma := rfl
@[simp] theorem peerPut_nvme (n : Nat) (x : DomPeer) (s : State) : (peerPut n x s).nvme = s.nvme := rfl
@[simp] theorem peerPut_store (n : Nat) (x : DomPeer) (s : State) : (peerPut n x s).store = s.store := rfl
@[simp] theorem peerPut_drives (n : Nat) (x : DomPeer) (s : State) : (peerPut n x s).drives = s.drives := rfl
@[simp] theorem peerPut_mon (n : Nat) (x : DomPeer) (s : State) : (peerPut n x s).mon = s.mon := rfl
@[simp] theorem peerPut_boot (n : Nat) (x : DomPeer) (s : State) : (peerPut n x s).boot = s.boot := rfl
@[simp] theorem peerPut_dbg (n : Nat) (x : DomPeer) (s : State) : (peerPut n x s).dbg = s.dbg := rfl

/-! ### `ldrPut` alters only boot -/

@[simp] theorem ldrPut_pending (x : Loader) (s : State) : (ldrPut x s).pending = s.pending := rfl
@[simp] theorem ldrPut_io (x : Loader) (s : State) : (ldrPut x s).io = s.io := rfl
@[simp] theorem ldrPut_cont (x : Loader) (s : State) : (ldrPut x s).cont = s.cont := rfl
@[simp] theorem ldrPut_clk (x : Loader) (s : State) : (ldrPut x s).clk = s.clk := rfl
@[simp] theorem ldrPut_start (x : Loader) (s : State) : (ldrPut x s).start = s.start := rfl
@[simp] theorem ldrPut_net (x : Loader) (s : State) : (ldrPut x s).net = s.net := rfl
@[simp] theorem ldrPut_pipe (x : Loader) (s : State) : (ldrPut x s).pipe = s.pipe := rfl
@[simp] theorem ldrPut_tabs (x : Loader) (s : State) : (ldrPut x s).tabs = s.tabs := rfl
@[simp] theorem ldrPut_burin (x : Loader) (s : State) : (ldrPut x s).burin = s.burin := rfl
@[simp] theorem ldrPut_dom (x : Loader) (s : State) : (ldrPut x s).dom = s.dom := rfl
@[simp] theorem ldrPut_mem (x : Loader) (s : State) : (ldrPut x s).mem = s.mem := rfl
@[simp] theorem ldrPut_cpu (x : Loader) (s : State) : (ldrPut x s).cpu = s.cpu := rfl
@[simp] theorem ldrPut_le (x : Loader) (s : State) : (ldrPut x s).le = s.le := rfl
@[simp] theorem ldrPut_dma (x : Loader) (s : State) : (ldrPut x s).dma = s.dma := rfl
@[simp] theorem ldrPut_rdma (x : Loader) (s : State) : (ldrPut x s).rdma = s.rdma := rfl
@[simp] theorem ldrPut_nvme (x : Loader) (s : State) : (ldrPut x s).nvme = s.nvme := rfl
@[simp] theorem ldrPut_store (x : Loader) (s : State) : (ldrPut x s).store = s.store := rfl
@[simp] theorem ldrPut_drives (x : Loader) (s : State) : (ldrPut x s).drives = s.drives := rfl
@[simp] theorem ldrPut_mon (x : Loader) (s : State) : (ldrPut x s).mon = s.mon := rfl
@[simp] theorem ldrPut_dbg (x : Loader) (s : State) : (ldrPut x s).dbg = s.dbg := rfl

/-! ### `pldmPut` alters only boot -/

@[simp] theorem pldmPut_pending (x : Pldm) (s : State) : (pldmPut x s).pending = s.pending := rfl
@[simp] theorem pldmPut_io (x : Pldm) (s : State) : (pldmPut x s).io = s.io := rfl
@[simp] theorem pldmPut_cont (x : Pldm) (s : State) : (pldmPut x s).cont = s.cont := rfl
@[simp] theorem pldmPut_clk (x : Pldm) (s : State) : (pldmPut x s).clk = s.clk := rfl
@[simp] theorem pldmPut_start (x : Pldm) (s : State) : (pldmPut x s).start = s.start := rfl
@[simp] theorem pldmPut_net (x : Pldm) (s : State) : (pldmPut x s).net = s.net := rfl
@[simp] theorem pldmPut_pipe (x : Pldm) (s : State) : (pldmPut x s).pipe = s.pipe := rfl
@[simp] theorem pldmPut_tabs (x : Pldm) (s : State) : (pldmPut x s).tabs = s.tabs := rfl
@[simp] theorem pldmPut_burin (x : Pldm) (s : State) : (pldmPut x s).burin = s.burin := rfl
@[simp] theorem pldmPut_dom (x : Pldm) (s : State) : (pldmPut x s).dom = s.dom := rfl
@[simp] theorem pldmPut_mem (x : Pldm) (s : State) : (pldmPut x s).mem = s.mem := rfl
@[simp] theorem pldmPut_cpu (x : Pldm) (s : State) : (pldmPut x s).cpu = s.cpu := rfl
@[simp] theorem pldmPut_le (x : Pldm) (s : State) : (pldmPut x s).le = s.le := rfl
@[simp] theorem pldmPut_dma (x : Pldm) (s : State) : (pldmPut x s).dma = s.dma := rfl
@[simp] theorem pldmPut_rdma (x : Pldm) (s : State) : (pldmPut x s).rdma = s.rdma := rfl
@[simp] theorem pldmPut_nvme (x : Pldm) (s : State) : (pldmPut x s).nvme = s.nvme := rfl
@[simp] theorem pldmPut_store (x : Pldm) (s : State) : (pldmPut x s).store = s.store := rfl
@[simp] theorem pldmPut_drives (x : Pldm) (s : State) : (pldmPut x s).drives = s.drives := rfl
@[simp] theorem pldmPut_mon (x : Pldm) (s : State) : (pldmPut x s).mon = s.mon := rfl
@[simp] theorem pldmPut_dbg (x : Pldm) (s : State) : (pldmPut x s).dbg = s.dbg := rfl

/-! ### `serPut` alters only dbg -/

@[simp] theorem serPut_pending (n : Nat) (x : SerTest) (s : State) : (serPut n x s).pending = s.pending := rfl
@[simp] theorem serPut_io (n : Nat) (x : SerTest) (s : State) : (serPut n x s).io = s.io := rfl
@[simp] theorem serPut_cont (n : Nat) (x : SerTest) (s : State) : (serPut n x s).cont = s.cont := rfl
@[simp] theorem serPut_clk (n : Nat) (x : SerTest) (s : State) : (serPut n x s).clk = s.clk := rfl
@[simp] theorem serPut_start (n : Nat) (x : SerTest) (s : State) : (serPut n x s).start = s.start := rfl
@[simp] theorem serPut_net (n : Nat) (x : SerTest) (s : State) : (serPut n x s).net = s.net := rfl
@[simp] theorem serPut_pipe (n : Nat) (x : SerTest) (s : State) : (serPut n x s).pipe = s.pipe := rfl
@[simp] theorem serPut_tabs (n : Nat) (x : SerTest) (s : State) : (serPut n x s).tabs = s.tabs := rfl
@[simp] theorem serPut_burin (n : Nat) (x : SerTest) (s : State) : (serPut n x s).burin = s.burin := rfl
@[simp] theorem serPut_dom (n : Nat) (x : SerTest) (s : State) : (serPut n x s).dom = s.dom := rfl
@[simp] theorem serPut_mem (n : Nat) (x : SerTest) (s : State) : (serPut n x s).mem = s.mem := rfl
@[simp] theorem serPut_cpu (n : Nat) (x : SerTest) (s : State) : (serPut n x s).cpu = s.cpu := rfl
@[simp] theorem serPut_le (n : Nat) (x : SerTest) (s : State) : (serPut n x s).le = s.le := rfl
@[simp] theorem serPut_dma (n : Nat) (x : SerTest) (s : State) : (serPut n x s).dma = s.dma := rfl
@[simp] theorem serPut_rdma (n : Nat) (x : SerTest) (s : State) : (serPut n x s).rdma = s.rdma := rfl
@[simp] theorem serPut_nvme (n : Nat) (x : SerTest) (s : State) : (serPut n x s).nvme = s.nvme := rfl
@[simp] theorem serPut_store (n : Nat) (x : SerTest) (s : State) : (serPut n x s).store = s.store := rfl
@[simp] theorem serPut_drives (n : Nat) (x : SerTest) (s : State) : (serPut n x s).drives = s.drives := rfl
@[simp] theorem serPut_mon (n : Nat) (x : SerTest) (s : State) : (serPut n x s).mon = s.mon := rfl
@[simp] theorem serPut_boot (n : Nat) (x : SerTest) (s : State) : (serPut n x s).boot = s.boot := rfl

/-! ### `emit` alters only sent -/

@[simp] theorem emit_now (x : Sent) (io : Io) : (emit x io).now = io.now := rfl
@[simp] theorem emit_timeBase (x : Sent) (io : Io) : (emit x io).timeBase = io.timeBase := rfl
@[simp] theorem emit_trimAcc (x : Sent) (io : Io) : (emit x io).trimAcc = io.trimAcc := rfl
@[simp] theorem emit_free (x : Sent) (io : Io) : (emit x io).free = io.free := rfl
@[simp] theorem emit_dic (x : Sent) (io : Io) : (emit x io).dic = io.dic := rfl
@[simp] theorem emit_params (x : Sent) (io : Io) : (emit x io).params = io.params := rfl
@[simp] theorem emit_paramsLost (x : Sent) (io : Io) : (emit x io).paramsLost = io.paramsLost := rfl
@[simp] theorem emit_regs (x : Sent) (io : Io) : (emit x io).regs = io.regs := rfl
@[simp] theorem emit_oa (x : Sent) (io : Io) : (emit x io).oa = io.oa := rfl
@[simp] theorem emit_rings (x : Sent) (io : Io) : (emit x io).rings = io.rings := rfl
@[simp] theorem emit_host (x : Sent) (io : Io) : (emit x io).host = io.host := rfl
@[simp] theorem emit_vf (x : Sent) (io : Io) : (emit x io).vf = io.vf := rfl
@[simp] theorem emit_journal (x : Sent) (io : Io) : (emit x io).journal = io.journal := rfl
@[simp] theorem emit_evAdds (x : Sent) (io : Io) : (emit x io).evAdds = io.evAdds := rfl
@[simp] theorem emit_nvSpill (x : Sent) (io : Io) : (emit x io).nvSpill = io.nvSpill := rfl

/-! ### `freeNat` alters only free -/

@[simp] theorem freeNat_now (io : Io) : ((freeNat io).2).now = io.now := rfl
@[simp] theorem freeNat_timeBase (io : Io) : ((freeNat io).2).timeBase = io.timeBase := rfl
@[simp] theorem freeNat_trimAcc (io : Io) : ((freeNat io).2).trimAcc = io.trimAcc := rfl
@[simp] theorem freeNat_sent (io : Io) : ((freeNat io).2).sent = io.sent := rfl
@[simp] theorem freeNat_dic (io : Io) : ((freeNat io).2).dic = io.dic := rfl
@[simp] theorem freeNat_params (io : Io) : ((freeNat io).2).params = io.params := rfl
@[simp] theorem freeNat_paramsLost (io : Io) : ((freeNat io).2).paramsLost = io.paramsLost := rfl
@[simp] theorem freeNat_regs (io : Io) : ((freeNat io).2).regs = io.regs := rfl
@[simp] theorem freeNat_oa (io : Io) : ((freeNat io).2).oa = io.oa := rfl
@[simp] theorem freeNat_rings (io : Io) : ((freeNat io).2).rings = io.rings := rfl
@[simp] theorem freeNat_host (io : Io) : ((freeNat io).2).host = io.host := rfl
@[simp] theorem freeNat_vf (io : Io) : ((freeNat io).2).vf = io.vf := rfl
@[simp] theorem freeNat_journal (io : Io) : ((freeNat io).2).journal = io.journal := rfl
@[simp] theorem freeNat_evAdds (io : Io) : ((freeNat io).2).evAdds = io.evAdds := rfl
@[simp] theorem freeNat_nvSpill (io : Io) : ((freeNat io).2).nvSpill = io.nvSpill := rfl

/-! ### `pickFree` alters only free -/

@[simp] theorem pickFree_now (used : Nat → Bool) (lo n : Nat) (io : Io) : ((pickFree used lo n io).2).now = io.now := rfl
@[simp] theorem pickFree_timeBase (used : Nat → Bool) (lo n : Nat) (io : Io) : ((pickFree used lo n io).2).timeBase = io.timeBase := rfl
@[simp] theorem pickFree_trimAcc (used : Nat → Bool) (lo n : Nat) (io : Io) : ((pickFree used lo n io).2).trimAcc = io.trimAcc := rfl
@[simp] theorem pickFree_sent (used : Nat → Bool) (lo n : Nat) (io : Io) : ((pickFree used lo n io).2).sent = io.sent := rfl
@[simp] theorem pickFree_dic (used : Nat → Bool) (lo n : Nat) (io : Io) : ((pickFree used lo n io).2).dic = io.dic := rfl
@[simp] theorem pickFree_params (used : Nat → Bool) (lo n : Nat) (io : Io) : ((pickFree used lo n io).2).params = io.params := rfl
@[simp] theorem pickFree_paramsLost (used : Nat → Bool) (lo n : Nat) (io : Io) : ((pickFree used lo n io).2).paramsLost = io.paramsLost := rfl
@[simp] theorem pickFree_regs (used : Nat → Bool) (lo n : Nat) (io : Io) : ((pickFree used lo n io).2).regs = io.regs := rfl
@[simp] theorem pickFree_oa (used : Nat → Bool) (lo n : Nat) (io : Io) : ((pickFree used lo n io).2).oa = io.oa := rfl
@[simp] theorem pickFree_rings (used : Nat → Bool) (lo n : Nat) (io : Io) : ((pickFree used lo n io).2).rings = io.rings := rfl
@[simp] theorem pickFree_host (used : Nat → Bool) (lo n : Nat) (io : Io) : ((pickFree used lo n io).2).host = io.host := rfl
@[simp] theorem pickFree_vf (used : Nat → Bool) (lo n : Nat) (io : Io) : ((pickFree used lo n io).2).vf = io.vf := rfl
@[simp] theorem pickFree_journal (used : Nat → Bool) (lo n : Nat) (io : Io) : ((pickFree used lo n io).2).journal = io.journal := rfl
@[simp] theorem pickFree_evAdds (used : Nat → Bool) (lo n : Nat) (io : Io) : ((pickFree used lo n io).2).evAdds = io.evAdds := rfl
@[simp] theorem pickFree_nvSpill (used : Nat → Bool) (lo n : Nat) (io : Io) : ((pickFree used lo n io).2).nvSpill = io.nvSpill := rfl

/-! ### `advance` alters only now, timeBase, trimAcc -/

@[simp] theorem advance_free (d : Nat) (io : Io) : (advance d io).free = io.free := rfl
@[simp] theorem advance_sent (d : Nat) (io : Io) : (advance d io).sent = io.sent := rfl
@[simp] theorem advance_dic (d : Nat) (io : Io) : (advance d io).dic = io.dic := rfl
@[simp] theorem advance_params (d : Nat) (io : Io) : (advance d io).params = io.params := rfl
@[simp] theorem advance_paramsLost (d : Nat) (io : Io) : (advance d io).paramsLost = io.paramsLost := rfl
@[simp] theorem advance_regs (d : Nat) (io : Io) : (advance d io).regs = io.regs := rfl
@[simp] theorem advance_oa (d : Nat) (io : Io) : (advance d io).oa = io.oa := rfl
@[simp] theorem advance_rings (d : Nat) (io : Io) : (advance d io).rings = io.rings := rfl
@[simp] theorem advance_host (d : Nat) (io : Io) : (advance d io).host = io.host := rfl
@[simp] theorem advance_vf (d : Nat) (io : Io) : (advance d io).vf = io.vf := rfl
@[simp] theorem advance_journal (d : Nat) (io : Io) : (advance d io).journal = io.journal := rfl
@[simp] theorem advance_evAdds (d : Nat) (io : Io) : (advance d io).evAdds = io.evAdds := rfl
@[simp] theorem advance_nvSpill (d : Nat) (io : Io) : (advance d io).nvSpill = io.nvSpill := rfl

/-! ### `reach` alters only now, timeBase, trimAcc -/

@[simp] theorem reach_free (t : Nat) (io : Io) : (reach t io).free = io.free := rfl
@[simp] theorem reach_sent (t : Nat) (io : Io) : (reach t io).sent = io.sent := rfl
@[simp] theorem reach_dic (t : Nat) (io : Io) : (reach t io).dic = io.dic := rfl
@[simp] theorem reach_params (t : Nat) (io : Io) : (reach t io).params = io.params := rfl
@[simp] theorem reach_paramsLost (t : Nat) (io : Io) : (reach t io).paramsLost = io.paramsLost := rfl
@[simp] theorem reach_regs (t : Nat) (io : Io) : (reach t io).regs = io.regs := rfl
@[simp] theorem reach_oa (t : Nat) (io : Io) : (reach t io).oa = io.oa := rfl
@[simp] theorem reach_rings (t : Nat) (io : Io) : (reach t io).rings = io.rings := rfl
@[simp] theorem reach_host (t : Nat) (io : Io) : (reach t io).host = io.host := rfl
@[simp] theorem reach_vf (t : Nat) (io : Io) : (reach t io).vf = io.vf := rfl
@[simp] theorem reach_journal (t : Nat) (io : Io) : (reach t io).journal = io.journal := rfl
@[simp] theorem reach_evAdds (t : Nat) (io : Io) : (reach t io).evAdds = io.evAdds := rfl
@[simp] theorem reach_nvSpill (t : Nat) (io : Io) : (reach t io).nvSpill = io.nvSpill := rfl

/-! ### `regSet` alters only regs -/

@[simp] theorem regSet_now (r : RegName) (u : Nat) (v : Word64) (io : Io) : (regSet r u v io).now = io.now := rfl
@[simp] theorem regSet_timeBase (r : RegName) (u : Nat) (v : Word64) (io : Io) : (regSet r u v io).timeBase = io.timeBase := rfl
@[simp] theorem regSet_trimAcc (r : RegName) (u : Nat) (v : Word64) (io : Io) : (regSet r u v io).trimAcc = io.trimAcc := rfl
@[simp] theorem regSet_free (r : RegName) (u : Nat) (v : Word64) (io : Io) : (regSet r u v io).free = io.free := rfl
@[simp] theorem regSet_sent (r : RegName) (u : Nat) (v : Word64) (io : Io) : (regSet r u v io).sent = io.sent := rfl
@[simp] theorem regSet_dic (r : RegName) (u : Nat) (v : Word64) (io : Io) : (regSet r u v io).dic = io.dic := rfl
@[simp] theorem regSet_params (r : RegName) (u : Nat) (v : Word64) (io : Io) : (regSet r u v io).params = io.params := rfl
@[simp] theorem regSet_paramsLost (r : RegName) (u : Nat) (v : Word64) (io : Io) : (regSet r u v io).paramsLost = io.paramsLost := rfl
@[simp] theorem regSet_oa (r : RegName) (u : Nat) (v : Word64) (io : Io) : (regSet r u v io).oa = io.oa := rfl
@[simp] theorem regSet_rings (r : RegName) (u : Nat) (v : Word64) (io : Io) : (regSet r u v io).rings = io.rings := rfl
@[simp] theorem regSet_host (r : RegName) (u : Nat) (v : Word64) (io : Io) : (regSet r u v io).host = io.host := rfl
@[simp] theorem regSet_vf (r : RegName) (u : Nat) (v : Word64) (io : Io) : (regSet r u v io).vf = io.vf := rfl
@[simp] theorem regSet_journal (r : RegName) (u : Nat) (v : Word64) (io : Io) : (regSet r u v io).journal = io.journal := rfl
@[simp] theorem regSet_evAdds (r : RegName) (u : Nat) (v : Word64) (io : Io) : (regSet r u v io).evAdds = io.evAdds := rfl
@[simp] theorem regSet_nvSpill (r : RegName) (u : Nat) (v : Word64) (io : Io) : (regSet r u v io).nvSpill = io.nvSpill := rfl

/-! ### `regPut` alters only regs -/

@[simp] theorem regPut_now (r : RegName) (u hi lo v : Nat) (io : Io) : (regPut r u hi lo v io).now = io.now := rfl
@[simp] theorem regPut_timeBase (r : RegName) (u hi lo v : Nat) (io : Io) : (regPut r u hi lo v io).timeBase = io.timeBase := rfl
@[simp] theorem regPut_trimAcc (r : RegName) (u hi lo v : Nat) (io : Io) : (regPut r u hi lo v io).trimAcc = io.trimAcc := rfl
@[simp] theorem regPut_free (r : RegName) (u hi lo v : Nat) (io : Io) : (regPut r u hi lo v io).free = io.free := rfl
@[simp] theorem regPut_sent (r : RegName) (u hi lo v : Nat) (io : Io) : (regPut r u hi lo v io).sent = io.sent := rfl
@[simp] theorem regPut_dic (r : RegName) (u hi lo v : Nat) (io : Io) : (regPut r u hi lo v io).dic = io.dic := rfl
@[simp] theorem regPut_params (r : RegName) (u hi lo v : Nat) (io : Io) : (regPut r u hi lo v io).params = io.params := rfl
@[simp] theorem regPut_paramsLost (r : RegName) (u hi lo v : Nat) (io : Io) : (regPut r u hi lo v io).paramsLost = io.paramsLost := rfl
@[simp] theorem regPut_oa (r : RegName) (u hi lo v : Nat) (io : Io) : (regPut r u hi lo v io).oa = io.oa := rfl
@[simp] theorem regPut_rings (r : RegName) (u hi lo v : Nat) (io : Io) : (regPut r u hi lo v io).rings = io.rings := rfl
@[simp] theorem regPut_host (r : RegName) (u hi lo v : Nat) (io : Io) : (regPut r u hi lo v io).host = io.host := rfl
@[simp] theorem regPut_vf (r : RegName) (u hi lo v : Nat) (io : Io) : (regPut r u hi lo v io).vf = io.vf := rfl
@[simp] theorem regPut_journal (r : RegName) (u hi lo v : Nat) (io : Io) : (regPut r u hi lo v io).journal = io.journal := rfl
@[simp] theorem regPut_evAdds (r : RegName) (u hi lo v : Nat) (io : Io) : (regPut r u hi lo v io).evAdds = io.evAdds := rfl
@[simp] theorem regPut_nvSpill (r : RegName) (u hi lo v : Nat) (io : Io) : (regPut r u hi lo v io).nvSpill = io.nvSpill := rfl

/-! ### `regOn` alters only regs -/

@[simp] theorem regOn_now (r : RegName) (u k : Nat) (io : Io) : (regOn r u k io).now = io.now := rfl
@[simp] theorem regOn_timeBase (r : RegName) (u k : Nat) (io : Io) : (regOn r u k io).timeBase = io.timeBase := rfl
@[simp] theorem regOn_trimAcc (r : RegName) (u k : Nat) (io : Io) : (regOn r u k io).trimAcc = io.trimAcc := rfl
@[simp] theorem regOn_free (r : RegName) (u k : Nat) (io : Io) : (regOn r u k io).free = io.free := rfl
@[simp] theorem regOn_sent (r : RegName) (u k : Nat) (io : Io) : (regOn r u k io).sent = io.sent := rfl
@[simp] theorem regOn_dic (r : RegName) (u k : Nat) (io : Io) : (regOn r u k io).dic = io.dic := rfl
@[simp] theorem regOn_params (r : RegName) (u k : Nat) (io : Io) : (regOn r u k io).params = io.params := rfl
@[simp] theorem regOn_paramsLost (r : RegName) (u k : Nat) (io : Io) : (regOn r u k io).paramsLost = io.paramsLost := rfl
@[simp] theorem regOn_oa (r : RegName) (u k : Nat) (io : Io) : (regOn r u k io).oa = io.oa := rfl
@[simp] theorem regOn_rings (r : RegName) (u k : Nat) (io : Io) : (regOn r u k io).rings = io.rings := rfl
@[simp] theorem regOn_host (r : RegName) (u k : Nat) (io : Io) : (regOn r u k io).host = io.host := rfl
@[simp] theorem regOn_vf (r : RegName) (u k : Nat) (io : Io) : (regOn r u k io).vf = io.vf := rfl
@[simp] theorem regOn_journal (r : RegName) (u k : Nat) (io : Io) : (regOn r u k io).journal = io.journal := rfl
@[simp] theorem regOn_evAdds (r : RegName) (u k : Nat) (io : Io) : (regOn r u k io).evAdds = io.evAdds := rfl
@[simp] theorem regOn_nvSpill (r : RegName) (u k : Nat) (io : Io) : (regOn r u k io).nvSpill = io.nvSpill := rfl

/-! ### `regOff` alters only regs -/

@[simp] theorem regOff_now (r : RegName) (u k : Nat) (io : Io) : (regOff r u k io).now = io.now := rfl
@[simp] theorem regOff_timeBase (r : RegName) (u k : Nat) (io : Io) : (regOff r u k io).timeBase = io.timeBase := rfl
@[simp] theorem regOff_trimAcc (r : RegName) (u k : Nat) (io : Io) : (regOff r u k io).trimAcc = io.trimAcc := rfl
@[simp] theorem regOff_free (r : RegName) (u k : Nat) (io : Io) : (regOff r u k io).free = io.free := rfl
@[simp] theorem regOff_sent (r : RegName) (u k : Nat) (io : Io) : (regOff r u k io).sent = io.sent := rfl
@[simp] theorem regOff_dic (r : RegName) (u k : Nat) (io : Io) : (regOff r u k io).dic = io.dic := rfl
@[simp] theorem regOff_params (r : RegName) (u k : Nat) (io : Io) : (regOff r u k io).params = io.params := rfl
@[simp] theorem regOff_paramsLost (r : RegName) (u k : Nat) (io : Io) : (regOff r u k io).paramsLost = io.paramsLost := rfl
@[simp] theorem regOff_oa (r : RegName) (u k : Nat) (io : Io) : (regOff r u k io).oa = io.oa := rfl
@[simp] theorem regOff_rings (r : RegName) (u k : Nat) (io : Io) : (regOff r u k io).rings = io.rings := rfl
@[simp] theorem regOff_host (r : RegName) (u k : Nat) (io : Io) : (regOff r u k io).host = io.host := rfl
@[simp] theorem regOff_vf (r : RegName) (u k : Nat) (io : Io) : (regOff r u k io).vf = io.vf := rfl
@[simp] theorem regOff_journal (r : RegName) (u k : Nat) (io : Io) : (regOff r u k io).journal = io.journal := rfl
@[simp] theorem regOff_evAdds (r : RegName) (u k : Nat) (io : Io) : (regOff r u k io).evAdds = io.evAdds := rfl
@[simp] theorem regOff_nvSpill (r : RegName) (u k : Nat) (io : Io) : (regOff r u k io).nvSpill = io.nvSpill := rfl

/-! ### `regWrite` alters only regs -/

@[simp] theorem regWrite_now (r : RegName) (u : Nat) (v : Word64) (io : Io) : (regWrite r u v io).now = io.now := rfl
@[simp] theorem regWrite_timeBase (r : RegName) (u : Nat) (v : Word64) (io : Io) : (regWrite r u v io).timeBase = io.timeBase := rfl
@[simp] theorem regWrite_trimAcc (r : RegName) (u : Nat) (v : Word64) (io : Io) : (regWrite r u v io).trimAcc = io.trimAcc := rfl
@[simp] theorem regWrite_free (r : RegName) (u : Nat) (v : Word64) (io : Io) : (regWrite r u v io).free = io.free := rfl
@[simp] theorem regWrite_sent (r : RegName) (u : Nat) (v : Word64) (io : Io) : (regWrite r u v io).sent = io.sent := rfl
@[simp] theorem regWrite_dic (r : RegName) (u : Nat) (v : Word64) (io : Io) : (regWrite r u v io).dic = io.dic := rfl
@[simp] theorem regWrite_params (r : RegName) (u : Nat) (v : Word64) (io : Io) : (regWrite r u v io).params = io.params := rfl
@[simp] theorem regWrite_paramsLost (r : RegName) (u : Nat) (v : Word64) (io : Io) : (regWrite r u v io).paramsLost = io.paramsLost := rfl
@[simp] theorem regWrite_oa (r : RegName) (u : Nat) (v : Word64) (io : Io) : (regWrite r u v io).oa = io.oa := rfl
@[simp] theorem regWrite_rings (r : RegName) (u : Nat) (v : Word64) (io : Io) : (regWrite r u v io).rings = io.rings := rfl
@[simp] theorem regWrite_host (r : RegName) (u : Nat) (v : Word64) (io : Io) : (regWrite r u v io).host = io.host := rfl
@[simp] theorem regWrite_vf (r : RegName) (u : Nat) (v : Word64) (io : Io) : (regWrite r u v io).vf = io.vf := rfl
@[simp] theorem regWrite_journal (r : RegName) (u : Nat) (v : Word64) (io : Io) : (regWrite r u v io).journal = io.journal := rfl
@[simp] theorem regWrite_evAdds (r : RegName) (u : Nat) (v : Word64) (io : Io) : (regWrite r u v io).evAdds = io.evAdds := rfl
@[simp] theorem regWrite_nvSpill (r : RegName) (u : Nat) (v : Word64) (io : Io) : (regWrite r u v io).nvSpill = io.nvSpill := rfl

/-! ### `fnPut` alters only host -/

@[simp] theorem fnPut_now (n : Nat) (x : FnCfg) (io : Io) : (fnPut n x io).now = io.now := rfl
@[simp] theorem fnPut_timeBase (n : Nat) (x : FnCfg) (io : Io) : (fnPut n x io).timeBase = io.timeBase := rfl
@[simp] theorem fnPut_trimAcc (n : Nat) (x : FnCfg) (io : Io) : (fnPut n x io).trimAcc = io.trimAcc := rfl
@[simp] theorem fnPut_free (n : Nat) (x : FnCfg) (io : Io) : (fnPut n x io).free = io.free := rfl
@[simp] theorem fnPut_sent (n : Nat) (x : FnCfg) (io : Io) : (fnPut n x io).sent = io.sent := rfl
@[simp] theorem fnPut_dic (n : Nat) (x : FnCfg) (io : Io) : (fnPut n x io).dic = io.dic := rfl
@[simp] theorem fnPut_params (n : Nat) (x : FnCfg) (io : Io) : (fnPut n x io).params = io.params := rfl
@[simp] theorem fnPut_paramsLost (n : Nat) (x : FnCfg) (io : Io) : (fnPut n x io).paramsLost = io.paramsLost := rfl
@[simp] theorem fnPut_regs (n : Nat) (x : FnCfg) (io : Io) : (fnPut n x io).regs = io.regs := rfl
@[simp] theorem fnPut_oa (n : Nat) (x : FnCfg) (io : Io) : (fnPut n x io).oa = io.oa := rfl
@[simp] theorem fnPut_rings (n : Nat) (x : FnCfg) (io : Io) : (fnPut n x io).rings = io.rings := rfl
@[simp] theorem fnPut_vf (n : Nat) (x : FnCfg) (io : Io) : (fnPut n x io).vf = io.vf := rfl
@[simp] theorem fnPut_journal (n : Nat) (x : FnCfg) (io : Io) : (fnPut n x io).journal = io.journal := rfl
@[simp] theorem fnPut_evAdds (n : Nat) (x : FnCfg) (io : Io) : (fnPut n x io).evAdds = io.evAdds := rfl
@[simp] theorem fnPut_nvSpill (n : Nat) (x : FnCfg) (io : Io) : (fnPut n x io).nvSpill = io.nvSpill := rfl

/-! ### `linkPut` alters only host -/

@[simp] theorem linkPut_now (n : Nat) (x : Link) (io : Io) : (linkPut n x io).now = io.now := rfl
@[simp] theorem linkPut_timeBase (n : Nat) (x : Link) (io : Io) : (linkPut n x io).timeBase = io.timeBase := rfl
@[simp] theorem linkPut_trimAcc (n : Nat) (x : Link) (io : Io) : (linkPut n x io).trimAcc = io.trimAcc := rfl
@[simp] theorem linkPut_free (n : Nat) (x : Link) (io : Io) : (linkPut n x io).free = io.free := rfl
@[simp] theorem linkPut_sent (n : Nat) (x : Link) (io : Io) : (linkPut n x io).sent = io.sent := rfl
@[simp] theorem linkPut_dic (n : Nat) (x : Link) (io : Io) : (linkPut n x io).dic = io.dic := rfl
@[simp] theorem linkPut_params (n : Nat) (x : Link) (io : Io) : (linkPut n x io).params = io.params := rfl
@[simp] theorem linkPut_paramsLost (n : Nat) (x : Link) (io : Io) : (linkPut n x io).paramsLost = io.paramsLost := rfl
@[simp] theorem linkPut_regs (n : Nat) (x : Link) (io : Io) : (linkPut n x io).regs = io.regs := rfl
@[simp] theorem linkPut_oa (n : Nat) (x : Link) (io : Io) : (linkPut n x io).oa = io.oa := rfl
@[simp] theorem linkPut_rings (n : Nat) (x : Link) (io : Io) : (linkPut n x io).rings = io.rings := rfl
@[simp] theorem linkPut_vf (n : Nat) (x : Link) (io : Io) : (linkPut n x io).vf = io.vf := rfl
@[simp] theorem linkPut_journal (n : Nat) (x : Link) (io : Io) : (linkPut n x io).journal = io.journal := rfl
@[simp] theorem linkPut_evAdds (n : Nat) (x : Link) (io : Io) : (linkPut n x io).evAdds = io.evAdds := rfl
@[simp] theorem linkPut_nvSpill (n : Nat) (x : Link) (io : Io) : (linkPut n x io).nvSpill = io.nvSpill := rfl

/-! ### `winsPut` alters only host -/

@[simp] theorem winsPut_now (n : Nat) (x : Peer) (io : Io) : (winsPut n x io).now = io.now := rfl
@[simp] theorem winsPut_timeBase (n : Nat) (x : Peer) (io : Io) : (winsPut n x io).timeBase = io.timeBase := rfl
@[simp] theorem winsPut_trimAcc (n : Nat) (x : Peer) (io : Io) : (winsPut n x io).trimAcc = io.trimAcc := rfl
@[simp] theorem winsPut_free (n : Nat) (x : Peer) (io : Io) : (winsPut n x io).free = io.free := rfl
@[simp] theorem winsPut_sent (n : Nat) (x : Peer) (io : Io) : (winsPut n x io).sent = io.sent := rfl
@[simp] theorem winsPut_dic (n : Nat) (x : Peer) (io : Io) : (winsPut n x io).dic = io.dic := rfl
@[simp] theorem winsPut_params (n : Nat) (x : Peer) (io : Io) : (winsPut n x io).params = io.params := rfl
@[simp] theorem winsPut_paramsLost (n : Nat) (x : Peer) (io : Io) : (winsPut n x io).paramsLost = io.paramsLost := rfl
@[simp] theorem winsPut_regs (n : Nat) (x : Peer) (io : Io) : (winsPut n x io).regs = io.regs := rfl
@[simp] theorem winsPut_oa (n : Nat) (x : Peer) (io : Io) : (winsPut n x io).oa = io.oa := rfl
@[simp] theorem winsPut_rings (n : Nat) (x : Peer) (io : Io) : (winsPut n x io).rings = io.rings := rfl
@[simp] theorem winsPut_vf (n : Nat) (x : Peer) (io : Io) : (winsPut n x io).vf = io.vf := rfl
@[simp] theorem winsPut_journal (n : Nat) (x : Peer) (io : Io) : (winsPut n x io).journal = io.journal := rfl
@[simp] theorem winsPut_evAdds (n : Nat) (x : Peer) (io : Io) : (winsPut n x io).evAdds = io.evAdds := rfl
@[simp] theorem winsPut_nvSpill (n : Nat) (x : Peer) (io : Io) : (winsPut n x io).nvSpill = io.nvSpill := rfl

/-! ### `vfPut` alters only vf -/

@[simp] theorem vfPut_now (n : Nat) (x : VfState) (io : Io) : (vfPut n x io).now = io.now := rfl
@[simp] theorem vfPut_timeBase (n : Nat) (x : VfState) (io : Io) : (vfPut n x io).timeBase = io.timeBase := rfl
@[simp] theorem vfPut_trimAcc (n : Nat) (x : VfState) (io : Io) : (vfPut n x io).trimAcc = io.trimAcc := rfl
@[simp] theorem vfPut_free (n : Nat) (x : VfState) (io : Io) : (vfPut n x io).free = io.free := rfl
@[simp] theorem vfPut_sent (n : Nat) (x : VfState) (io : Io) : (vfPut n x io).sent = io.sent := rfl
@[simp] theorem vfPut_dic (n : Nat) (x : VfState) (io : Io) : (vfPut n x io).dic = io.dic := rfl
@[simp] theorem vfPut_params (n : Nat) (x : VfState) (io : Io) : (vfPut n x io).params = io.params := rfl
@[simp] theorem vfPut_paramsLost (n : Nat) (x : VfState) (io : Io) : (vfPut n x io).paramsLost = io.paramsLost := rfl
@[simp] theorem vfPut_regs (n : Nat) (x : VfState) (io : Io) : (vfPut n x io).regs = io.regs := rfl
@[simp] theorem vfPut_oa (n : Nat) (x : VfState) (io : Io) : (vfPut n x io).oa = io.oa := rfl
@[simp] theorem vfPut_rings (n : Nat) (x : VfState) (io : Io) : (vfPut n x io).rings = io.rings := rfl
@[simp] theorem vfPut_host (n : Nat) (x : VfState) (io : Io) : (vfPut n x io).host = io.host := rfl
@[simp] theorem vfPut_journal (n : Nat) (x : VfState) (io : Io) : (vfPut n x io).journal = io.journal := rfl
@[simp] theorem vfPut_evAdds (n : Nat) (x : VfState) (io : Io) : (vfPut n x io).evAdds = io.evAdds := rfl
@[simp] theorem vfPut_nvSpill (n : Nat) (x : VfState) (io : Io) : (vfPut n x io).nvSpill = io.nvSpill := rfl

/-! ### `ringPut` alters only rings -/

@[simp] theorem ringPut_now (n : Nat) (x : Ring) (io : Io) : (ringPut n x io).now = io.now := rfl
@[simp] theorem ringPut_timeBase (n : Nat) (x : Ring) (io : Io) : (ringPut n x io).timeBase = io.timeBase := rfl
@[simp] theorem ringPut_trimAcc (n : Nat) (x : Ring) (io : Io) : (ringPut n x io).trimAcc = io.trimAcc := rfl
@[simp] theorem ringPut_free (n : Nat) (x : Ring) (io : Io) : (ringPut n x io).free = io.free := rfl
@[simp] theorem ringPut_sent (n : Nat) (x : Ring) (io : Io) : (ringPut n x io).sent = io.sent := rfl
@[simp] theorem ringPut_dic (n : Nat) (x : Ring) (io : Io) : (ringPut n x io).dic = io.dic := rfl
@[simp] theorem ringPut_params (n : Nat) (x : Ring) (io : Io) : (ringPut n x io).params = io.params := rfl
@[simp] theorem ringPut_paramsLost (n : Nat) (x : Ring) (io : Io) : (ringPut n x io).paramsLost = io.paramsLost := rfl
@[simp] theorem ringPut_regs (n : Nat) (x : Ring) (io : Io) : (ringPut n x io).regs = io.regs := rfl
@[simp] theorem ringPut_oa (n : Nat) (x : Ring) (io : Io) : (ringPut n x io).oa = io.oa := rfl
@[simp] theorem ringPut_host (n : Nat) (x : Ring) (io : Io) : (ringPut n x io).host = io.host := rfl
@[simp] theorem ringPut_vf (n : Nat) (x : Ring) (io : Io) : (ringPut n x io).vf = io.vf := rfl
@[simp] theorem ringPut_journal (n : Nat) (x : Ring) (io : Io) : (ringPut n x io).journal = io.journal := rfl
@[simp] theorem ringPut_evAdds (n : Nat) (x : Ring) (io : Io) : (ringPut n x io).evAdds = io.evAdds := rfl
@[simp] theorem ringPut_nvSpill (n : Nat) (x : Ring) (io : Io) : (ringPut n x io).nvSpill = io.nvSpill := rfl

/-! ### `admPut` alters only rings -/

@[simp] theorem admPut_now (n : Nat) (x : Adm) (io : Io) : (admPut n x io).now = io.now := rfl
@[simp] theorem admPut_timeBase (n : Nat) (x : Adm) (io : Io) : (admPut n x io).timeBase = io.timeBase := rfl
@[simp] theorem admPut_trimAcc (n : Nat) (x : Adm) (io : Io) : (admPut n x io).trimAcc = io.trimAcc := rfl
@[simp] theorem admPut_free (n : Nat) (x : Adm) (io : Io) : (admPut n x io).free = io.free := rfl
@[simp] theorem admPut_sent (n : Nat) (x : Adm) (io : Io) : (admPut n x io).sent = io.sent := rfl
@[simp] theorem admPut_dic (n : Nat) (x : Adm) (io : Io) : (admPut n x io).dic = io.dic := rfl
@[simp] theorem admPut_params (n : Nat) (x : Adm) (io : Io) : (admPut n x io).params = io.params := rfl
@[simp] theorem admPut_paramsLost (n : Nat) (x : Adm) (io : Io) : (admPut n x io).paramsLost = io.paramsLost := rfl
@[simp] theorem admPut_regs (n : Nat) (x : Adm) (io : Io) : (admPut n x io).regs = io.regs := rfl
@[simp] theorem admPut_oa (n : Nat) (x : Adm) (io : Io) : (admPut n x io).oa = io.oa := rfl
@[simp] theorem admPut_host (n : Nat) (x : Adm) (io : Io) : (admPut n x io).host = io.host := rfl
@[simp] theorem admPut_vf (n : Nat) (x : Adm) (io : Io) : (admPut n x io).vf = io.vf := rfl
@[simp] theorem admPut_journal (n : Nat) (x : Adm) (io : Io) : (admPut n x io).journal = io.journal := rfl
@[simp] theorem admPut_evAdds (n : Nat) (x : Adm) (io : Io) : (admPut n x io).evAdds = io.evAdds := rfl
@[simp] theorem admPut_nvSpill (n : Nat) (x : Adm) (io : Io) : (admPut n x io).nvSpill = io.nvSpill := rfl

/-! ### What the wrappers change -/

@[simp] theorem on_io (f : Io → Io) (s : State) : (on f s).io = f s.io := rfl
@[simp] theorem on_on (f g : Io → Io) (s : State) : on f (on g s) = on (fun io => f (g io)) s := rfl
@[simp] theorem contPut_cont (c : Cont) (s : State) : (contPut c s).cont = c := rfl
@[simp] theorem startPut_start (x : Start) (s : State) : (startPut x s).start = x := rfl
@[simp] theorem emit_sent (x : Sent) (io : Io) : (emit x io).sent = x :: io.sent := rfl
@[simp] theorem freeNat_free (io : Io) : (freeNat io).2.free = io.free + 1 := rfl
@[simp] theorem pickFree_free (used : Nat → Bool) (lo n : Nat) (io : Io) : (pickFree used lo n io).2.free = io.free + 1 := rfl
@[simp] theorem advance_now (d : Nat) (io : Io) : (advance d io).now = io.now + d := rfl
/-- The clock never runs back: reaching an instant leaves the later of it and now. -/
@[simp] theorem reach_now (t : Nat) (io : Io) : (reach t io).now = max io.now t := by
  simp only [reach, advance_now]; omega

/-! ### Keyed stores: reading what was stored, and another key -/

@[simp] theorem cellAt_cellPut_same (n : Nat) (x : Cell) (s : State) : cellAt (cellPut n x s) n = x := mgetD_mput_same _ _ _ _
theorem cellAt_cellPut_other (n m : Nat) (x : Cell) (s : State) (h : m ≠ n) : cellAt (cellPut n x s) m = cellAt s m :=
  mgetD_mput_other _ _ _ h
@[simp] theorem leAt_lePut_same (n : Nat) (x : LeUnit) (s : State) : leAt (lePut n x s) n = x := mgetD_mput_same _ _ _ _
theorem leAt_lePut_other (n m : Nat) (x : LeUnit) (s : State) (h : m ≠ n) : leAt (lePut n x s) m = leAt s m :=
  mgetD_mput_other _ _ _ h
@[simp] theorem dmaAt_dmaPut_same (n : Nat) (x : DmaEng) (s : State) : dmaAt (dmaPut n x s) n = x := mgetD_mput_same _ _ _ _
theorem dmaAt_dmaPut_other (n m : Nat) (x : DmaEng) (s : State) (h : m ≠ n) : dmaAt (dmaPut n x s) m = dmaAt s m :=
  mgetD_mput_other _ _ _ h
@[simp] theorem ctlAt_ctlPut_same (n : Nat) (x : NvCtl) (s : State) : ctlAt (ctlPut n x s) n = x := mgetD_mput_same _ _ _ _
theorem ctlAt_ctlPut_other (n m : Nat) (x : NvCtl) (s : State) (h : m ≠ n) : ctlAt (ctlPut n x s) m = ctlAt s m :=
  mgetD_mput_other _ _ _ h
@[simp] theorem fnCfg_fnPut_same (n : Nat) (x : FnCfg) (io : Io) : fnCfg (fnPut n x io) n = x := mgetD_mput_same _ _ _ _
theorem fnCfg_fnPut_other (n m : Nat) (x : FnCfg) (io : Io) (h : m ≠ n) : fnCfg (fnPut n x io) m = fnCfg io m :=
  mgetD_mput_other _ _ _ h
@[simp] theorem linkAt_linkPut_same (n : Nat) (x : Link) (io : Io) : linkAt (linkPut n x io) n = x := mgetD_mput_same _ _ _ _
theorem linkAt_linkPut_other (n m : Nat) (x : Link) (io : Io) (h : m ≠ n) : linkAt (linkPut n x io) m = linkAt io m :=
  mgetD_mput_other _ _ _ h
@[simp] theorem vfAt_vfPut_same (n : Nat) (x : VfState) (io : Io) : vfAt (vfPut n x io) n = x := mgetD_mput_same _ _ _ _
theorem vfAt_vfPut_other (n m : Nat) (x : VfState) (io : Io) (h : m ≠ n) : vfAt (vfPut n x io) m = vfAt io m :=
  mgetD_mput_other _ _ _ h
@[simp] theorem admOf_admPut_same (n : Nat) (x : Adm) (io : Io) : admOf (admPut n x io) n = x := mgetD_mput_same _ _ _ _
theorem admOf_admPut_other (n m : Nat) (x : Adm) (io : Io) (h : m ≠ n) : admOf (admPut n x io) m = admOf io m :=
  mgetD_mput_other _ _ _ h
@[simp] theorem ringOf_ringPut_same (n : Nat) (x : Ring) (io : Io) : ringOf (ringPut n x io) n = some x := mget_mput_same _ _ _
theorem ringOf_ringPut_other (n m : Nat) (x : Ring) (io : Io) (h : m ≠ n) : ringOf (ringPut n x io) m = ringOf io m :=
  mget_mput_other _ _ h
@[simp] theorem regGet_regSet_same (r : RegName) (u : Nat) (v : Word64) (io : Io) : regGet r u (regSet r u v io) = v :=
  mgetD_mput_same _ _ _ _

/-- Units below 2^32 of registers have keys of their own. -/
theorem regKey_inj (r q : RegName) (u w : Nat) (hu : u < 2 ^ 32) (hw : w < 2 ^ 32) (h : regKey r u = regKey q w) :
    r.ctorIdx = q.ctorIdx ∧ u = w := by
  simp only [regKey] at h; omega

/-- Setting one register of one unit leaves every other. -/
theorem regGet_regSet_other (r q : RegName) (u w : Nat) (v : Word64) (io : Io) (h : regKey q w ≠ regKey r u) :
    regGet q w (regSet r u v io) = regGet q w io := mgetD_mput_other _ _ _ h

/-- A thread stored reads back. -/
@[simp] theorem threadAt_threadPut_same (t : Nat) (x : Thread) (s : State) : threadAt (threadPut t x s) t = x := by
  simp only [threadPut]; split <;> simp [threadAt, lePut]

/-- Storing one thread leaves every other. -/
theorem threadAt_threadPut_other (t u : Nat) (x : Thread) (s : State) (h : u ≠ t) :
    threadAt (threadPut t x s) u = threadAt s u := by
  simp only [threadPut]; split <;> simp [threadAt, lePut, mgetD_mput_other _ _ _ h]

@[simp] theorem threadPut_pending (t : Nat) (x : Thread) (s : State) : (threadPut t x s).pending = s.pending := by
  simp only [threadPut]; split <;> rfl
@[simp] theorem threadPut_io (t : Nat) (x : Thread) (s : State) : (threadPut t x s).io = s.io := by
  simp only [threadPut]; split <;> rfl
@[simp] theorem threadPut_cont (t : Nat) (x : Thread) (s : State) : (threadPut t x s).cont = s.cont := by
  simp only [threadPut]; split <;> rfl
@[simp] theorem threadPut_clk (t : Nat) (x : Thread) (s : State) : (threadPut t x s).clk = s.clk := by
  simp only [threadPut]; split <;> rfl
@[simp] theorem threadPut_start (t : Nat) (x : Thread) (s : State) : (threadPut t x s).start = s.start := by
  simp only [threadPut]; split <;> rfl
@[simp] theorem threadPut_net (t : Nat) (x : Thread) (s : State) : (threadPut t x s).net = s.net := by
  simp only [threadPut]; split <;> rfl
@[simp] theorem threadPut_pipe (t : Nat) (x : Thread) (s : State) : (threadPut t x s).pipe = s.pipe := by
  simp only [threadPut]; split <;> rfl
@[simp] theorem threadPut_tabs (t : Nat) (x : Thread) (s : State) : (threadPut t x s).tabs = s.tabs := by
  simp only [threadPut]; split <;> rfl
@[simp] theorem threadPut_burin (t : Nat) (x : Thread) (s : State) : (threadPut t x s).burin = s.burin := by
  simp only [threadPut]; split <;> rfl
@[simp] theorem threadPut_dom (t : Nat) (x : Thread) (s : State) : (threadPut t x s).dom = s.dom := by
  simp only [threadPut]; split <;> rfl
@[simp] theorem threadPut_mem (t : Nat) (x : Thread) (s : State) : (threadPut t x s).mem = s.mem := by
  simp only [threadPut]; split <;> rfl
@[simp] theorem threadPut_dma (t : Nat) (x : Thread) (s : State) : (threadPut t x s).dma = s.dma := by
  simp only [threadPut]; split <;> rfl
@[simp] theorem threadPut_rdma (t : Nat) (x : Thread) (s : State) : (threadPut t x s).rdma = s.rdma := by
  simp only [threadPut]; split <;> rfl
@[simp] theorem threadPut_nvme (t : Nat) (x : Thread) (s : State) : (threadPut t x s).nvme = s.nvme := by
  simp only [threadPut]; split <;> rfl
@[simp] theorem threadPut_store (t : Nat) (x : Thread) (s : State) : (threadPut t x s).store = s.store := by
  simp only [threadPut]; split <;> rfl
@[simp] theorem threadPut_drives (t : Nat) (x : Thread) (s : State) : (threadPut t x s).drives = s.drives := by
  simp only [threadPut]; split <;> rfl
@[simp] theorem threadPut_mon (t : Nat) (x : Thread) (s : State) : (threadPut t x s).mon = s.mon := by
  simp only [threadPut]; split <;> rfl
@[simp] theorem threadPut_boot (t : Nat) (x : Thread) (s : State) : (threadPut t x s).boot = s.boot := by
  simp only [threadPut]; split <;> rfl
@[simp] theorem threadPut_dbg (t : Nat) (x : Thread) (s : State) : (threadPut t x s).dbg = s.dbg := by
  simp only [threadPut]; split <;> rfl

end Sys2Proof.Machine
end

