-- ==== Sys2Proof/Laws/Core.lean ====
section
/-!
SUPPORT. What the shared operations of the cells and of the byte memories do: taking a trap, retiring an instruction, writing
SRAM, programming the flash, placing an image; each keeps the canonical form of the memory it writes.
-/
namespace Sys2Proof.Machine

/-! ### Traces, steps, traps -/

/-- A trace entry alters the debug unit alone. -/
theorem traceAdd_keeps (t k : Nat) (a b : Word64) (s : State) : ∃ d, traceAdd t k a b s = { s with dbg := d } := by
  simp only [traceAdd]
  split
  · exact ⟨s.dbg, rfl⟩
  · split
    · exact ⟨s.dbg, rfl⟩
    · exact ⟨_, rfl⟩

@[simp] theorem threadAt_traceAdd (t u k : Nat) (a b : Word64) (s : State) : threadAt (traceAdd t k a b s) u = threadAt s u := by
  obtain ⟨d, e⟩ := traceAdd_keeps t k a b s
  rw [e]; rfl

/-- A thread that is not being stepped goes on. -/
theorem stepOver_running (t : Nat) (s : State) (h : s.dbg.stepping.contains t = false) : stepOver t s = s := by
  simp only [stepOver, h, Bool.false_and, Bool.false_eq_true, if_false]

/-- Threads being stepped are not altered by a trace entry. -/
theorem stepping_traceAdd (t k : Nat) (a b : Word64) (s : State) : (traceAdd t k a b s).dbg.stepping = s.dbg.stepping := by
  simp only [traceAdd]; split <;> (try split) <;> rfl

/-- R431, R447: taking a trap saves the pc and the cause, enters M mode with interrupts off, and goes to the handler. -/
theorem trap_taken (t : Nat) (int : Bool) (code : Nat) (val : Word64) (s : State)
    (h : (threadAt s t).trapping = false) (g : s.dbg.stepping.contains t = false) :
    let x := threadAt s t
    let y := threadAt (trap t int code val s) t
    y.mepc = x.pc &&& ~~~1 ∧ y.mcause = causeWord int code ∧ y.mstatus = mstatusTrap x.mstatus x.m ∧ y.m = true ∧
      y.trapping = true ∧ y.pc = trapTarget x.mtvec int code ∧ y.reserve = none ∧ y.wait = none ∧ y.regs = x.regs := by
  have e : (threadPut t { threadAt s t with
      mepc := (threadAt s t).pc &&& ~~~1, mcause := causeWord int code, mtval := if int then 0 else Config.mtval code val,
      reserve := none, wait := none, mstatus := mstatusTrap (threadAt s t).mstatus (threadAt s t).m, m := true, trapping := true,
      pc := trapTarget (threadAt s t).mtvec int code, st := if (threadAt s t).st = 3 then 3 else 1 }
      (traceAdd t 2 (threadAt s t).pc (trapTarget (threadAt s t).mtvec int code) s)).dbg.stepping.contains t = false := by
    rw [threadPut_dbg, stepping_traceAdd]; exact g
  simp only [trap, h, Bool.false_eq_true, if_false]
  rw [stepOver_running t _ e, threadAt_threadPut_same]
  simp

/-- An instruction that completes moves past itself and counts. -/
theorem retire_running (t len : Nat) (f : Thread → Thread) (s : State) (g : s.dbg.stepping.contains t = false) :
    threadAt (retire t len f s) t =
      { f (threadAt s t) with
        pc := (f (threadAt s t)).pc + BitVec.ofNat 64 len, minstret := (f (threadAt s t)).minstret + 1 } := by
  simp only [retire]
  rw [stepOver_running t _ (by rw [threadPut_dbg]; exact g), threadAt_threadPut_same]

/-- It leaves every other thread. -/
theorem retire_other (t u len : Nat) (f : Thread → Thread) (s : State) (g : s.dbg.stepping.contains t = false) (h : u ≠ t) :
    threadAt (retire t len f s) u = threadAt s u := by
  simp only [retire]
  rw [stepOver_running t _ (by rw [threadPut_dbg]; exact g), threadAt_threadPut_other _ _ _ _ h]

/-- R430: a store drops reservations and nothing else of the machine. -/
theorem dropReserve_keeps (a n : Nat) (s : State) :
    ∃ l, dropReserve a n s = { s with cpu := { s.cpu with threads := l } } := ⟨_, rfl⟩

/-! ### SRAM -/

/-- A write of SRAM is a write of its bytes. -/
@[simp] theorem sramWrite_sram (a : Nat) (b : Bytes) (s : State) : (sramWrite a b s).mem.sram = memPuts 0 s.mem.sram a b := rfl

/-- It keeps the canonical form. -/
theorem wf_sramWrite (a : Nat) (b : Bytes) (s : State) (w : Memory.wf 0 s.mem.sram = true) :
    Memory.wf 0 (sramWrite a b s).mem.sram = true := wf_memPuts b _ a w

/-- What was written reads back. -/
theorem sram_read_back (a : Nat) (b : Bytes) (s : State) (w : Memory.wf 0 s.mem.sram = true) :
    memGets 0 (sramWrite a b s).mem.sram a b.length = b := memGets_memPuts b _ a w

/-- Every byte outside it is left. -/
theorem sram_other (a k : Nat) (b : Bytes) (s : State) (h : k < a ∨ a + b.length ≤ k) :
    memGet 0 (sramWrite a b s).mem.sram k = memGet 0 s.mem.sram k := memGet_memPuts_other b _ a k h

/-- R452: a range that takes zero keeps the form, and reads zero. -/
theorem wf_sramZero (lo hi : Nat) (m : MemTile) (w : Memory.wf 0 m.sram = true) :
    Memory.wf 0 (sramZero lo hi m).sram = true := wf_memClear m.sram lo hi w

theorem sramZero_reads (lo hi k : Nat) (m : MemTile) (h : lo ≤ k ∧ k < hi) : memGet 0 (sramZero lo hi m).sram k = 0 := by
  simp [sramZero, memGet_memClear, h]

@[simp] theorem sramPoison_sram (a : Nat) (m : MemTile) : (sramPoison a m).sram = m.sram := rfl

/-! ### The flash and the steward core's memory -/

/-- R70: programming keeps the canonical form. -/
theorem wf_flashWrite (bs : Bytes) (a : Nat) (f : Mem) (w : Memory.wf 0xFF f = true) :
    Memory.wf 0xFF (flashWrite a bs f) = true := by
  induction bs generalizing a f with
  | nil => exact w
  | cons b r ih => exact ih _ _ (wf_memPut f a _ w)

/-- Bytes outside those programmed are left. -/
theorem flashWrite_other (bs : Bytes) (a k : Nat) (f : Mem) (h : k < a ∨ a + bs.length ≤ k) :
    memGet 0xFF (flashWrite a bs f) k = memGet 0xFF f k := by
  induction bs generalizing a f with
  | nil => rfl
  | cons b r ih =>
    simp only [List.length_cons] at h
    simp only [flashWrite]
    rw [ih _ _ (by omega), memGet_memPut_other f _ (by omega)]

/-- A programmed byte is what it held with bits cleared. -/
theorem flashWrite_head (b : Byte) (r : Bytes) (a : Nat) (f : Mem) (w : Memory.wf 0xFF f = true) :
    memGet 0xFF (flashWrite a (b :: r) f) a = b &&& memGet 0xFF f a := by
  simp only [flashWrite]
  rw [flashWrite_other _ _ _ _ (by omega), memGet_memPut_same f a _ w]

/-- An erased range reads 0xFF. -/
theorem flash_erased (a n k : Nat) (f : Mem) (h : a ≤ k ∧ k < a + n) : memGet 0xFF (memClear f a (a + n)) k = 0xFF := by
  simp [memGet_memClear, h]

theorem wf_sealSlot {slot q time : Nat} {f g : Mem} (w : Memory.wf 0xFF f = true) (h : sealSlot slot q time f = some g) :
    Memory.wf 0xFF g = true := by
  simp only [sealSlot] at h
  split at h
  · cases h
  · split at h
    · cases h
    · rw [← Option.some.inj h]; exact wf_flashWrite _ _ _ w

theorem wf_retireSlot {slot time : Nat} {f g : Mem} (w : Memory.wf 0xFF f = true) (h : retireSlot slot time f = some g) :
    Memory.wf 0xFF g = true := by
  simp only [retireSlot] at h
  split at h
  · cases h
  · split at h
    · cases h
    · rw [← Option.some.inj h]; exact wf_flashWrite _ _ _ w

theorem wf_sealAndRetire {slot time : Nat} {o : Bool} {f g : Mem} (w : Memory.wf 0xFF f = true)
    (h : sealAndRetire slot o time f = some g) : Memory.wf 0xFF g = true := by
  simp only [sealAndRetire] at h
  split at h
  · cases h
  · rename_i f1 e
    have w1 := wf_sealSlot w e
    split at h
    · split at h
      · rename_i f2 e2
        rw [← Option.some.inj h]; exact wf_retireSlot w1 e2
      · rw [← Option.some.inj h]; exact w1
    · rw [← Option.some.inj h]; exact w1

/-- R72: placing an image's pieces keeps the canonical form. -/
theorem wf_imageLoad (f : Mem) (slot target : Nat) (d : Byte) (m : Mem) (w : Memory.wf d m = true) :
    Memory.wf d (imageLoad f slot target d m) = true := by
  simp only [imageLoad]
  generalize entriesFor (slotHeader f slot) target = l
  induction l generalizing m with
  | nil => exact w
  | cons e r ih => exact ih _ (wf_memPuts _ m _ w)

end Sys2Proof.Machine
end

