-- ==== Sys2Proof/Laws/Dispatch.lean ====
section
/-!
SUPPORT. Every command runs its own meaning, one lemma per constructor, true by rfl.
-/
namespace Sys2Proof.Machine

@[simp] theorem exec_registerWrite (w : RegWrite) (s : State) :
    exec (.registerWrite w) s = execRegisterWrite w s := rfl

@[simp] theorem exec_hardwareFault (f : FaultReport) (s : State) :
    exec (.hardwareFault f) s = execHardwareFault f s := rfl

@[simp] theorem exec_ceRateExceeded (c : CellNo) (count : Nat) (s : State) :
    exec (.ceRateExceeded c count) s = execCeRateExceeded c count s := rfl

@[simp] theorem exec_meshLinkFailed (link : Fin 16) (s : State) :
    exec (.meshLinkFailed link) s = execMeshLinkFailed link s := rfl

@[simp] theorem exec_bwAckTimeout (b : BlockNo) (s : State) :
    exec (.bwAckTimeout b) s = execBwAckTimeout b s := rfl

@[simp] theorem exec_contRegionReset (by_ : Issuer) (arg : Byte) (s : State) :
    exec (.contRegionReset by_ arg) s = execContRegionReset by_ arg s := rfl

@[simp] theorem exec_regionResetCopyDone (r : RegionNo) (s : State) :
    exec (.regionResetCopyDone r) s = execRegionResetCopyDone r s := rfl

@[simp] theorem exec_regionResetIncomplete (r : RegionNo) (s : State) :
    exec (.regionResetIncomplete r) s = execRegionResetIncomplete r s := rfl

@[simp] theorem exec_contBlockReset (by_ : Issuer) (arg : Byte) (s : State) :
    exec (.contBlockReset by_ arg) s = execContBlockReset by_ arg s := rfl

@[simp] theorem exec_contReleaseStage0 (by_ : Issuer) (arg : Byte) (s : State) :
    exec (.contReleaseStage0 by_ arg) s = execContReleaseStage0 by_ arg s := rfl

@[simp] theorem exec_operatingPointSwitch (r : RegionNo) (s : State) :
    exec (.operatingPointSwitch r) s = execOperatingPointSwitch r s := rfl

@[simp] theorem exec_crossingReset (x : Fin 24) (inner : Bool) (traffic : List XTransfer) (s : State) :
    exec (.crossingReset x inner traffic) s = execCrossingReset x inner traffic s := rfl

@[simp] theorem exec_crossingHeld (x : Fin 24) (inner : Bool) (traffic : List XTransfer) (s : State) :
    exec (.crossingHeld x inner traffic) s = execCrossingHeld x inner traffic s := rfl

@[simp] theorem exec_crossingResync (x : Fin 24) (s : State) :
    exec (.crossingResync x) s = execCrossingResync x s := rfl

@[simp] theorem exec_refclkSysLoss (s : State) :
    exec (.refclkSysLoss) s = execRefclkSysLoss s := rfl

@[simp] theorem exec_refclkSysRestored (flash : FlashStart) (s : State) :
    exec (.refclkSysRestored flash) s = execRefclkSysRestored flash s := rfl

@[simp] theorem exec_refclkEthLoss (s : State) :
    exec (.refclkEthLoss) s = execRefclkEthLoss s := rfl

@[simp] theorem exec_refclkEthRestored (s : State) :
    exec (.refclkEthRestored) s = execRefclkEthRestored s := rfl

@[simp] theorem exec_pcie0RefclkLoss (s : State) :
    exec (.pcie0RefclkLoss) s = execPcie0RefclkLoss s := rfl

@[simp] theorem exec_pcie1RefclkLoss (s : State) :
    exec (.pcie1RefclkLoss) s = execPcie1RefclkLoss s := rfl

@[simp] theorem exec_drvRefclkLoss (s : State) :
    exec (.drvRefclkLoss) s = execDrvRefclkLoss s := rfl

@[simp] theorem exec_powerOnReset (testmode : Bool) (flash : FlashStart) (s : State) :
    exec (.powerOnReset testmode flash) s = execPowerOnReset testmode flash s := rfl

@[simp] theorem exec_pwrokFall (s : State) :
    exec (.pwrokFall) s = execPwrokFall s := rfl

@[simp] theorem exec_vddAonBrownout (flash : FlashStart) (s : State) :
    exec (.vddAonBrownout flash) s = execVddAonBrownout flash s := rfl

@[simp] theorem exec_perstAssert (port : Fin 2) (s : State) :
    exec (.perstAssert port) s = execPerstAssert port s := rfl

@[simp] theorem exec_perstDeassert (port : Fin 2) (s : State) :
    exec (.perstDeassert port) s = execPerstDeassert port s := rfl

@[simp] theorem exec_hotReset (port : Fin 2) (s : State) :
    exec (.hotReset port) s = execHotReset port s := rfl

@[simp] theorem exec_flr (l : LinkNo) (pf : Pf) (s : State) :
    exec (.flr l pf) s = execFlr l pf s := rfl

@[simp] theorem exec_chipWarmReset (cause : WarmCause) (flash : FlashStart) (s : State) :
    exec (.chipWarmReset cause flash) s = execChipWarmReset cause flash s := rfl

@[simp] theorem exec_hostLinkUp (l : LinkNo) (rate : Fin 7) (width : Fin 17) (flit : Bool) (s : State) :
    exec (.hostLinkUp l rate width flit) s = execHostLinkUp l rate width flit s := rfl

@[simp] theorem exec_linkDown (l : LinkNo) (s : State) :
    exec (.linkDown l) s = execLinkDown l s := rfl

@[simp] theorem exec_stage1Entry (s : State) :
    exec (.stage1Entry) s = execStage1Entry s := rfl

@[simp] theorem exec_stage2Entry (s : State) :
    exec (.stage2Entry) s = execStage2Entry s := rfl

@[simp] theorem exec_memoryTrained (density : Fin 4) (twoRanks : Bool) (failed : List (Fin 8)) (s : State) :
    exec (.memoryTrained density twoRanks failed) s = execMemoryTrained density twoRanks failed s := rfl

@[simp] theorem exec_memoryFullyWritten (s : State) :
    exec (.memoryFullyWritten) s = execMemoryFullyWritten s := rfl

@[simp] theorem exec_stageDeadlineMissed (stage : Fin 4) (s : State) :
    exec (.stageDeadlineMissed stage) s = execStageDeadlineMissed stage s := rfl

@[simp] theorem exec_startWatchdogExpiry (s : State) :
    exec (.startWatchdogExpiry) s = execStartWatchdogExpiry s := rfl

@[simp] theorem exec_startHold (by_ : Issuer) (v : Byte) (s : State) :
    exec (.startHold by_ v) s = execStartHold by_ v s := rfl

@[simp] theorem exec_adoptionRequest (s : State) :
    exec (.adoptionRequest) s = execAdoptionRequest s := rfl

@[simp] theorem exec_adoptionComplete (s : State) :
    exec (.adoptionComplete) s = execAdoptionComplete s := rfl

@[simp] theorem exec_adoptionTimeout (s : State) :
    exec (.adoptionTimeout) s = execAdoptionTimeout s := rfl

@[simp] theorem exec_slotCommit (by_ : Issuer) (arg : Byte) (s : State) :
    exec (.slotCommit by_ arg) s = execSlotCommit by_ arg s := rfl

@[simp] theorem exec_slotVerifyDone (s : State) :
    exec (.slotVerifyDone) s = execSlotVerifyDone s := rfl

@[simp] theorem exec_slotRetire (by_ : Issuer) (arg : Byte) (s : State) :
    exec (.slotRetire by_ arg) s = execSlotRetire by_ arg s := rfl

@[simp] theorem exec_enterRecovery (by_ : Issuer) (s : State) :
    exec (.enterRecovery by_) s = execEnterRecovery by_ s := rfl

@[simp] theorem exec_rootKeyRevoke (by_ : Issuer) (arg : Byte) (s : State) :
    exec (.rootKeyRevoke by_ arg) s = execRootKeyRevoke by_ arg s := rfl

@[simp] theorem exec_slotResequence (by_ : Issuer) (arg : Byte) (s : State) :
    exec (.slotResequence by_ arg) s = execSlotResequence by_ arg s := rfl

@[simp] theorem exec_epochAdvance (by_ : Issuer) (n : Half) (vddFuse : Bool) (s : State) :
    exec (.epochAdvance by_ n vddFuse) s = execEpochAdvance by_ n vddFuse s := rfl

@[simp] theorem exec_flashProgram (m : FlashMaster) (addr : Nat) (data : Bytes) (ok : Bool) (s : State) :
    exec (.flashProgram m addr data ok) s = execFlashProgram m addr data ok s := rfl

@[simp] theorem exec_flashErase (m : FlashMaster) (addr : Nat) (ok : Bool) (s : State) :
    exec (.flashErase m addr ok) s = execFlashErase m addr ok s := rfl

@[simp] theorem exec_helloTimer (s : State) :
    exec (.helloTimer) s = execHelloTimer s := rfl

@[simp] theorem exec_loaderFrameDiscard (s : State) :
    exec (.loaderFrameDiscard) s = execLoaderFrameDiscard s := rfl

@[simp] theorem exec_helloAck (seq : Half) (version : Byte) (s : State) :
    exec (.helloAck seq version) s = execHelloAck seq version s := rfl

@[simp] theorem exec_loaderBaud (seq : Half) (rate : Word32) (s : State) :
    exec (.loaderBaud seq rate) s = execLoaderBaud seq rate s := rfl

@[simp] theorem exec_baudSwitch (s : State) :
    exec (.baudSwitch) s = execBaudSwitch s := rfl

@[simp] theorem exec_baudTimeout (s : State) :
    exec (.baudTimeout) s = execBaudTimeout s := rfl

@[simp] theorem exec_loaderIdleTimeout (s : State) :
    exec (.loaderIdleTimeout) s = execLoaderIdleTimeout s := rfl

@[simp] theorem exec_loaderBegin (seq : Half) (slot flags : Byte) (total : Word32) (s : State) :
    exec (.loaderBegin seq slot flags total) s = execLoaderBegin seq slot flags total s := rfl

@[simp] theorem exec_loaderEraseDone (s : State) :
    exec (.loaderEraseDone) s = execLoaderEraseDone s := rfl

@[simp] theorem exec_loaderData (seq : Half) (offset : Word32) (data : Bytes) (flashFail : Option Word32) (s : State) :
    exec (.loaderData seq offset data flashFail) s = execLoaderData seq offset data flashFail s := rfl

@[simp] theorem exec_loaderEnd (seq : Half) (s : State) :
    exec (.loaderEnd seq) s = execLoaderEnd seq s := rfl

@[simp] theorem exec_loaderCommit (seq : Half) (flashFail : Option Word32) (s : State) :
    exec (.loaderCommit seq flashFail) s = execLoaderCommit seq flashFail s := rfl

@[simp] theorem exec_loaderStatus (seq : Half) (s : State) :
    exec (.loaderStatus seq) s = execLoaderStatus seq s := rfl

@[simp] theorem exec_loaderBoot (seq : Half) (s : State) :
    exec (.loaderBoot seq) s = execLoaderBoot seq s := rfl

@[simp] theorem exec_loaderObject (seq : Half) (bytes : Bytes) (env : OaEnv) (s : State) :
    exec (.loaderObject seq bytes env) s = execLoaderObject seq bytes env s := rfl

@[simp] theorem exec_pldmRequestUpdate (s : State) :
    exec (.pldmRequestUpdate) s = execPldmRequestUpdate s := rfl

@[simp] theorem exec_pldmUpdateComponent (component : Half) (size : Word32) (s : State) :
    exec (.pldmUpdateComponent component size) s = execPldmUpdateComponent component size s := rfl

@[simp] theorem exec_pldmFirmwareData (offset : Word32) (data : Bytes) (s : State) :
    exec (.pldmFirmwareData offset data) s = execPldmFirmwareData offset data s := rfl

@[simp] theorem exec_pldmVerifyComplete (s : State) :
    exec (.pldmVerifyComplete) s = execPldmVerifyComplete s := rfl

@[simp] theorem exec_pldmActivate (selfContained : Bool) (s : State) :
    exec (.pldmActivate selfContained) s = execPldmActivate selfContained s := rfl

@[simp] theorem exec_pldmCancel (s : State) :
    exec (.pldmCancel) s = execPldmCancel s := rfl

@[simp] theorem exec_shortFrame (a : AssocKey) (bytes : Bytes) (s : State) :
    exec (.shortFrame a bytes) s = execShortFrame a bytes s := rfl

@[simp] theorem exec_discover (a : AssocKey) (h : OaHdr) (versions maxFrame : Nat) (s : State) :
    exec (.discover a h versions maxFrame) s = execDiscover a h versions maxFrame s := rfl

@[simp] theorem exec_read (a : AssocKey) (h : OaHdr) (items : List OaItem) (s : State) :
    exec (.read a h items) s = execRead a h items s := rfl

@[simp] theorem exec_write (a : AssocKey) (h : OaHdr) (items : List OaItem) (env : OaEnv) (s : State) :
    exec (.write a h items env) s = execWrite a h items env s := rfl

@[simp] theorem exec_notifyPeriodic (id : Nat) (s : State) :
    exec (.notifyPeriodic id) s = execNotifyPeriodic id s := rfl

@[simp] theorem exec_describe (a : AssocKey) (h : OaHdr) (items : List OaItem) (s : State) :
    exec (.describe a h items) s = execDescribe a h items s := rfl

@[simp] theorem exec_enumerate (a : AssocKey) (h : OaHdr) (index : Nat) (s : State) :
    exec (.enumerate a h index) s = execEnumerate a h index s := rfl

@[simp] theorem exec_readBlock (a : AssocKey) (h : OaHdr) (index offset length : Nat) (s : State) :
    exec (.readBlock a h index offset length) s = execReadBlock a h index offset length s := rfl

@[simp] theorem exec_writeBlock (a : AssocKey) (h : OaHdr) (index offset total : Nat) (data : Bytes) (env : OaEnv) (s : State) :
    exec (.writeBlock a h index offset total data env) s = execWriteBlock a h index offset total data env s := rfl

@[simp] theorem exec_writeBlockTimeout (a : AssocKey) (s : State) :
    exec (.writeBlockTimeout a) s = execWriteBlockTimeout a s := rfl

@[simp] theorem exec_snapshotTimeout (a : AssocKey) (s : State) :
    exec (.snapshotTimeout a) s = execSnapshotTimeout a s := rfl

@[simp] theorem exec_txnBegin (a : AssocKey) (h : OaHdr) (s : State) :
    exec (.txnBegin a h) s = execTxnBegin a h s := rfl

@[simp] theorem exec_txnCommit (a : AssocKey) (h : OaHdr) (env : OaEnv) (s : State) :
    exec (.txnCommit a h env) s = execTxnCommit a h env s := rfl

@[simp] theorem exec_txnAbort (a : AssocKey) (h : OaHdr) (s : State) :
    exec (.txnAbort a h) s = execTxnAbort a h s := rfl

@[simp] theorem exec_txnTimeout (id : Nat) (s : State) :
    exec (.txnTimeout id) s = execTxnTimeout id s := rfl

@[simp] theorem exec_subscribe (a : AssocKey) (h : OaHdr) (index mode interval : Nat) (s : State) :
    exec (.subscribe a h index mode interval) s = execSubscribe a h index mode interval s := rfl

@[simp] theorem exec_unsubscribe (a : AssocKey) (h : OaHdr) (id : Nat) (s : State) :
    exec (.unsubscribe a h id) s = execUnsubscribe a h id s := rfl

@[simp] theorem exec_cmdDone (index : Nat) (status : Nat) (result : Bytes) (s : State) :
    exec (.cmdDone index status result) s = execCmdDone index status result s := rfl

@[simp] theorem exec_secured (a : AssocKey) (session : Nat) (authentic : Bool) (inner : OaReq) (env : OaEnv) (s : State) :
    exec (.secured a session authentic inner env) s = execSecured a session authentic inner env s := rfl

@[simp] theorem exec_assocIdleTimeout (a : AssocKey) (s : State) :
    exec (.assocIdleTimeout a) s = execAssocIdleTimeout a s := rfl

@[simp] theorem exec_spdmGetVersion (a : AssocKey) (s : State) :
    exec (.spdmGetVersion a) s = execSpdmGetVersion a s := rfl

@[simp] theorem exec_spdmGetCapabilities (a : AssocKey) (flags : Nat) (s : State) :
    exec (.spdmGetCapabilities a flags) s = execSpdmGetCapabilities a flags s := rfl

@[simp] theorem exec_spdmNegotiateAlgorithms (a : AssocKey) (asym hash dhe aead : Nat) (s : State) :
    exec (.spdmNegotiateAlgorithms a asym hash dhe aead) s = execSpdmNegotiateAlgorithms a asym hash dhe aead s := rfl

@[simp] theorem exec_spdmGetDigests (a : AssocKey) (s : State) :
    exec (.spdmGetDigests a) s = execSpdmGetDigests a s := rfl

@[simp] theorem exec_spdmGetCertificate (a : AssocKey) (slot offset length : Nat) (s : State) :
    exec (.spdmGetCertificate a slot offset length) s = execSpdmGetCertificate a slot offset length s := rfl

@[simp] theorem exec_spdmChallenge (a : AssocKey) (slot : Nat) (nonce : Bytes) (s : State) :
    exec (.spdmChallenge a slot nonce) s = execSpdmChallenge a slot nonce s := rfl

@[simp] theorem exec_spdmGetMeasurements (a : AssocKey) (index : Nat) (sign : Bool) (nonce : Bytes) (s : State) :
    exec (.spdmGetMeasurements a index sign nonce) s = execSpdmGetMeasurements a index sign nonce s := rfl

@[simp] theorem exec_spdmKeyExchange (a : AssocKey) (mutualAuth : Bool) (exchange : Bytes) (s : State) :
    exec (.spdmKeyExchange a mutualAuth exchange) s = execSpdmKeyExchange a mutualAuth exchange s := rfl

@[simp] theorem exec_spdmFinish (session : Nat) (chain finish : Bytes) (s : State) :
    exec (.spdmFinish session chain finish) s = execSpdmFinish session chain finish s := rfl

@[simp] theorem exec_spdmHeartbeat (session : Nat) (s : State) :
    exec (.spdmHeartbeat session) s = execSpdmHeartbeat session s := rfl

@[simp] theorem exec_spdmKeyUpdate (session : Nat) (s : State) :
    exec (.spdmKeyUpdate session) s = execSpdmKeyUpdate session s := rfl

@[simp] theorem exec_spdmEndSession (session : Nat) (s : State) :
    exec (.spdmEndSession session) s = execSpdmEndSession session s := rfl

@[simp] theorem exec_spdmHeartbeatTimeout (session : Nat) (s : State) :
    exec (.spdmHeartbeatTimeout session) s = execSpdmHeartbeatTimeout session s := rfl

@[simp] theorem exec_mboxDoorbell (fn : MboxNo) (len : BitVec 13) (env : OaEnv) (s : State) :
    exec (.mboxDoorbell fn len env) s = execMboxDoorbell fn len env s := rfl

@[simp] theorem exec_mboxNotifyAck (fn : MboxNo) (ack : Bool) (s : State) :
    exec (.mboxNotifyAck fn ack) s = execMboxNotifyAck fn ack s := rfl

@[simp] theorem exec_oaRestoreDefaults (by_ : Issuer) (arg : Byte) (s : State) :
    exec (.oaRestoreDefaults by_ arg) s = execOaRestoreDefaults by_ arg s := rfl

@[simp] theorem exec_devWarmReset (by_ : Issuer) (arg : Byte) (s : State) :
    exec (.devWarmReset by_ arg) s = execDevWarmReset by_ arg s := rfl

@[simp] theorem exec_completionReceived (l : LinkNo) (c : CplTlp) (s : State) :
    exec (.completionReceived l c) s = execCompletionReceived l c s := rfl

@[simp] theorem exec_completionTimeout (l : LinkNo) (tag : Nat) (s : State) :
    exec (.completionTimeout l tag) s = execCompletionTimeout l tag s := rfl

@[simp] theorem exec_tagQuarantineEnd (l : LinkNo) (tag : Nat) (s : State) :
    exec (.tagQuarantineEnd l tag) s = execTagQuarantineEnd l tag s := rfl

@[simp] theorem exec_improperAccess (fn : Fn) (offset : Nat) (len : Nat) (write : Bool) (s : State) :
    exec (.improperAccess fn offset len write) s = execImproperAccess fn offset len write s := rfl

@[simp] theorem exec_bar2Tlp (l : LinkNo) (pf : Pf) (t : Bar2Tlp) (s : State) :
    exec (.bar2Tlp l pf t) s = execBar2Tlp l pf t s := rfl

@[simp] theorem exec_peerwinCommit (l : LinkNo) (pf : Pf) (go : Bool) (s : State) :
    exec (.peerwinCommit l pf go) s = execPeerwinCommit l pf go s := rfl

@[simp] theorem exec_peerwinDrainDone (l : LinkNo) (pf : Pf) (s : State) :
    exec (.peerwinDrainDone l pf) s = execPeerwinDrainDone l pf s := rfl

@[simp] theorem exec_msixUnmask (fn : Fn) (vector : Fin 2048) (s : State) :
    exec (.msixUnmask fn vector) s = execMsixUnmask fn vector s := rfl

@[simp] theorem exec_atsInvalidate (fn : Fn) (tag page count : Nat) (s : State) :
    exec (.atsInvalidate fn tag page count) s = execAtsInvalidate fn tag page count s := rfl

@[simp] theorem exec_vfEnableSet (pf : Pf) (s : State) :
    exec (.vfEnableSet pf) s = execVfEnableSet pf s := rfl

@[simp] theorem exec_vfEnableClear (pf : Pf) (s : State) :
    exec (.vfEnableClear pf) s = execVfEnableClear pf s := rfl

@[simp] theorem exec_numvfsWrite (pf : Pf) (n : Nat) (s : State) :
    exec (.numvfsWrite pf n) s = execNumvfsWrite pf n s := rfl

@[simp] theorem exec_vfFlr (vf : Vf) (s : State) :
    exec (.vfFlr vf) s = execVfFlr vf s := rfl

@[simp] theorem exec_vfFlrComplete (vf : Vf) (s : State) :
    exec (.vfFlrComplete vf) s = execVfFlrComplete vf s := rfl

@[simp] theorem exec_migFreeze (by_ : Issuer) (arg : Bytes) (s : State) :
    exec (.migFreeze by_ arg) s = execMigFreeze by_ arg s := rfl

@[simp] theorem exec_migDrain (by_ : Issuer) (arg : Bytes) (s : State) :
    exec (.migDrain by_ arg) s = execMigDrain by_ arg s := rfl

@[simp] theorem exec_drainComplete (vf : Vf) (s : State) :
    exec (.drainComplete vf) s = execDrainComplete vf s := rfl

@[simp] theorem exec_drainTimeout (vf : Vf) (s : State) :
    exec (.drainTimeout vf) s = execDrainTimeout vf s := rfl

@[simp] theorem exec_migSave (by_ : Issuer) (arg : Bytes) (s : State) :
    exec (.migSave by_ arg) s = execMigSave by_ arg s := rfl

@[simp] theorem exec_saveComplete (vf : Vf) (written : Bool) (s : State) :
    exec (.saveComplete vf written) s = execSaveComplete vf written s := rfl

@[simp] theorem exec_migRestore (by_ : Issuer) (arg : Bytes) (s : State) :
    exec (.migRestore by_ arg) s = execMigRestore by_ arg s := rfl

@[simp] theorem exec_restoreComplete (vf : Vf) (blob : Option MigBlob) (s : State) :
    exec (.restoreComplete vf blob) s = execRestoreComplete vf blob s := rfl

@[simp] theorem exec_migResume (by_ : Issuer) (arg : Bytes) (env : OaEnv) (s : State) :
    exec (.migResume by_ arg env) s = execMigResume by_ arg env s := rfl

@[simp] theorem exec_trackStart (by_ : Issuer) (arg : Bytes) (s : State) :
    exec (.trackStart by_ arg) s = execTrackStart by_ arg s := rfl

@[simp] theorem exec_trackStop (by_ : Issuer) (arg : Bytes) (s : State) :
    exec (.trackStop by_ arg) s = execTrackStop by_ arg s := rfl

@[simp] theorem exec_migHarvest (by_ : Issuer) (arg : Bytes) (s : State) :
    exec (.migHarvest by_ arg) s = execMigHarvest by_ arg s := rfl

@[simp] theorem exec_harvestComplete (vf : Vf) (copied : Bool) (s : State) :
    exec (.harvestComplete vf copied) s = execHarvestComplete vf copied s := rfl

@[simp] theorem exec_ringDoorbell (fn : Fn) (page : Nat) (slot : Fin 16) (s : State) :
    exec (.ringDoorbell fn page slot) s = execRingDoorbell fn page slot s := rfl

@[simp] theorem exec_fetchBatchReturn (ring : Nat) (reads : List EntryRead) (s : State) :
    exec (.fetchBatchReturn ring reads) s = execFetchBatchReturn ring reads s := rfl

@[simp] theorem exec_ringNop (ring : Nat) (counter : Word32) (s : State) :
    exec (.ringNop ring counter) s = execRingNop ring counter s := rfl

@[simp] theorem exec_ringTransmit (ring : Nat) (counter : Word32) (frame : Option Bytes) (s : State) :
    exec (.ringTransmit ring counter frame) s = execRingTransmit ring counter frame s := rfl

@[simp] theorem exec_transmitDone (ring : Nat) (counter : Word32) (s : State) :
    exec (.transmitDone ring counter) s = execTransmitDone ring counter s := rfl

@[simp] theorem exec_receivePost (ring : Nat) (counter : Word32) (s : State) :
    exec (.receivePost ring counter) s = execReceivePost ring counter s := rfl

@[simp] theorem exec_cqCtlblkRead (ring : Nat) (read : Option (Word32 × Bool)) (s : State) :
    exec (.cqCtlblkRead ring read) s = execCqCtlblkRead ring read s := rfl

@[simp] theorem exec_cqPollTimer (ring : Nat) (s : State) :
    exec (.cqPollTimer ring) s = execCqPollTimer ring s := rfl

@[simp] theorem exec_coalesceTimer (ring : Nat) (s : State) :
    exec (.coalesceTimer ring) s = execCoalesceTimer ring s := rfl

@[simp] theorem exec_admEnableSet (fn : Fn) (translated : Bool) (s : State) :
    exec (.admEnableSet fn translated) s = execAdmEnableSet fn translated s := rfl

@[simp] theorem exec_admEnableClear (fn : Fn) (s : State) :
    exec (.admEnableClear fn) s = execAdmEnableClear fn s := rfl

@[simp] theorem exec_adminRingsDeleted (fn : Fn) (translated : Bool) (s : State) :
    exec (.adminRingsDeleted fn translated) s = execAdminRingsDeleted fn translated s := rfl

@[simp] theorem exec_createCq (fn : Fn) (entry : Bytes) (s : State) :
    exec (.createCq fn entry) s = execCreateCq fn entry s := rfl

@[simp] theorem exec_createSq (fn : Fn) (entry : Bytes) (s : State) :
    exec (.createSq fn entry) s = execCreateSq fn entry s := rfl

@[simp] theorem exec_modifyQueue (fn : Fn) (entry : Bytes) (s : State) :
    exec (.modifyQueue fn entry) s = execModifyQueue fn entry s := rfl

@[simp] theorem exec_resetQueue (fn : Fn) (entry : Bytes) (s : State) :
    exec (.resetQueue fn entry) s = execResetQueue fn entry s := rfl

@[simp] theorem exec_deleteQueue (fn : Fn) (entry : Bytes) (s : State) :
    exec (.deleteQueue fn entry) s = execDeleteQueue fn entry s := rfl

@[simp] theorem exec_queryQueue (fn : Fn) (entry : Bytes) (s : State) :
    exec (.queryQueue fn entry) s = execQueryQueue fn entry s := rfl

@[simp] theorem exec_ringDrainDone (ring : Nat) (s : State) :
    exec (.ringDrainDone ring) s = execRingDrainDone ring s := rfl

@[simp] theorem exec_macFrameReceived (port : PortNo) (frame : Bytes) (fecOk fcsOk : Bool) (s : State) :
    exec (.macFrameReceived port frame fecOk fcsOk) s = execMacFrameReceived port frame fecOk fcsOk s := rfl

@[simp] theorem exec_pfcFrame (port : PortNo) (prio : Fin 8) (quanta : Half) (s : State) :
    exec (.pfcFrame port prio quanta) s = execPfcFrame port prio quanta s := rfl

@[simp] theorem exec_pfcPauseExpiry (port : PortNo) (prio : Fin 8) (s : State) :
    exec (.pfcPauseExpiry port prio) s = execPfcPauseExpiry port prio s := rfl

@[simp] theorem exec_xoffRefresh (port : PortNo) (prio : Fin 8) (s : State) :
    exec (.xoffRefresh port prio) s = execXoffRefresh port prio s := rfl

@[simp] theorem exec_egressTransmit (port : PortNo) (s : State) :
    exec (.egressTransmit port) s = execEgressTransmit port s := rfl

@[simp] theorem exec_timeFreqAdj (by_ : Issuer) (v : Word32) (s : State) :
    exec (.timeFreqAdj by_ v) s = execTimeFreqAdj by_ v s := rfl

@[simp] theorem exec_timeStep (by_ : Issuer) (v : Word64) (s : State) :
    exec (.timeStep by_ v) s = execTimeStep by_ v s := rfl

@[simp] theorem exec_holdoverExpiry (s : State) :
    exec (.holdoverExpiry) s = execHoldoverExpiry s := rfl

@[simp] theorem exec_ppsOutRise (s : State) :
    exec (.ppsOutRise) s = execPpsOutRise s := rfl

@[simp] theorem exec_ppsOutFall (s : State) :
    exec (.ppsOutFall) s = execPpsOutFall s := rfl

@[simp] theorem exec_ppsInEdge (s : State) :
    exec (.ppsInEdge) s = execPpsInEdge s := rfl

@[simp] theorem exec_droverDeal (s : State) :
    exec (.droverDeal) s = execDroverDeal s := rfl

@[simp] theorem exec_pipelinePacket (r : RegionNo) (ue : Bool) (s : State) :
    exec (.pipelinePacket r ue) s = execPipelinePacket r ue s := rfl

@[simp] theorem exec_deepLaneResult (r : RegionNo) (n : Fin 256) (poison : Bool) (s : State) :
    exec (.deepLaneResult r n poison) s = execDeepLaneResult r n poison s := rfl

@[simp] theorem exec_pipelineResult (r : RegionNo) (s : State) :
    exec (.pipelineResult r) s = execPipelineResult r s := rfl

@[simp] theorem exec_holeTimeout (src : BitVec 24) (s : State) :
    exec (.holeTimeout src) s = execHoleTimeout src s := rfl

@[simp] theorem exec_heldReleaseResume (src : BitVec 24) (s : State) :
    exec (.heldReleaseResume src) s = execHeldReleaseResume src s := rfl

@[simp] theorem exec_portLinkDown (port : PortNo) (s : State) :
    exec (.portLinkDown port) s = execPortLinkDown port s := rfl

@[simp] theorem exec_portLinkUp (port : PortNo) (s : State) :
    exec (.portLinkUp port) s = execPortLinkUp port s := rfl

@[simp] theorem exec_plateLoad (src : PlateSrc) (list : Option Bytes) (s : State) :
    exec (.plateLoad src list) s = execPlateLoad src list s := rfl

@[simp] theorem exec_platePrepare (src : PlateSrc) (s : State) :
    exec (.platePrepare src) s = execPlatePrepare src s := rfl

@[simp] theorem exec_plateRelease (src : PlateSrc) (s : State) :
    exec (.plateRelease src) s = execPlateRelease src s := rfl

@[simp] theorem exec_plateOpDone (s : State) :
    exec (.plateOpDone) s = execPlateOpDone s := rfl

@[simp] theorem exec_plateCommit (src : PlateSrc) (s : State) :
    exec (.plateCommit src) s = execPlateCommit src s := rfl

@[simp] theorem exec_pinnedWrite (l : LinkNo) (slot : Fin 64) (off : Nat) (bytes : Bytes) (s : State) :
    exec (.pinnedWrite l slot off bytes) s = execPinnedWrite l slot off bytes s := rfl

@[simp] theorem exec_pinnedApply (r : RegionNo) (s : State) :
    exec (.pinnedApply r) s = execPinnedApply r s := rfl

@[simp] theorem exec_pinWrite (by_ : Issuer) (arg : Bytes) (s : State) :
    exec (.pinWrite by_ arg) s = execPinWrite by_ arg s := rfl

@[simp] theorem exec_counterClear (by_ : Issuer) (n : Half) (s : State) :
    exec (.counterClear by_ n) s = execCounterClear by_ n s := rfl

@[simp] theorem exec_learnArbiterEvent (s : State) :
    exec (.learnArbiterEvent) s = execLearnArbiterEvent s := rfl

@[simp] theorem exec_agerSweep (s : State) :
    exec (.agerSweep) s = execAgerSweep s := rfl

@[simp] theorem exec_learnBatchSend (s : State) :
    exec (.learnBatchSend) s = execLearnBatchSend s := rfl

@[simp] theorem exec_learnFrameReceived (s : State) :
    exec (.learnFrameReceived) s = execLearnFrameReceived s := rfl

@[simp] theorem exec_learnRefreshTimer (s : State) :
    exec (.learnRefreshTimer) s = execLearnRefreshTimer s := rfl

@[simp] theorem exec_tblListStart (src : TblSrc) (s : State) :
    exec (.tblListStart src) s = execTblListStart src s := rfl

@[simp] theorem exec_connInsert (rec : Option Bytes) (s : State) :
    exec (.connInsert rec) s = execConnInsert rec s := rfl

@[simp] theorem exec_connModify (rec : Option Bytes) (s : State) :
    exec (.connModify rec) s = execConnModify rec s := rfl

@[simp] theorem exec_connDelete (rec : Option Bytes) (s : State) :
    exec (.connDelete rec) s = execConnDelete rec s := rfl

@[simp] theorem exec_brInsert (rec : Option Bytes) (s : State) :
    exec (.brInsert rec) s = execBrInsert rec s := rfl

@[simp] theorem exec_brDelete (rec : Option Bytes) (s : State) :
    exec (.brDelete rec) s = execBrDelete rec s := rfl

@[simp] theorem exec_brFlush (rec : Option Bytes) (s : State) :
    exec (.brFlush rec) s = execBrFlush rec s := rfl

@[simp] theorem exec_proofStart (by_ : Issuer) (arg : Bytes) (s : State) :
    exec (.proofStart by_ arg) s = execProofStart by_ arg s := rfl

@[simp] theorem exec_proofResume (by_ : Issuer) (arg : Bytes) (s : State) :
    exec (.proofResume by_ arg) s = execProofResume by_ arg s := rfl

@[simp] theorem exec_proofAbort (by_ : Issuer) (arg : Bytes) (s : State) :
    exec (.proofAbort by_ arg) s = execProofAbort by_ arg s := rfl

@[simp] theorem exec_proofRingPoll (consumer : Option Word32) (s : State) :
    exec (.proofRingPoll consumer) s = execProofRingPoll consumer s := rfl

@[simp] theorem exec_proofPassEnd (s : State) :
    exec (.proofPassEnd) s = execProofPassEnd s := rfl

@[simp] theorem exec_keyWrite (src : KeySrc) (s : State) :
    exec (.keyWrite src) s = execKeyWrite src s := rfl

@[simp] theorem exec_keyErase (src : KeySrc) (s : State) :
    exec (.keyErase src) s = execKeyErase src s := rfl

@[simp] theorem exec_keyWindowClear (fn : Fn) (s : State) :
    exec (.keyWindowClear fn) s = execKeyWindowClear fn s := rfl

@[simp] theorem exec_saCreate (by_ : Issuer) (arg : Bytes) (s : State) :
    exec (.saCreate by_ arg) s = execSaCreate by_ arg s := rfl

@[simp] theorem exec_saDelete (by_ : Issuer) (arg : Bytes) (s : State) :
    exec (.saDelete by_ arg) s = execSaDelete by_ arg s := rfl

@[simp] theorem exec_saQuery (by_ : Issuer) (arg : Bytes) (s : State) :
    exec (.saQuery by_ arg) s = execSaQuery by_ arg s := rfl

@[simp] theorem exec_laQueueCreate (by_ : Issuer) (arg : Bytes) (s : State) :
    exec (.laQueueCreate by_ arg) s = execLaQueueCreate by_ arg s := rfl

@[simp] theorem exec_laQueueDelete (by_ : Issuer) (arg : Bytes) (s : State) :
    exec (.laQueueDelete by_ arg) s = execLaQueueDelete by_ arg s := rfl

@[simp] theorem exec_laDoorbell (r : RegionNo) (q : Fin 32) (s : State) :
    exec (.laDoorbell r q) s = execLaDoorbell r q s := rfl

@[simp] theorem exec_laJobComplete (r : RegionNo) (q : Fin 32) (s : State) :
    exec (.laJobComplete r q) s = execLaJobComplete r q s := rfl

@[simp] theorem exec_maskStarveTimeout (r : RegionNo) (s : State) :
    exec (.maskStarveTimeout r) s = execMaskStarveTimeout r s := rfl

@[simp] theorem exec_trngHealthFail (s : State) :
    exec (.trngHealthFail) s = execTrngHealthFail s := rfl

@[simp] theorem exec_trngRetest (pass : Bool) (s : State) :
    exec (.trngRetest pass) s = execTrngRetest pass s := rfl

@[simp] theorem exec_drbgReseed (s : State) :
    exec (.drbgReseed) s = execDrbgReseed s := rfl

@[simp] theorem exec_createQp (by_ : Issuer) (arg : Bytes) (s : State) :
    exec (.createQp by_ arg) s = execCreateQp by_ arg s := rfl

@[simp] theorem exec_modifyQp (by_ : Issuer) (arg : Bytes) (s : State) :
    exec (.modifyQp by_ arg) s = execModifyQp by_ arg s := rfl

@[simp] theorem exec_destroyQp (by_ : Issuer) (arg : Bytes) (s : State) :
    exec (.destroyQp by_ arg) s = execDestroyQp by_ arg s := rfl

@[simp] theorem exec_destroyQpDone (qpn : Nat) (s : State) :
    exec (.destroyQpDone qpn) s = execDestroyQpDone qpn s := rfl

@[simp] theorem exec_queryQp (by_ : Issuer) (arg : Bytes) (s : State) :
    exec (.queryQp by_ arg) s = execQueryQp by_ arg s := rfl

@[simp] theorem exec_createSrq (by_ : Issuer) (arg : Bytes) (s : State) :
    exec (.createSrq by_ arg) s = execCreateSrq by_ arg s := rfl

@[simp] theorem exec_destroySrq (by_ : Issuer) (arg : Bytes) (s : State) :
    exec (.destroySrq by_ arg) s = execDestroySrq by_ arg s := rfl

@[simp] theorem exec_armSrq (by_ : Issuer) (arg : Bytes) (s : State) :
    exec (.armSrq by_ arg) s = execArmSrq by_ arg s := rfl

@[simp] theorem exec_createAh (by_ : Issuer) (arg : Bytes) (s : State) :
    exec (.createAh by_ arg) s = execCreateAh by_ arg s := rfl

@[simp] theorem exec_destroyAh (by_ : Issuer) (arg : Bytes) (s : State) :
    exec (.destroyAh by_ arg) s = execDestroyAh by_ arg s := rfl

@[simp] theorem exec_setGid (by_ : Issuer) (arg : Bytes) (s : State) :
    exec (.setGid by_ arg) s = execSetGid by_ arg s := rfl

@[simp] theorem exec_regMr (by_ : Issuer) (arg : Bytes) (s : State) :
    exec (.regMr by_ arg) s = execRegMr by_ arg s := rfl

@[simp] theorem exec_revokeMr (by_ : Issuer) (arg : Bytes) (s : State) :
    exec (.revokeMr by_ arg) s = execRevokeMr by_ arg s := rfl

@[simp] theorem exec_revokeMrDone (key : Nat) (s : State) :
    exec (.revokeMrDone key) s = execRevokeMrDone key s := rfl

@[simp] theorem exec_queryMr (by_ : Issuer) (arg : Bytes) (s : State) :
    exec (.queryMr by_ arg) s = execQueryMr by_ arg s := rfl

@[simp] theorem exec_rdmaSend (ring : Nat) (counter : Word32) (s : State) :
    exec (.rdmaSend ring counter) s = execRdmaSend ring counter s := rfl

@[simp] theorem exec_rdmaSendImm (ring : Nat) (counter : Word32) (s : State) :
    exec (.rdmaSendImm ring counter) s = execRdmaSendImm ring counter s := rfl

@[simp] theorem exec_rdmaWrite (ring : Nat) (counter : Word32) (s : State) :
    exec (.rdmaWrite ring counter) s = execRdmaWrite ring counter s := rfl

@[simp] theorem exec_rdmaWriteImm (ring : Nat) (counter : Word32) (s : State) :
    exec (.rdmaWriteImm ring counter) s = execRdmaWriteImm ring counter s := rfl

@[simp] theorem exec_rdmaRead (ring : Nat) (counter : Word32) (s : State) :
    exec (.rdmaRead ring counter) s = execRdmaRead ring counter s := rfl

@[simp] theorem exec_rdmaRecv (ring : Nat) (counter : Word32) (s : State) :
    exec (.rdmaRecv ring counter) s = execRdmaRecv ring counter s := rfl

@[simp] theorem exec_rdmaWait (ring : Nat) (counter : Word32) (s : State) :
    exec (.rdmaWait ring counter) s = execRdmaWait ring counter s := rfl

@[simp] theorem exec_waitSatisfied (qpn : Nat) (s : State) :
    exec (.waitSatisfied qpn) s = execWaitSatisfied qpn s := rfl

@[simp] theorem exec_requestPacketSend (qpn : Nat) (mem : HostRead) (s : State) :
    exec (.requestPacketSend qpn mem) s = execRequestPacketSend qpn mem s := rfl

@[simp] theorem exec_rocePacketReceived (r : RegionNo) (mem : HostRead) (s : State) :
    exec (.rocePacketReceived r mem) s = execRocePacketReceived r mem s := rfl

@[simp] theorem exec_contextFetchDone (qpn : Nat) (s : State) :
    exec (.contextFetchDone qpn) s = execContextFetchDone qpn s := rfl

@[simp] theorem exec_ackReceived (r : RegionNo) (s : State) :
    exec (.ackReceived r) s = execAckReceived r s := rfl

@[simp] theorem exec_nakReceived (r : RegionNo) (s : State) :
    exec (.nakReceived r) s = execNakReceived r s := rfl

@[simp] theorem exec_readResponseReceived (r : RegionNo) (mem : HostRead) (s : State) :
    exec (.readResponseReceived r mem) s = execReadResponseReceived r mem s := rfl

@[simp] theorem exec_cnpReceived (r : RegionNo) (s : State) :
    exec (.cnpReceived r) s = execCnpReceived r s := rfl

@[simp] theorem exec_ackSendTimer (qpn : Nat) (lane : Fin 8) (s : State) :
    exec (.ackSendTimer qpn lane) s = execAckSendTimer qpn lane s := rfl

@[simp] theorem exec_ackTimeout (qpn : Nat) (lane : Fin 8) (s : State) :
    exec (.ackTimeout qpn lane) s = execAckTimeout qpn lane s := rfl

@[simp] theorem exec_laneReadmit (qpn : Nat) (lane : Fin 8) (s : State) :
    exec (.laneReadmit qpn lane) s = execLaneReadmit qpn lane s := rfl

@[simp] theorem exec_rnrTimerExpiry (qpn : Nat) (s : State) :
    exec (.rnrTimerExpiry qpn) s = execRnrTimerExpiry qpn s := rfl

@[simp] theorem exec_rateRecoveryPeriod (qpn : Nat) (lane : Fin 8) (s : State) :
    exec (.rateRecoveryPeriod qpn lane) s = execRateRecoveryPeriod qpn lane s := rfl

@[simp] theorem exec_ccEnSet (c : CtlNo) (v : Word32) (s : State) :
    exec (.ccEnSet c v) s = execCcEnSet c v s := rfl

@[simp] theorem exec_controllerReady (c : CtlNo) (s : State) :
    exec (.controllerReady c) s = execControllerReady c s := rfl

@[simp] theorem exec_ccEnClear (c : CtlNo) (v : Word32) (s : State) :
    exec (.ccEnClear c v) s = execCcEnClear c v s := rfl

@[simp] theorem exec_ccShn (c : CtlNo) (v : Word32) (s : State) :
    exec (.ccShn c v) s = execCcShn c v s := rfl

@[simp] theorem exec_shutdownComplete (c : CtlNo) (s : State) :
    exec (.shutdownComplete c) s = execShutdownComplete c s := rfl

@[simp] theorem exec_sqTailDoorbell (c : CtlNo) (q : Nat) (v : Half) (s : State) :
    exec (.sqTailDoorbell c q v) s = execSqTailDoorbell c q v s := rfl

@[simp] theorem exec_cqHeadDoorbell (c : CtlNo) (q : Nat) (v : Half) (s : State) :
    exec (.cqHeadDoorbell c q v) s = execCqHeadDoorbell c q v s := rfl

@[simp] theorem exec_fetchPick (entries : List (Option Bytes)) (s : State) :
    exec (.fetchPick entries) s = execFetchPick entries s := rfl

@[simp] theorem exec_nvmeCommandComplete (c : CtlNo) (sq cid : Nat) (fault : Option NvFault) (s : State) :
    exec (.nvmeCommandComplete c sq cid fault) s = execNvmeCommandComplete c sq cid fault s := rfl

@[simp] theorem exec_queueMemoryFault (c : CtlNo) (isCq : Bool) (q : Nat) (s : State) :
    exec (.queueMemoryFault c isCq q) s = execQueueMemoryFault c isCq q s := rfl

@[simp] theorem exec_createIoSq (c : CtlNo) (cid : Nat) (s : State) :
    exec (.createIoSq c cid) s = execCreateIoSq c cid s := rfl

@[simp] theorem exec_createIoCq (c : CtlNo) (cid : Nat) (s : State) :
    exec (.createIoCq c cid) s = execCreateIoCq c cid s := rfl

@[simp] theorem exec_deleteIoSq (c : CtlNo) (cid : Nat) (s : State) :
    exec (.deleteIoSq c cid) s = execDeleteIoSq c cid s := rfl

@[simp] theorem exec_deleteIoCq (c : CtlNo) (cid : Nat) (s : State) :
    exec (.deleteIoCq c cid) s = execDeleteIoCq c cid s := rfl

@[simp] theorem exec_getLogPage (c : CtlNo) (cid : Nat) (lists : List Segment) (s : State) :
    exec (.getLogPage c cid lists) s = execGetLogPage c cid lists s := rfl

@[simp] theorem exec_identify (c : CtlNo) (cid : Nat) (lists : List Segment) (s : State) :
    exec (.identify c cid lists) s = execIdentify c cid lists s := rfl

@[simp] theorem exec_nvmAbort (c : CtlNo) (cid : Nat) (s : State) :
    exec (.nvmAbort c cid) s = execNvmAbort c cid s := rfl

@[simp] theorem exec_setFeatures (c : CtlNo) (cid : Nat) (mem : HostRead) (s : State) :
    exec (.setFeatures c cid mem) s = execSetFeatures c cid mem s := rfl

@[simp] theorem exec_getFeatures (c : CtlNo) (cid : Nat) (lists : List Segment) (s : State) :
    exec (.getFeatures c cid lists) s = execGetFeatures c cid lists s := rfl

@[simp] theorem exec_asyncEventRequest (c : CtlNo) (cid : Nat) (s : State) :
    exec (.asyncEventRequest c cid) s = execAsyncEventRequest c cid s := rfl

@[simp] theorem exec_nvmFlush (c : CtlNo) (sq cid : Nat) (th : ThreadNo) (s : State) :
    exec (.nvmFlush c sq cid th) s = execNvmFlush c sq cid th s := rfl

@[simp] theorem exec_nvmWrite (c : CtlNo) (sq cid : Nat) (th : ThreadNo) (lists : List Segment) (s : State) :
    exec (.nvmWrite c sq cid th lists) s = execNvmWrite c sq cid th lists s := rfl

@[simp] theorem exec_nvmRead (c : CtlNo) (sq cid : Nat) (th : ThreadNo) (lists : List Segment) (media : HostRead) (s : State) :
    exec (.nvmRead c sq cid th lists media) s = execNvmRead c sq cid th lists media s := rfl

@[simp] theorem exec_nvmWriteZeroes (c : CtlNo) (sq cid : Nat) (th : ThreadNo) (s : State) :
    exec (.nvmWriteZeroes c sq cid th) s = execNvmWriteZeroes c sq cid th s := rfl

@[simp] theorem exec_datasetManagement (c : CtlNo) (sq cid : Nat) (th : ThreadNo) (ranges : HostRead) (s : State) :
    exec (.datasetManagement c sq cid th ranges) s = execDatasetManagement c sq cid th ranges s := rfl

@[simp] theorem exec_zoneSend (c : CtlNo) (sq cid : Nat) (th : ThreadNo) (s : State) :
    exec (.zoneSend c sq cid th) s = execZoneSend c sq cid th s := rfl

@[simp] theorem exec_zoneReceive (c : CtlNo) (sq cid : Nat) (th : ThreadNo) (lists : List Segment) (s : State) :
    exec (.zoneReceive c sq cid th lists) s = execZoneReceive c sq cid th lists s := rfl

@[simp] theorem exec_zoneAppend (c : CtlNo) (sq cid : Nat) (th : ThreadNo) (lists : List Segment) (s : State) :
    exec (.zoneAppend c sq cid th lists) s = execZoneAppend c sq cid th lists s := rfl

@[simp] theorem exec_nsAttach (by_ : Issuer) (arg : Bytes) (s : State) :
    exec (.nsAttach by_ arg) s = execNsAttach by_ arg s := rfl

@[simp] theorem exec_nsDetach (by_ : Issuer) (arg : Bytes) (s : State) :
    exec (.nsDetach by_ arg) s = execNsDetach by_ arg s := rfl

@[simp] theorem exec_nsAttachQuery (by_ : Issuer) (arg : Bytes) (s : State) :
    exec (.nsAttachQuery by_ arg) s = execNsAttachQuery by_ arg s := rfl

@[simp] theorem exec_beDefine (by_ : Issuer) (arg : Bytes) (ident : Option BeIdent) (s : State) :
    exec (.beDefine by_ arg ident) s = execBeDefine by_ arg ident s := rfl

@[simp] theorem exec_beRemove (by_ : Issuer) (arg : Bytes) (s : State) :
    exec (.beRemove by_ arg) s = execBeRemove by_ arg s := rfl

@[simp] theorem exec_beQuery (by_ : Issuer) (arg : Bytes) (s : State) :
    exec (.beQuery by_ arg) s = execBeQuery by_ arg s := rfl

@[simp] theorem exec_nsCreate (by_ : Issuer) (arg : Bytes) (s : State) :
    exec (.nsCreate by_ arg) s = execNsCreate by_ arg s := rfl

@[simp] theorem exec_nsDelete (by_ : Issuer) (arg : Bytes) (s : State) :
    exec (.nsDelete by_ arg) s = execNsDelete by_ arg s := rfl

@[simp] theorem exec_nsQuery (by_ : Issuer) (arg : Bytes) (s : State) :
    exec (.nsQuery by_ arg) s = execNsQuery by_ arg s := rfl

@[simp] theorem exec_nsRecover (by_ : Issuer) (arg : Bytes) (s : State) :
    exec (.nsRecover by_ arg) s = execNsRecover by_ arg s := rfl

@[simp] theorem exec_atomicPiece (c : CtlNo) (sq cid : Nat) (mem : HostRead) (s : State) :
    exec (.atomicPiece c sq cid mem) s = execAtomicPiece c sq cid mem s := rfl

@[simp] theorem exec_logWriteComplete (log : Fin 8) (seq : Nat) (ok : Bool) (s : State) :
    exec (.logWriteComplete log seq ok) s = execLogWriteComplete log seq ok s := rfl

@[simp] theorem exec_homeWriteComplete (log : Fin 8) (seq : Nat) (ok : Bool) (s : State) :
    exec (.homeWriteComplete log seq ok) s = execHomeWriteComplete log seq ok s := rfl

@[simp] theorem exec_checkpointWrite (log : Fin 8) (s : State) :
    exec (.checkpointWrite log) s = execCheckpointWrite log s := rfl

@[simp] theorem exec_logReplay (log : Fin 8) (cps : List Bytes) (slots : List (Bytes × Bytes)) (s : State) :
    exec (.logReplay log cps slots) s = execLogReplay log cps slots s := rfl

@[simp] theorem exec_backendLost (be_ : Fin 64) (s : State) :
    exec (.backendLost be_) s = execBackendLost be_ s := rfl

@[simp] theorem exec_backendReturn (be_ : Fin 64) (s : State) :
    exec (.backendReturn be_) s = execBackendReturn be_ s := rfl

@[simp] theorem exec_resyncComplete (ns : Nat) (s : State) :
    exec (.resyncComplete ns) s = execResyncComplete ns s := rfl

@[simp] theorem exec_beWaitLimit (ns : Nat) (s : State) :
    exec (.beWaitLimit ns) s = execBeWaitLimit ns s := rfl

@[simp] theorem exec_zoneSeal (ns zone : Nat) (s : State) :
    exec (.zoneSeal ns zone) s = execZoneSeal ns zone s := rfl

@[simp] theorem exec_sealVerifyStart (by_ : Issuer) (arg : Bytes) (s : State) :
    exec (.sealVerifyStart by_ arg) s = execSealVerifyStart by_ arg s := rfl

@[simp] theorem exec_sealVerifyResume (by_ : Issuer) (arg : Bytes) (s : State) :
    exec (.sealVerifyResume by_ arg) s = execSealVerifyResume by_ arg s := rfl

@[simp] theorem exec_sealVerifyAbort (by_ : Issuer) (arg : Bytes) (s : State) :
    exec (.sealVerifyAbort by_ arg) s = execSealVerifyAbort by_ arg s := rfl

@[simp] theorem exec_sealVerifyEnd (s : State) :
    exec (.sealVerifyEnd) s = execSealVerifyEnd s := rfl

@[simp] theorem exec_sealExport (by_ : Issuer) (arg : Bytes) (chain : Option Bytes) (s : State) :
    exec (.sealExport by_ arg chain) s = execSealExport by_ arg chain s := rfl

@[simp] theorem exec_slotPresence (k : SlotNo) (present : Bool) (s : State) :
    exec (.slotPresence k present) s = execSlotPresence k present s := rfl

@[simp] theorem exec_slotPowerFault (k : SlotNo) (low : Bool) (s : State) :
    exec (.slotPowerFault k low) s = execSlotPowerFault k low s := rfl

@[simp] theorem exec_slotAttention (k : SlotNo) (s : State) :
    exec (.slotAttention k) s = execSlotAttention k s := rfl

@[simp] theorem exec_attentionWindow (k : SlotNo) (s : State) :
    exec (.attentionWindow k) s = execAttentionWindow k s := rfl

@[simp] theorem exec_slotPowerOn (k : SlotNo) (by_ : Option Issuer) (s : State) :
    exec (.slotPowerOn k by_) s = execSlotPowerOn k by_ s := rfl

@[simp] theorem exec_slotSettle (k : SlotNo) (s : State) :
    exec (.slotSettle k) s = execSlotSettle k s := rfl

@[simp] theorem exec_dlActive (k : SlotNo) (rate : Fin 6) (width : Fin 17) (ident : Option BeIdent) (s : State) :
    exec (.dlActive k rate width ident) s = execDlActive k rate width ident s := rfl

@[simp] theorem exec_slotTrainingTimeout (k : SlotNo) (s : State) :
    exec (.slotTrainingTimeout k) s = execSlotTrainingTimeout k s := rfl

@[simp] theorem exec_slotPowerOff (k : SlotNo) (by_ : Option Issuer) (s : State) :
    exec (.slotPowerOff k by_) s = execSlotPowerOff k by_ s := rfl

@[simp] theorem exec_slotPwrenOff (k : SlotNo) (s : State) :
    exec (.slotPwrenOff k) s = execSlotPwrenOff k s := rfl

@[simp] theorem exec_slotOffWait (k : SlotNo) (s : State) :
    exec (.slotOffWait k) s = execSlotOffWait k s := rfl

@[simp] theorem exec_slotAtnOff (k : SlotNo) (by_ : Issuer) (s : State) :
    exec (.slotAtnOff k by_) s = execSlotAtnOff k by_ s := rfl

@[simp] theorem exec_slotAtnOn (k : SlotNo) (by_ : Issuer) (s : State) :
    exec (.slotAtnOn k by_) s = execSlotAtnOn k by_ s := rfl

@[simp] theorem exec_slotAtnBlink (k : SlotNo) (by_ : Issuer) (s : State) :
    exec (.slotAtnBlink k by_) s = execSlotAtnBlink k by_ s := rfl

@[simp] theorem exec_slotControl (k : SlotNo) (v clear : Half) (s : State) :
    exec (.slotControl k v clear) s = execSlotControl k v clear s := rfl

@[simp] theorem exec_driveLinkDown (k : SlotNo) (ltssm : Byte) (s : State) :
    exec (.driveLinkDown k ltssm) s = execDriveLinkDown k ltssm s := rfl

@[simp] theorem exec_driveError (k : SlotNo) (kind : Fin 3) (s : State) :
    exec (.driveError k kind) s = execDriveError k kind s := rfl

@[simp] theorem exec_driveTimeout (k : SlotNo) (tag : Fin 1024) (s : State) :
    exec (.driveTimeout k tag) s = execDriveTimeout k tag s := rfl

@[simp] theorem exec_dpcClear (k : SlotNo) (s : State) :
    exec (.dpcClear k) s = execDpcClear k s := rfl

@[simp] theorem exec_rvInstruction (t : ThreadNo) (env : OaEnv) (s : State) :
    exec (.rvInstruction t env) s = execRvInstruction t env s := rfl

@[simp] theorem exec_hostWindowReadReturn (t : ThreadNo) (r : HostRead) (s : State) :
    exec (.hostWindowReadReturn t r) s = execHostWindowReadReturn t r s := rfl

@[simp] theorem exec_machineTimerInterrupt (t : ThreadNo) (s : State) :
    exec (.machineTimerInterrupt t) s = execMachineTimerInterrupt t s := rfl

@[simp] theorem exec_kwcmoClean (t : ThreadNo) (addr : Nat) (s : State) :
    exec (.kwcmoClean t addr) s = execKwcmoClean t addr s := rfl

@[simp] theorem exec_kwcmoInvalidate (t : ThreadNo) (addr : Nat) (s : State) :
    exec (.kwcmoInvalidate t addr) s = execKwcmoInvalidate t addr s := rfl

@[simp] theorem exec_kwcmoCleanInvalidate (t : ThreadNo) (addr : Nat) (s : State) :
    exec (.kwcmoCleanInvalidate t addr) s = execKwcmoCleanInvalidate t addr s := rfl

@[simp] theorem exec_kwicfill (t : ThreadNo) (v : Word64) (s : State) :
    exec (.kwicfill t v) s = execKwicfill t v s := rfl

@[simp] theorem exec_cellStart (c : CellNo) (v : Word64) (s : State) :
    exec (.cellStart c v) s = execCellStart c v s := rfl

@[simp] theorem exec_cellWdogKick (c : CellNo) (s : State) :
    exec (.cellWdogKick c) s = execCellWdogKick c s := rfl

@[simp] theorem exec_cellWatchdogExpiry (c : CellNo) (s : State) :
    exec (.cellWatchdogExpiry c) s = execCellWatchdogExpiry c s := rfl

@[simp] theorem exec_bwAckNoAction (b : BlockNo) (seq : Half) (s : State) :
    exec (.bwAckNoAction b seq) s = execBwAckNoAction b seq s := rfl

@[simp] theorem exec_bwAckResetRequest (b : BlockNo) (seq : Half) (s : State) :
    exec (.bwAckResetRequest b seq) s = execBwAckResetRequest b seq s := rfl

@[simp] theorem exec_bwConsumerWrite (b : BlockNo) (v : Word32) (s : State) :
    exec (.bwConsumerWrite b v) s = execBwConsumerWrite b v s := rfl

@[simp] theorem exec_cellReset (by_ : Issuer) (arg : Byte) (s : State) :
    exec (.cellReset by_ arg) s = execCellReset by_ arg s := rfl

@[simp] theorem exec_pktGet (t : ThreadNo) (rd rs1 : Fin 32) (s : State) :
    exec (.pktGet t rd rs1) s = execPktGet t rd rs1 s := rfl

@[simp] theorem exec_pktTryget (t : ThreadNo) (rd rs1 : Fin 32) (s : State) :
    exec (.pktTryget t rd rs1) s = execPktTryget t rd rs1 s := rfl

@[simp] theorem exec_pktPut (t : ThreadNo) (rd rs1 rs2 : Fin 32) (s : State) :
    exec (.pktPut t rd rs1 rs2) s = execPktPut t rd rs1 rs2 s := rfl

@[simp] theorem exec_lkAcq (t : ThreadNo) (rd rs1 : Fin 32) (s : State) :
    exec (.lkAcq t rd rs1) s = execLkAcq t rd rs1 s := rfl

@[simp] theorem exec_lkTry (t : ThreadNo) (rd rs1 : Fin 32) (s : State) :
    exec (.lkTry t rd rs1) s = execLkTry t rd rs1 s := rfl

@[simp] theorem exec_lkRel (t : ThreadNo) (rd rs1 : Fin 32) (s : State) :
    exec (.lkRel t rd rs1) s = execLkRel t rd rs1 s := rfl

@[simp] theorem exec_evWait (t : ThreadNo) (rd rs1 rs2 : Fin 32) (s : State) :
    exec (.evWait t rd rs1 rs2) s = execEvWait t rd rs1 rs2 s := rfl

@[simp] theorem exec_evSig (t : ThreadNo) (rd rs1 : Fin 32) (s : State) :
    exec (.evSig t rd rs1) s = execEvSig t rd rs1 s := rfl

@[simp] theorem exec_evAdd (t : ThreadNo) (rd rs1 rs2 : Fin 32) (s : State) :
    exec (.evAdd t rd rs1 rs2) s = execEvAdd t rd rs1 rs2 s := rfl

@[simp] theorem exec_evAddRegister (b : BlockNo) (k : Fin 1024) (v : Word64) (s : State) :
    exec (.evAddRegister b k v) s = execEvAddRegister b k v s := rfl

@[simp] theorem exec_chRes (t : ThreadNo) (rd rs1 : Fin 32) (s : State) :
    exec (.chRes t rd rs1) s = execChRes t rd rs1 s := rfl

@[simp] theorem exec_chPub (t : ThreadNo) (rd rs1 : Fin 32) (s : State) :
    exec (.chPub t rd rs1) s = execChPub t rd rs1 s := rfl

@[simp] theorem exec_chRead (t : ThreadNo) (rd rs1 rs2 : Fin 32) (s : State) :
    exec (.chRead t rd rs1 rs2) s = execChRead t rd rs1 rs2 s := rfl

@[simp] theorem exec_channelOpen (b : BlockNo) (n : Fin 256) (v : Word32) (s : State) :
    exec (.channelOpen b n v) s = execChannelOpen b n v s := rfl

@[simp] theorem exec_channelClose (b : BlockNo) (n : Fin 256) (v : Word32) (s : State) :
    exec (.channelClose b n v) s = execChannelClose b n v s := rfl

@[simp] theorem exec_leChAbort (b : BlockNo) (n : Fin 256) (debug : Bool) (s : State) :
    exec (.leChAbort b n debug) s = execLeChAbort b n debug s := rfl

@[simp] theorem exec_waitWatchdogExpiry (t : ThreadNo) (s : State) :
    exec (.waitWatchdogExpiry t) s = execWaitWatchdogExpiry t s := rfl

@[simp] theorem exec_blockStall (b : BlockNo) (s : State) :
    exec (.blockStall b) s = execBlockStall b s := rfl

@[simp] theorem exec_dmaChannelEnable (r : RegionNo) (c : Fin 32) (v : Word32) (s : State) :
    exec (.dmaChannelEnable r c v) s = execDmaChannelEnable r c v s := rfl

@[simp] theorem exec_dmaChannelDisable (r : RegionNo) (c : Fin 32) (v : Word32) (s : State) :
    exec (.dmaChannelDisable r c v) s = execDmaChannelDisable r c v s := rfl

@[simp] theorem exec_dmaChKick (r : RegionNo) (c : Fin 32) (s : State) :
    exec (.dmaChKick r c) s = execDmaChKick r c s := rfl

@[simp] theorem exec_dmaDescriptorRead (r : RegionNo) (c : Fin 32) (s : State) :
    exec (.dmaDescriptorRead r c) s = execDmaDescriptorRead r c s := rfl

@[simp] theorem exec_dmaCopy (r : RegionNo) (c : Fin 32) (src : List HostRead) (s : State) :
    exec (.dmaCopy r c src) s = execDmaCopy r c src s := rfl

@[simp] theorem exec_dmaFill (r : RegionNo) (c : Fin 32) (s : State) :
    exec (.dmaFill r c) s = execDmaFill r c s := rfl

@[simp] theorem exec_dmaCompare (r : RegionNo) (c : Fin 32) (src dst : List HostRead) (s : State) :
    exec (.dmaCompare r c src dst) s = execDmaCompare r c src dst s := rfl

@[simp] theorem exec_dmaBurstStart (r : RegionNo) (line : Fin 64) (s : State) :
    exec (.dmaBurstStart r line) s = execDmaBurstStart r line s := rfl

@[simp] theorem exec_dmaDescriptorComplete (r : RegionNo) (c : Fin 32) (s : State) :
    exec (.dmaDescriptorComplete r c) s = execDmaDescriptorComplete r c s := rfl

@[simp] theorem exec_dmaBusError (r : RegionNo) (addr : Word64) (space : Fin 3) (write : Bool) (fn : BitVec 12) (code : Fin 8) (s : State) :
    exec (.dmaBusError r addr space write fn code) s = execDmaBusError r addr space write fn code s := rfl

@[simp] theorem exec_dmaDrained (r : RegionNo) (s : State) :
    exec (.dmaDrained r) s = execDmaDrained r s := rfl

@[simp] theorem exec_dmaBusErrorClear (r : RegionNo) (s : State) :
    exec (.dmaBusErrorClear r) s = execDmaBusErrorClear r s := rfl

@[simp] theorem exec_dmaStop (r : RegionNo) (c : Fin 32) (s : State) :
    exec (.dmaStop r c) s = execDmaStop r c s := rfl

@[simp] theorem exec_dmaResume (r : RegionNo) (c : Fin 32) (s : State) :
    exec (.dmaResume r c) s = execDmaResume r c s := rfl

@[simp] theorem exec_dmaRestart (r : RegionNo) (c : Fin 32) (s : State) :
    exec (.dmaRestart r c) s = execDmaRestart r c s := rfl

@[simp] theorem exec_dmaSkip (r : RegionNo) (c : Fin 32) (s : State) :
    exec (.dmaSkip r c) s = execDmaSkip r c s := rfl

@[simp] theorem exec_dmaReqSw (r : RegionNo) (lines : Half) (s : State) :
    exec (.dmaReqSw r lines) s = execDmaReqSw r lines s := rfl

@[simp] theorem exec_dmaReqClear (r : RegionNo) (line : Fin 64) (s : State) :
    exec (.dmaReqClear r line) s = execDmaReqClear r line s := rfl

@[simp] theorem exec_dmaTimerPulse (r : RegionNo) (k : Fin 4) (s : State) :
    exec (.dmaTimerPulse r k) s = execDmaTimerPulse r k s := rfl

@[simp] theorem exec_memoryRead (line : Nat) (errs : List (Fin 80 × Byte)) (s : State) :
    exec (.memoryRead line errs) s = execMemoryRead line errs s := rfl

@[simp] theorem exec_memoryWrite (line : Nat) (off : Fin 64) (data : Bytes) (poison : Bool) (s : State) :
    exec (.memoryWrite line off data poison) s = execMemoryWrite line off data poison s := rfl

@[simp] theorem exec_memDeviceMark (by_ : Issuer) (arg : Bytes) (s : State) :
    exec (.memDeviceMark by_ arg) s = execMemDeviceMark by_ arg s := rfl

@[simp] theorem exec_memDeviceClear (by_ : Issuer) (arg : Bytes) (s : State) :
    exec (.memDeviceClear by_ arg) s = execMemDeviceClear by_ arg s := rfl

@[simp] theorem exec_memTranslate (by_ : Issuer) (addr : Word64) (s : State) :
    exec (.memTranslate by_ addr) s = execMemTranslate by_ addr s := rfl

@[simp] theorem exec_scrubStart (by_ : Issuer) (arg : Bytes) (s : State) :
    exec (.scrubStart by_ arg) s = execScrubStart by_ arg s := rfl

@[simp] theorem exec_scrubResume (by_ : Issuer) (arg : Bytes) (s : State) :
    exec (.scrubResume by_ arg) s = execScrubResume by_ arg s := rfl

@[simp] theorem exec_scrubAbort (by_ : Issuer) (arg : Bytes) (s : State) :
    exec (.scrubAbort by_ arg) s = execScrubAbort by_ arg s := rfl

@[simp] theorem exec_scrubLine (errs : List (Fin 80 × Byte)) (s : State) :
    exec (.scrubLine errs) s = execScrubLine errs s := rfl

@[simp] theorem exec_eccTestRawWrite (by_ : Issuer) (arg : Bytes) (s : State) :
    exec (.eccTestRawWrite by_ arg) s = execEccTestRawWrite by_ arg s := rfl

@[simp] theorem exec_eccTestDataWrite (by_ : Issuer) (arg : Bytes) (s : State) :
    exec (.eccTestDataWrite by_ arg) s = execEccTestDataWrite by_ arg s := rfl

@[simp] theorem exec_eccTestCheckWrite (by_ : Issuer) (arg : Bytes) (s : State) :
    exec (.eccTestCheckWrite by_ arg) s = execEccTestCheckWrite by_ arg s := rfl

@[simp] theorem exec_eccTestRead (by_ : Issuer) (arg : Bytes) (s : State) :
    exec (.eccTestRead by_ arg) s = execEccTestRead by_ arg s := rfl

@[simp] theorem exec_sramPatrolRead (store : Fin 9) (unit : Fin 128) (addr : Nat) (outcome : Fin 3) (s : State) :
    exec (.sramPatrolRead store unit addr outcome) s = execSramPatrolRead store unit addr outcome s := rfl

@[simp] theorem exec_sramCorrectedWriteback (s : State) :
    exec (.sramCorrectedWriteback) s = execSramCorrectedWriteback s := rfl

@[simp] theorem exec_monitorSample (kind : Fin 3) (n : Fin 80) (v : Word32) (s : State) :
    exec (.monitorSample kind n v) s = execMonitorSample kind n v s := rfl

@[simp] theorem exec_sensorFailed (n : Fin 48) (s : State) :
    exec (.sensorFailed n) s = execSensorFailed n s := rfl

@[simp] theorem exec_shepherdCycle (occ : List (Fin 1001)) (u : Fin 1001) (s : State) :
    exec (.shepherdCycle occ u) s = execShepherdCycle occ u s := rfl

@[simp] theorem exec_emergencyReturn (r : RegionNo) (s : State) :
    exec (.emergencyReturn r) s = execEmergencyReturn r s := rfl

@[simp] theorem exec_railSettled (r : RegionNo) (s : State) :
    exec (.railSettled r) s = execRailSettled r s := rfl

@[simp] theorem exec_railSettleTimeout (r : RegionNo) (s : State) :
    exec (.railSettleTimeout r) s = execRailSettleTimeout r s := rfl

@[simp] theorem exec_vrWrite (acked : Bool) (s : State) :
    exec (.vrWrite acked) s = execVrWrite acked s := rfl

@[simp] theorem exec_thermtrip (s : State) :
    exec (.thermtrip) s = execThermtrip s := rfl

@[simp] theorem exec_thermtripRelease (flash : FlashStart) (s : State) :
    exec (.thermtripRelease flash) s = execThermtripRelease flash s := rfl

@[simp] theorem exec_ageingUpdate (s : State) :
    exec (.ageingUpdate) s = execAgeingUpdate s := rfl

@[simp] theorem exec_monProcMeasure (by_ : Issuer) (arg : Byte) (vals : List Word32) (s : State) :
    exec (.monProcMeasure by_ arg vals) s = execMonProcMeasure by_ arg vals s := rfl

@[simp] theorem exec_shepherdSilent (s : State) :
    exec (.shepherdSilent) s = execShepherdSilent s := rfl

@[simp] theorem exec_monTrust (by_ : Issuer) (arg : Byte) (s : State) :
    exec (.monTrust by_ arg) s = execMonTrust by_ arg s := rfl

@[simp] theorem exec_heartbeatSend (s : State) :
    exec (.heartbeatSend) s = execHeartbeatSend s := rfl

@[simp] theorem exec_heartbeatReceived (s : State) :
    exec (.heartbeatReceived) s = execHeartbeatReceived s := rfl

@[simp] theorem exec_conflictClear (id : Half) (s : State) :
    exec (.conflictClear id) s = execConflictClear id s := rfl

@[simp] theorem exec_membershipObject (env : OaEnv) (s : State) :
    exec (.membershipObject env) s = execMembershipObject env s := rfl

@[simp] theorem exec_peerSuspect (id : Half) (s : State) :
    exec (.peerSuspect id) s = execPeerSuspect id s := rfl

@[simp] theorem exec_peerUnreachable (id : Half) (s : State) :
    exec (.peerUnreachable id) s = execPeerUnreachable id s := rfl

@[simp] theorem exec_rosterCommit (by_ : Issuer) (arg : Bytes) (s : State) :
    exec (.rosterCommit by_ arg) s = execRosterCommit by_ arg s := rfl

@[simp] theorem exec_rosterGraceExpiry (s : State) :
    exec (.rosterGraceExpiry) s = execRosterGraceExpiry s := rfl

@[simp] theorem exec_domainStartHold (s : State) :
    exec (.domainStartHold) s = execDomainStartHold s := rfl

@[simp] theorem exec_healHold (s : State) :
    exec (.healHold) s = execHealHold s := rfl

@[simp] theorem exec_domPeerQuery (by_ : Issuer) (id : Half) (s : State) :
    exec (.domPeerQuery by_ id) s = execDomPeerQuery by_ id s := rfl

@[simp] theorem exec_journalEventTimer (s : State) :
    exec (.journalEventTimer) s = execJournalEventTimer s := rfl

@[simp] theorem exec_journalClear (by_ : Issuer) (arg : Byte) (s : State) :
    exec (.journalClear by_ arg) s = execJournalClear by_ arg s := rfl

@[simp] theorem exec_tapReset (s : State) :
    exec (.tapReset) s = execTapReset s := rfl

@[simp] theorem exec_extest (tdi : Bytes) (s : State) :
    exec (.extest tdi) s = execExtest tdi s := rfl

@[simp] theorem exec_tapIdcode (s : State) :
    exec (.tapIdcode) s = execTapIdcode s := rfl

@[simp] theorem exec_samplePreload (tdi : Bytes) (s : State) :
    exec (.samplePreload tdi) s = execSamplePreload tdi s := rfl

@[simp] theorem exec_tapHighz (s : State) :
    exec (.tapHighz) s = execTapHighz s := rfl

@[simp] theorem exec_tapClamp (s : State) :
    exec (.tapClamp) s = execTapClamp s := rfl

@[simp] theorem exec_extestPulse (tdi : Bytes) (s : State) :
    exec (.extestPulse tdi) s = execExtestPulse tdi s := rfl

@[simp] theorem exec_extestTrain (tdi : Bytes) (s : State) :
    exec (.extestTrain tdi) s = execExtestTrain tdi s := rfl

@[simp] theorem exec_dbgStatus (s : State) :
    exec (.dbgStatus) s = execDbgStatus s := rfl

@[simp] theorem exec_tapBypass (opcode : Byte) (s : State) :
    exec (.tapBypass opcode) s = execTapBypass opcode s := rfl

@[simp] theorem exec_extestExit (opcode : Byte) (s : State) :
    exec (.extestExit opcode) s = execExtestExit opcode s := rfl

@[simp] theorem exec_dbgUnlock (by_ : Issuer) (arg : Bytes) (s : State) :
    exec (.dbgUnlock by_ arg) s = execDbgUnlock by_ arg s := rfl

@[simp] theorem exec_dbgUnlockExpiry (s : State) :
    exec (.dbgUnlockExpiry) s = execDbgUnlockExpiry s := rfl

@[simp] theorem exec_dbgHalt (p : DbgPath) (arg : Bytes) (s : State) :
    exec (.dbgHalt p arg) s = execDbgHalt p arg s := rfl

@[simp] theorem exec_dbgResume (p : DbgPath) (arg : Bytes) (s : State) :
    exec (.dbgResume p arg) s = execDbgResume p arg s := rfl

@[simp] theorem exec_dbgStep (p : DbgPath) (arg : Bytes) (env : OaEnv) (s : State) :
    exec (.dbgStep p arg env) s = execDbgStep p arg env s := rfl

@[simp] theorem exec_dbgReadReg (p : DbgPath) (arg : Bytes) (s : State) :
    exec (.dbgReadReg p arg) s = execDbgReadReg p arg s := rfl

@[simp] theorem exec_dbgWriteReg (p : DbgPath) (arg : Bytes) (s : State) :
    exec (.dbgWriteReg p arg) s = execDbgWriteReg p arg s := rfl

@[simp] theorem exec_dbgReadMem (p : DbgPath) (arg : Bytes) (host : HostRead) (s : State) :
    exec (.dbgReadMem p arg host) s = execDbgReadMem p arg host s := rfl

@[simp] theorem exec_dbgWriteMem (p : DbgPath) (arg : Bytes) (env : OaEnv) (s : State) :
    exec (.dbgWriteMem p arg env) s = execDbgWriteMem p arg env s := rfl

@[simp] theorem exec_dbgChAbort (p : DbgPath) (arg : Bytes) (s : State) :
    exec (.dbgChAbort p arg) s = execDbgChAbort p arg s := rfl

@[simp] theorem exec_traceStart (p : DbgPath) (arg : Bytes) (s : State) :
    exec (.traceStart p arg) s = execTraceStart p arg s := rfl

@[simp] theorem exec_traceStop (p : DbgPath) (arg : Bytes) (s : State) :
    exec (.traceStop p arg) s = execTraceStop p arg s := rfl

@[simp] theorem exec_traceRead (p : DbgPath) (arg : Bytes) (s : State) :
    exec (.traceRead p arg) s = execTraceRead p arg s := rfl

@[simp] theorem exec_serdesTestStart (by_ : Issuer) (arg : Bytes) (s : State) :
    exec (.serdesTestStart by_ arg) s = execSerdesTestStart by_ arg s := rfl

@[simp] theorem exec_serdesTestStop (by_ : Issuer) (arg : Bytes) (s : State) :
    exec (.serdesTestStop by_ arg) s = execSerdesTestStop by_ arg s := rfl

@[simp] theorem exec_serdesTestClear (by_ : Issuer) (arg : Bytes) (s : State) :
    exec (.serdesTestClear by_ arg) s = execSerdesTestClear by_ arg s := rfl

@[simp] theorem exec_pcie0RefclkRestored (s : State) :
    exec (.pcie0RefclkRestored) s = execPcie0RefclkRestored s := rfl

@[simp] theorem exec_pcie1RefclkRestored (s : State) :
    exec (.pcie1RefclkRestored) s = execPcie1RefclkRestored s := rfl

@[simp] theorem exec_drvRefclkRestored (s : State) :
    exec (.drvRefclkRestored) s = execDrvRefclkRestored s := rfl

@[simp] theorem exec_downstreamTlp (k : SlotNo) (t : DriveTlp) (s : State) :
    exec (.downstreamTlp k t) s = execDownstreamTlp k t s := rfl

@[simp] theorem exec_configurationWrite (fn : Fn) (w : CfgWrite) (s : State) :
    exec (.configurationWrite fn w) s = execConfigurationWrite fn w s := rfl

@[simp] theorem exec_pageRequestResponse (fn : Fn) (index page : Nat) (granted : Bool) (s : State) :
    exec (.pageRequestResponse fn index page granted) s = execPageRequestResponse fn index page granted s := rfl

@[simp] theorem exec_endpointReassign (b : Binding) (old : Nat) (s : State) :
    exec (.endpointReassign b old) s = execEndpointReassign b old s := rfl

@[simp] theorem exec_onChangeExpiry (id : Nat) (s : State) :
    exec (.onChangeExpiry id) s = execOnChangeExpiry id s := rfl

@[simp] theorem exec_proofCompare (shadow : Option Bytes) (s : State) :
    exec (.proofCompare shadow) s = execProofCompare shadow s := rfl

@[simp] theorem exec_sealVerifyRead (x : SealRead) (s : State) :
    exec (.sealVerifyRead x) s = execSealVerifyRead x s := rfl

@[simp] theorem exec_checkerLock (lane : Fin 56) (s : State) :
    exec (.checkerLock lane) s = execCheckerLock lane s := rfl

@[simp] theorem exec_checkerLockLoss (lane : Fin 56) (compared errors : Word64) (s : State) :
    exec (.checkerLockLoss lane compared errors) s = execCheckerLockLoss lane compared errors s := rfl

end Sys2Proof.Machine
end

