-- ==== Sys2Proof/Laws/Ops.lean ====
section
/-!
SUPPORT. What each shared operation of Machine/Ops.lean can do, said once: reporting and notifying (`Notes`), dictionary
values and counters, free choices, gates and answers, maintenance of what stands in the middle of the machine.
-/
namespace Sys2Proof.Machine

/-! ### Notifying -/

/-- The number of the counter of discarded notifications (01:0113). -/
def lostIdx : Nat := idx 0x010113 0

/-- `b` is `a` after some notifications: time, free values, registers of units other than mailboxes, rings, VFs, links and the
journal stand; only 01:0113 of the dictionary may move; what was sent stays sent. -/
structure Notes (a b : Io) : Prop where
  now : b.now = a.now
  timeBase : b.timeBase = a.timeBase
  trimAcc : b.trimAcc = a.trimAcc
  free : b.free = a.free
  params : b.params = a.params
  paramsLost : b.paramsLost = a.paramsLost
  rings : b.rings = a.rings
  vf : b.vf = a.vf
  journal : b.journal = a.journal
  nvSpill : b.nvSpill = a.nvSpill
  links : b.host.links = a.host.links
  running : b.oa.running = a.oa.running
  sessions : b.oa.sessions = a.oa.sessions
  keys : b.oa.assocs.map (·.key) = a.oa.assocs.map (·.key)
  sent : a.sent <:+ b.sent
  dic : ∀ i, i ≠ lostIdx → mget b.dic i = mget a.dic i

theorem Notes.refl (a : Io) : Notes a a := by constructor <;> simp

theorem Notes.trans {a b c : Io} (h : Notes a b) (g : Notes b c) : Notes a c := by
  constructor
  case sent => exact h.sent.trans g.sent
  case dic => intro i e; rw [g.dic i e, h.dic i e]
  all_goals first
    | exact g.now.trans h.now
    | exact g.timeBase.trans h.timeBase
    | exact g.trimAcc.trans h.trimAcc
    | exact g.free.trans h.free
    | exact g.params.trans h.params
    | exact g.paramsLost.trans h.paramsLost
    | exact g.rings.trans h.rings
    | exact g.vf.trans h.vf
    | exact g.journal.trans h.journal
    | exact g.nvSpill.trans h.nvSpill
    | exact g.links.trans h.links
    | exact g.running.trans h.running
    | exact g.sessions.trans h.sessions
    | exact g.keys.trans h.keys

/-- A fold of steps that each only notify only notifies. -/
theorem Notes.foldl {α : Type} (f : Io → α → Io) (h : ∀ io x, Notes io (f io x)) (l : List α) (io : Io) :
    Notes io (l.foldl f io) := by
  induction l generalizing io with
  | nil => exact Notes.refl io
  | cons x r ih => exact (h io x).trans (ih _)

/-- Either way of a choice notifies. -/
theorem Notes.ite {p : Prop} [Decidable p] {a b c : Io} (h : Notes a b) (g : Notes a c) : Notes a (if p then b else c) := by
  split <;> assumption

/-- Sending is a notification where it alters nothing else. -/
theorem notes_emit (x : Sent) (io : Io) : Notes io (emit x io) := by constructor <;> simp

theorem notes_msix (fn v : Nat) (io : Io) : Notes io (msix fn v io) := by
  simp only [msix]
  split
  · exact notes_emit _ io
  · constructor <;> simp [fnPut]

theorem notes_regOn (r : RegName) (u k : Nat) (io : Io) : Notes io (regOn r u k io) := by constructor <;> simp

theorem notes_mboxIrq (n : Nat) (io : Io) : Notes io (mboxIrq n io) := by
  simp only [mboxIrq]
  split
  · exact Notes.refl io
  · split
    · exact notes_msix _ _ io
    · constructor <;> simp

/-- Altering associations under their keys keeps the keys. -/
theorem keys_map (l : List Assoc) (f : Assoc → Assoc) (h : ∀ x ∈ l, (f x).key = x.key) :
    (l.map f).map (·.key) = l.map (·.key) := by
  rw [List.map_map]; exact List.map_congr_left h

theorem notes_noteOut (a : Assoc) (n : Note) (io : Io) : Notes io (noteOut a n io) := by
  have k : (io.oa.assocs.map (fun x => if x.key = a.key then { a with seq := a.seq + 1, lost := 0 } else x)).map (·.key)
      = io.oa.assocs.map (·.key) := keys_map _ _ (by intro x _; split <;> simp_all)
  simp only [noteOut]
  split
  · split <;> (constructor; (case keys => exact k); all_goals simp)
  · refine Notes.trans ?_ ((notes_emit _ _).trans ((notes_regOn .mboxStatus _ 3 _).trans (notes_mboxIrq _ _)))
    constructor
    case keys => exact k
    all_goals simp

/-- R116: a notification is sent, queued, or counted as lost. -/
theorem notes_sendNote (k : AssocKey) (n : Note) (io : Io) : Notes io (sendNote k n io) := by
  simp only [sendNote]
  split
  · exact Notes.refl io
  · rename_i a _
    refine Notes.ite (notes_noteOut a n io) ?_
    split
    · have e := keys_map io.oa.assocs (fun x => if x.key = a.key then { x with queue := x.queue ++ [n] } else x)
        (by intro x _; split <;> simp)
      constructor
      case keys => exact e
      all_goals simp
    · have e := keys_map io.oa.assocs
        (fun x => if x.key = a.key then { x with queue := x.queue.drop 1 ++ [n], lost := x.lost + 1 } else x)
        (by intro x _; split <;> simp)
      constructor
      case dic => intro i h; exact mget_mput_other _ _ h
      case keys => exact e
      all_goals simp

theorem notes_subNotify (l : List (Nat × Val)) (x : Sub) (io : Io) : Notes io (subNotify l x io) := by
  simp only [subNotify]
  split
  · split
    · constructor <;> simp
    · refine Notes.trans ?_ (notes_sendNote _ _ _); constructor <;> simp
  · simp only [Bool.false_eq_true, if_false]
    refine Notes.trans ?_ (notes_sendNote _ _ _); constructor <;> simp

theorem notes_changed (i : Nat) (v : Val) (io : Io) : Notes io (changed i v io) :=
  Notes.foldl _ (fun _ _ => notes_subNotify _ _ _) _ io

theorem notes_builtinNote (i : Nat) (v : Val) (io : Io) : Notes io (builtinNote i v io) :=
  Notes.foldl _ (fun _ _ => notes_sendNote _ _ _) _ io

/-! ### Dictionary values -/

/-- Setting a value is storing it, then notifying (R114). -/
theorem notes_dsetV (i : Nat) (v : Val) (io : Io) : Notes { io with dic := mput io.dic i v } (dsetV i v io) := by
  simp only [dsetV]
  split
  · exact Notes.refl _
  · exact notes_changed i v _

/-- A value set reads back. -/
theorem mget_dsetV_same (i : Nat) (v : Val) (io : Io) (h : i ≠ lostIdx) : mget (dsetV i v io).dic i = some v := by
  rw [(notes_dsetV i v io).dic i h]; exact mget_mput_same _ _ _

/-- Every other value but the counter of lost notifications stands. -/
theorem mget_dsetV_other (i j : Nat) (v : Val) (io : Io) (h : j ≠ lostIdx) (e : j ≠ i) :
    mget (dsetV i v io).dic j = mget io.dic j := by
  rw [(notes_dsetV i v io).dic j h]; exact mget_mput_other _ _ e

theorem dget_dset_same (i n d : Nat) (io : Io) (h : i ≠ lostIdx) : dget (dset i n io) i d = n := by
  simp [dget, dset, mget_dsetV_same i _ io h]

theorem dget_dset_other (i j n d : Nat) (io : Io) (h : j ≠ lostIdx) (e : j ≠ i) :
    dget (dset i n io) j d = dget io j d := by
  simp [dget, dset, mget_dsetV_other i j _ io h e]

theorem dgetB_dsetB_same (i : Nat) (b : Bytes) (io : Io) (h : i ≠ lostIdx) : dgetB (dsetB i b io) i = b := by
  simp [dgetB, dsetB, mget_dsetV_same i _ io h]

/-- A counter gains and saturates. -/
theorem dget_bumpBy (w i k d : Nat) (io : Io) (h : i ≠ lostIdx) :
    dget (bumpBy w i k io) i d = satAdd w (dget io i 0) k := dget_dset_same _ _ _ io h

theorem dget_bumpBy_other (w i j k d : Nat) (io : Io) (h : j ≠ lostIdx) (e : j ≠ i) :
    dget (bumpBy w i k io) j d = dget io j d := dget_dset_other _ _ _ _ io h e

/-- A saturating counter never falls. -/
theorem satAdd_le (n a b : Nat) (h : a ≤ 2 ^ n - 1) : a ≤ satAdd n a b := by simp only [satAdd]; omega

/-- A saturating counter stays within its width. -/
theorem satAdd_bound (n a b : Nat) : satAdd n a b ≤ 2 ^ n - 1 := by simp only [satAdd]; omega

/-! ### Free choices -/

theorem pickFrom_some {used : Nat → Bool} {lo n v k : Nat} (fuel : Nat) (hn : 0 < n)
    (h : pickFrom used lo n v fuel = some k) : used k = false ∧ lo ≤ k ∧ k < lo + n := by
  induction fuel generalizing v with
  | zero => cases h
  | succ f ih =>
    simp only [pickFrom] at h
    split at h
    · exact ih h
    · rename_i u
      cases h
      exact ⟨by simpa using u, Nat.le_add_right _ _, Nat.add_lt_add_left (Nat.mod_lt _ hn) _⟩

/-- A number chosen where the spec leaves it open is free and in range. -/
theorem pickFree_some {used : Nat → Bool} {lo n k : Nat} {io : Io} (hn : 0 < n) (h : (pickFree used lo n io).1 = some k) :
    used k = false ∧ lo ≤ k ∧ k < lo + n := pickFrom_some n hn h

/-! ### Dictionary commands -/

/-- An answer is one thing sent. -/
theorem answer_sent (b : Issuer) (i st : Nat) (r : Bytes) (io : Io) :
    (answer b i st r io).sent = .cmdAnswer b i st r :: io.sent := rfl

theorem notes_answer (b : Issuer) (i st : Nat) (r : Bytes) (io : Io) : Notes io (answer b i st r io) := notes_emit _ io

/-- R95: an action that runs on is known by its object until it ends. -/
theorem cmdRuns_beginCmd (b : Issuer) (obj : Nat) (io : Io) : cmdRuns (beginCmd b obj io) obj = true := by
  simp [cmdRuns, beginCmd, answer]

/-- Its end is its end. -/
theorem cmdRuns_endCmd (obj st : Nat) (r : Bytes) (io : Io) : cmdRuns (endCmd obj st r io) obj = false := by
  simp only [endCmd]
  split
  · simp_all [cmdRuns]
  · simp only [cmdRuns, (notes_sendNote _ _ _).running, mget_mdel_same, Option.isSome_none]

/-- R13, R62, R110: what a command that passes the gate has shown. -/
theorem gate_none {stage obj : Nat} {b : Issuer} {io : Io} (h : gate stage b obj io = none) :
    ∃ o, objAt obj = some o ∧ mayWrite o (principalOf b.assoc.binding) = true ∧
      (3 ≤ stage ∨ earlyWrite obj = true) ∧ needsSession io o b.assoc = false := by
  simp only [gate] at h
  split at h
  · cases h
  · rename_i o e
    refine ⟨o, e, ?_⟩
    split at h
    · cases h
    · split at h
      · cases h
      · split at h
        · cases h
        · rename_i a b c
          refine ⟨by simpa using a, ?_, by simpa using c⟩
          cases e2 : earlyWrite obj
          · left; simp [e2] at b; omega
          · right; rfl

/-- A command object's argument beside that (R95). -/
theorem cmdGate_none {stage obj n op : Nat} {b : Issuer} {arg : Bytes} {io : Io} (h : cmdGate stage b obj arg n op io = none) :
    gate stage b obj io = none ∧ arg.length = n ∧ field arg 0 1 = op := by
  simp only [cmdGate] at h
  split at h
  · cases h
  · split at h
    · cases h
    · simp_all

/-! ### Interrupts and writes into host memory -/

/-- R148: a message of an enabled, unmasked vector is sent. -/
theorem msix_sent (fn v : Nat) (io : Io)
    (h : (fnCfg io fn).msix = true ∧ (fnCfg io fn).fmask = false ∧ (fnCfg io fn).unmasked.contains v = true ∧
      frozen io fn = false) : msix fn v io = msixSend fn v io := by
  obtain ⟨a, b, c, d⟩ := h
  simp only [msix, a, b, c, d, Bool.not_false, Bool.and_self, if_true]

/-- Any other is pending. -/
theorem msix_pends (fn v : Nat) (io : Io) (h : (fnCfg io fn).msix = false ∨ (fnCfg io fn).fmask = true) :
    v ∈ (fnCfg (msix fn v io) fn).pending := by
  rcases h with h | h <;> simp [msix, h]

/-- A write of a PF into host memory is one thing sent. -/
theorem hostWrite_pf (fn a : Nat) (bs : Bytes) (io : Io) (h : fn < 16) :
    hostWrite fn a bs io = emit (.hostWrite fn a bs) io := by simp [hostWrite, h]

/-- A write by any function alters what is sent and the tracked ranges. -/
theorem hostWrite_keeps (fn a : Nat) (bs : Bytes) (io : Io) :
    (hostWrite fn a bs io).sent = .hostWrite fn a bs :: io.sent ∧ (hostWrite fn a bs io).dic = io.dic ∧
    (hostWrite fn a bs io).rings = io.rings ∧ (hostWrite fn a bs io).regs = io.regs ∧
    (hostWrite fn a bs io).oa = io.oa ∧ (hostWrite fn a bs io).host = io.host ∧ (hostWrite fn a bs io).now = io.now := by
  simp only [hostWrite]
  split
  · simp
  · split <;> simp

/-! ### A step -/

/-- On an empty queue a tick passes. -/
theorem step_nil (s : State) (h : s.pending = []) : step s = .next (tick s) := by simp [step, h]

end Sys2Proof.Machine
end

