-- ==== Sys2Proof/WellFormed.lean ====
section
/-!
DEFINITION. Well-formed commands: numbers within the fields that carry them, keys within their binding, items within
their frame. A command's meaning is given for every term; well-formedness says which terms something outside can send.
-/
namespace Sys2Proof

/-- `v` fits a field of `n` bits. -/
def fits (n v : Nat) : Bool := decide (v < 2 ^ n)

/-- R99: an argument fits an item of the largest frame. -/
def argFits (b : Bytes) : Bool := decide (b.length < 65536)

/-- R96, R139: keys by binding. -/
def AssocKey.wf (a : AssocKey) : Bool :=
  (match a.binding with
    | .pfMailbox => decide (a.key < 16)
    | .vfMailbox => decide (16 ≤ a.key) && decide (a.key < 1040)
    | .mctpI3c => fits 8 a.key
    | .mctpVdm => fits 9 a.key
    | .mgmtEth => fits 144 a.key
    | .uart0 => decide (a.key = 0)
    | .fabric => fits 16 a.key
    | .fwPort => decide (a.key < 16)) &&
  a.session.all (fits 32)

/-- R97: header fields within their widths. -/
def OaHdr.wf (h : OaHdr) : Bool :=
  fits 8 h.version && fits 8 h.flags && fits 8 h.status && fits 16 h.tag && fits 16 h.count && fits 32 h.len && fits 32 h.txn

/-- R98: an item's index, type and length within their fields. -/
def OaItem.wf (x : OaItem) : Bool := fits 32 x.index && fits 8 x.ty && decide (x.value.length < 65536)

/-- An issuer's association and tag. -/
def Issuer.wf (i : Issuer) : Bool := i.assoc.wf && fits 16 i.tag

/-- R100: the fields of a request's payload. -/
def OaBody.wf : OaBody → Bool
  | .discover v m => fits 8 v && fits 32 m
  | .read l => l.all OaItem.wf
  | .write l => l.all OaItem.wf
  | .describe l => l.all OaItem.wf
  | .enumerate i => fits 32 i
  | .readBlock i o n => fits 32 i && fits 32 o && fits 32 n
  | .writeBlock i o t _ => fits 32 i && fits 32 o && fits 32 t
  | .txnBegin => true
  | .txnCommit => true
  | .txnAbort => true
  | .subscribe i m n => fits 32 i && fits 8 m && fits 32 n
  | .unsubscribe i => fits 16 i
  | .ragged op _ => fits 8 op
  | .reserved op => fits 8 op
  | .other op => fits 8 op

/-- A request frame. -/
def OaReq.wf (q : OaReq) : Bool := q.assoc.wf && q.hdr.wf && q.body.wf

/-- R154: the fields of a completion header. -/
def CplTlp.wf (c : CplTlp) : Bool :=
  fits 10 c.tag && fits 3 c.status && fits 7 c.lowerAddr && decide (c.byteCount ≤ 4096) && decide (c.data.length ≤ 4096) &&
  fits 16 c.completer

/-- A TLP to BAR2. -/
def Bar2Tlp.wf (t : Bar2Tlp) : Bool := fits 64 t.offset && decide (t.len ≤ 4096) && decide (t.data.length ≤ 4096) && fits 16 t.requester

/-- R16: context numbers are QP numbers. -/
def FaultReport.wf (f : FaultReport) : Bool := f.ctxBad.all (fits 24)

/-- A TLP from a drive. -/
def DriveTlp.wf : DriveTlp → Bool
  | .write a d _ => fits 64 a && decide (d.length ≤ 4096)
  | .read a n => fits 64 a && decide (n ≤ 4096)
  | .completion t c d _ => fits 10 t && fits 3 c && decide (d.length ≤ 4096)
  | .toDrive => true

/-- A source of load-engine commands. -/
def PlateSrc.wf : PlateSrc → Bool
  | .regs _ _ => true
  | .cmd b a => b.wf && argFits a

/-- A source of a table-command list. -/
def TblSrc.wf : TblSrc → Bool
  | .regs _ _ => true
  | .cmd b a => b.wf && argFits a

/-- A source of key commands. -/
def KeySrc.wf : KeySrc → Bool
  | .win _ => true
  | .cmd b a => b.wf && argFits a

/-- A path of debug commands. -/
def DbgPath.wf : DbgPath → Bool
  | .jtag => true
  | .dict b _ => b.wf

/-- A list segment. -/
def Segment.wf (x : Segment) : Bool := fits 64 x.addr

/-- A submission entry as read. -/
def EntryRead.wf (x : EntryRead) : Bool := x.segments.all Segment.wf

/-- R395: an NGUID has 16 bytes. -/
def BeIdent.wf (x : BeIdent) : Bool := decide (x.nguid.length = 16)

/-- R180: a blob's header has 64 bytes. -/
def MigBlob.wf (x : MigBlob) : Bool := decide (x.header.length = 64)

/-- The commands something outside the Kwaith can send. -/
def Instr.wf : Instr → Bool
  | .registerWrite _ => true
  | .hardwareFault f => f.wf
  | .ceRateExceeded _ count => fits 32 count
  | .meshLinkFailed _ => true
  | .bwAckTimeout _ => true
  | .contRegionReset by_ _ => by_.wf
  | .regionResetCopyDone _ => true
  | .regionResetIncomplete _ => true
  | .contBlockReset by_ _ => by_.wf
  | .contReleaseStage0 by_ _ => by_.wf
  | .operatingPointSwitch _ => true
  | .crossingReset _ _ _ => true
  | .crossingHeld _ _ _ => true
  | .crossingResync _ => true
  | .refclkSysLoss => true
  | .refclkSysRestored _ => true
  | .refclkEthLoss => true
  | .refclkEthRestored => true
  | .pcie0RefclkLoss => true
  | .pcie1RefclkLoss => true
  | .drvRefclkLoss => true
  | .powerOnReset _ _ => true
  | .pwrokFall => true
  | .vddAonBrownout _ => true
  | .perstAssert _ => true
  | .perstDeassert _ => true
  | .hotReset _ => true
  | .flr _ _ => true
  | .chipWarmReset _ _ => true
  | .hostLinkUp _ _ _ _ => true
  | .linkDown _ => true
  | .stage1Entry => true
  | .stage2Entry => true
  | .memoryTrained _ _ _ => true
  | .memoryFullyWritten => true
  | .stageDeadlineMissed _ => true
  | .startWatchdogExpiry => true
  | .startHold by_ _ => by_.wf
  | .adoptionRequest => true
  | .adoptionComplete => true
  | .adoptionTimeout => true
  | .slotCommit by_ _ => by_.wf
  | .slotVerifyDone => true
  | .slotRetire by_ _ => by_.wf
  | .enterRecovery by_ => by_.wf
  | .rootKeyRevoke by_ _ => by_.wf
  | .slotResequence by_ _ => by_.wf
  | .epochAdvance by_ _ _ => by_.wf
  | .flashProgram _ addr _ _ => fits 64 addr
  | .flashErase _ addr _ => fits 64 addr
  | .helloTimer => true
  | .loaderFrameDiscard => true
  | .helloAck _ _ => true
  | .loaderBaud _ _ => true
  | .baudSwitch => true
  | .baudTimeout => true
  | .loaderIdleTimeout => true
  | .loaderBegin _ _ _ _ => true
  | .loaderEraseDone => true
  | .loaderData _ _ _ _ => true
  | .loaderEnd _ => true
  | .loaderCommit _ _ => true
  | .loaderStatus _ => true
  | .loaderBoot _ => true
  | .loaderObject _ _ _ => true
  | .pldmRequestUpdate => true
  | .pldmUpdateComponent _ _ => true
  | .pldmFirmwareData _ _ => true
  | .pldmVerifyComplete => true
  | .pldmActivate _ => true
  | .pldmCancel => true
  | .shortFrame a _ => a.wf
  | .discover a h versions maxFrame => a.wf && h.wf && fits 8 versions && fits 32 maxFrame
  | .read a h items => a.wf && h.wf && items.all OaItem.wf
  | .write a h items _ => a.wf && h.wf && items.all OaItem.wf
  | .notifyPeriodic id => fits 16 id
  | .describe a h items => a.wf && h.wf && items.all OaItem.wf
  | .enumerate a h index => a.wf && h.wf && fits 32 index
  | .readBlock a h index offset length => a.wf && h.wf && fits 32 index && fits 32 offset && fits 32 length
  | .writeBlock a h index offset total _ _ => a.wf && h.wf && fits 32 index && fits 32 offset && fits 32 total
  | .writeBlockTimeout a => a.wf
  | .snapshotTimeout a => a.wf
  | .txnBegin a h => a.wf && h.wf
  | .txnCommit a h _ => a.wf && h.wf
  | .txnAbort a h => a.wf && h.wf
  | .txnTimeout id => fits 32 id
  | .subscribe a h index mode interval => a.wf && h.wf && fits 32 index && fits 8 mode && fits 32 interval
  | .unsubscribe a h id => a.wf && h.wf && fits 16 id
  | .cmdDone index status _ => fits 32 index && fits 8 status
  | .secured a session _ inner _ => a.wf && fits 32 session && inner.wf
  | .assocIdleTimeout a => a.wf
  | .spdmGetVersion a => a.wf
  | .spdmGetCapabilities a flags => a.wf && fits 32 flags
  | .spdmNegotiateAlgorithms a asym hash dhe aead => a.wf && fits 32 asym && fits 32 hash && fits 16 dhe && fits 16 aead
  | .spdmGetDigests a => a.wf
  | .spdmGetCertificate a slot offset length => a.wf && fits 8 slot && fits 32 offset && fits 32 length
  | .spdmChallenge a slot _ => a.wf && fits 8 slot
  | .spdmGetMeasurements a index _ _ => a.wf && fits 8 index
  | .spdmKeyExchange a _ _ => a.wf
  | .spdmFinish session _ _ => fits 32 session
  | .spdmHeartbeat session => fits 32 session
  | .spdmKeyUpdate session => fits 32 session
  | .spdmEndSession session => fits 32 session
  | .spdmHeartbeatTimeout session => fits 32 session
  | .mboxDoorbell _ _ _ => true
  | .mboxNotifyAck _ _ => true
  | .oaRestoreDefaults by_ _ => by_.wf
  | .devWarmReset by_ _ => by_.wf
  | .completionReceived _ c => c.wf
  | .completionTimeout _ tag => fits 10 tag
  | .tagQuarantineEnd _ tag => fits 10 tag
  | .improperAccess _ offset len _ => fits 32 offset && fits 13 len
  | .bar2Tlp _ _ t => t.wf
  | .peerwinCommit _ _ _ => true
  | .peerwinDrainDone _ _ => true
  | .msixUnmask _ _ => true
  | .atsInvalidate _ tag page count => fits 5 tag && fits 52 page && fits 32 count
  | .vfEnableSet _ => true
  | .vfEnableClear _ => true
  | .numvfsWrite _ n => fits 16 n
  | .vfFlr _ => true
  | .vfFlrComplete _ => true
  | .migFreeze by_ arg => by_.wf && argFits arg
  | .migDrain by_ arg => by_.wf && argFits arg
  | .drainComplete _ => true
  | .drainTimeout _ => true
  | .migSave by_ arg => by_.wf && argFits arg
  | .saveComplete _ _ => true
  | .migRestore by_ arg => by_.wf && argFits arg
  | .restoreComplete _ blob => blob.all MigBlob.wf
  | .migResume by_ arg _ => by_.wf && argFits arg
  | .trackStart by_ arg => by_.wf && argFits arg
  | .trackStop by_ arg => by_.wf && argFits arg
  | .migHarvest by_ arg => by_.wf && argFits arg
  | .harvestComplete _ _ => true
  | .ringDoorbell _ page _ => fits 16 page
  | .fetchBatchReturn ring reads => fits 20 ring && reads.all EntryRead.wf
  | .ringNop ring _ => fits 20 ring
  | .ringTransmit ring _ _ => fits 20 ring
  | .transmitDone ring _ => fits 20 ring
  | .receivePost ring _ => fits 20 ring
  | .cqCtlblkRead ring _ => fits 20 ring
  | .cqPollTimer ring => fits 20 ring
  | .coalesceTimer ring => fits 20 ring
  | .admEnableSet _ _ => true
  | .admEnableClear _ => true
  | .adminRingsDeleted _ _ => true
  | .createCq _ _ => true
  | .createSq _ _ => true
  | .modifyQueue _ _ => true
  | .resetQueue _ _ => true
  | .deleteQueue _ _ => true
  | .queryQueue _ _ => true
  | .ringDrainDone ring => fits 20 ring
  | .macFrameReceived _ _ _ _ => true
  | .pfcFrame _ _ _ => true
  | .pfcPauseExpiry _ _ => true
  | .xoffRefresh _ _ => true
  | .egressTransmit _ => true
  | .timeFreqAdj by_ _ => by_.wf
  | .timeStep by_ _ => by_.wf
  | .holdoverExpiry => true
  | .ppsOutRise => true
  | .ppsOutFall => true
  | .ppsInEdge => true
  | .droverDeal => true
  | .pipelinePacket _ _ => true
  | .deepLaneResult _ _ _ => true
  | .pipelineResult _ => true
  | .holeTimeout _ => true
  | .heldReleaseResume _ => true
  | .portLinkDown _ => true
  | .portLinkUp _ => true
  | .plateLoad src _ => src.wf
  | .platePrepare src => src.wf
  | .plateRelease src => src.wf
  | .plateOpDone => true
  | .plateCommit src => src.wf
  | .pinnedWrite _ _ off _ => fits 12 off
  | .pinnedApply _ => true
  | .pinWrite by_ arg => by_.wf && argFits arg
  | .counterClear by_ _ => by_.wf
  | .learnArbiterEvent => true
  | .agerSweep => true
  | .learnBatchSend => true
  | .learnFrameReceived => true
  | .learnRefreshTimer => true
  | .tblListStart src => src.wf
  | .connInsert _ => true
  | .connModify _ => true
  | .connDelete _ => true
  | .brInsert _ => true
  | .brDelete _ => true
  | .brFlush _ => true
  | .proofStart by_ arg => by_.wf && argFits arg
  | .proofResume by_ arg => by_.wf && argFits arg
  | .proofAbort by_ arg => by_.wf && argFits arg
  | .proofRingPoll _ => true
  | .proofPassEnd => true
  | .keyWrite src => src.wf
  | .keyErase src => src.wf
  | .keyWindowClear _ => true
  | .saCreate by_ arg => by_.wf && argFits arg
  | .saDelete by_ arg => by_.wf && argFits arg
  | .saQuery by_ arg => by_.wf && argFits arg
  | .laQueueCreate by_ arg => by_.wf && argFits arg
  | .laQueueDelete by_ arg => by_.wf && argFits arg
  | .laDoorbell _ _ => true
  | .laJobComplete _ _ => true
  | .maskStarveTimeout _ => true
  | .trngHealthFail => true
  | .trngRetest _ => true
  | .drbgReseed => true
  | .createQp by_ arg => by_.wf && argFits arg
  | .modifyQp by_ arg => by_.wf && argFits arg
  | .destroyQp by_ arg => by_.wf && argFits arg
  | .destroyQpDone qpn => fits 24 qpn
  | .queryQp by_ arg => by_.wf && argFits arg
  | .createSrq by_ arg => by_.wf && argFits arg
  | .destroySrq by_ arg => by_.wf && argFits arg
  | .armSrq by_ arg => by_.wf && argFits arg
  | .createAh by_ arg => by_.wf && argFits arg
  | .destroyAh by_ arg => by_.wf && argFits arg
  | .setGid by_ arg => by_.wf && argFits arg
  | .regMr by_ arg => by_.wf && argFits arg
  | .revokeMr by_ arg => by_.wf && argFits arg
  | .revokeMrDone key => fits 32 key
  | .queryMr by_ arg => by_.wf && argFits arg
  | .rdmaSend ring _ => fits 20 ring
  | .rdmaSendImm ring _ => fits 20 ring
  | .rdmaWrite ring _ => fits 20 ring
  | .rdmaWriteImm ring _ => fits 20 ring
  | .rdmaRead ring _ => fits 20 ring
  | .rdmaRecv ring _ => fits 20 ring
  | .rdmaWait ring _ => fits 20 ring
  | .waitSatisfied qpn => fits 24 qpn
  | .requestPacketSend qpn _ => fits 24 qpn
  | .rocePacketReceived _ _ => true
  | .contextFetchDone qpn => fits 24 qpn
  | .ackReceived _ => true
  | .nakReceived _ => true
  | .readResponseReceived _ _ => true
  | .cnpReceived _ => true
  | .ackSendTimer qpn _ => fits 24 qpn
  | .ackTimeout qpn _ => fits 24 qpn
  | .laneReadmit qpn _ => fits 24 qpn
  | .rnrTimerExpiry qpn => fits 24 qpn
  | .rateRecoveryPeriod qpn _ => fits 24 qpn
  | .ccEnSet _ _ => true
  | .controllerReady _ => true
  | .ccEnClear _ _ => true
  | .ccShn _ _ => true
  | .shutdownComplete _ => true
  | .sqTailDoorbell _ q _ => fits 16 q
  | .cqHeadDoorbell _ q _ => fits 16 q
  | .fetchPick _ => true
  | .nvmeCommandComplete _ sq cid _ => fits 16 sq && fits 16 cid
  | .queueMemoryFault _ _ q => fits 16 q
  | .createIoSq _ cid => fits 16 cid
  | .createIoCq _ cid => fits 16 cid
  | .deleteIoSq _ cid => fits 16 cid
  | .deleteIoCq _ cid => fits 16 cid
  | .getLogPage _ cid lists => fits 16 cid && lists.all Segment.wf
  | .identify _ cid lists => fits 16 cid && lists.all Segment.wf
  | .nvmAbort _ cid => fits 16 cid
  | .setFeatures _ cid _ => fits 16 cid
  | .getFeatures _ cid lists => fits 16 cid && lists.all Segment.wf
  | .asyncEventRequest _ cid => fits 16 cid
  | .nvmFlush _ sq cid _ => fits 16 sq && fits 16 cid
  | .nvmWrite _ sq cid _ lists => fits 16 sq && fits 16 cid && lists.all Segment.wf
  | .nvmRead _ sq cid _ lists _ => fits 16 sq && fits 16 cid && lists.all Segment.wf
  | .nvmWriteZeroes _ sq cid _ => fits 16 sq && fits 16 cid
  | .datasetManagement _ sq cid _ _ => fits 16 sq && fits 16 cid
  | .zoneSend _ sq cid _ => fits 16 sq && fits 16 cid
  | .zoneReceive _ sq cid _ lists => fits 16 sq && fits 16 cid && lists.all Segment.wf
  | .zoneAppend _ sq cid _ lists => fits 16 sq && fits 16 cid && lists.all Segment.wf
  | .nsAttach by_ arg => by_.wf && argFits arg
  | .nsDetach by_ arg => by_.wf && argFits arg
  | .nsAttachQuery by_ arg => by_.wf && argFits arg
  | .beDefine by_ arg ident => by_.wf && argFits arg && ident.all BeIdent.wf
  | .beRemove by_ arg => by_.wf && argFits arg
  | .beQuery by_ arg => by_.wf && argFits arg
  | .nsCreate by_ arg => by_.wf && argFits arg
  | .nsDelete by_ arg => by_.wf && argFits arg
  | .nsQuery by_ arg => by_.wf && argFits arg
  | .nsRecover by_ arg => by_.wf && argFits arg
  | .atomicPiece _ sq cid _ => fits 16 sq && fits 16 cid
  | .logWriteComplete _ seq _ => fits 64 seq
  | .homeWriteComplete _ seq _ => fits 64 seq
  | .checkpointWrite _ => true
  | .logReplay _ _ _ => true
  | .backendLost _ => true
  | .backendReturn _ => true
  | .resyncComplete ns => fits 32 ns
  | .beWaitLimit ns => fits 32 ns
  | .zoneSeal ns zone => fits 32 ns && fits 32 zone
  | .sealVerifyStart by_ arg => by_.wf && argFits arg
  | .sealVerifyResume by_ arg => by_.wf && argFits arg
  | .sealVerifyAbort by_ arg => by_.wf && argFits arg
  | .sealVerifyEnd => true
  | .sealExport by_ arg _ => by_.wf && argFits arg
  | .slotPresence _ _ => true
  | .slotPowerFault _ _ => true
  | .slotAttention _ => true
  | .attentionWindow _ => true
  | .slotPowerOn _ by_ => by_.all Issuer.wf
  | .slotSettle _ => true
  | .dlActive _ _ _ ident => ident.all BeIdent.wf
  | .slotTrainingTimeout _ => true
  | .slotPowerOff _ by_ => by_.all Issuer.wf
  | .slotPwrenOff _ => true
  | .slotOffWait _ => true
  | .slotAtnOff _ by_ => by_.wf
  | .slotAtnOn _ by_ => by_.wf
  | .slotAtnBlink _ by_ => by_.wf
  | .slotControl _ _ _ => true
  | .driveLinkDown _ _ => true
  | .driveError _ _ => true
  | .driveTimeout _ _ => true
  | .dpcClear _ => true
  | .rvInstruction _ _ => true
  | .hostWindowReadReturn _ _ => true
  | .machineTimerInterrupt _ => true
  | .kwcmoClean _ addr => fits 64 addr
  | .kwcmoInvalidate _ addr => fits 64 addr
  | .kwcmoCleanInvalidate _ addr => fits 64 addr
  | .kwicfill _ _ => true
  | .cellStart _ _ => true
  | .cellWdogKick _ => true
  | .cellWatchdogExpiry _ => true
  | .bwAckNoAction _ _ => true
  | .bwAckResetRequest _ _ => true
  | .bwConsumerWrite _ _ => true
  | .cellReset by_ _ => by_.wf
  | .pktGet _ _ _ => true
  | .pktTryget _ _ _ => true
  | .pktPut _ _ _ _ => true
  | .lkAcq _ _ _ => true
  | .lkTry _ _ _ => true
  | .lkRel _ _ _ => true
  | .evWait _ _ _ _ => true
  | .evSig _ _ _ => true
  | .evAdd _ _ _ _ => true
  | .evAddRegister _ _ _ => true
  | .chRes _ _ _ => true
  | .chPub _ _ _ => true
  | .chRead _ _ _ _ => true
  | .channelOpen _ _ _ => true
  | .channelClose _ _ _ => true
  | .leChAbort _ _ _ => true
  | .waitWatchdogExpiry _ => true
  | .blockStall _ => true
  | .dmaChannelEnable _ _ _ => true
  | .dmaChannelDisable _ _ _ => true
  | .dmaChKick _ _ => true
  | .dmaDescriptorRead _ _ => true
  | .dmaCopy _ _ _ => true
  | .dmaFill _ _ => true
  | .dmaCompare _ _ _ _ => true
  | .dmaBurstStart _ _ => true
  | .dmaDescriptorComplete _ _ => true
  | .dmaBusError _ _ _ _ _ _ => true
  | .dmaDrained _ => true
  | .dmaBusErrorClear _ => true
  | .dmaStop _ _ => true
  | .dmaResume _ _ => true
  | .dmaRestart _ _ => true
  | .dmaSkip _ _ => true
  | .dmaReqSw _ _ => true
  | .dmaReqClear _ _ => true
  | .dmaTimerPulse _ _ => true
  | .memoryRead line _ => fits 40 line
  | .memoryWrite line _ _ _ => fits 40 line
  | .memDeviceMark by_ arg => by_.wf && argFits arg
  | .memDeviceClear by_ arg => by_.wf && argFits arg
  | .memTranslate by_ _ => by_.wf
  | .scrubStart by_ arg => by_.wf && argFits arg
  | .scrubResume by_ arg => by_.wf && argFits arg
  | .scrubAbort by_ arg => by_.wf && argFits arg
  | .scrubLine _ => true
  | .eccTestRawWrite by_ arg => by_.wf && argFits arg
  | .eccTestDataWrite by_ arg => by_.wf && argFits arg
  | .eccTestCheckWrite by_ arg => by_.wf && argFits arg
  | .eccTestRead by_ arg => by_.wf && argFits arg
  | .sramPatrolRead _ _ addr _ => fits 64 addr
  | .sramCorrectedWriteback => true
  | .monitorSample _ _ _ => true
  | .sensorFailed _ => true
  | .shepherdCycle _ _ => true
  | .emergencyReturn _ => true
  | .railSettled _ => true
  | .railSettleTimeout _ => true
  | .vrWrite _ => true
  | .thermtrip => true
  | .thermtripRelease _ => true
  | .ageingUpdate => true
  | .monProcMeasure by_ _ _ => by_.wf
  | .shepherdSilent => true
  | .monTrust by_ _ => by_.wf
  | .heartbeatSend => true
  | .heartbeatReceived => true
  | .conflictClear _ => true
  | .membershipObject _ => true
  | .peerSuspect _ => true
  | .peerUnreachable _ => true
  | .rosterCommit by_ arg => by_.wf && argFits arg
  | .rosterGraceExpiry => true
  | .domainStartHold => true
  | .healHold => true
  | .domPeerQuery by_ _ => by_.wf
  | .journalEventTimer => true
  | .journalClear by_ _ => by_.wf
  | .tapReset => true
  | .extest _ => true
  | .tapIdcode => true
  | .samplePreload _ => true
  | .tapHighz => true
  | .tapClamp => true
  | .extestPulse _ => true
  | .extestTrain _ => true
  | .dbgStatus => true
  | .tapBypass _ => true
  | .extestExit _ => true
  | .dbgUnlock by_ arg => by_.wf && argFits arg
  | .dbgUnlockExpiry => true
  | .dbgHalt p arg => p.wf && argFits arg
  | .dbgResume p arg => p.wf && argFits arg
  | .dbgStep p arg _ => p.wf && argFits arg
  | .dbgReadReg p arg => p.wf && argFits arg
  | .dbgWriteReg p arg => p.wf && argFits arg
  | .dbgReadMem p arg _ => p.wf && argFits arg
  | .dbgWriteMem p arg _ => p.wf && argFits arg
  | .dbgChAbort p arg => p.wf && argFits arg
  | .traceStart p arg => p.wf && argFits arg
  | .traceStop p arg => p.wf && argFits arg
  | .traceRead p arg => p.wf && argFits arg
  | .serdesTestStart by_ arg => by_.wf && argFits arg
  | .serdesTestStop by_ arg => by_.wf && argFits arg
  | .serdesTestClear by_ arg => by_.wf && argFits arg
  | .pcie0RefclkRestored => true
  | .pcie1RefclkRestored => true
  | .drvRefclkRestored => true
  | .downstreamTlp _ t => t.wf
  | .configurationWrite _ _ => true
  | .pageRequestResponse _ index page _ => fits 9 index && fits 52 page
  | .endpointReassign _ old => fits 8 old
  | .onChangeExpiry id => fits 16 id
  | .proofCompare _ => true
  | .sealVerifyRead _ => true
  | .checkerLock _ => true
  | .checkerLockLoss _ _ _ => true

end Sys2Proof
end

