-- ==== Sys2Proof/Tests/Slice0.lean ====
section
/-!
SUPPORT. Tests of the model's own: an ill-formed term for each check of WellFormed, small steps, and for each statement that
has hypotheses a concrete state and operands that meet them.
-/
namespace Sys2Proof.Tests
open Sys2Proof Sys2Proof.Machine

set_option Elab.async false

/-- A session of the management controller, over I3C from endpoint 9. -/
def session1 : Session :=
  { id := 1, assoc := { binding := .mctpI3c, key := 9, session := none }, mutualAuth := true, trusted := true, finished := true,
    keyGen := 0, last := 0 }

/-- The management controller inside its session. -/
def mgr : Issuer := { assoc := { binding := .mctpI3c, key := 9, session := some 1 }, tag := 7 }

/-- Out of reset at a stage, with the management controller's session open. -/
def atStage (n : Nat) : State :=
  { State.reset with
    clk := { Clk.reset with holdAll := false }
    start := { Start.reset with stage := n, pwrok := true }
    cont := { Cont.reset with held := true }
    io := { Io.reset with
      oa := { Oa.reset with sessions := [session1] }
      host := { HostIf.reset with ports := [(0, { perst := false, released := 0 }), (1, { perst := false, released := 0 })] } } }

/-- At stage 3. -/
def live : State := atStage 3

/-- Three reference clocks away. -/
def noRefs : State :=
  { live with clk := { live.clk with refSys := false, refEth := false, refPcie0 := false, refDrv := false } }

/-- Region 3 under a commanded reset. -/
def resetting : State := { live with cont := { live.cont with regionResets := [(3, (0, true))] } }

/-- A record block 15's Bellwether has not acknowledged. -/
def owedRec : BwRec := { time := 0, kind := 1, flags := 1, thread := 968, cell := 121, count := 0, addr := 0, detail := [], raised := 0 }
def owing : State := bwPut 15 { bwAt live 15 with unacked := [(0, owedRec)] } live

/-- A commit of slot B under verification. -/
def committing : State := { live with boot := { live.boot with commit := some (mgr, 1) } }

/-- Slot A booted, its header with epoch 7 and root key 0. -/
def booted : State :=
  { live with
    io := dset (idx 0x020103 0) 0 live.io
    boot := { live.boot with flash := [(0x01000006, 0), (0x01000008, 7), (0x01000009, 0)] } }

/-- The loader at a version and phase, with slot B its target. -/
def loading (v p : Nat) : State :=
  ldr (fun x => { x with active := true, version := v, phase := p, slot := 1, total := 4097, got := [] }) live

/-- A DISCOVER of version 2 as bytes. -/
def discoverBytes : Bytes := [2, 0, 0, 0, 1, 0, 0, 0, 8, 0, 0, 0, 0, 0, 0, 0, 3, 0, 0, 0, 0, 16, 0, 0]

/-- Endpoint 9 over I3C, its association at version 2, and the states its frames meet. -/
def i3c : AssocKey := { binding := .mctpI3c, key := 9, session := none }
def hdr2 (len count : Nat) : OaHdr := { version := 2, flags := 0, status := 0, tag := 1, count := count, len := len, txn := 0 }
def assoc2 : Assoc := { freshAssoc i3c live.io with version := 2, maxFrame := 4096 }
def nego : State := on (assocPut assoc2) live
def measured : State := { nego with io := { nego.io with dic := mput nego.io.dic (idx 0x02010B 0) (.str (List.replicate 48 7)) } }
def inTxn : State :=
  on (fun io => { assocPut { assoc2 with issued := [5] } io with oa := { (assocPut { assoc2 with issued := [5] } io).oa with
    txns := [{ id := 5, assoc := i3c, staged := [], last := 0 }], txnIds := [5] } }) live
def sub1 : Sub := { id := 65535, assoc := i3c, index := idx 0x0E0400 0, mode := 2, interval := 10, sentAt := some 0, seen := [], waiting := false }
def subbed : State := { nego with io := { nego.io with oa := { nego.io.oa with subs := [sub1] } } }
def onChange : State := { nego with io := { nego.io with oa := { nego.io.oa with subs := [{ sub1 with mode := 1, waiting := true }] } } }
def blocked : State :=
  on (assocPut { assoc2 with part := some { index := 1, total := 4, data := [1], last := 0 }, snapshot := some { index := 1, data := [1], last := 0 } }) live

/-- A management station on Ethernet inside session 2. -/
def ethKey : AssocKey := { binding := .mgmtEth, key := 0x0A000001 * 65536 + 9000, session := none }
def ethernet : State :=
  on (fun io => { assocPut (freshAssoc ethKey io) io with oa := { (assocPut (freshAssoc ethKey io) io).oa with
    sessions := [{ session1 with id := 2, assoc := ethKey }] } }) live

/-- A DISCOVER in the request buffer of PF 3's twin on link 3. -/
def knocking : State := on (mboxPut 15 { mboxAt live.io 15 with request := memPuts 0 [] 0 discoverBytes }) live

/-- An SPDM exchange past NEGOTIATE_ALGORITHMS, and a session before FINISH. -/
def spoken : State := on (spdmPut i3c { version := true, caps := true, algorithms := true, keys := true }) live
def unfinished : State := { live with io := { live.io with oa := { live.io.oa with sessions := [{ session1 with finished := false, mutualAuth := false }] } } }

/-- Terms with one field past its width. -/
def wideItem : OaItem := { index := 2 ^ 32, ty := 0, value := [] }
def req2 (n : Nat) : OaReq := { assoc := i3c, hdr := hdr2 0 n, body := .txnBegin }
def badMgr : Issuer := { mgr with tag := 65536 }
def goodCpl : CplTlp := { tag := 0, status := 0, poisoned := false, lowerAddr := 0, data := [], byteCount := 0, completer := 0 }
def goodBar2 : Bar2Tlp := { write := false, offset := 0, data := [], len := 4, poisoned := false, requester := 0 }
def shortBlob : MigBlob :=
  { header := [], track := none, crcOk := true, sections := [], framed := true, cfg := FnCfg.reset, mbox := Mbox.reset, regs := [], vectors := 0,
    rings := [], ctl := none, qps := [], regions := [], keySlots := [], sas := [] }

/-! ### Ill-formed terms, one or more for each check of WellFormed -/

/-- Keys outside their binding, a session number past 32 bits. -/
theorem test_wf_refuses_keys :
    AssocKey.wf { binding := .pfMailbox, key := 16, session := none } = false ∧
    AssocKey.wf { binding := .vfMailbox, key := 15, session := none } = false ∧
    AssocKey.wf { binding := .vfMailbox, key := 1040, session := none } = false ∧
    AssocKey.wf { binding := .mctpI3c, key := 256, session := none } = false ∧
    AssocKey.wf { binding := .mctpVdm, key := 512, session := none } = false ∧
    AssocKey.wf { binding := .mgmtEth, key := 2 ^ 144, session := none } = false ∧
    AssocKey.wf { binding := .uart0, key := 1, session := none } = false ∧
    AssocKey.wf { binding := .fabric, key := 65536, session := none } = false ∧
    AssocKey.wf { binding := .fwPort, key := 16, session := none } = false ∧
    AssocKey.wf { binding := .mctpI3c, key := 9, session := some (2 ^ 32) } = false := by decide

/-- Header fields, item fields and an issuer's tag past their widths. -/
theorem test_wf_refuses_headers :
    OaHdr.wf { hdr2 0 0 with version := 256 } = false ∧ OaHdr.wf { hdr2 0 0 with flags := 256 } = false ∧
    OaHdr.wf { hdr2 0 0 with status := 256 } = false ∧ OaHdr.wf { hdr2 0 0 with tag := 65536 } = false ∧
    OaHdr.wf (hdr2 0 65536) = false ∧ OaHdr.wf (hdr2 (2 ^ 32) 0) = false ∧ OaHdr.wf { hdr2 0 0 with txn := 2 ^ 32 } = false ∧
    OaItem.wf { index := 2 ^ 32, ty := 0, value := [] } = false ∧ OaItem.wf { index := 0, ty := 256, value := [] } = false ∧
    Issuer.wf { mgr with tag := 65536 } = false ∧
    Issuer.wf { mgr with assoc := { i3c with key := 256 } } = false := by decide

/-- A value and an argument of 65,536 bytes. -/
theorem test_wf_refuses_long :
    argFits (List.replicate 65536 0) = false ∧
    OaItem.wf { index := 0, ty := 14, value := List.replicate 65536 0 } = false := by
  simp only [argFits, OaItem.wf, List.length_replicate]; decide

/-- Payload fields past their widths. -/
theorem test_wf_refuses_bodies :
    OaBody.wf (.discover 256 0) = false ∧ OaBody.wf (.discover 0 (2 ^ 32)) = false ∧
    OaBody.wf (.read [wideItem]) = false ∧ OaBody.wf (.write [wideItem]) = false ∧ OaBody.wf (.describe [wideItem]) = false ∧
    OaBody.wf (.enumerate (2 ^ 32)) = false ∧
    OaBody.wf (.readBlock (2 ^ 32) 0 0) = false ∧ OaBody.wf (.readBlock 0 (2 ^ 32) 0) = false ∧ OaBody.wf (.readBlock 0 0 (2 ^ 32)) = false ∧
    OaBody.wf (.writeBlock (2 ^ 32) 0 0 []) = false ∧ OaBody.wf (.writeBlock 0 (2 ^ 32) 0 []) = false ∧
    OaBody.wf (.writeBlock 0 0 (2 ^ 32) []) = false ∧
    OaBody.wf (.subscribe (2 ^ 32) 0 0) = false ∧ OaBody.wf (.subscribe 0 256 0) = false ∧ OaBody.wf (.subscribe 0 0 (2 ^ 32)) = false ∧
    OaBody.wf (.unsubscribe 65536) = false ∧ OaBody.wf (.ragged 256 true) = false ∧ OaBody.wf (.reserved 256) = false ∧
    OaBody.wf (.other 256) = false := by decide

/-- A request whose association, header or payload is ill-formed. -/
theorem test_wf_refuses_requests :
    OaReq.wf { assoc := { i3c with key := 256 }, hdr := hdr2 0 0, body := .txnBegin } = false ∧
    OaReq.wf { assoc := i3c, hdr := hdr2 0 65536, body := .txnBegin } = false ∧
    OaReq.wf { assoc := i3c, hdr := hdr2 0 0, body := .other 256 } = false := by decide

/-- TLPs whose fields do not fit. -/
theorem test_wf_refuses_tlps :
    CplTlp.wf { goodCpl with tag := 1024 } = false ∧ CplTlp.wf { goodCpl with status := 8 } = false ∧
    CplTlp.wf { goodCpl with lowerAddr := 128 } = false ∧ CplTlp.wf { goodCpl with byteCount := 4097 } = false ∧
    CplTlp.wf { goodCpl with completer := 65536 } = false ∧
    Bar2Tlp.wf { goodBar2 with offset := 2 ^ 64 } = false ∧ Bar2Tlp.wf { goodBar2 with len := 4097 } = false ∧
    Bar2Tlp.wf { goodBar2 with requester := 65536 } = false ∧
    DriveTlp.wf (.write (2 ^ 64) [] false) = false ∧ DriveTlp.wf (.read (2 ^ 64) 4) = false ∧ DriveTlp.wf (.read 0 4097) = false ∧
    DriveTlp.wf (.completion 1024 0 [] false) = false ∧ DriveTlp.wf (.completion 0 8 [] false) = false := by decide

/-- A TLP of more than 4,096 data bytes. -/
theorem test_wf_refuses_long_tlps :
    CplTlp.wf { goodCpl with data := List.replicate 4097 0 } = false ∧
    Bar2Tlp.wf { goodBar2 with data := List.replicate 4097 0 } = false ∧
    DriveTlp.wf (.write 0 (List.replicate 4097 0) false) = false ∧
    DriveTlp.wf (.completion 0 0 (List.replicate 4097 0) false) = false := by
  simp only [CplTlp.wf, Bar2Tlp.wf, DriveTlp.wf, List.length_replicate]; decide

/-- Reports, sources, paths, segments, identities and blobs. -/
theorem test_wf_refuses_rest :
    FaultReport.wf { unit := .chip, cause := 0, thread := none, address := 0, detail := 0, store := 0, ctxBad := [2 ^ 24] } = false ∧
    PlateSrc.wf (.cmd badMgr []) = false ∧ TblSrc.wf (.cmd badMgr []) = false ∧ KeySrc.wf (.cmd badMgr []) = false ∧
    DbgPath.wf (.dict badMgr false) = false ∧ Segment.wf { addr := 2 ^ 64, bytes := none } = false ∧
    EntryRead.wf { entry := none, second := none, segments := [{ addr := 2 ^ 64, bytes := none }], translated := true } = false ∧
    BeIdent.wf { blocks := 0, lba := 512, metadata := 0, serial := [], nguid := [] } = false ∧
    MigBlob.wf { shortBlob with header := [] } = false := by decide

/-- What carries an ill-formed operand of its own type is refused. -/
theorem test_wf_refuses_operands :
    (∀ x, Instr.wf (.contBlockReset badMgr x) = false) ∧
    (∀ x, Instr.wf (.shortFrame { i3c with key := 256 } x) = false) ∧
    Instr.wf (.read i3c (hdr2 0 0) [wideItem]) = false ∧
    Instr.wf (.txnBegin i3c (hdr2 0 65536)) = false ∧
    (∀ x, Instr.wf (.completionReceived x { goodCpl with tag := 1024 }) = false) ∧
    (∀ x, Instr.wf (.plateLoad (.cmd badMgr []) x) = false) ∧
    Instr.wf (.dbgHalt (.dict badMgr false) []) = false ∧
    (∀ x, Instr.wf (.downstreamTlp x (.read 0 4097)) = false) ∧
    (∀ x, Instr.wf (.slotPowerOn x (some badMgr)) = false) :=
  ⟨fun _ => rfl, fun _ => rfl, rfl, rfl, fun _ => rfl, fun _ => rfl, rfl, fun _ => rfl, fun _ => rfl⟩

/-- A number of 5 bits and one more is refused by every command that carries it. -/
theorem test_wf_refuses_5 :
    (∀ x0, Instr.wf (.atsInvalidate x0 (2 ^ 5) 0 0) = false) :=
  fun _ => rfl

/-- A number of 8 bits and one more is refused by every command that carries it. -/
theorem test_wf_refuses_8 :
    (Instr.wf (.discover i3c (hdr2 0 0) (2 ^ 8) 0) = false) ∧
    (Instr.wf (.subscribe i3c (hdr2 0 0) 0 (2 ^ 8) 0) = false) ∧
    (∀ x0, Instr.wf (.cmdDone 0 (2 ^ 8) x0) = false) ∧
    (Instr.wf (.spdmGetCertificate i3c (2 ^ 8) 0 0) = false) ∧
    (∀ x0, Instr.wf (.spdmChallenge i3c (2 ^ 8) x0) = false) ∧
    (∀ x0 x1, Instr.wf (.spdmGetMeasurements i3c (2 ^ 8) x0 x1) = false) ∧
    (∀ x0, Instr.wf (.endpointReassign x0 (2 ^ 8)) = false) :=
  ⟨rfl, rfl, fun _ => rfl, rfl, fun _ => rfl, fun _ _ => rfl, fun _ => rfl⟩

/-- A number of 9 bits and one more is refused by every command that carries it. -/
theorem test_wf_refuses_9 :
    (∀ x0 x1, Instr.wf (.pageRequestResponse x0 (2 ^ 9) 0 x1) = false) :=
  fun _ _ => rfl

/-- A number of 10 bits and one more is refused by every command that carries it. -/
theorem test_wf_refuses_10 :
    (∀ x0, Instr.wf (.completionTimeout x0 (2 ^ 10)) = false) ∧
    (∀ x0, Instr.wf (.tagQuarantineEnd x0 (2 ^ 10)) = false) :=
  ⟨fun _ => rfl, fun _ => rfl⟩

/-- A number of 12 bits and one more is refused by every command that carries it. -/
theorem test_wf_refuses_12 :
    (∀ x0 x1 x2, Instr.wf (.pinnedWrite x0 x1 (2 ^ 12) x2) = false) :=
  fun _ _ _ => rfl

/-- A number of 13 bits and one more is refused by every command that carries it. -/
theorem test_wf_refuses_13 :
    (∀ x0 x1, Instr.wf (.improperAccess x0 0 (2 ^ 13) x1) = false) :=
  fun _ _ => rfl

/-- A number of 16 bits and one more is refused by every command that carries it. -/
theorem test_wf_refuses_16 :
    (Instr.wf (.notifyPeriodic (2 ^ 16)) = false) ∧
    (Instr.wf (.unsubscribe i3c (hdr2 0 0) (2 ^ 16)) = false) ∧
    (Instr.wf (.spdmNegotiateAlgorithms i3c 0 0 (2 ^ 16) 0) = false) ∧
    (Instr.wf (.spdmNegotiateAlgorithms i3c 0 0 0 (2 ^ 16)) = false) ∧
    (∀ x0, Instr.wf (.numvfsWrite x0 (2 ^ 16)) = false) ∧
    (∀ x0 x1, Instr.wf (.ringDoorbell x0 (2 ^ 16) x1) = false) ∧
    (∀ x0 x1, Instr.wf (.sqTailDoorbell x0 (2 ^ 16) x1) = false) ∧
    (∀ x0 x1, Instr.wf (.cqHeadDoorbell x0 (2 ^ 16) x1) = false) ∧
    (∀ x0 x1, Instr.wf (.nvmeCommandComplete x0 (2 ^ 16) 0 x1) = false) ∧
    (∀ x0 x1, Instr.wf (.nvmeCommandComplete x0 0 (2 ^ 16) x1) = false) ∧
    (∀ x0 x1, Instr.wf (.queueMemoryFault x0 x1 (2 ^ 16)) = false) ∧
    (∀ x0, Instr.wf (.createIoSq x0 (2 ^ 16)) = false) ∧
    (∀ x0, Instr.wf (.createIoCq x0 (2 ^ 16)) = false) ∧
    (∀ x0, Instr.wf (.deleteIoSq x0 (2 ^ 16)) = false) ∧
    (∀ x0, Instr.wf (.deleteIoCq x0 (2 ^ 16)) = false) ∧
    (∀ x0, Instr.wf (.getLogPage x0 (2 ^ 16) []) = false) ∧
    (∀ x0, Instr.wf (.identify x0 (2 ^ 16) []) = false) ∧
    (∀ x0, Instr.wf (.nvmAbort x0 (2 ^ 16)) = false) ∧
    (∀ x0 x1, Instr.wf (.setFeatures x0 (2 ^ 16) x1) = false) ∧
    (∀ x0, Instr.wf (.getFeatures x0 (2 ^ 16) []) = false) ∧
    (∀ x0, Instr.wf (.asyncEventRequest x0 (2 ^ 16)) = false) ∧
    (∀ x0 x1, Instr.wf (.nvmFlush x0 (2 ^ 16) 0 x1) = false) ∧
    (∀ x0 x1, Instr.wf (.nvmFlush x0 0 (2 ^ 16) x1) = false) ∧
    (∀ x0 x1, Instr.wf (.nvmWrite x0 (2 ^ 16) 0 x1 []) = false) ∧
    (∀ x0 x1, Instr.wf (.nvmWrite x0 0 (2 ^ 16) x1 []) = false) ∧
    (∀ x0 x1 x2, Instr.wf (.nvmRead x0 (2 ^ 16) 0 x1 [] x2) = false) ∧
    (∀ x0 x1 x2, Instr.wf (.nvmRead x0 0 (2 ^ 16) x1 [] x2) = false) ∧
    (∀ x0 x1, Instr.wf (.nvmWriteZeroes x0 (2 ^ 16) 0 x1) = false) ∧
    (∀ x0 x1, Instr.wf (.nvmWriteZeroes x0 0 (2 ^ 16) x1) = false) ∧
    (∀ x0 x1 x2, Instr.wf (.datasetManagement x0 (2 ^ 16) 0 x1 x2) = false) ∧
    (∀ x0 x1 x2, Instr.wf (.datasetManagement x0 0 (2 ^ 16) x1 x2) = false) ∧
    (∀ x0 x1, Instr.wf (.zoneSend x0 (2 ^ 16) 0 x1) = false) ∧
    (∀ x0 x1, Instr.wf (.zoneSend x0 0 (2 ^ 16) x1) = false) ∧
    (∀ x0 x1, Instr.wf (.zoneReceive x0 (2 ^ 16) 0 x1 []) = false) ∧
    (∀ x0 x1, Instr.wf (.zoneReceive x0 0 (2 ^ 16) x1 []) = false) ∧
    (∀ x0 x1, Instr.wf (.zoneAppend x0 (2 ^ 16) 0 x1 []) = false) ∧
    (∀ x0 x1, Instr.wf (.zoneAppend x0 0 (2 ^ 16) x1 []) = false) ∧
    (∀ x0 x1, Instr.wf (.atomicPiece x0 (2 ^ 16) 0 x1) = false) ∧
    (∀ x0 x1, Instr.wf (.atomicPiece x0 0 (2 ^ 16) x1) = false) ∧
    (Instr.wf (.onChangeExpiry (2 ^ 16)) = false) :=
  ⟨rfl, rfl, rfl, rfl, fun _ => rfl, fun _ _ => rfl, fun _ _ => rfl, fun _ _ => rfl, fun _ _ => rfl, fun _ _ => rfl,
    fun _ _ => rfl, fun _ => rfl, fun _ => rfl, fun _ => rfl, fun _ => rfl, fun _ => rfl, fun _ => rfl, fun _ => rfl,
    fun _ _ => rfl, fun _ => rfl, fun _ => rfl, fun _ _ => rfl, fun _ _ => rfl, fun _ _ => rfl, fun _ _ => rfl, fun _ _
    _ => rfl, fun _ _ _ => rfl, fun _ _ => rfl, fun _ _ => rfl, fun _ _ _ => rfl, fun _ _ _ => rfl, fun _ _ => rfl, fun
    _ _ => rfl, fun _ _ => rfl, fun _ _ => rfl, fun _ _ => rfl, fun _ _ => rfl, fun _ _ => rfl, fun _ _ => rfl, rfl⟩

/-- A number of 20 bits and one more is refused by every command that carries it. -/
theorem test_wf_refuses_20 :
    (Instr.wf (.fetchBatchReturn (2 ^ 20) []) = false) ∧
    (∀ x0, Instr.wf (.ringNop (2 ^ 20) x0) = false) ∧
    (∀ x0 x1, Instr.wf (.ringTransmit (2 ^ 20) x0 x1) = false) ∧
    (∀ x0, Instr.wf (.transmitDone (2 ^ 20) x0) = false) ∧
    (∀ x0, Instr.wf (.receivePost (2 ^ 20) x0) = false) ∧
    (∀ x0, Instr.wf (.cqCtlblkRead (2 ^ 20) x0) = false) ∧
    (Instr.wf (.cqPollTimer (2 ^ 20)) = false) ∧
    (Instr.wf (.coalesceTimer (2 ^ 20)) = false) ∧
    (Instr.wf (.ringDrainDone (2 ^ 20)) = false) ∧
    (∀ x0, Instr.wf (.rdmaSend (2 ^ 20) x0) = false) ∧
    (∀ x0, Instr.wf (.rdmaSendImm (2 ^ 20) x0) = false) ∧
    (∀ x0, Instr.wf (.rdmaWrite (2 ^ 20) x0) = false) ∧
    (∀ x0, Instr.wf (.rdmaWriteImm (2 ^ 20) x0) = false) ∧
    (∀ x0, Instr.wf (.rdmaRead (2 ^ 20) x0) = false) ∧
    (∀ x0, Instr.wf (.rdmaRecv (2 ^ 20) x0) = false) ∧
    (∀ x0, Instr.wf (.rdmaWait (2 ^ 20) x0) = false) :=
  ⟨rfl, fun _ => rfl, fun _ _ => rfl, fun _ => rfl, fun _ => rfl, fun _ => rfl, rfl, rfl, rfl, fun _ => rfl, fun _ =>
    rfl, fun _ => rfl, fun _ => rfl, fun _ => rfl, fun _ => rfl, fun _ => rfl⟩

/-- A number of 24 bits and one more is refused by every command that carries it. -/
theorem test_wf_refuses_24 :
    (Instr.wf (.destroyQpDone (2 ^ 24)) = false) ∧
    (Instr.wf (.waitSatisfied (2 ^ 24)) = false) ∧
    (∀ x0, Instr.wf (.requestPacketSend (2 ^ 24) x0) = false) ∧
    (Instr.wf (.contextFetchDone (2 ^ 24)) = false) ∧
    (∀ x0, Instr.wf (.ackSendTimer (2 ^ 24) x0) = false) ∧
    (∀ x0, Instr.wf (.ackTimeout (2 ^ 24) x0) = false) ∧
    (∀ x0, Instr.wf (.laneReadmit (2 ^ 24) x0) = false) ∧
    (Instr.wf (.rnrTimerExpiry (2 ^ 24)) = false) ∧
    (∀ x0, Instr.wf (.rateRecoveryPeriod (2 ^ 24) x0) = false) :=
  ⟨rfl, rfl, fun _ => rfl, rfl, fun _ => rfl, fun _ => rfl, fun _ => rfl, rfl, fun _ => rfl⟩

/-- A number of 32 bits and one more is refused by every command that carries it. -/
theorem test_wf_refuses_32 :
    (∀ x0, Instr.wf (.ceRateExceeded x0 (2 ^ 32)) = false) ∧
    (Instr.wf (.discover i3c (hdr2 0 0) 0 (2 ^ 32)) = false) ∧
    (Instr.wf (.enumerate i3c (hdr2 0 0) (2 ^ 32)) = false) ∧
    (Instr.wf (.readBlock i3c (hdr2 0 0) (2 ^ 32) 0 0) = false) ∧
    (Instr.wf (.readBlock i3c (hdr2 0 0) 0 (2 ^ 32) 0) = false) ∧
    (Instr.wf (.readBlock i3c (hdr2 0 0) 0 0 (2 ^ 32)) = false) ∧
    (∀ x0 x1, Instr.wf (.writeBlock i3c (hdr2 0 0) (2 ^ 32) 0 0 x0 x1) = false) ∧
    (∀ x0 x1, Instr.wf (.writeBlock i3c (hdr2 0 0) 0 (2 ^ 32) 0 x0 x1) = false) ∧
    (∀ x0 x1, Instr.wf (.writeBlock i3c (hdr2 0 0) 0 0 (2 ^ 32) x0 x1) = false) ∧
    (Instr.wf (.txnTimeout (2 ^ 32)) = false) ∧
    (Instr.wf (.subscribe i3c (hdr2 0 0) (2 ^ 32) 0 0) = false) ∧
    (Instr.wf (.subscribe i3c (hdr2 0 0) 0 0 (2 ^ 32)) = false) ∧
    (∀ x0, Instr.wf (.cmdDone (2 ^ 32) 0 x0) = false) ∧
    (∀ x0 x1, Instr.wf (.secured i3c (2 ^ 32) x0 (req2 0) x1) = false) ∧
    (Instr.wf (.spdmGetCapabilities i3c (2 ^ 32)) = false) ∧
    (Instr.wf (.spdmNegotiateAlgorithms i3c (2 ^ 32) 0 0 0) = false) ∧
    (Instr.wf (.spdmNegotiateAlgorithms i3c 0 (2 ^ 32) 0 0) = false) ∧
    (Instr.wf (.spdmGetCertificate i3c 0 (2 ^ 32) 0) = false) ∧
    (Instr.wf (.spdmGetCertificate i3c 0 0 (2 ^ 32)) = false) ∧
    (∀ x0 x1, Instr.wf (.spdmFinish (2 ^ 32) x0 x1) = false) ∧
    (Instr.wf (.spdmHeartbeat (2 ^ 32)) = false) ∧
    (Instr.wf (.spdmKeyUpdate (2 ^ 32)) = false) ∧
    (Instr.wf (.spdmEndSession (2 ^ 32)) = false) ∧
    (Instr.wf (.spdmHeartbeatTimeout (2 ^ 32)) = false) ∧
    (∀ x0 x1, Instr.wf (.improperAccess x0 (2 ^ 32) 0 x1) = false) ∧
    (∀ x0, Instr.wf (.atsInvalidate x0 0 0 (2 ^ 32)) = false) ∧
    (Instr.wf (.revokeMrDone (2 ^ 32)) = false) ∧
    (Instr.wf (.resyncComplete (2 ^ 32)) = false) ∧
    (Instr.wf (.beWaitLimit (2 ^ 32)) = false) ∧
    (Instr.wf (.zoneSeal (2 ^ 32) 0) = false) ∧
    (Instr.wf (.zoneSeal 0 (2 ^ 32)) = false) :=
  ⟨fun _ => rfl, rfl, rfl, rfl, rfl, rfl, fun _ _ => rfl, fun _ _ => rfl, fun _ _ => rfl, rfl, rfl, rfl, fun _ => rfl,
    fun _ _ => rfl, rfl, rfl, rfl, rfl, rfl, fun _ _ => rfl, rfl, rfl, rfl, rfl, fun _ _ => rfl, fun _ => rfl, rfl, rfl,
    rfl, rfl, rfl⟩

/-- A number of 40 bits and one more is refused by every command that carries it. -/
theorem test_wf_refuses_40 :
    (∀ x0, Instr.wf (.memoryRead (2 ^ 40) x0) = false) ∧
    (∀ x0 x1 x2, Instr.wf (.memoryWrite (2 ^ 40) x0 x1 x2) = false) :=
  ⟨fun _ => rfl, fun _ _ _ => rfl⟩

/-- A number of 52 bits and one more is refused by every command that carries it. -/
theorem test_wf_refuses_52 :
    (∀ x0, Instr.wf (.atsInvalidate x0 0 (2 ^ 52) 0) = false) ∧
    (∀ x0 x1, Instr.wf (.pageRequestResponse x0 0 (2 ^ 52) x1) = false) :=
  ⟨fun _ => rfl, fun _ _ => rfl⟩

/-- A number of 64 bits and one more is refused by every command that carries it. -/
theorem test_wf_refuses_64 :
    (∀ x0 x1 x2, Instr.wf (.flashProgram x0 (2 ^ 64) x1 x2) = false) ∧
    (∀ x0 x1, Instr.wf (.flashErase x0 (2 ^ 64) x1) = false) ∧
    (∀ x0 x1, Instr.wf (.logWriteComplete x0 (2 ^ 64) x1) = false) ∧
    (∀ x0 x1, Instr.wf (.homeWriteComplete x0 (2 ^ 64) x1) = false) ∧
    (∀ x0, Instr.wf (.kwcmoClean x0 (2 ^ 64)) = false) ∧
    (∀ x0, Instr.wf (.kwcmoInvalidate x0 (2 ^ 64)) = false) ∧
    (∀ x0, Instr.wf (.kwcmoCleanInvalidate x0 (2 ^ 64)) = false) ∧
    (∀ x0 x1 x2, Instr.wf (.sramPatrolRead x0 x1 (2 ^ 64) x2) = false) :=
  ⟨fun _ _ _ => rfl, fun _ _ => rfl, fun _ _ => rfl, fun _ _ => rfl, fun _ => rfl, fun _ => rfl, fun _ => rfl, fun _ _
    _ => rfl⟩

/-! ### The spec's own worked values -/

/-- The bytes of two vehicles' MAC addresses that differ in their last byte. -/
def vehicleMac (b : Byte) : Bytes := [0x02, 0x4B, 0x57, 0x10, 0x00, b]

/-- The bridge vectors of R283. -/
theorem test_bridge_bucket : brBucket (vehicleMac 0x2A) 100 = 0x670E ∧ brBucket (vehicleMac 0x2B) 100 = 0x6F0E := by decide

/-- The connection vector of R283. -/
theorem test_connection_buckets :
    connBuckets (be 4 0 ++ be 4 0 ++ be 4 0 ++ be 4 0x0A280309 ++ be 4 0 ++ be 4 0 ++ be 4 0 ++ be 4 0x0A280714 ++
      be 4 0xC3500016 ++ be 4 0x06010100) = (0x4A8125, 0x4EFB9E) := by decide

/-- The encodings of the example after R443: LK.ACQ x10, x11 and PKT.PUT x5, x6, x7. -/
theorem test_xkwaith_words :
    rvAct (fun _ => 0) 0 0x0005850B = .xk 0 0 0 10 11 0 ∧ xkOf 0 0 0 0 = some .lkAcq ∧
    rvAct (fun _ => 0) 0 0x007352AB = .xk 1 5 0 5 6 7 ∧ xkOf 1 5 0 7 = some .pktPut := by decide

/-- LK.ACQ with a second source register is no instruction, and neither is custom-1's funct3 0b011. -/
theorem test_xkwaith_refused : xkOf 0 0 0 1 = none ∧ xkOf 1 3 0 0 = none := by decide

/-- The descriptor of chapter 21's example. -/
def sliceDesc : Bytes :=
  [0x21, 0x08, 0x01, 0x00, 0x01, 0x00, 0x0C, 0x08, 0xC8, 0x5D, 0x20, 0x00, 0x00, 0x10, 0x00, 0x00] ++
  [0x00, 0x00, 0x01, 0x06, 0x00, 0x01, 0x00, 0x00, 0x10, 0x00, 0x0A, 0x00, 0x04, 0x00, 0x02, 0x00] ++
  [0x60, 0x00, 0x00, 0x00, 0x10, 0x00, 0x00, 0x00, 0x80, 0x16, 0x00, 0x00, 0xA0, 0x00, 0x00, 0x00] ++
  [0x00, 0x68, 0x01, 0x00, 0x80, 0x02, 0x00, 0x00, 0x00, 0x00, 0x00, 0x00, 0x00, 0x00, 0x00, 0x00]

/-- Its 80 elements of 16 bytes span the extents the example states. -/
theorem test_dma_extents :
    dElems sliceDesc = 80 ∧ dLen sliceDesc = 16 ∧ dSwap sliceDesc = 2 ∧ dBurst sliceDesc = 1 ∧
    dExtent sliceDesc 0 = (0x100000200000 + 24008, 0x100000200000 + 134327) ∧
    dExtent sliceDesc 1 = (0x010006010000, 0x0100060104FF) := by decide

/-- Vehicle 5, second 12 of day 1 is element 52; its channel 3 lands byte-reversed at offset 836. -/
theorem test_dma_sample :
    dAddr sliceDesc 0 52 + 4 = 0x100000200000 + 122124 ∧ dAddr sliceDesc 1 52 + 4 = 0x010006010344 ∧
    swapOne 2 [0x00, 0x00, 0x0A, 0xBC] = [0xBC, 0x0A, 0x00, 0x00] := by decide

/-- The header of record 1 in chapter 17's example. -/
theorem test_record_header :
    (recHead 1 16 196610 0 1).take 16 = [1, 0, 0, 0, 0x10, 0, 0, 0, 2, 0, 3, 0, 0, 0, 0, 0] ∧
    (recHead 1 16 196610 0 1).drop 24 = [1, 0, 0, 0, 0, 0, 0, 0] := by decide

/-- The published check values of CRC-32C and CRC-32 over the ASCII digits 1 to 9, and one entry of the AES S-box. -/
theorem test_standards :
    crc32c [0x31, 0x32, 0x33, 0x34, 0x35, 0x36, 0x37, 0x38, 0x39] = 0xE3069283 ∧
    crc32 [0x31, 0x32, 0x33, 0x34, 0x35, 0x36, 0x37, 0x38, 0x39] = 0xCBF43926 ∧ sboxOf 0x53 = 0xED := by decide +kernel

/-- Chapter 24's twelve-node domain: devices 1 to 4 of weight 3, 5 to 12 of weight 1, anchors 2 and 7. -/
def depotRoster : Bytes :=
  (List.range 12).flatMap (fun k => le 2 (k + 1) ++ le 1 (if k < 4 then 3 else 1) ++ le 1 (if k = 1 || k = 6 then 1 else 0))

/-- One of its devices, with the peers that are its members. -/
def depot (id : Nat) (members : List Nat) : State :=
  { live with
    io := dsetB (idx 0x110013 0) depotRoster live.io
    dom := { Dom.reset with id := id, peers := members.map (fun p => (p, { DomPeer.reset with state := 1 })) } }

/-- Its even split: the side with the lowest anchor is primary with reason 2, the other is isolated with reason 4. -/
theorem test_quorum_split :
    quorum (depot 1 [2, 5, 6, 7, 8]) = (true, 2) ∧ quorum (depot 3 [4, 9, 10, 11, 12]) = (false, 4) ∧
    quorum (depot 3 [1, 4, 9, 10, 11, 12]) = (true, 1) := by decide +kernel

/-! ### The hypotheses of the statements can be met -/

/-- Operands and states that meet the hypotheses of `ContainmentCommandsRun`, clause by clause; units at the edges of their ranges. -/
theorem met_containmentCommands :
    (live.clk.holdAll = false ∧ live.cont.regions.contains 3 = false ∧ live.cont.blocks.contains 15 = false) ∧
    (oldestOwed (bwAt owing 15) = some owedRec ∧ (threadAt owing (64 * 15)).st ≠ 3 ∧ owing.cont.regions.contains 3 = false ∧
      owing.cont.blocks.contains 15 = false) ∧
    (dget live.io (idx 0x0E0400 0) 64 < 65 ∧ 127 % 8 ≠ 0 ∧ cellOff live 127 = false) ∧
    (live.allows mgr 0x0E0420 ∧ cmdRuns live.io 0x0E0420 = false ∧ live.allows mgr 0x0E0421 ∧ live.allows mgr 0x0E0422) ∧
    (mget resetting.cont.regionResets 3 = some (0, true) ∧ 0 ∉ resetting.cont.regions ∧ resetting.cont.held = true) := by
  unfold State.allows; decide +kernel

/-- States that meet the hypotheses of `CrossingsFollowTheirClocks`, clause by clause. -/
theorem met_crossings :
    (xingReady { live with clk := { live.clk with freq := [(1, 1), (9, 1)] } } 0 = true ∧ xingReady live 19 = false) ∧
    (mget { live with clk := { live.clk with target := [(3, 2400000)] } }.clk.target 3 = some 2400000 ∧
      live.cont.regions.contains 3 = false ∧ live.clk.holdAll = false) ∧
    (noRefs.clk.refSys = false ∧ noRefs.start.pwrok = true ∧ noRefs.mon.trip = false ∧ noRefs.dbg.testmode = false ∧
      extestClass noRefs.dbg.ir = false) ∧
    (live.clk.refEth = true ∧ live.clk.refPcie0 = true ∧ live.clk.refPcie1 = true ∧ live.clk.refDrv = true) ∧
    (noRefs.clk.refEth = false ∧ noRefs.clk.refPcie0 = false ∧ noRefs.clk.refDrv = false ∧ noRefs.clk.holdAll = false) := by
  decide +kernel

/-- States that meet the hypotheses of `ResetsRun`. -/
theorem met_resets :
    (live.clk.refSys = true ∧ live.mon.trip = false) ∧
    (live.start.pwrok = true ∧ live.dbg.testmode = false ∧ extestClass live.dbg.ir = false ∧ live.clk.holdAll = false) ∧
    (0 ∈ pfLinks live.io 0) ∧
    (linkMayTrain live 0 = true ∧ 0 < dget live.io (idx 0x040003 1) 6) ∧
    ((linkAt (linkPut 0 { Link.reset with up := true } live.io) 0).up = true) := by
  decide +kernel

/-- States that meet the hypotheses of `StartRuns`. -/
theorem met_start :
    ((atStage 0).clk.holdAll = false ∧ (atStage 0).start.stage = 0 ∧ (atStage 0).start.held = false ∧ (atStage 0).start.recovery = false) ∧
    ((atStage 1).start.stage = 1 ∧ (atStage 1).start.held = false) ∧
    ((on (dset (idx 0x100002 0) 2) (atStage 2)).num 0x100002 0 = 2 ∧ (on (dset (idx 0x100002 0) 2) (atStage 2)).start.stage = 2) ∧
    (dget (atStage 2).io (idx 0x020011 0) 30 ≠ 0) ∧ ((atStage 2).allows mgr 0x020010) ∧
    ((atStage 2).start.adopted = false ∧ (atStage 2).start.adoption = .idle ∧
      (on (ringPut 7 { Ring.blank 0 with sheepdog := true }) (atStage 2)).io.rings.rings.any (fun p => p.2.sheepdog) = true) := by
  unfold State.allows; decide +kernel

/-- States that meet the hypotheses of `SecurityCoreCommandsRun`; slot A booted with epoch 7 and key 0 for the last two. -/
theorem met_securityCore :
    (live.allows mgr 0x020105 ∧ cmdRuns live.io 0x020105 = false ∧ 1 ≠ bootedSlot live.io ∧ topSeq live.boot.flash < 0xFFFFFFFE) ∧
    (committing.boot.commit = some (mgr, 1) ∧ committing.boot.waiting = []) ∧
    (live.allows mgr 0x020106 ∧ cmdRuns live.io 0x020106 = false ∧ live.boot.commit = none) ∧
    principalOf mgr.assoc.binding = .m ∧
    (booted.allows mgr 0x020107 ∧ cmdRuns booted.io 0x020107 = false ∧ booted.boot.commit = none ∧
      field (slotHeader booted.boot.flash (bootedSlot booted.io)) 6 1 ≠ 3) ∧
    (booted.allows mgr 0x020108 ∧ cmdRuns booted.io 0x020108 = false ∧ 0 = bootedSlot booted.io) ∧
    (booted.allows mgr 0x020110 ∧ cmdRuns booted.io 0x020110 = false ∧ fusedEpoch booted.boot.blown < 7 ∧ bootedSlot booted.io < 2 ∧
      7 ≤ field (slotHeader booted.boot.flash (bootedSlot booted.io)) 8 2) := by
  unfold State.allows; decide +kernel

/-- States that meet the hypotheses of `FlashProgramErase`. -/
theorem met_flash :
    (live.clk.holdAll = false ∧ (span 0x10000 2).all (flashMay (bootedSlot live.io) false .steward) = true) ∧
    (span 0x01010000 4).all (flashMay (bootedSlot live.io) true .cells) = true ∧
    (span 0xFFFF 2).all (flashMay (bootedSlot live.io) false .security) = false := by decide +kernel

/-- A whole sector a master may erase, for `FlashProgramErase`. -/
theorem met_flashSector : (span 0x10000 0x10000).all (flashMay (bootedSlot live.io) true .security) = true := by
  have h : ∀ x ∈ span 0x10000 0x10000, flashMay (bootedSlot live.io) true .security x = true := by
    intro x hx
    have hx' : 0x10000 ≤ x ∧ x < 0x20000 := by simp [span] at hx; omega
    have h1 : ¬ x < 0x10000 := by omega
    have h2 : ¬ 0x08000000 ≤ x := by omega
    have h3 : x < 0x210000 := by omega
    simp [flashMay, h1, h2, h3]
  simpa using h

/-- States that meet the hypotheses of `LoaderRuns`. -/
theorem met_loader :
    ((loading 0 0).boot.loader.active = true ∧ (loading 0 0).boot.loader.version = 0) ∧
    loaderFresh (loading 0 0) 65535 ∧ loaderFresh (loading 2 2) 0 ∧ (loading 2 0).boot.loader.version = 2 ∧
    (let s := ldr (fun x => { x with newRate := some (3000000, 5), probeAt := some 5 }) (loading 2 0);
      s.boot.loader.newRate = some (3000000, 5) ∧ s.boot.loader.probeAt = some 5) ∧
    ((loading 1 0).boot.loader.phase ≠ 1 ∧ (loading 1 1).boot.loader.phase = 1) ∧
    (sameBytes (loading 1 2).boot.flash (slotBase 1) 0 [1] (loading 1 2).boot.loader.got = true ∧
      1 ≤ (loading 1 2).boot.loader.total) ∧
    firstMissing 4097 [(0, 4097)] = none ∧ (loading 2 3).boot.loader.phase = 3 := by
  unfold loaderFresh; decide +kernel

/-- Operands that meet the hypotheses of `LoaderObjectAnswered`: a DISCOVER. -/
theorem met_loaderObject : loaderFresh (loading 2 0) 9 ∧ (loading 2 0).boot.loader.version = 2 ∧
    (parseFrame { binding := .uart0, key := 0, session := none } discoverBytes).isSome = true := by
  unfold loaderFresh; decide +kernel

/-- States that meet the hypotheses of `PldmRuns`. -/
theorem met_pldm :
    (booted.clk.holdAll = false ∧ booted.boot.pldm.phase = 0 ∧ bootedSlot booted.io < 2) ∧
    ((pldmPut { phase := 1, size := 0, got := [] } booted).boot.pldm.phase = 1 ∧ pldmSlot booted = some 1) ∧
    (let s := pldmPut { phase := 2, size := 4097, got := [(0, 4097)] } booted;
      s.boot.pldm.phase = 2 ∧ pldmSlot s = some 1 ∧ 0 + [(1 : Byte)].length ≤ s.boot.pldm.size ∧
      firstMissing s.boot.pldm.size s.boot.pldm.got = none) ∧
    (pldmPut { phase := 3, size := 4097, got := [(0, 4097)] } booted).boot.pldm.phase = 3 := by decide +kernel

/-- Frames and states that meet the hypotheses of `ObjectAccessReads`: a scalar, an array, the first and the last index. -/
theorem met_reads :
    (live.clk.holdAll = false ∧ live.io.oa.due = [] ∧ (assocGet live.io i3c).recent = [] ∧
      (dget live.io (idx 0x000101 2) 3).testBit 1 = true ∧ (3 : Nat).testBit 1 = true) ∧
    (frameOk i3c (hdr2 8 1) (.read [⟨idx 0x0E0400 0, 0, []⟩]) nego = true ∧ readerOk i3c (idx 0x0E0400 0) nego.io = 0 ∧
      blockOnly.contains 0x0E0400 = false) ∧
    (frameOk i3c (hdr2 8 1) (.describe [⟨idx 0x0E0401 4, 0, []⟩]) nego = true ∧
      (descriptor i3c (idx 0x0E0401 4) nego.io).1 = 0 ∧ 48 ≤ limitOf nego i3c) ∧
    (frameOk i3c (hdr2 4 0) (.enumerate 0) nego = true ∧ frameOk i3c (hdr2 4 0) (.enumerate 0xFFFFFFFF) nego = true) ∧
    (frameOk i3c (hdr2 12 0) (.readBlock (idx 0x02010B 0) 0 48) measured = true ∧
      measured.io.dic.any (fun p => p.1 == idx 0x02010B 0) = true ∧ measured.blob 0x02010B 0 ≠ []) := by decide +kernel

/-- Frames and states that meet the hypotheses of `ObjectAccessWrites`; subscriptions at both ends of the interval. -/
theorem met_writes :
    (frameOk i3c (hdr2 12 1) (.write [⟨idx 0x0E0400 0, 3, le 2 65535⟩]) nego = true ∧
      (itemAt (idx 0x0E0400 0)).any (fun o => writerOk nego.start.stage i3c o 0x0E0400 nego.io == 0) = true) ∧
    (frameOk i3c (hdr2 14 0) (.writeBlock (idx 0x080020 0) 0 3 [1, 2]) nego = true ∧ blockCheck i3c (idx 0x080020 0) 3 nego = 0) ∧
    (frameOk i3c (hdr2 0 0) .txnBegin nego = true ∧ nego.io.oa.txns.length < 8 ∧ nego.io.oa.txnIds.length < 8) ∧
    (frameOk i3c { hdr2 0 0 with txn := 5 } .txnCommit inTxn = true ∧ frameOk i3c { hdr2 0 0 with txn := 5 } .txnAbort inTxn = true) ∧
    (frameOk i3c (hdr2 12 0) (.subscribe (idx 0x0E0400 0) 2 10) nego = true ∧ readerOk i3c (idx 0x0E0400 0) nego.io = 0 ∧
      frameOk i3c (hdr2 12 0) (.subscribe (idx 0x0E0400 0) 2 3600000) nego = true) ∧
    (frameOk i3c (hdr2 4 0) (.unsubscribe 65535) subbed = true ∧
      subbed.io.oa.subs.any (fun x => x.id == 65535 && x.assoc == assocId i3c) = true) ∧
    cmdRuns (on (beginCmd mgr 0x0C1040) live).io 0x0C1040 = true := by decide +kernel

/-- States that meet the hypotheses of `ObjectAccessExpiries`. -/
theorem met_expiries :
    (live.clk.holdAll = false ∧ (mboxOf i3c).isSome = false) ∧
    (subbed.io.oa.subs = [sub1] ∧ sub1.mode = 2) ∧
    (onChange.io.oa.subs = [{ sub1 with mode := 1, waiting := true }]) ∧
    ((assocOf blocked.io i3c).any (fun x => x.part.isSome && x.snapshot.isSome) = true) ∧
    (inTxn.io.oa.txns.find? (fun t => t.id == 5) = some { id := 5, assoc := i3c, staged := [], last := 0 }) ∧
    ((assocOf ethernet.io ethKey).isSome = true ∧ ethKey.binding = .mgmtEth) ∧
    ((admitFrame { ethKey with session := some 2 } true ethernet).1 = true ∧
      (ethernet.io.oa.sessions.find? (fun y => y.id == 2)).any (fun x =>
        (assocGet ethernet.io { x.assoc with session := some 2 }).recent.isEmpty) = true) ∧
    (regBit .mboxStatus 15 0 knocking.io = false ∧ knocking.io.oa.due = [] ∧
      (parseFrame (mboxKey 15) (memGets 0 (mboxAt knocking.io 15).request 0 24)).isSome = true ∧
      (assocGet knocking.io (mboxKey 15)).recent = []) ∧
    (mboxExists 2015 = true ∧ mboxExists 1039 = true ∧ assocOf live.io (mboxKey 2015) = none ∧ assocOf live.io (mboxKey 1039) = none) ∧
    (live.allows mgr 0x010120 ∧ live.allows mgr 0x010010) := by
  unfold State.allows; decide +kernel

/-- States that meet the hypotheses of `SpdmRuns`. -/
theorem met_spdm :
    spdmReady i3c live = true ∧ (spdmAt spoken.io (spdmKey i3c)) = { version := true, caps := true, algorithms := true, keys := true } ∧
    spdmReady i3c spoken = true ∧ spoken.num 0x02010A 0 = 0 ∧ spoken.io.oa.sessions.length < 8 ∧
    (let y : Session := { session1 with finished := false, mutualAuth := false }; unfinished.io.oa.sessions = [y]) ∧
    (live.io.oa.sessions.find? (fun y => y.id == session1.id) = some session1 ∧ session1.finished = true) := by decide +kernel

/-- A link with a request and a quarantined tag, a window to a drive port, a pending message. -/
def req1 : HostReq := { tag := 4095, fn := 3, addr := 127, len := 65, got := 1, sentAt := 0 }
def hosted : State :=
  { live with
    io := { live.io with host := { live.io.host with
      fns := [(0, { FnCfg.reset with memEnable := true, ats := true, pri := true, msix := true, pending := [2047], unmasked := [0] })]
      links := [(0, { Link.reset with up := true, reqs := [req1], quarantined := [{ tag := 0, fn := 0, ends := 5, abandoned := true }] })]
      bar2Log2 := [20, 0, 0, 0]
      peers := [(0, { Peer.reset with active := [(7, { offset := 4096, target := 0, port := 7, ty := 1, sizeLog2 := 12, rd := false, wr := true })] })] } }
    drives := { live.drives with slots := mput live.drives.slots 7 { bayOf live 7 with link := true, contained := false } } }
def cpl1 : CplTlp :=
  { tag := 4095, status := 0, poisoned := false, lowerAddr := 0, data := List.replicate 64 1, byteCount := 64, completer := 0 }
def tlp1 : Bar2Tlp := { write := true, offset := 8191, data := [1], len := 0, poisoned := false, requester := 0 }

/-- States and operands that meet the hypotheses of `HostCommandsRun`. -/
theorem met_host :
    ((linkAt hosted.io 0).up = true ∧ (linkAt hosted.io 0).reqs.find? (fun x => x.tag == cpl1.tag) = some req1 ∧
      cplAgrees req1 cpl1 = true ∧ req1.got + cpl1.data.length = req1.len) ∧
    ((linkAt hosted.io 0).quarantined.find? (fun x => x.tag == 0) = some { tag := 0, fn := 0, ends := 5, abandoned := true }) ∧
    ((pfLinks hosted.io 0).contains 0 = true ∧ (fnCfg hosted.io 0).memEnable = true ∧ bar2Size hosted.io 0 ≠ 0 ∧
      (winFor hosted.io 0 tlp1).any (fun w => w.ty == 1 && (bayOf hosted w.port).link && !(bayOf hosted w.port).contained) = true) ∧
    (winsDrained hosted 15 = true ∧ commitCause 0 3 hosted.io = 0 ∧ commitCause 0 2 hosted.io = 5) ∧
    ((2047 : Nat) < fnVectors 0 ∧ (fnCfg hosted.io 0).msix = true ∧ (fnCfg hosted.io 0).fmask = false ∧ frozen hosted.io 0 = false ∧
      (fnCfg hosted.io 0).pending.contains 2047 = true) ∧
    ((fnCfg hosted.io 0).ats = true ∧ (fnCfg hosted.io 0).pri = true) ∧
    (cfgTakes (.mps 1024) = true ∧ cfgTakes (.completionTimeout 15) = true) ∧
    (fnTakes hosted.io 0 = true ∧ admTakes hosted.io 0 = true ∧ regBit .admCtrl 0 0 hosted.io = false) := by decide +kernel

/-- VFs 0 and 1,023: one up and running, one in FLR; VF Enable of PF 3 set. -/
def vfd : State :=
  { live with io := { live.io with
      vf := { live.io.vf with vfs := [(0, { VfState.reset with up := true }), (1023, { VfState.reset with up := true, inFlr := true })] }
      host := { live.io.host with fns := [(3, { FnCfg.reset with vfEnable := true, numVfs := 256 })] } } }

/-- States that meet the hypotheses of `VfCommandsRun`. -/
theorem met_vfs :
    (vfd.start.stage = 3 ∧ (fnCfg vfd.io (activeTwin vfd.io 0)).vfEnable = false ∧ (fnCfg vfd.io (activeTwin vfd.io 3)).vfEnable = true) ∧
    (0 ≤ vfTotal vfd.io 0 ∧ 256 ≤ vfTotal vfd.io 0) ∧
    ((vfAt vfd.io 0).up = true ∧ (vfAt vfd.io 0).inFlr = false ∧ (vfAt vfd.io 1023).inFlr = true) := by decide +kernel

/-- The argument of an operation on VF 1 of PF 3, with an address and a length. -/
def migArg (op a n : Nat) : Bytes := le 1 op ++ le 1 3 ++ le 2 1 ++ le 4 0 ++ le 8 a ++ le 8 n ++ le 8 0
/-- VF 768, the first of PF 3, up in a state, with an operation. -/
def migAt (st : MigState) (op : Option MigOp) (track : Option Track) : State :=
  { live with io := { live.io with vf := { live.io.vf with
      trackPool := 1, vfs := [(768, { VfState.reset with up := true, state := st, op := op, track := track, sections := [(1, 8)] })] } } }
def migOp1 (op : Nat) : MigOp := { op := op, by_ := mgr, at_ := 0, addr := 4096, len := 88, waits := false }
def track1 : Track := { base := 0, granule := 4096, len := 2097152, live := [511], retired := none }
/-- A blob of no sections for a VF of type 3. -/
def blob1 : MigBlob :=
  { header := le 4 0x5356574B ++ le 2 2 ++ le 1 3 ++ le 1 0 ++ le 8 64 ++ le 44 0 ++ le 4 0x4C56574B, crcOk := true, sections := [],
    framed := true, cfg := FnCfg.reset, mbox := Mbox.reset, regs := [], vectors := 0, rings := [], ctl := none, qps := [],
    regions := [], keySlots := [], sas := [], track := none }

/-- States and operands that meet the hypotheses of `MigrationRuns`. -/
theorem met_mig :
    migReady mgr (migArg 1 0 0) 1 768 (migAt .running none none) = true ∧ migReady mgr (migArg 2 0 0) 2 768 (migAt .frozen none none) = true ∧
    (migReady mgr (migArg 3 4096 88) 3 768 (migAt .drained none none) = true ∧ blobSize (vfAt (migAt .drained none none).io 768) = 88 ∧
      field (migArg 3 4096 88) 0x10 8 = 88 ∧ migRunning (migAt .drained none none).io < 8) ∧
    (migReady mgr (migArg 4 0 64) 4 768 (migAt .frozen none none) = true ∧ (vfAt (migAt .frozen none none).io 768).fresh = true) ∧
    migReady mgr (migArg 5 0 0) 5 768 (migAt .saved none none) = true ∧
    (migReady mgr (migArg 6 0 2097152) 6 768 (migAt .running none none) = true ∧ trackUsed (migAt .running none none).io = 0) ∧
    migReady mgr (migArg 7 0 0) 7 768 (migAt .running none (some track1)) = true ∧
    (migReady mgr (migArg 8 0 64) 8 768 (migAt .running none (some track1)) = true ∧ bankBytes track1 = 64) ∧
    vfIdle (migAt .frozen (some (migOp1 2)) none) 768 = true ∧
    migRuns 3 768 (migOp1 3) (migAt .saving (some (migOp1 3)) none) = true ∧
    (migRuns 4 768 (migOp1 4) (migAt .restoring (some (migOp1 4)) none) = true ∧
      blobResult (migAt .restoring (some (migOp1 4)) none) 768 88 blob1 = 0) ∧
    (vfAt (migAt .running (some (migOp1 8)) (some track1)).io 768).op = some (migOp1 8) := by
  decide +kernel

/-- A submission ring 1 and a completion ring 2 of PF 0. -/
def ent (op : Nat) (started : Bool) : Fetched :=
  { counter := 5, tag := 9, opcode := op, suppress := false, started := started, length := 60, timestamp := false, vlan := none,
    ipSum := false, l4Sum := false, elems := [], entry := [], txTime := none, dropped := false, done := none }
def sq1 : Ring := { Ring.blank 0 with kind := 1, cq := 2, slot := 15, page := 12287, counter := 16 }
def cq2 : Ring := { Ring.blank 0 with isCq := true, counter := 17, seen := 17, armed := true, k := 65535, since := 1, t := 10000 }
def rung (sq cq : Ring) : State :=
  { live with io := { live.io with rings := { live.io.rings with rings := [(1, sq), (2, cq)] } } }
/-- A NOP entry whose phase a consumer counter of 16 on 16 entries expects, and its reading. -/
def nopEntry : Bytes := le 1 0x21 ++ le 63 0
def nopRead : EntryRead := { entry := some nopEntry, second := none, segments := [], translated := true }

/-- States and operands that meet the hypotheses of `RingsRun`. -/
theorem met_rings :
    ((rung sq1 cq2).io.rings.rings.find? (fun p => p.2.owner == 0 && p.2.page == 12287 && p.2.slot == 15) = some (1, sq1) ∧
      ringOf (rung sq1 cq2).io 1 = some sq1 ∧ frozen (rung sq1 cq2).io 0 = false) ∧
    (let r : Ring := { sq1 with scan := true }
     entryPhase r.fmt nopEntry = wantPhase r ∧ takeEntry r nopEntry nopRead = .entry (fetchedBlank r nopEntry) 0 ∧
       (fetchedBlank r nopEntry).done = none) ∧
    (let r : Ring := { sq1 with fetched := [ent 1 false] }
     fetchedAt r 5 = some (ent 1 false) ∧
       unitsIn (rung r cq2).net.hostQ + unitsOf (offloads (ent 1 false) (padTo 60 [])) ≤ 4 * dget (rung r cq2).io (idx 0x070121 0) 8192) ∧
    ((cq2.counter - 17).toNat ≤ 2 ^ cq2.log2n ∧ (cq2.counter - 1).toNat ≤ 2 ^ cq2.log2n) ∧
    (cq2.armed = true ∧ 0 < cq2.k ∧ 1 ≤ cq2.since) ∧
    (let r : Ring := { sq1 with state := .draining, drain := some { start := some 4294967295, tag := 1, from_ := .active } }
     (rung r cq2).net.fold.any (fun x => x.src == ringSrc 1) = false ∧ (rung r cq2).net.hostQ.any (fun x => x.src == ringSrc 1) = false) := by
  decide +kernel

/-- PF 0's admin registers in range, and its admin queue running: rings 0 and 1023, with a queue pair of its own. -/
def admReg (v : Word64) : State := on (regSet .admCfg 0 v) live
def adm1 (f : Bytes) : Fetched := { ent (field f 1 1) false with tag := field f 4 4, entry := f }
def adminOf (f : Bytes) : State :=
  { live with io := { live.io with rings := { live.io.rings with
      pool := 1
      rings := [(0, { Ring.blank 0 with admin := true, kind := 3, cq := 1023, fetched := [adm1 f] }), (1, sq1), (2, cq2),
        (3, { cq2 with slot := 1 }), (1023, { Ring.blank 0 with isCq := true, admin := true, slot := 2 })]
      adm := [(0, { Adm.reset with sq := some 0, cq := some 1023 })] } } }
def cqEntry : Bytes := le 1 0x21 ++ le 1 0x81 ++ le 2 0 ++ le 4 7 ++ le 8 4096 ++ le 8 64 ++ le 1 16 ++ le 1 2 ++ le 2 2047 ++ le 2 1 ++ le 2 10000 ++
  le 4 16384 ++ le 4 65536 ++ le 1 0 ++ le 1 14 ++ le 2 12287 ++ le 20 0
def sqEntry : Bytes := le 1 0x21 ++ le 1 0x82 ++ le 2 0 ++ le 4 7 ++ le 8 4096 ++ le 4 2 ++ le 4 0 ++ le 1 4 ++ le 1 2 ++ le 1 1 ++ le 1 16 ++ le 1 0 ++ le 1 14 ++
  le 2 0 ++ le 2 0x2FF ++ le 30 0
def ringEntry (op id : Nat) (rest : Bytes) : Bytes := padTo 64 (le 1 0x21 ++ le 1 op ++ le 2 0 ++ le 4 7 ++ le 4 id ++ rest)

/-- States and operands that meet the hypotheses of `AdminQueueRuns`. -/
theorem met_enable :
    (admCause 0 3 true (admReg 0x0404).io = 0 ∧ admCause 0 3 true (admReg 0x07FF0C0C).io = 0 ∧ (admOf (admReg 0).io 0).sq = none ∧
      ringOf (admReg 0).io 1048574 = none ∧ ringOf (admReg 0).io 1048575 = none) ∧
    (adoptHolds 0 (adminOf []) = false ∧ admRuns (adminOf cqEntry).io 0 = true ∧ ringOf (adminOf cqEntry).io 1048575 = none) ∧
    (createCqStatus 0 3 true cqEntry (adminOf cqEntry).io = 0 ∧ createSqStatus 0 3 true sqEntry (wireOf (adminOf sqEntry)) = 0) := by
  decide +kernel
theorem met_admin :
    (let e := ringEntry 0x83 2 (le 1 0x27 ++ le 3 0 ++ le 2 2047 ++ le 2 65535 ++ le 2 10000 ++ le 1 0 ++ le 1 1)
     admRing 0 3 e [(0x0D, 3), (0x1C, 36)] false (adminOf e).io = .inr (2, cq2) ∧ modifyStatus 0 e cq2 (adminOf e).io = 0) ∧
    (admRing 0 3 (ringEntry 0x84 1 (le 4 0)) [(0x10, 48)] false (adminOf []).io = .inr (1, sq1) ∧
      admRing 0 3 (ringEntry 0x84 2 (le 4 4294967295)) [(0x10, 48)] false (adminOf []).io = .inr (2, cq2)) ∧
    (admRing 0 3 (ringEntry 0x85 3 []) [(0x0C, 52)] false (adminOf []).io = .inr (3, { cq2 with slot := 1 }) ∧
      boundTo (adminOf []).io 3 = [] ∧ boundTo (adminOf []).io 1 = []) ∧
    (let e := ringEntry 0x86 1 []
     admRing 0 3 e [(0x0C, 52)] true (adminOf e).io = .inr (1, sq1) ∧ (adm1 e).tag = field e 4 4 ∧
       (ringOf (adminOf e).io 1023).any (fun c => decide (0 < cqFree c c.seen)) = true) := by decide +kernel

/-- Port 7 of eight, up, one priority paused, one sent XOFF, a frame waiting to leave. -/
def pk (f : Bytes) : Pkt := newPkt 7 7 7 0 f none 3
def ported : State :=
  { live with net := { live.net with mode := 3, ports := [(7, { PortSt.reset with
      up := true, paused := [(0, 5)], xoff := [(1, 0)], egress := [(7, [pk [1]])] })] } }
def frame60 : Bytes := List.replicate 60 1

/-- States and operands that meet the hypotheses of `PortsRun`. -/
theorem met_ports :
    (ported.net.frozen = false ∧ portExists ported.net 7 = true ∧ (portAt ported.net 7).up = true) ∧
    (fb frame60 12 2 ≠ 0x8808 ∧ tagged frame60 = false ∧ frame60.length + 4 ≤ dget ported.io (idx 0x070002 8) 9622 ∧
      mayTake (wireOf ported) 7 (ingressUse (wireOf ported) 7 (dget ported.io (idx 0x070011 8) 0)) (unitsOf frame60) = true) ∧
    (mget (portAt ported.net 7).paused 0 = some 5 ∧ mget (portAt ported.net 7).xoff 1 = some 0) ∧
    (egressPick (portAt ported.net 7) ported.io.now = some 7 ∧ mgetD (portAt ported.net 7).egress 7 [] = [pk [1]] ∧
      ported.net.damaged.contains 3 = false) ∧
    (portMayRun (wireOf ported) 3 7 = true ∧ lanesTested ported.dbg (fun l => laneKind l == some 0 && laneEthPort ported.net l == 7) = false) := by
  decide +kernel

/-- States and operands that meet the hypotheses of `TimeBaseRuns`. -/
theorem met_time :
    (live.allows mgr 0x070020 ∧ toSigned 32 (0x1DCD6500 : Word32).toNat = 500000000 ∧ toSigned 32 (0xE2329B00 : Word32).toNat = -500000000) ∧
    live.allows mgr 0x070021 ∧ (on (dset (idx 0x010003 0) 1) live).num 0x010003 0 = 1 ∧
    (dget live.io (idx 0x070025 0) 100 ≠ 0 ∧ live.net.ppsOut = false) ∧
    { live with net := { live.net with ppsOut := true } }.net.ppsOut = true := by
  unfold State.allows; decide +kernel

/-- A port with a frame waiting to be dealt; results waiting in a pipeline and in the Fold. -/
def dealing : State :=
  { live with net := { live.net with ports := [(7, { PortSt.reset with up := true, inQ := [pk frame60] })] } }
def slotF (q : Nat) (res : Option (List Out × Nat)) : FoldSlot :=
  { src := 7, seq := q, region := 3, slot := 0, handle := 3, tx := none, result := res }
def folding (res : Option (List Out × Nat)) : State :=
  { live with net := { live.net with
      fold := [slotF 0 res, slotF 65535 (some ([], 0))], held := [7]
      pipes := [(3, { PipeQ.reset with outbox := [{ src := 7, seq := 65535, outs := [] }] })] } }

/-- States that meet the hypotheses of `DroverAndFoldRun`. -/
theorem met_fold :
    (dealing.net.frozen = false ∧ nextRegion (wireOf dealing) dealing.cont = some 0 ∧ nextInput (wireOf dealing) = some (0, 7) ∧
      (takeInput (wireOf dealing) (0, 7)).isSome = true) ∧
    ((pipeQ (folding none).net 3).outbox = [{ src := 7, seq := 65535, outs := [] }] ∧
      (folding none).net.lost.find? (fun y => y.1 == 7 && y.2.1 == 65535) = none) ∧
    ((folding none).net.fold.find? (fun y => y.src == 7 && y.seq == mgetD (folding none).net.next 7 0 && y.result.isNone) = some (slotF 0 none) ∧
      slotF 65535 (some ([], 0)) ∈ (folding none).net.fold) ∧
    ((folding (some ([], 0))).net.held.contains 7 = true ∧
      (folding (some ([], 0))).net.fold.find? (fun y => y.src == 7 && y.seq == mgetD (folding (some ([], 0))).net.next 7 0) = some (slotF 0 (some ([], 0))) ∧
      (deliverOuts [] (wireOf (folding (some ([], 0))))).1 = []) := by decide +kernel

/-- A plate in slot 3: every root a leaf of one rule that matches everything, its action a delivery to port 0. -/
def rule1 : Bytes := padTo 32 (le 1 0x40 ++ le 3 0 ++ le 3 0)
def act1 : Bytes := padTo 32 (le 1 1 ++ le 1 0 ++ le 2 0 ++ le 2 0 ++ le 2 0xFFFF)
def head1 : Bytes := padTo 256 (le 4 0x4C50574B ++ le 1 0 ++ le 1 0 ++ le 3 0 ++ le 7 0 ++ ((List.range 16).map (fun _ => le 8 (2 * 2 ^ 62))).flatten)
def plated (ops : List LoadOp) (st : Nat) : State :=
  { live with pipe := { live.pipe with
      headers := [(3, head1)], rules := [(0, rule1)], actions := [(0, act1)], ops := ops, states := live.pipe.states.set 3 st
      pinQ := [{ mask := 8, slot := 63, off := 0, bytes := rule1, valid := none }] } }
def loadOp1 : LoadOp := { origin := 0, op := 2, slot := 3, list := none, fn := 12, res := ⟨0, 0, 0, 0⟩ }
def pinArg : Bytes := le 1 63 ++ le 1 15 ++ le 2 0 ++ padTo 0x78 (rule1 ++ le 32 0 ++ act1) ++ le 8 1

/-- States and operands that meet the hypotheses of `PlatesRun`. -/
theorem met_plates :
    (live.start.stage = 3 ∧ live.pipe.ops = [] ∧ regBit .pipeLoadStatus 12 0 live.io = false ∧ regField .pipeLoadLen 12 26 0 live.io ≤ 2 ^ 26) ∧
    (live.allows mgr 0x080021 ∧ cmdRuns live.io 0x080021 = false ∧ principalOf mgr.assoc.binding ≠ .f ∧ slotState (plated [] 2).pipe 3 = 2) ∧
    ((plateOf (plated [loadOp1] 1).net (plated [loadOp1] 1).pipe 3).fails = [] ∧ 3 < (plated [loadOp1] 1).pipe.states.length) ∧
    ((bitsOf 4 (regField .pipePinMask 12 3 0 live.io)).any (fun r => (pinAcc live.pipe r 63).valid) = false) ∧
    ((plated [] 2).pipe.pinQ.find? (fun x => x.mask.testBit 3) = some { mask := 8, slot := 63, off := 0, bytes := rule1, valid := none }) ∧
    (live.allows mgr 0x080030 ∧ pinArg.length = 132 ∧ field pinArg 0 1 = 63 ∧ field pinArg 1 1 = 15 ∧ field pinArg 2 2 = 0 ∧ field pinArg 0x7C 8 = 1 ∧
      pinBad live.net (slice pinArg 4 0x78) = false) ∧
    live.allows mgr 0x080101 := by unfold State.allows; decide +kernel

/-- A packet stamped with slot 3 in region 3, and the same under the Sheepdog rules from port 0. -/
def piped (k : Pkt) : State :=
  { plated [] 3 with net := { live.net with pipes := [(3, { PipeQ.reset with
      queue := [k], deep := [{ pkt := k, epoch := 0, conn := false, act := [], outs := [] }] })] } }
def pk3 : Pkt := { pk frame60 with region := 3, slot := 3 }
def pk0 : Pkt := { pk (broadcast ++ frame60) with region := 3, src := 0 }

/-- States that meet the hypotheses of `PipelineRuns`. -/
theorem met_pipeline :
    ((pipeQ (piped pk3).net 3).queue = [pk3] ∧ underSheepdog (piped pk3).pipe pk3 = false ∧
      pinHit (piped pk3).pipe 3 (contextOf (piped pk3).pipe pk3).key = none ∧ diverted (piped pk3).io pk3 = none ∧
      walk (piped pk3).pipe 3 (contextOf (piped pk3).pipe pk3).key false = .leaf (2 * 2 ^ 62) ∧
      walk (piped pk3).pipe 3 (contextOf (piped pk3).pipe pk3).key true = .leaf (2 * 2 ^ 62) ∧
      leafWinner (piped pk3).pipe (2 * 2 ^ 62) (contextOf (piped pk3).pipe pk3).key = some 0 ∧
      field (actionAt (piped pk3).pipe 0) 0 1 = 1 ∧ field (actionAt (piped pk3).pipe 0) 1 1 = 0 ∧
      (contextOf (piped pk3).pipe pk3).parsed.err = false) ∧
    (underSheepdog (piped pk0).pipe pk0 = true ∧ pinHit (piped pk0).pipe 3 (contextOf (piped pk0).pipe pk0).key = none ∧
      slice pk0.frame 0 6 = broadcast) ∧
    ((packet (piped pk3).cont (piped pk3).dom true pk3 ((wireOf (piped pk3)).onNet (pipeQPut 3 { pipeQ (piped pk3).net 3 with queue := [] }))).isSome = true) := by
  decide +kernel

/-- An event that waits, an old entry, a record that waits, a message received. -/
def event1 : LearnEv :=
  { mac := [0, 1, 2, 3, 4, 5], bd := 4095, dest := 7, owner := 0, time := 0, remote := false, withdraw := false, isNew := true, region := 3 }
def learnt : State :=
  { live with
    net := { live.net with learnRx := [pk frame60] }
    dom := { live.dom with state := 1 }
    tabs := { live.tabs with
      arb := [event1], br := [(135167, { learnEntry { event1 with mac := [2] } with idle := 299 })]
      outbox := [{ op := 1, bd := 0, mac := [2], time := 0, refresh := false, at_ := 0 }] } }

/-- States that meet the hypotheses of `LearningRuns`. -/
theorem met_learning :
    (learnt.tabs.arb = [event1] ∧ brFind learnt.tabs event1.mac event1.bd = none ∧ overLimit event1 (wireOf learnt) = false ∧
      brPlace learnt.tabs event1.mac event1.bd = some (4 * brBucket event1.mac event1.bd)) ∧
    (learnt.tabs.br.all (fun e => ages learnt.dom e.2 && !e.2.hit.any (fun r => (inService learnt.cont).contains r) &&
      decide (dget learnt.io (idx 0x090000 0) 300 ≤ e.2.idle + 1)) = true ∧ learnt.tabs.br.length = 1) ∧
    (learnt.tabs.outbox.length = 1 ∧ learnt.tabs.sweepQueued = false ∧ learnt.net.learnRx.length = 1) ∧
    (dget learnt.io (idx 0x090034 0) 300 ≠ 0 ∧ learnt.dom.state = 1) := by decide +kernel

/-- Records of a list in host memory, and a state that runs one. -/
def tblRec (op : Nat) (b : Bytes) : Bytes := padTo 128 (le 1 op ++ le 15 0 ++ b)
def connRec (op : Nat) : Bytes := tblRec op (le 37 0 ++ le 1 2 ++ le 2 0 ++ le 1 1 ++ le 1 0 ++ le 3 16383)
def brRec (op : Nat) : Bytes := tblRec op (le 6 1 ++ le 2 4095 ++ le 2 7 ++ le 2 0 ++ le 1 3)
def listed (conn : List (Nat × Bytes)) (br : List (Nat × BrEntry)) : State :=
  { live with tabs := { live.tabs with
      lists := [{ origin := 0, fn := 12, addr := 0, records := 131072, done := 131071 }], conn := conn, br := br } }
def connEnt : Bytes := slice (connRec 1) 16 64
def listLen (n : Word64) : State :=
  { on (regSet .tblCmdLen 12 n) live with io := { (on (regSet .tblCmdLen 12 n) live).io with dic := mput live.io.dic (idx 0x090200 0) (.str (connRec 1)) } }

/-- States and operands that meet the hypotheses of `TableCommandsRun`. -/
theorem met_tables :
    (regField .tblCmdLen 12 24 0 (listLen 0x1000000).io = 2 ^ 24 ∧ regBit .tblCmdStatus 12 0 (listLen 128).io = false ∧
      regField .tblCmdLen 12 24 0 (listLen 128).io = 128) ∧
    (live.allows mgr 0x090201 ∧ (listLen 0).allows mgr 0x090201 ∧ cmdRuns (listLen 0).io 0x090201 = false ∧
      principalOf mgr.assoc.binding ≠ .f ∧ ((listLen 0).blob 0x090200 0).length = 128) ∧
    ((connRec 1).length = 128 ∧ recordOk (connRec 1) = true ∧ recordOk (connRec 2) = true ∧ recordOk (connRec 3) = true ∧
      field (connRec 1) 0x3A 3 = 16383 ∧ field (connRec 1) 0x35 1 = 2 ∧ connFind (listed [] []).tabs (slice (connRec 1) 0x10 40) = none ∧
      ((connSlots (slice (connRec 1) 0x10 40)).find? (fun i => !connValid (listed [] []).tabs i)).isSome = true) ∧
    (let i := (connSlots (connEnt.take 40)).headD 0; connFind (listed [(i, connEnt)] []).tabs (slice (connRec 3) 0x10 40) = some i) ∧
    ((brRec 0x11).length = 128 ∧ recordOk (brRec 0x11) = true ∧ recordOk (brRec 0x12) = true ∧ recordOk (brRec 0x13) = true ∧
      (listed [] []).dom.state ≠ 2 ∧ field (brRec 0x11) 0x18 2 ≠ 0xFFFF ∧
      brFind (listed [] []).tabs (slice (brRec 0x11) 0x10 6) (field (brRec 0x11) 0x16 2) = none ∧
      (brPlace (listed [] []).tabs (slice (brRec 0x11) 0x10 6) (field (brRec 0x11) 0x16 2)).isSome = true) ∧
    (let e := learnEntry { event1 with mac := slice (brRec 0x12) 0x10 6 }
     brFind (listed [] [(135167, e)]).tabs (slice (brRec 0x12) 0x10 6) (field (brRec 0x12) 0x16 2) = some (135167, e)) := by
  unfold State.allows; decide +kernel

/-- A pass over the last entry of table 1, and its argument. -/
def passing (st cur : Nat) : State :=
  { live with tabs := { live.tabs with proof := { Proof.reset with
      state := st, table := 1, first := 135167, last := 135167, cursor := cur, log2n := 16, counter := 65536 } } }
def passArg (op : Nat) : Bytes := le 1 op ++ le 1 1 ++ le 2 0 ++ le 4 135167 ++ le 4 135167 ++ le 1 16 ++ le 3 0 ++ le 8 0 ++ le 8 4096 ++ le 8 64 ++ le 4 0 ++ le 4 0

/-- States and operands that meet the hypotheses of `ProofPassRuns`. -/
theorem met_proof :
    (proofGate 3 mgr (passArg 1) live.io = none ∧ proofGate 3 mgr (passArg 2) live.io = none ∧ proofRuns live.tabs.proof = false ∧
      proofArgOk (passArg 1) = true ∧ proofArgOk (passArg 2) = true) ∧
    (proofGate 3 mgr (passArg 3) (passing 1 135167).io = none ∧ proofRuns (passing 2 0).tabs.proof = true) ∧
    ((passing 1 135167).tabs.proof.cursor ≤ (passing 1 135167).tabs.proof.last) ∧
    (((passing 2 0).tabs.proof.counter - 1).toNat < 2 ^ (passing 2 0).tabs.proof.log2n ∧
      ((passing 2 0).tabs.proof.counter - 65536).toNat < 2 ^ (passing 2 0).tabs.proof.log2n) ∧
    ((passing 1 135168).tabs.proof.last < (passing 1 135168).tabs.proof.cursor) := by decide +kernel

/-- The firmware of block 15; a window of VF 1,023 with a 128-bit key; an SA of the device pool. -/
def fw : Issuer := { assoc := { binding := .fwPort, key := 15, session := none }, tag := 7 }
def keyed : State :=
  { on (fun io => regSet .keyWinCtrl 1039 0x1000 (regSet .keyWinFill 1039 15 (regSet .keyWinSlot 1039 63 io))) live with
    burin := { live.burin with wins := [(1039, { words := [(0, 1), (1, 2), (2, 3), (3, 4)], last := 0 })] } }
def saArg (op : Nat) : Bytes := padTo 128 (le 1 op ++ le 1 6 ++ le 2 0xFFFF ++ le 4 0 ++ le 4 16383)
def sa1 : Sa := { tag := 4095, pool := 1028, desc := saArg 1, counter := 0, warned := false, spent := false, drops := 0, replay := [] }
def assoc1 (sas : List (Nat × Sa)) : State :=
  { live with burin := { live.burin with
      sas := sas, slots := [(slotKey 1028 16383, { state := .keyed, usage := 1, key := List.replicate 16 1, refs := 0, used := false })] } }
def handle1 (op : Nat) : Bytes := padTo 128 (le 4 op ++ le 4 (4095 * 2 ^ 18 + 262143))
def eraseArg : Bytes := padTo 88 (le 4 2 ++ le 4 16383 ++ le 4 0 ++ le 4 0xFFFF)

/-- States and operands that meet the hypotheses of `KeysAndAssociationsRun`. -/
theorem met_keys :
    (keyCause 3 false (keyWinCmd 1039 (wireOf keyed)) (wireOf keyed) = 0 ∧ (keyWinCmd 1039 (wireOf keyed)).target = some 1023 ∧
      (keyWinCmd 1039 (wireOf keyed)).form = 0 ∧ (keyWinCmd 1039 (wireOf keyed)).usage = 1 ∧ (keyWinCmd 1039 (wireOf keyed)).slot = 63 ∧
      (slotAt keyed.burin 1023 63).refs = 0 ∧ keyCause 3 true (keyWinCmd 1039 (wireOf keyed)) (wireOf keyed) = 0) ∧
    (live.allows mgr 0x0A0110 ∧ eraseArg.length = 88 ∧ field eraseArg 0 1 = 2 ∧ field eraseArg 3 1 = 0 ∧ field eraseArg 0x0C 4 = 0xFFFF ∧
      field eraseArg 4 4 = 16383 ∧ (slotAt live.burin devicePool 16383).refs = 0) ∧
    (keyWin keyed.burin 1039).words ≠ [] ∧
    (saGate 3 mgr (saArg 1) 1 (assoc1 []).io = none ∧ saPool (assoc1 []).io mgr 0xFFFF = some 1028 ∧ saDescOk (saArg 1) = true ∧
      (saSlots (saArg 1)).all (slotFits (wireOf (assoc1 [])) 1028 6) = true ∧ field (saArg 1) 2 2 = 0xFFFF ∧ field (saArg 1) 1 1 = 6) ∧
    (saGate 3 mgr (handle1 2) 2 live.io = none ∧ saGate 3 mgr (handle1 3) 3 live.io = none ∧
      saOf (assoc1 [(262143, sa1)]).burin (field (handle1 2) 4 4) = some (262143, sa1) ∧
      saOf (assoc1 [(262143, sa1)]).burin (field (handle1 3) 4 4) = some (262143, sa1) ∧ saMay live.io mgr 1028 = true) := by
  unfold State.allows; decide +kernel

/-- Queue 31 of region 3 over the last 4 KiB of that region's SRAM, and its arguments. -/
def laBase : Nat := 0x02000CFFF000
def laArg (op : Nat) : Bytes := le 1 op ++ le 1 3 ++ le 1 31 ++ le 1 6 ++ le 4 0 ++ le 8 laBase ++ le 8 0
def laQ (jobs : List LaJob) : State :=
  { live with burin := { live.burin with queues := [(127, { log2n := 6, base := laBase, counter := 0, jobs := jobs })] } }
def laJ : LaJob := { addr := laBase, entry := List.replicate 64 0, at_ := 0 }
def starving (p : Nat) : State :=
  { live with burin := { live.burin with rng := 2, passes := p, starved := [{ pkt := pk3, first := frame60, act := act1, outs := [], at_ := 0 }] } }

/-- States and operands that meet the hypotheses of `LookasideRuns`. -/
theorem met_lookaside :
    (cmdGate 3 fw 0x0A0200 (laArg 1) 24 1 live.io = none ∧ cmdGate 3 fw 0x0A0200 (laArg 2) 24 2 live.io = none ∧
      field (laArg 1) 1 1 = 3 ∧ field (laArg 1) 2 1 = 31 ∧ field (laArg 1) 3 1 = 6 ∧ allZero (slice (laArg 1) 0x10 8) = true ∧
      laBaseOk live.mem 3 (field (laArg 1) 8 8) 6 = true ∧ laKey 3 31 = 127) ∧
    ((coreRead laBase 64 (laQ [])).1 = .ok (List.replicate 64 0) ∧ phaseAt 6 0 = false) ∧
    (mget (laQ [laJ, laJ]).burin.queues 127).isSome = true ∧ (laQ []).burin.rng ≠ 2 ∧
    ((starving 2).burin.rng = 2 ∧ (starving 2).burin.passes = 2 ∧ ((starving 2).burin.starved.find? (fun x => x.pkt.region == 3)).isSome = true) := by
  decide +kernel

/-- A QP of PF 2's twin, in a state, with a queue of work requests; the firmware of block 15 may command for VF 1,023 and
the device. -/
def qpAt (st : Nat) : Qp :=
  { newQp 6 (padTo 128 (le 1 1 ++ le 1 1 ++ le 2 0xFFFF ++ le 4 0 ++ le 4 0 ++ le 4 0 ++ le 4 7 ++ le 4 2 ++ le 4 2 ++ le 4 0xFFFFFFFF ++ le 1 4 ++ le 1 4)) with
    state := st, destQpn := 5, destIp := be 16 0x0A000002, destMac := be 6 2, hop := 64, retry := 7, ackTime := 31,
    lanes := [(0, { RLane.reset with state := 1, rate := 1600000 })] }
def rdmaOn (q : Qp) : State :=
  { rung sq1 cq2 with
    io := dset (idx 0x070001 0) 0 (rung sq1 cq2).io
    rdma := { Rdma.reset with
      qps := [(1048575, q)], gids := [(6 * 16, be 16 0x0A000001)], resident := [(homeRegion 1048575, [1048575])], wqPool := 1, asmPool := 1 } }
def devCq : State := { live with io := { live.io with rings := { live.io.rings with rings := [(2, { cq2 with fmt := 2 })] } }, rdma := { Rdma.reset with wqPool := 4 } }
def createArg : Bytes := padTo 128 (le 1 1 ++ le 1 1 ++ le 2 0xFFFE ++ le 12 0 ++ le 4 7 ++ le 4 2 ++ le 4 2 ++ le 4 0xFFFFFFFF ++ le 1 15 ++ le 1 4)
def qpArg (op n mask : Nat) (rest : Bytes) : Bytes := padTo 128 (le 1 op ++ le 1 0 ++ le 2 0xFFFE ++ le 4 n ++ le 4 mask ++ rest)
def devQp (st : Nat) : State := rdmaOn { qpAt st with owner := deviceOwner }

/-- States and operands that meet the hypotheses of `QueuePairCommandsRun`. -/
theorem met_qps :
    (rdmaReady fw createArg 1 deviceOwner devCq = true ∧ createQpOk deviceOwner createArg = true ∧ rdmaCqOk devCq deviceOwner 2 = true ∧
      field createArg 0x14 4 = 2 ∧ field createArg 0x18 4 = 2 ∧ (newQp deviceOwner createArg).srq = none ∧ field createArg 4 4 = 0 ∧
      pickQpn devCq = some 2 ∧
      rdmaRoom devCq deviceOwner (2 ^ 20) (vfQps devCq.io) (fun p => (devCq.rdma.qps.filter (fun x => p x.2.owner)).length) = true ∧
      workRoom devCq (64 * 2 ^ field createArg 0x20 1 + 64 * 2 ^ field createArg 0x21 1) = true) ∧
    (let arg := qpArg 2 1048575 1 (le 1 4)
     rdmaReady fw arg 2 deviceOwner (devQp 3) = true ∧ modifyOk arg 1 = true ∧ field arg 8 4 = 1 ∧
      moveOk { qpAt 3 with owner := deviceOwner } arg 1 = true ∧
      ownQp (devQp 3) deviceOwner (field arg 4 4) = some { qpAt 3 with owner := deviceOwner } ∧ (qpAt 3).sq = []) ∧
    (let arg := qpArg 2 1048575 0x1FB7 (le 1 2 ++ le 1 5 ++ le 1 8 ++ le 1 1 ++ le 18 0 ++ le 2 0 ++ le 1 31 ++ le 1 31 ++ le 1 0 ++ le 1 7 ++ le 4 5 ++ le 12 0 ++ le 1 128 ++ le 1 128)
     rdmaReady fw arg 2 deviceOwner (devQp 1) = true ∧ modifyOk arg (field arg 8 4) = true ∧
      moveOk { qpAt 1 with owner := deviceOwner } arg (field arg 8 4) = true) ∧
    (rdmaReady fw (qpArg 3 1048575 0 []) 3 deviceOwner (devQp 3) = true ∧ rdmaReady fw (qpArg 4 1048575 0 []) 4 deviceOwner (devQp 3) = true ∧
      ownQp (devQp 3) deviceOwner (field (qpArg 4 1048575 0 []) 4 4) = some { qpAt 3 with owner := deviceOwner } ∧ (qpAt 3).leaving = none ∧
      qpOf (rdmaOn { qpAt 4 with leaving := some (fw, 0) }) 1048575 = some { qpAt 4 with leaving := some (fw, 0) }) := by decide +kernel

/-- The device's SRQ 65,535, address handle 262,143, and region 1,048,575 with tag FFFH, closing or not. -/
def mr1 (c : Option (Issuer × Nat)) : Mr :=
  { owner := deviceOwner, tag := 0xFFF, pd := 7, va := 4096, host := 8192, len := 4096, rights := 3, closing := c }
def srq1 : Srq := { owner := deviceOwner, pd := 7, depth := 15, limit := 0, armed := false, rq := [] }
def objects (c : Option (Issuer × Nat)) : State :=
  { live with rdma := { Rdma.reset with
      srqs := [(65535, srq1)], ahs := [(262143, { owner := deviceOwner, arg := [] })], mrs := [(1048575, mr1 c)], tags := [(1048575, 0xFFF)], wqPool := 4 } }
def objArg (op n : Nat) (rest : Bytes) : Bytes := padTo 128 (le 1 op ++ le 1 0 ++ le 2 0xFFFE ++ le 4 n ++ rest)
def mrArg : Bytes := padTo 128 (le 1 0x10 ++ le 1 3 ++ le 2 0xFFFE ++ le 4 7 ++ le 8 4096 ++ le 8 8192 ++ le 8 (2 ^ 40))

/-- States and operands that meet the hypotheses of `RdmaObjectsRun`. -/
theorem met_objects :
    ([(objArg 8 7 (le 1 15), 8), (objArg 9 65535 [], 9), (objArg 0xA 65535 (le 4 5), 0xA), (objArg 0xC 0x0700000F [], 0xC),
      (objArg 0xD 262143 [], 0xD), (objArg 0xE 0x0000010F [], 0xE), (mrArg, 0x10), (objArg 0x11 0xFFFFFFFF [], 0x11),
      (objArg 0x12 0xFFFFFFFF [], 0x12)].all (fun (p : Bytes × Nat) => rdmaReady fw p.1 p.2 deviceOwner (objects none)) = true) ∧
    (argZero (objArg 8 7 (le 1 15)) [(1, 1), (9, 3), (0x10, 112)] = true ∧ field (objArg 8 7 (le 1 15)) 8 1 = 15 ∧
      rdmaRoom (objects none) deviceOwner 65536 (vfSrqs live.io) (fun p => ((objects none).rdma.srqs.filter (fun x => p x.2.owner)).length) = true ∧
      workRoom (objects none) (64 * 2 ^ 15) = true ∧ mget (objects none).rdma.srqs 0 = none) ∧
    (argZero (objArg 9 65535 []) [(1, 1), (8, 120)] = true ∧ (ownSrq (objects none) deviceOwner (field (objArg 9 65535 []) 4 4)).isSome = true ∧
      ownSrq (objects none) deviceOwner (field (objArg 0xA 65535 (le 4 5)) 4 4) = some srq1 ∧ argZero (objArg 0xA 65535 (le 4 5)) [(1, 1), (0xC, 116)] = true) ∧
    (let a := objArg 0xC 0x0700000F []; argZero a [(1, 1), (0xA, 6), (0x26, 90)] = true ∧ field a 4 1 = 15 ∧ field a 7 1 = 7 ∧
      field a 6 1 = 0 ∧ mget (objects none).rdma.ahs 0 = none) ∧
    ((ownAh (objects none) deviceOwner (field (objArg 0xD 262143 []) 4 4)).isSome = true ∧
      (let a := objArg 0xE 0x0000010F []; argZero a [(1, 1), (6, 10), (0x20, 96)] = true ∧ field a 4 1 = 15 ∧ field a 5 1 = 1)) ∧
    (argZero mrArg [(0x20, 96)] = true ∧ field mrArg 1 1 = 3 ∧ field mrArg 0x18 8 = 2 ^ 40 ∧
      rdmaRoom (objects none) deviceOwner (2 ^ 20) (vfMrs live.io) (fun p => ((objects none).rdma.mrs.filter (fun x => p x.2.owner)).length) = true) ∧
    (ownMr (objects none) deviceOwner (field (objArg 0x12 0xFFFFFFFF []) 4 4) = some (mr1 none) ∧
      argZero (objArg 0x12 0xFFFFFFFF []) [(1, 1), (8, 120)] = true ∧
      mget (objects (some (fw, 0))).rdma.mrs (0xFFFFFFFF % 2 ^ 20) = some (mr1 (some (fw, 0))) ∧ (mr1 none).tag = 0xFFFFFFFF / 2 ^ 20) := by decide +kernel

/-- Entries of ring 1 for the QP, one for each opcode, and for an SRQ; a QP with a WAIT on its own sends at its head. -/
def workEntry (op n flags elems value : Nat) (rest : Bytes) : Bytes :=
  padTo 64 (le 1 1 ++ le 1 op ++ le 1 0 ++ le 1 elems ++ le 4 9 ++ le 3 n ++ le 1 flags ++ le 4 value ++ rest)
def workAt (op : Nat) (e : Bytes) : Fetched := { ent op false with entry := e }
def wrRing (kind : Nat) (f : Fetched) : Ring := { Ring.blank 6 with kind := kind, cq := 2, counter := 16, fetched := [f] }
def posting (kind : Nat) (q : Qp) (f : Fetched) : State :=
  { rdmaOn q with
    io := { (rdmaOn q).io with rings := { (rdmaOn q).io.rings with rings := [(1, wrRing kind f), (2, cq2)] } }
    rdma := { (rdmaOn q).rdma with srqs := [(9, { srq1 with owner := 6 })] } }
def sendEnt (op : Nat) : Fetched :=
  workAt op (if op = 0x1C then workEntry op 1048575 0 0 0 (le 4 1048575) else workEntry op 1048575 0 1 0 (le 8 4096 ++ le 4 8 ++ le 4 0))
def recvEnt : Fetched := workAt 0x18 (workEntry 0x18 1048575 0 1 0 (le 8 4096 ++ le 4 1024 ++ le 4 0))
def srqEnt : Fetched := workAt 0x18 (workEntry 0x18 9 4 1 0 (le 8 4096 ++ le 4 1024 ++ le 4 0))
def waitWork : Work := workOf 1 (sendEnt 0x1C)
def waitingQp : Qp := { qpAt 3 with sq := [waitWork, workOf 1 (sendEnt 0x10)], sendCount := 0x7FFFFFFF }

/-- States and operands that meet the hypotheses of `WorkRequestsRun`. -/
theorem met_work :
    ([0x10, 0x11, 0x12, 0x13, 0x14, 0x1C].all (fun op =>
      let s := posting 0x10 (qpAt 3) (sendEnt op)
      let r := wrRing 0x10 (sendEnt op)
      ringOf s.io 1 == some r && fetchedAt r 5 == some (sendEnt op) && ownQp s 6 (field (sendEnt op).entry 8 3) == some (qpAt 3) &&
        !(field (sendEnt op).entry 0xB 1).testBit 2 && cqsGood s (qpAt 3) && qpPostStatus r (sendEnt op) (qpAt 3) == 0 &&
        (workOf 1 (sendEnt op)).op == op && (op != 0x1C || (waitTarget s (qpAt 3) (workOf 1 (sendEnt op))).isSome)) = true) ∧
    (ringOf (posting 0x11 (qpAt 1) recvEnt).io 1 = some (wrRing 0x11 recvEnt) ∧ fetchedAt (wrRing 0x11 recvEnt) 5 = some recvEnt ∧
      (field recvEnt.entry 0xB 1).testBit 2 = false ∧ ownQp (posting 0x11 (qpAt 1) recvEnt) 6 (field recvEnt.entry 8 3) = some (qpAt 1) ∧
      cqsGood (posting 0x11 (qpAt 1) recvEnt) (qpAt 1) = true ∧ qpPostStatus (wrRing 0x11 recvEnt) recvEnt (qpAt 1) = 0) ∧
    (fetchedAt (wrRing 0x11 srqEnt) 5 = some srqEnt ∧ (field srqEnt.entry 0xB 1).testBit 2 = true ∧
      (ownSrq (posting 0x11 (qpAt 1) srqEnt) 6 (field srqEnt.entry 8 3)) = some { srq1 with owner := 6 } ∧
      workFits srqEnt 0x18 1 0 = true ∧ workClean srqEnt 0x18 1 = true) ∧
    (cqsGood (rdmaOn waitingQp) waitingQp = true ∧ waitTarget (rdmaOn waitingQp) waitingQp waitWork = some waitingQp ∧
      waitHolds waitingQp waitWork = true ∧ waitWork.op = 0x1C ∧ (workOf 1 (sendEnt 0x10)).sent = false) := by decide +kernel

/-- A RoCEv2 frame for the QP with a good ICRC, and states in which engine 3 has it before it. -/
def roce (op psn : Nat) (rest : Bytes) : Bytes :=
  let bth := bthBytes op 1048575 psn false false rest
  let udp := be 2 49152 ++ be 2 4791 ++ be 2 (12 + bth.length) ++ be 2 0
  let ip := be 1 0x45 ++ be 1 0 ++ be 2 (32 + bth.length) ++ be 2 0 ++ be 2 0x4000 ++ be 1 64 ++ be 1 17 ++ be 2 0 ++ be 4 0x0A000002 ++ be 4 0x0A000001
  be 6 2 ++ be 6 4 ++ be 2 0x0800 ++ ip ++ udp ++ bth ++ icrcOf false 20 (ip ++ udp ++ bth)
def roced (q : Qp) (f : Bytes) : State :=
  { rdmaOn q with net := { live.net with rdmaQ := [(homeRegion 1048575, [newPkt 7 3 7 0 f none 3])] } }
def eng : RegionNo := ⟨homeRegion 1048575, by decide⟩
def recvQp : Qp := { qpAt 2 with
  rq := [workOf 1 recvEnt], rxRsn := 65535, rxBind := 65535, rxSeq := 65535, rxMsg := 16777215,
  lanes := [(0, { RLane.reset with state := 1, expect := 16777215 })] }
def flying (op span : Nat) : RPkt := { psn := 16777215, span := span, msg := 0, off := 0, rsn := 0, last := true, sol := false, resync := false, op := op, body := [], tries := 0, sentAt := 0 }
def sentWork (op len : Nat) : Work := { workOf 1 (sendEnt op) with sent := true, started := true, len := len, elems := [(4096, len)] }
def sendQp (op len : Nat) : Qp := { qpAt 3 with
  sq := [sentWork op len], lanes := [(0, { RLane.reset with state := 1, rate := 1600000, unacked := [flying (if op = 0x14 then 0x0C else 4) 2] })] }
def readyQp (op : Nat) : Qp := { qpAt 3 with sq := [workOf 1 (sendEnt op)] }
def parkedAt : State := { rdmaOn (qpAt 3) with rdma := { (rdmaOn (qpAt 3)).rdma with resident := [], parked := [(1048575, pk frame60)] } }

/-- States that meet the hypotheses of `RdmaPacketsRun`. -/
theorem met_packets :
    ([0x10, 0x11, 0x12, 0x13, 0x14].all (fun op => let q := readyQp op
      cqsGood (rdmaOn q) q && activeLanes q == [0] && q.sq == [workOf 1 (sendEnt op)] && !(workOf 1 (sendEnt op)).sent &&
        !frozen (rdmaOn q).io q.owner && engineRuns (rdmaOn q) (homeRegion 1048575) && mayStart (rdmaOn q) q 0 (workOf 1 (sendEnt op))) = true) ∧
    (let x := rxOf (roce 4 16777215 [1, 2, 3, 4])
     rdmaGets eng 0 x recvQp (roced recvQp (roce 4 16777215 [1, 2, 3, 4])) = true ∧ plainReady recvQp = true ∧ x.op = 4 ∧ x.ce = false ∧
      x.psn = 16777215 ∧ x.body = [1, 2, 3, 4] ∧ (workOf 1 recvEnt).len = 1024 ∧ cqFull (roced recvQp []) recvQp.recvCq = false) ∧
    (rdmaGets eng 1 (rxOf (roce 0x11 16777215 (be 4 0x1F000000))) (sendQp 0x10 8) (roced (sendQp 0x10 8) (roce 0x11 16777215 (be 4 0x1F000000))) = true) ∧
    (let x := rxOf (roce 0x11 16777215 (be 4 0x63000000))
     rdmaGets eng 2 x (sendQp 0x10 8) (roced (sendQp 0x10 8) (roce 0x11 16777215 (be 4 0x63000000))) = true ∧
      (answerLane (sendQp 0x10 8) x).2 = 0x63 ∧ (coverIdx (laneAt (sendQp 0x10 8) 0) x.psn).isSome = true) ∧
    ([(0x10, 8, 8)].all (fun (v : Nat × Nat × Nat) => let f := roce v.1 16777215 (be 4 0x1F000000 ++ List.replicate v.2.2 5)
      let q := sendQp 0x14 v.2.1
      rdmaGets eng 3 (rxOf f) q (roced q f) && coverIdx (laneAt q 0) (rxOf f).psn == some 0 && (activeLanes q).contains 0 &&
        (sentWork 0x14 v.2.1).started && (sentWork 0x14 v.2.1).msg == 0 && (sentWork 0x14 v.2.1).op != 0x1C &&
        ((rxOf f).body.drop 4).length == min (mtuOf q) v.2.1 && (sentWork 0x14 v.2.1).got == 0) = true) ∧
    (rdmaGets eng 4 (rxOf (roce 0x81 0 (List.replicate 16 0))) (qpAt 3) (roced (qpAt 3) (roce 0x81 0 (List.replicate 16 0))) = true ∧
      (laneAt (qpAt 3) 0).state = 1 ∧ (laneAt (qpAt 3) 0).cutAt = none) ∧
    ((qpOf parkedAt 1048575).isSome = true ∧ isResident parkedAt 1048575 = false) := by decide +kernel

/-- A lane with something owed and something in flight; a withdrawn one; an RNR hold. -/
def timing (st : Nat) (hold : Option (Nat × Nat)) : Qp := { qpAt 3 with
  rnrHold := hold, lanes := [(7, { RLane.reset with state := st, owed := 31, unacked := [{ flying 4 1 with tries := 6 }] })] }

/-- States that meet the hypotheses of `RdmaTimersRun`. -/
theorem met_timers :
    timed (rdmaOn (timing 1 none)) 1048575 = some (timing 1 none) ∧ (laneAt (timing 1 none) 7).owed ≠ 0 ∧
    ((laneAt (timing 1 none) 7).unacked = [{ flying 4 1 with tries := 6 }] ∧ (timing 1 none).retry = 7 ∧ (timing 1 none).lp = false) ∧
    (timed (rdmaOn (timing 2 none)) 1048575 = some (timing 2 none) ∧ (laneAt (timing 2 none) 7).state = 2) ∧
    timed (rdmaOn (timing 1 (some (5, 0)))) 1048575 = some (timing 1 (some (5, 0))) ∧
    ((laneAt (timing 1 none) 7).state = 1 ∧ (laneAt (timing 1 none) 7).cutAt = none) := by decide +kernel

/-- PF 1's controller with an admin queue pair and I/O queue pair 128, at the bottom of its queues. -/
def nvSq1 (cq : Nat) : NvSq :=
  { base := 4096, size := 65536, cq := cq, prio := 0, head := 65535, tail := 0, suspended := false, failed := false, leaving := none }
def nvCq1 : NvCq :=
  { base := 8192, size := 65536, head := 1, tail := 65535, phase := true, vector := 0, quota := 0, overflow := [], spill := [], stopped := false, error := false }
def ctl1 (cmds : List NvCmd) : NvCtl :=
  { NvCtl.reset with st := 3, sqs := [(0, { nvSq1 0 with tail := 65535 }), (128, nvSq1 128)], cqs := [(0, nvCq1), (128, nvCq1)], cmds := cmds }
def nvmeOn (x : NvCtl) (en : Bool) : State :=
  { live with
    io := if en then regOn .nvCsts 1 0 (regSet .nvCc 1 0x00460001 live.io) else live.io
    nvme := { live.nvme with ctls := [(1, x)] } }
def readEntry : Bytes := padTo 64 (le 1 0 ++ le 1 0 ++ le 2 9 ++ le 4 0xFFFFFFFF)
def doneCmd : NvCmd := { cmdOf 128 readEntry with ended := some (0, false) }

/-- States and operands that meet the hypotheses of `NvmeControllersRun`. -/
theorem met_controllers :
    (ctlExists (nvmeOn NvCtl.reset false) 1 = true ∧ regBit .nvCc 1 0 (nvmeOn NvCtl.reset false).io = false ∧
      ccOk (ccWrite 1 0x00460001 (nvmeOn NvCtl.reset false)).io 1 = true) ∧
    (ccOk (nvmeOn { NvCtl.reset with rising := some 0 } true).io 1 = true) ∧
    (regBit .nvCc 1 0 (nvmeOn (ctl1 []) true).io = true ∧ bits (0x8001 : Word32).toNat 15 14 = 2 ∧ bits (0x4001 : Word32).toNat 15 14 = 1) ∧
    (ctlQuiet (ctl1 []) = true ∧ regField .nvCsts 1 3 2 (on (regPut .nvCsts 1 3 2 1) (nvmeOn (ctl1 []) true)).io = 1) ∧
    (mget (ctl1 []).sqs 128 = some (nvSq1 128) ∧ (65535 : Half).toNat < 65536 ∧ mget (ctl1 []).cqs 128 = some nvCq1 ∧
      ((65535 : Half).toNat + 65536 - 1) % 65536 ≤ (65535 + 65536 - 1) % 65536) ∧
    ((nvPick (on (reach ((nvmeOn (ctl1 []) true).nvme.pickAt + 200)) (nvmeOn (ctl1 []) true))).1.map (fun p => (p.ctl, p.sq, p.n)) = some (1, 128, 1) ∧
      cmdCheck (nvmeOn (ctl1 []) true) 1 128 readEntry = none ∧ readEntry.length = 64) ∧
    ctlReady (nvmeOn (ctl1 []) true).io 1 = true ∧
    (cmdAt (nvmeOn (ctl1 [doneCmd]) true) 1 128 9 = some doneCmd ∧ cqTakes (nvmeOn (ctl1 [doneCmd]) true) 1 128 = true) := by decide +kernel

/-- An admin command of PF 1's controller, fetched. -/
def admCmd (op d10 d11 : Nat) (prp : Nat) : NvCmd :=
  { cmdOf 0 (padTo 64 (le 1 op ++ le 1 0 ++ le 2 65535 ++ le 4 0 ++ le 16 0 ++ le 8 prp ++ le 8 0 ++ le 4 d10 ++ le 4 d11)) with thread := none }
def waiting (m : NvCmd) (sqs : List (Nat × NvSq)) (cqs : List (Nat × NvCq)) : State :=
  nvmeOn { ctl1 [m] with sqs := (0, { nvSq1 0 with tail := 65535 }) :: sqs, cqs := (0, nvCq1) :: cqs } true

/-- States and operands that meet the hypotheses of `NvmeAdminRuns`. -/
theorem met_nvme_admin :
    (let m := admCmd 5 0xFFFF0080 (2047 * 65536 + 3) 4096; let s := waiting m [] []
     adminWaits 1 65535 5 m s = true ∧ entrySizes s 1 = true ∧ cdw11 m % 4 = 3 ∧ cdw10 m % 65536 = 128 ∧ ctlQuota s.io 1 = 128 ∧
      spillRoom { s with io := { s.io with rings := { s.io.rings with pool := 16 } } } (ctlCfg s.io 1).2.2.2 = true ∧
      cdw11 m / 65536 < ctlVectors s.io 1 ∧ field m.entry 24 8 % ctlPage s.io 1 = 0) ∧
    (let m := admCmd 1 0xFFFF0080 (128 * 65536 + 1) 4096; let s := waiting m [] [(128, nvCq1)]
     adminWaits 1 65535 1 m s = true ∧ entrySizes s 1 = true ∧ (mget (ctlAt s 1).cqs (cdw11 m / 65536)).isSome = true) ∧
    (let m := admCmd 0 128 0 0; let s := waiting m [(128, nvSq1 128)] [(128, nvCq1)]
     adminWaits 1 65535 0 m s = true ∧ mget (ctlAt s 1).sqs (cdw10 m % 65536) = some (nvSq1 128) ∧ (ctlAt s 1).cmds.all (fun n => n.sq != 128) = true) ∧
    (let m := admCmd 4 128 0 0; let s := waiting m [] [(128, nvCq1)]
     adminWaits 1 65535 4 m s = true ∧ (mget (ctlAt s 1).cqs (cdw10 m % 65536)).isSome = true ∧ sqsOf (ctlAt s 1) 128 = []) ∧
    (let m := admCmd 2 0x000F00C0 0 4096; let s := waiting m [] []
     adminWaits 1 65535 2 m s = true ∧ (logPage s 1 (cdw10 m % 256)).isSome = true ∧ (dataSegs m.entry [] (ctlPage s.io 1) 64).toOption = some [(4096, 64)]) ∧
    (let m := admCmd 6 2 0 4096; let s := waiting m [] []
     adminWaits 1 65535 6 m s = true ∧ (dataSegs m.entry [] (ctlPage s.io 1) 4096).toOption = some [(4096, 4096)]) ∧
    (let m := admCmd 8 (7 * 65536 + 128) 0 0; let s := waiting m [] []
     adminWaits 1 65535 8 m s = true ∧ cmdAt s 1 (cdw10 m % 65536) (cdw10 m / 65536) = none) ∧
    (adminWaits 1 65535 9 (admCmd 9 0x0B 0x100 0) (waiting (admCmd 9 0x0B 0x100 0) [] []) = true ∧
      adminWaits 1 65535 0xA (admCmd 0xA 7 0 0) (waiting (admCmd 0xA 7 0 0) [] []) = true ∧
      adminWaits 1 65535 0xC (admCmd 0xC 0 0 0) (waiting (admCmd 0xC 0 0 0) [] []) = true) := by decide +kernel

/-- Namespace 4,096, of a kind, and an I/O command of PF 1's controller for it. -/
def ns1 (kind : Nat) : Ns :=
  { kind := kind, fmt := 1, copies := 1, size := 1024, nguid := [], beA := 0, beB := 0, log := 0, xts := 0, baseA := 0, baseB := 0, zoneSize := 512,
    chainKey := 0, active := 1, state := 0, curA := true, curB := false, resync := false, waitAt := none, replayed := 0, zones := [], attached := [1] }
def ioCmd (op lba d12 d13 : Nat) : NvCmd :=
  cmdOf 128 (le 1 op ++ le 1 0 ++ le 2 65535 ++ le 4 4096 ++ le 16 0 ++ le 8 4096 ++ le 8 0 ++ le 8 lba ++ le 4 d12 ++ le 4 d13 ++ le 8 0)
def storing (m : NvCmd) (x : Ns) : State :=
  { nvmeOn (ctl1 [m]) true with store := { live.store with nss := [(4096, x)] } }
def dsmCmd : NvCmd := { ioCmd 9 0 0 0 with entry := splice (ioCmd 9 0 0 0).entry 40 (le 4 0 ++ le 4 4) }
def attachArg (op : Nat) : Bytes := le 1 op ++ le 1 0 ++ le 2 1 ++ le 4 4096 ++ le 8 0
def attaching (l : List Nat) : State := { live with store := { live.store with nss := [(4096, { ns1 0 with attached := l })] } }

/-- States and operands that meet the hypotheses of `NvmeIoRuns`. -/
theorem met_io :
    (cmdAt (nvmeOn (ctl1 [cmdOf 128 readEntry]) true) 1 128 9 = some (cmdOf 128 readEntry)) ∧
    (let m := ioCmd 1 512 0 0; ioWaits 1 128 65535 1 m (ns1 0) (storing m (ns1 0)) = true ∧ ioWaits 1 128 65535 1 m (ns1 1) (storing m (ns1 1)) = true ∧
      (dataSegs m.entry [] (ctlPage (storing m (ns1 0)).io 1) 4096).toOption = some [(4096, 4096)] ∧ (zoneWrite (ns1 1) 512 1).toOption.isSome = true ∧
      entryBlocks m.entry = 1 ∧ entryLba m.entry = 512) ∧
    (let m := ioCmd 2 1023 0 0; ioWaits 1 128 65535 2 m (ns1 0) (storing m (ns1 0)) = true ∧ rangePending (storing m (ns1 0)) 4096 1023 1 = false ∧
      (nsCipher (storing m (ns1 0)) (ns1 0)).toOption = some none) ∧
    ioWaits 1 128 65535 8 (ioCmd 8 1023 0 0) (ns1 0) (storing (ioCmd 8 1023 0 0) (ns1 0)) = true ∧
    (ioWaits 1 128 65535 9 dsmCmd (ns1 0) (storing dsmCmd (ns1 0)) = true ∧ (field dsmCmd.entry 44 4).testBit 2 = true ∧
      (dsmRanges (le 4 0 ++ le 4 1 ++ le 8 1023) (field dsmCmd.entry 40 1 + 1)).filter (fun r => r.2 != 0) = [(1023, 1)]) ∧
    (let m := ioCmd 0x79 512 0 2; ioWaits 1 128 65535 0x79 m (ns1 2) (storing m (ns1 2)) = true ∧ zoneOf (ns1 2) 512 = 1 ∧ zoneAll m = false ∧
      zsa m = 2 ∧ (zoneActs 2 [1] (ns1 2)).toOption.isSome = true) ∧
    (let m := ioCmd 0x7A 0 63 0; ioWaits 1 128 65535 0x7A m (ns1 1) (storing m (ns1 1)) = true ∧ field m.entry 48 4 = 63 ∧
      (dataSegs m.entry [] (ctlPage (storing m (ns1 1)).io 1) 256).toOption = some [(4096, 256)]) ∧
    (let m := ioCmd 0x7D 512 0 0; ioWaits 1 128 65535 0x7D m (ns1 2) (storing m (ns1 2)) = true ∧ zoneStart (ns1 2) 1 = 512 ∧
      (zoneAt (ns1 2) 1).st ≠ 3 ∧ (zoneOpen (ns1 2) 1 false).1 = true ∧ (zoneAt (ns1 2) 1).wp = 0) ∧
    (attachReady fw (attachArg 1) 1 { ns1 0 with attached := [] } (attaching []) = true ∧
      attachReady fw (attachArg 2) 2 { ns1 0 with attached := [1] } (attaching [1]) = true ∧
      attachReady fw (attachArg 3) 3 { ns1 0 with attached := [1] } (attaching [1]) = true) := by decide +kernel

/-- Back end 63, local and PLP, with log 7 at its start; a management session; the namespace 4,096 sealed, its zone 1 with two records. -/
def be63 (st : Nat) : Be := { kind := 1, plp := true, port := 7, nsid := 1, qpn := 0, blocks := 10000000, fmt := 1, st := st, serial := [], nguid := [] }
def zone1 (st : Nat) : Zone := { Zone.reset with st := st, wp := 512, count := 2, linked := 2, done := 2, tab := (512, 2, []) }
def sealedNs (st : Nat) : Ns := { ns1 2 with beA := 63, log := 7, state := st, attached := [], zones := [(1, zone1 3)] }
def store63 (nss : List (Nat × Ns)) (ver : SealVer) : State :=
  { live with
    io := dsetB (idx 0x0C1020 8) (le 1 63 ++ le 3 0 ++ le 4 256 ++ le 8 9000000) live.io
    store := { live.store with bes := [(63, be63 1)], nss := nss, ver := ver } }
def beArg (op k : Nat) : Bytes := padTo 32 (le 1 op ++ le 1 k ++ le 1 1 ++ le 1 1 ++ le 1 7 ++ le 3 0 ++ le 4 1)
def nsArg (op : Nat) : Bytes :=
  padTo 80 (le 1 op ++ le 1 0 ++ le 1 1 ++ le 1 1 ++ le 4 4096 ++ le 8 1024 ++ le 16 7 ++ le 1 63 ++ le 1 0xFF ++ le 1 7 ++ le 1 0)
def verArg (op : Nat) : Bytes := le 1 op ++ le 3 0 ++ le 4 4096 ++ le 4 1 ++ le 4 1
def verAt (st zone : Nat) : SealVer := { SealVer.reset with st := st, ns := 4096, stop := 2, zone := zone }

/-- States and operands that meet the hypotheses of `BackEndsAndNamespacesRun`. -/
theorem met_backends :
    (let s := store63 [] SealVer.reset
     cmdGate 3 mgr 0x0C1010 (beArg 1 0) 32 1 s.io = none ∧ defineOk s (beArg 1 0) = true ∧ beAt s 0 = none ∧ field (beArg 1 0) 2 1 = 1 ∧
      allZero (slice (beArg 1 0) 5 3) = true ∧ allZero (slice (beArg 1 0) 0x1A 6) = true) ∧
    (let s := { live with store := { live.store with bes := [(63, be63 1)] } }
     cmdGate 3 mgr 0x0C1010 (beArg 2 63) 32 2 s.io = none ∧ cmdGate 3 mgr 0x0C1010 (beArg 3 63) 32 3 s.io = none ∧ beNamed s 63 = false ∧
      (beAt s 63).isSome = true ∧ field (beArg 2 63) 1 1 = 63 ∧ allZero (slice (beArg 2 63) 5 3) = true ∧ allZero (slice (beArg 3 63) 0x1A 6) = true) ∧
    (let s := store63 [] SealVer.reset; let x := nsOf (nsArg 1)
     cmdGate 3 mgr 0x0C1000 (nsArg 1) 80 1 s.io = none ∧ nsArgsOk (nsArg 1) x = true ∧ copyFits s x x.beA x.baseA = true ∧ x.copies = 1 ∧
      logOk s x.log = true ∧ nsKeysOk s x = true) ∧
    (let s := store63 [(4096, sealedNs 4)] SealVer.reset
     cmdGate 3 mgr 0x0C1000 (nsArg 2) 80 2 s.io = none ∧ nsAt s (field (nsArg 2) 4 4) = some (sealedNs 4) ∧ lacksSession s mgr = false ∧
      principalOf mgr.assoc.binding ≠ .f ∧ s.store.ver.st ≠ 1 ∧ (sealedNs 4).attached = [] ∧ cmdGate 3 mgr 0x0C1000 (nsArg 3) 80 3 s.io = none ∧
      cmdGate 3 mgr 0x0C1000 (nsArg 4) 80 4 s.io = none ∧ cmdGate 3 mgr 0x0C1040 (verArg 1) 16 1 s.io = none ∧ verMay s mgr 4096 = true ∧
      field (verArg 1) 4 4 = 4096 ∧ allZero (slice (verArg 1) 1 3) = true ∧ field (verArg 1) 8 4 = 1 ∧ field (verArg 1) 0xC 4 = 1) ∧
    (let s := store63 [(4096, sealedNs 0)] (verAt 6 1)
     cmdGate 3 mgr 0x0C1040 (verArg 2) 16 2 s.io = none ∧ (nsAt s s.store.ver.ns).isSome = true ∧ verMay s mgr s.store.ver.ns = true) ∧
    (cmdGate 3 mgr 0x0C1040 (verArg 3) 16 3 (store63 [(4096, sealedNs 0)] (verAt 1 1)).io = none ∧
      (verAt 1 1).rec_ < (zoneAt (sealedNs 0) 1).tab.2.1 ∧ (verAt 1 2).stop ≤ (verAt 1 2).zone) ∧
    (let arg := le 4 4096 ++ le 4 1 ++ le 4 0 ++ le 4 2; gate 3 mgr 0x0C1050 live.io = none ∧ arg.length = 16 ∧ field arg 0 4 = 4096 ∧
      field arg 4 4 = 1 ∧ field arg 8 4 + field arg 0xC 4 = 2) := by decide +kernel

/-- Log 7 with a record in a stage, its command, and the namespace 4,096; a namespace with a keyed chain slot. -/
def rec1 (st : Nat) : LogRec :=
  { seq := 1, kind := 1, ns := 4096, lba := 1023, blocks := 1, data := [], time := 0, entry := [], sealRec := [], stage := st, cmd := some (1, 128, 65535) }
def wil1 (st : Nat) : Wil := { Wil.reset with next := 2, recs := [rec1 st], dueAt := some 0 }
def pieceCmd (lba out : Nat) (l : List (Nat × Nat × Nat)) : NvCmd := { ioCmd 1 lba 0 0 with thread := some 0, pieces := l, out := out }
def logged (m : NvCmd) (st : Nat) (x : Ns) : State :=
  { nvmeOn (ctl1 [m]) true with
    io := dsetB (idx 0x0C1020 8) (le 1 63 ++ le 3 0 ++ le 4 256 ++ le 8 9000000) (nvmeOn (ctl1 [m]) true).io
    burin := { live.burin with slots := [(slotKey devicePool 0, { state := .keyed, usage := 6, key := List.replicate 32 1, refs := 1, used := true })] }
    store := { live.store with bes := [(63, be63 1)], nss := [(4096, x)], logs := [(7, wil1 st)] } }
def appendNs : Ns := { sealedNs 0 with zones := [(1, { zone1 4 with linked := 1, heads := [(1, recHead 1 1 1023 0 0)] })] }

/-- States and operands that meet the hypotheses of `WriteIntentLogRuns`. -/
theorem met_log :
    (let m := pieceCmd 1023 0 [(1, 1023, 1)]; let x := { ns1 0 with beA := 63, log := 7 }
     cmdAt (logged m 1 x) 1 128 65535 = some m ∧ m.ended = none ∧ nsAt (logged m 1 x) (entryNs m.entry) = some x ∧
      (nsCipher (logged m 1 x) x).toOption = some none) ∧
    (let m := pieceCmd 1023 0 [(4, 1023, 1)]
     (nsCipher (logged m 1 appendNs) appendNs).toOption = some none ∧ (chainKey (logged m 1 appendNs) appendNs).isSome = true ∧
      (zoneAt appendNs (zoneOf appendNs 1023)).heads.find? (fun h => field h.2 8 8 == 1023) = some (1, recHead 1 1 1023 0 0) ∧
      (zoneAt appendNs (zoneOf appendNs 1023)).linked = 1) ∧
    (let m := pieceCmd 1023 1 []; let s := logged m 3 { ns1 0 with beA := 63, log := 7 }
     recAt s 7 1 = some (rec1 3) ∧ recAt (logged m 1 (ns1 0)) 7 1 = some (rec1 1) ∧ cmdAt s 1 128 65535 = some m ∧ m.out = 1 ∧ m.discard = false ∧
      cqTakes s 1 128 = true ∧ (nsAt s 4096).all (fun x => x.state != 2) = true ∧ (wilAt s 7).dueAt.isSome = true ∧
      wilCfg s.io 7 = some (63, 256, 9000000) ∧ (beAt s 63).map (·.st) = some 1 ∧ bePresent s 63 = true) ∧
    ((sealedNs 1).state = 1 ∧ (sealedNs 1).log = 7 ∧ (be63 3).st ≠ 1 ∧ ({ sealedNs 0 with copies := 2, resync := true } : Ns).resync = true ∧
      ({ sealedNs 2 with waitAt := some 0 } : Ns).waitAt = some 0) ∧
    (let s := logged (pieceCmd 0 0 []) 1 (sealedNs 0); (zoneAt (sealedNs 0) 1).st = 3 ∧ (zoneAt (sealedNs 0) 1).sealing = false ∧
      (zoneAt (sealedNs 0) 1).count ≤ (zoneAt (sealedNs 0) 1).done ∧ (chainKey s (sealedNs 0)).isSome = true) := by decide +kernel

/-- Slot 7 of eight. -/
def slotted (x : Slot) : State := { live with drives := { slots := [(7, x)], split := 3 } }

/-- States and operands that meet the hypotheses of `SlotsRun`. -/
theorem met_slots :
    (7 < portCount (slotted Slot.reset) ∧ (bayOf (slotted Slot.reset) 7).present ≠ true ∧ (bayOf (slotted { Slot.reset with present := true }) 7).present ≠ false) ∧
    (let x := { Slot.reset with present := true }; (dget (slotted x).io (idx 0x0D0014 0) 0xFF).testBit 7 = true ∧ (bayOf (slotted x) 7).window = none ∧
      (bayOf (slotted x) 7).phase = 0 ∧ ((bayOf (slotted x) 7).pwren || (bayOf (slotted x) 7).present) = true ∧ (bayOf (slotted x) 7).fault = false) ∧
    gate 3 mgr 0x0D0100 (slotted Slot.reset).io = none ∧
    (bayOf (slotted { Slot.reset with window := some 0, present := true, pwren := true }) 7).pwren = true ∧
    (bayOf (slotted { Slot.reset with phase := 1 }) 7).phase = 1 ∧
    ((bayOf (slotted { Slot.reset with phase := 2, pwren := true }) 7).phase = 2 ∧
      lanesTested live.dbg (fun l => laneKind l == some 2 && laneRoot (slotted Slot.reset) l == 7) = false) ∧
    (bayOf (slotted { Slot.reset with phase := 3 }) 7).phase = 3 ∧ (bayOf (slotted { Slot.reset with phase := 4 }) 7).phase = 4 ∧
    (let x := { Slot.reset with link := true, reqs := [(1023, some (3, 1))] }; (bayOf (slotted x) 7).link = true ∧ (bayOf (slotted x) 7).contained = false ∧
      (bayOf (slotted x) 7).reqs.find? (fun r => r.1 == 1023) = some (1023, some (3, 1)) ∧ attachedRun (slotted x).mem 0 4 = false) ∧
    (bayOf (slotted { Slot.reset with contained := true, cause := 1, pwren := true }) 7).cause = 1 := by decide +kernel

/-- The cells run. -/
def coresOn : State := { live with cpu := { live.cpu with held := false } }

/-- Thread 1,023 in a state, at address 0x80 of its cell SRAM; its instruction cache holds the line, whose first word is `i`. -/
def coreWith (i : Nat) (x : Thread) : State :=
  let s := threadPut 1023 { x with pc := 0x80 } coresOn
  cellPut 127 (iPut (canonAddr 1023 0x80 / 64) 2 (le 4 i ++ List.replicate 60 0) { Cell.reset with locked := 4 }) s

/-- A running thread whose memory accesses all are allowed, x1 holding 0x1C8. -/
def runner : Thread := { Thread.reset with st := 1, regs := [(1, 0x1C8), (2, 1)] }

/-- Block 15's cache with a dirty line of attached memory. -/
def cachedRun : State :=
  let s := threadPut 1023 runner { coresOn with mem := { live.mem with density := 16, ranks := 2 } }
  { s with mem := { s.mem with caches := [(15, [(3, { data := List.replicate 64 1, dirty := true, bad := [] })])] } }

/-- States and operands that meet the hypotheses of `InstructionsRun`: addi x5, x1, 1; jal x1, 8; beq x0, x0, 8; lw x5, 0(x1);
sw x2, 0(x1); ecall; 0xFFFFFFFF. -/
theorem met_instructions :
    doesNext 1023 4 (.put 5 0x1C9) (coreWith 0x00108293 runner) = true ∧
    doesNext 1023 4 (.jump 1 0x88) (coreWith 0x008000EF runner) = true ∧
    doesNext 1023 4 (.branch true 0x88) (coreWith 0x00000463 runner) = true ∧
    (doesNext 1023 4 (.load 5 0x1C8 4 true) (coreWith 0x0000A283 runner) = true ∧
      (readAt 1023 0x1C8 4 (coreWith 0x0000A283 runner)).1 = .done [0, 0, 0, 0] ∧
      pmpOk (threadAt (coreWith 0x0000A283 runner) 1023) true 0x1C8 4 1 = true) ∧
    (doesNext 1023 4 (.store 0x1C8 4 1) (coreWith 0x0020A023 runner) = true ∧
      spotOf live 1023 0x1C8 = .sram (canonAddr 1023 0x1C8) ∧ spotReached live 1023 (.sram (canonAddr 1023 0x1C8)) = true ∧
      spotIsolated live (.sram (canonAddr 1023 0x1C8)) = false) ∧
    doesNext 1023 4 .ecall (coreWith 0x73 runner) = true ∧ doesNext 1023 4 .illegal (coreWith 0xFFFFFFFF runner) = true ∧
    (threadAt (coreWith 0x73 { runner with load := some { rd := 31, bytes := 8, signed := false, addr := 0, len := 4 } }) 1023).load =
      some { rd := 31, bytes := 8, signed := false, addr := 0, len := 4 } ∧
    (let x := { runner with mie := 0x80, mstatus := 8, kwtimecmp := 0 }; let r := evArrive (on (timeReach 0 64) (coreWith 0x73 x))
     slotRuns r 1023 = true ∧ intPending r 1023 = some 7 ∧ (threadAt r 1023).st = 1) ∧
    (issues 1023 (coreWith 0x73 runner) = true ∧ (cellAt (coreWith 0x73 runner) 127).locked.testBit 2 = true ∧
      (lineRead 1023 (canonAddr 1023 0x100 / 64) (coreWith 0x73 runner)).1 = .done (List.replicate 64 0)) := by decide +kernel

/-- The read of SRAM changes nothing. -/
theorem met_sramRead (s : State) (t a n : Nat) (x : Nat) (h1 : spotOf s t a = .sram x) (h2 : spotReached s t (.sram x) = true)
    (h3 : spotIsolated s (.sram x) = false) (d : Bytes) (h4 : sramRead s.mem x n = some d) : readAt t a n s = (.done d, s) := by
  simp [readAt, h1, h2, h3, dataOr, h4]

/-- The line of attached memory of `cachedRun` can be maintained. -/
theorem met_maintains : ∃ a m, maintains 1023 a m cachedRun = true := ⟨0x1000000000C0, 192, by decide +kernel⟩

/-- States and operands that meet the hypotheses of `CellRegistersRun`. -/
theorem met_cells :
    (cellOff live 127 = false ∧ wdogPeriod live ≠ 0 ∧ wdogPaused live 127 = false ∧ cellOff live 120 = false ∧ coresOn.cpu.held = false) ∧
    (bwAt owing 15).unacked.find? (fun p => p.1 == 0) = some (0, owedRec) ∧ cellOff owing 121 = false ∧
    (cellAt owing 121).resetAt.all (fun z => decide (z < owedRec.raised)) = true ∧ ((bwAt owing 15).producer - 0xFFFFFFC0).toNat ≤ 64 ∧
    (gate 3 mgr 0x0E0020 live.io = none ∧ live.cont.cells.contains 127 = false) := by decide +kernel

/-- Thread 1,023 with operands in x1 and x2, and its block's lock-and-event unit. -/
def issuing (a b : Word64) (u : LeUnit) : State :=
  threadPut 1023 { runner with regs := [(1, a), (2, b)] } { coresOn with le := [(15, u)] }

/-- Channel 255 between thread 63, its writer, and thread 62, its reader. -/
def chan1 (w r : Nat) (c : Chan) : LeUnit := { LeUnit.reset with chans := [(255, { c with state := .open, writer := w, reader := r })] }

/-- States and operands that meet the hypotheses of `XkwaithRuns`. -/
theorem met_xkwaith :
    (let s := issuing 4095 0 LeUnit.reset; xkIssues 1023 s = true ∧ (xreg (threadAt s 1023) 1).toNat = 4095 ∧ (lockAt s 15 4095).holder = none) ∧
    (let s := issuing 0 0 { LeUnit.reset with locks := [(0, { holder := some 5, queue := [6], abandoned := false })] }
     xkIssues 1023 s = true ∧ (lockAt s 15 0).holder = some 5) ∧
    (let s := issuing 0 0 { LeUnit.reset with locks := [(0, { holder := some 63, queue := [], abandoned := false })] }
     xkIssues 1023 s = true ∧ (lockAt s 15 0).holder = some 63 ∧ (lockAt s 15 0).queue = []) ∧
    (let s := issuing 1023 0xFFFFFFFFFFFFFFFF LeUnit.reset; xkIssues 1023 s = true ∧ evReached (evAt s 15 1023) (xreg (threadAt s 1023) 2) = true) ∧
    (let s := issuing 255 0 (chan1 63 62 Chan.reset)
     xkIssues 1023 s = true ∧ (chanAt s 15 255).writer = 63 ∧ (chanAt s 15 255).state = .open ∧ (chanAt s 15 255).reserved = false ∧
       (chanAt s 15 255).pub < 16) ∧
    (let s := issuing 255 0 (chan1 63 62 { Chan.reset with reserved := true, pub := 15 })
     (chanAt s 15 255).reserved = true ∧ chanReaderWaits s 15 255 = []) ∧
    (let s := issuing 255 0x40 (chan1 62 63 { Chan.reset with pub := 16, head := 15 })
     (chanAt s 15 255).reader = 63 ∧ 0 < (chanAt s 15 255).pub ∧ chanWriterWaits s 15 255 = [] ∧
       xkArea 1023 (xreg (threadAt s 1023) 2) 64 64 2 true s = .inr (canonAddr 1023 0x40)) := by decide +kernel

/-- A packet for thread 1,023, queued or in its hands. -/
theorem met_gotPackets :
    (let s := issuing 0x20 0x200 LeUnit.reset; xkArea 1023 (xreg (threadAt s 1023) 1) 288 32 2 false s = .inr (canonAddr 1023 0x20)) ∧
    (let s := { issuing 0x20 0x200 LeUnit.reset with net := { live.net with punts := [(1023, [pk frame60])] } }
     xkIssues 1023 s = true ∧ mget s.net.punts 1023 = some [pk frame60]) ∧
    (let s := { issuing 0x20 0x200 LeUnit.reset with net := { live.net with got := [(0, (1023, { pk frame60 with handle := 0 }))] } }
     xkIssues 1023 s = true ∧ xkArea 1023 0x20 288 32 1 false s = .inr (canonAddr 1023 0x20) ∧
       (sramRead s.mem (canonAddr 1023 0x20) 288).isSome = true ∧
       putStatus s 1023 (areaBytes s (canonAddr 1023 0x20)) (xreg (threadAt s 1023) 2).toNat = 0) := by decide +kernel

/-- Thread 1,023 waits for lock 4,095, and the writer of channel 255 is halted with a reservation. -/
def waited : State :=
  let k : Lock := { holder := some 62, queue := [63], abandoned := false }
  let u : LeUnit := { chan1 62 63 { Chan.reset with reserved := true } with wdog := [(63, 1000000)], locks := [(4095, k)] }
  let s := { coresOn with le := [(15, u)] }
  threadPut 1023 { runner with st := 2, wait := some { on_ := .lock 4095, rd := 31, since := 0 } } s

/-- States and operands that meet the hypotheses of `LockAndEventUnitRuns`. -/
theorem met_le :
    ((chanAt live 15 255).state = .closed ∧ 1024 * bits 0x0000003E 26 16 + 1024 ≤ scratchSize live.mem 15 ∧
      (leAt live 15).chans.all (fun p => p.1 == 255 || p.2.state == .closed || p.2.base != 0) = true ∧ bits 0x3E 13 8 ≠ bits 0x3E 5 0) ∧
    ((chanAt waited 15 255).state ≠ .closed) ∧
    (let s := threadPut 1022 { runner with st := 3 } waited
     (chanAt s 15 255).state = .open ∧ (chanAt s 15 255).reserved = true ∧ (threadAt s (64 * 15 + (chanAt s 15 255).writer)).st = 3) ∧
    ((threadAt waited 1023).wait = some { on_ := .lock 4095, rd := 31, since := 0 } ∧ mgetD (leAt waited 15).wdog 63 0 ≠ 0) ∧
    (stallHolds waited 15 = true ∧ (leAt waited 15).stalled = false) := by decide +kernel

/-- A descriptor in block 15's scratch: 2 elements of 4 bytes, from base to base + 0x100, of an operation, with a line. -/
def desc1 (op line : Nat) : Bytes :=
  padTo 64 (le 1 0x21 ++ le 1 op ++ le 1 0 ++ le 1 line ++ le 4 0 ++ le 8 (blockBase 15 + 0x400) ++ le 8 (blockBase 15 + 0x500) ++
    le 2 4 ++ le 2 2 ++ le 2 1 ++ le 2 1 ++ le 4 4 ++ le 4 4)

/-- Channel 31 of region 3's engine, and a descriptor in memory at its base. -/
def dmaWith (x : DmaCh) (d : Bytes) : State :=
  let e : DmaEng := { DmaEng.reset with chans := [(31, { x with base := BitVec.ofNat 64 (blockBase 15) })], lines := [(52, { count := 1, overflow := false })],
                                        timers := [(3, 1000)] }
  { live with dma := [(3, e)], mem := { live.mem with sram := memPuts 0 [] (blockBase 15) d } }

/-- A channel that carries a descriptor out, one element from its end. -/
def moving (d : Bytes) : DmaCh := { DmaCh.reset with enable := true, state := .running, desc := some d, progress := 1, allowed := 2 }

/-- States and operands that meet the hypotheses of `DmaChannelsRun`. -/
theorem met_dma :
    ((dmaCh live 3 31).enable = false ∧ bits 0x0004000C 19 16 ≠ 0 ∧ bits 0x0004000C 3 0 ≤ 12) ∧
    (let s := dmaWith { DmaCh.reset with enable := true, state := .idle, log2n := 12 } []
     (dmaCh s 3 31).enable = true ∧ (dmaCh s 3 31).state = .idle ∧ bits 0x0004000C 3 0 = (dmaCh s 3 31).log2n) ∧
    (let s := dmaWith { DmaCh.reset with enable := true, state := .running, reading := true } (desc1 0 52)
     (dmaCh s 3 31).reading = true ∧ (coreRead (dmaDescAddr (dmaCh s 3 31)) 64 s).1 = .ok (desc1 0 52) ∧ dCheck s.mem s.io (desc1 0 52) = 0 ∧
       (field (desc1 0 52) 0 1).testBit 0 = true) ∧
    (let s := dmaWith (moving (desc1 0 0xFF)) []
     dmaAllows 3 31 0 1 (desc1 0 0xFF) s = true ∧ (elemRead 3 (desc1 0 0xFF) 0 1 [] s).1 = .ok [0, 0, 0, 0] [] ∧
       (elemWrite 3 (desc1 0 0xFF) 1 [0, 0, 0, 0] s).1 = none ∧ (elemRead 3 (desc1 2 0xFF) 1 1 [] s).1 = .ok [0, 0, 0, 0] []) ∧
    (dmaAllows 3 31 1 1 (desc1 1 0xFF) (dmaWith (moving (desc1 1 0xFF)) []) = true ∧
      dmaAllows 3 31 2 1 (desc1 2 0xFF) (dmaWith (moving (desc1 2 0xFF)) []) = true) ∧
    (let s := dmaWith { moving (desc1 0 52) with state := .waiting, progress := 0, allowed := 0 } []
     lineWaiters (dmaAt s 3) 52 = [31] ∧ (mgetD (dmaAt s 3).lines 52 DmaLine.reset).count ≠ 0 ∧ (dmaCh s 3 31).state = .waiting) ∧
    (let s := dmaWith { moving (desc1 0 52) with ending := some (0, 0) } []
     (dmaCh s 3 31).ending = some (0, 0) ∧ (writeBackDesc (dmaDescAddr (dmaCh s 3 31)) 0 0 s).1 = none) ∧
    (let s := dmaWith { moving (desc1 0 52) with state := .stopped, cause := 3 } (desc1 0 52)
     dmaHeld s 3 31 = false ∧ (coreRead (dmaDescAddr (dmaCh s 3 31)) 64 s).1 = .ok (desc1 0 52) ∧ mgetD (dmaAt s 3).timers 3 0 ≠ 0) := by
  decide +kernel

/-- An engine's read of SRAM changes nothing. -/
theorem met_coreRead (s : State) (a n x : Nat) (b : Bytes) (h1 : spotAt s.mem a = .sram x) (h2 : sramOff s x = false)
    (h3 : sramRead s.mem x n = some b) : coreRead a n s = (.ok b, s) := by
  simp [coreRead, h1, h2, h3]

/-- SRAM the engine of `dmaWith` reads. -/
theorem met_dmaSram :
    spotAt live.mem (blockBase 15) = .sram (blockBase 15) ∧ sramOff (dmaWith DmaCh.reset []) (blockBase 15) = false ∧
    (sramRead (dmaWith DmaCh.reset (desc1 0 52)).mem (blockBase 15) 64).isSome = true := by decide +kernel

/-- 256 GiB of memory, fully written; training; the test mode on. -/
def memOn : State :=
  { live with
    mem := { live.mem with density := 16, ranks := 2, filled := true }
    io := dset (idx 0x100111 0) 1 (dset (idx 0x100002 0) 1 live.io) }
def topLine : Nat := 0x3FFFFFFFC0
def markBytes (op : Nat) : Bytes := [BitVec.ofNat 8 op, 7, 1, 9]
def eccArg (op : Nat) : Bytes := padTo 96 (le 8 op ++ le 8 topLine)

/-- States and operands that meet the hypotheses of `MemoryLinesRun`. -/
theorem met_lines :
    memOn.num 0x100002 0 = 1 ∧ lineExists memOn.mem (topLine / 64) = true ∧ topLine + 64 = memCapacity memOn.mem ∧
    (cmdGate 3 mgr 0x100032 (markBytes 1) 4 1 memOn.io = none ∧ markArg memOn.mem (markBytes 1) = true ∧ markOf memOn.io 7 1 = none) ∧
    (let io := dset (idx 0x100031 16) 9 memOn.io; cmdGate 3 mgr 0x100032 (markBytes 2) 4 2 io = none ∧ markOf io 7 1 = some 9) ∧
    gate 3 mgr 0x100020 memOn.io = none ∧
    (eccReady mgr (eccArg 1) 1 memOn = true ∧ eccReady mgr (eccArg 2) 2 memOn = true ∧ eccReady mgr (eccArg 3) 3 memOn = true ∧
      eccReady mgr (eccArg 4) 4 memOn = true ∧ (lineOf memOn.mem (field (eccArg 1) 8 8 / 64)).isSome = true) := by decide +kernel

/-- The three results of decoding a line. -/
theorem met_decode :
    readStored memOn.mem memOn.io 0 [] = .ok (List.replicate 64 0) [] false ∧
    readStored { memOn.mem with filled := false } memOn.io 0 [] = .uncorrectable ∧
    readStored { memOn.mem with lines := [(0, codeLine true (List.replicate 64 0))] } memOn.io 0 [] = .poison := by decide +kernel

/-- A scrub of the last line of memory, its cursor there. -/
def scrubArg (op : Nat) : Bytes := padTo 32 (le 8 op ++ le 8 topLine ++ le 8 64)
def scrubbing (st : Nat) : State := { memOn with mem := { memOn.mem with scrub := { Scrub.reset with state := st, first := topLine, length := 64, cursor := topLine } } }

/-- States and operands that meet the hypotheses of `ScrubAndPatrolRun`. -/
theorem met_scrub :
    (cmdGate 3 mgr 0x100100 (scrubArg 1) 32 1 memOn.io = none ∧ cmdGate 3 mgr 0x100100 (scrubArg 2) 32 2 memOn.io = none ∧
      cmdGate 3 mgr 0x100100 (scrubArg 3) 32 3 memOn.io = none ∧ scrubRange memOn.mem (scrubArg 1) = true ∧ scrubRange memOn.mem (scrubArg 2) = true) ∧
    ((scrubbing 4).mem.scrub.state ≠ 1 ∧ (scrubbing 4).mem.scrub.cursor = field (scrubArg 2) 8 8 ∧ field (scrubArg 2) 0x10 8 = 64) ∧
    (scrubbing 1).mem.scrub.state = 1 := by decide +kernel

/-- Region 3 with a change or an emergency under way, a failed sensor, a write for its regulator. -/
def herding : State :=
  let x : ShepR := { ShepR.reset with change := some (true, 7, 0), point := 6, rail := 657, emergency := true, coolAt := some 0 }
  let m : Mon := { live.mon with failed := [47], vrQ := [(3, 2540)], trip := true, tripCool := some 5, regions := [(3, x)] }
  { live with mon := m, io := [13, 14, 15, 16].foldl (fun io n => dset (idx 0x030002 n) 650 io) live.io }

/-- States that meet the hypotheses of `MonitorsAndShepherdRun`. -/
theorem met_monitors :
    (live.mon.failed.contains 47 = false ∧ live.start.stage = 3 ∧ live.clk.holdAll = false ∧ live.mon.silent = false ∧ live.mon.trip = false) ∧
    (gate 3 mgr 0x030120 live.io = none ∧ gate 3 mgr 0x030121 live.io = none) ∧
    ((shepAt herding 3).emergency = true ∧ (shepAt herding 3).coolAt = some 0 ∧ (shepAt herding 3).change = some (true, 7, 0) ∧
      mget herding.clk.target 3 = none ∧ herding.mon.vrQ = [(3, 2540)] ∧ herding.mon.trip = true ∧ herding.mon.tripCool = some 5) ∧
    (span 12 4).all (fun n => decide (herding.num 0x030002 (n + 1) ≤ (shepAt herding 3).rail + 10) &&
      decide ((shepAt herding 3).rail ≤ herding.num 0x030002 (n + 1) + 10)) = true := by decide +kernel

/-- Device 1 of domain 9, rostered with 0xFFFE, an anchor; a frame from there. -/
def roster2 : Bytes := le 2 1 ++ le 1 1 ++ le 1 0 ++ le 2 0xFFFE ++ le 1 2 ++ le 1 1
def domained (x : DomPeer) (l : List Pkt) : State :=
  { live with
    dom := { Dom.reset with id := 1, domain := 9, peers := [(0xFFFE, x)], state := 2, prev := some (1, 60), startAt := some 0, healAt := some 0 }
    net := { live.net with stewardRx := l }
    io := dsetB (idx 0x110010 0) roster2 (dsetB (idx 0x110012 0) (le 8 0) (dsetB (idx 0x110013 0) roster2 live.io)) }
def beatFrame : Bytes := List.replicate 14 0 ++ le 1 1 ++ le 1 1 ++ le 2 0xFFFE ++ le 4 9 ++ le 4 0xFFFFFFFF ++ le 8 0 ++ le 8 5 ++ le 8 0 ++ le 4 1 ++ le 8 0
def fabricFrame : Bytes := List.replicate 14 0 ++ le 1 1 ++ le 1 2 ++ le 2 0xFFFE ++ le 4 9 ++ le 4 7 ++ le 4 1 ++ discoverBytes
def commitArg : Bytes := le 4 2 ++ le 4 1

/-- States and operands that meet the hypotheses of `DomainRuns`. -/
theorem met_domain :
    (let s := domained DomPeer.reset []; belongs s = true ∧ s.start.stage = 3 ∧ s.dom.conflict = false) ∧
    heartbeatGood (pk beatFrame) (domained { DomPeer.reset with serial := some 5, seqHb := some 0xFFFFFFFE } [pk beatFrame]) = true ∧
    (let k := pk fabricFrame
     objectGood k (domained { DomPeer.reset with state := 1 } [k]) = true ∧ field (k.frame.drop 14) 2 2 = 0xFFFE ∧
       (parseFrame { binding := .fabric, key := 0xFFFE, session := none } (objectFrame k.frame.length (k.frame.drop 30))).isSome = true) ∧
    ((domPeer (domained { DomPeer.reset with state := 1 } []).dom 0xFFFE).state = 1 ∧
      (domPeer (domained { DomPeer.reset with state := 2 } []).dom 0xFFFE).state = 2 ∧
      (domPeer (domained { DomPeer.reset with rivals := [(5, 0), (6, 1)] } []).dom 0xFFFE).rivals = [(5, 0), (6, 1)]) ∧
    (let s := domained DomPeer.reset []
     gate 3 mgr 0x110011 s.io = none ∧ commitArg.length = 8 ∧ field commitArg 0 4 ≠ 0 ∧ field commitArg 4 1 = 1 ∧ allZero (slice commitArg 5 3) = true ∧
       rosterOk (s.blob 0x110010 0) = true ∧ (rosterEntries (s.blob 0x110010 0)).any (fun e => e.1 == s.dom.id) = true) ∧
    (let s := domained { DomPeer.reset with state := 1 } []
     (quorum s).1 = true ∧ s.dom.healAt = some 0 ∧ s.dom.startAt = some 0 ∧ s.dom.prev = some (1, 60) ∧ gate 3 mgr 0x110020 s.io = none) := by
  decide +kernel

/-- States that meet the hypotheses of `JournalRuns`. -/
theorem met_journal :
    (let j := { live.io.journal with newest := 3, evSeq := 1, evAt := some 0 }; j.evSeq < j.newest) ∧
    (live.io.journal.newest ≤ live.io.journal.evSeq ∧ live.io.journal.evAt = none) ∧ gate 3 mgr 0x120006 live.io = none := by decide +kernel

/-- Arguments of 13:0010 and 13:0200; a test on lane 56. -/
def unlockArg : Bytes := le 4 3 ++ le 4 86400
def serdesArg (op : Nat) : Bytes := le 1 op ++ le 1 1 ++ le 1 3 ++ le 1 2 ++ le 1 3 ++ le 3 0
def testing : State := serPut 56 { SerTest.reset with st := 2, lock := true } live

/-- States and operands that meet the hypotheses of `TestPortAndTestersRun`. -/
theorem met_tap :
    (live.start.pwrok = true ∧ live.dbg.testmode = false ∧ extestClass live.dbg.ir = false) ∧
    [0, 1, 2, 3, 4, 5, 6, 0x10, 0x11].contains 7 = false ∧
    (extestClass { live.dbg with ir := 6 }.ir = true ∧ extestClass 7 = false) ∧
    (gate 3 mgr 0x130010 live.io = none ∧ unlockArgOk unlockArg = true ∧ { live.dbg with mask := 3 }.mask ≠ 0) ∧
    (serdesReady mgr (serdesArg 1) 1 live = true ∧ serdesReady mgr (serdesArg 2) 2 live = true ∧ serdesReady mgr (serdesArg 3) 3 live = true ∧
      serArgOk (serdesArg 1) = true ∧ serMayStart live 1 = true) ∧
    ((serAt testing 56).st.testBit 1 = true ∧ (serAt testing 56).lock = true) := by decide +kernel

/-- Thread 1,023 under debug on both paths; a command of it. -/
def debugged (x : Thread) : State :=
  let s := coreWith 0x00108293 x
  { s with dbg := { s.dbg with mask := 3, traces := [(127, { thread := 1023, on_ := true, wrap := false, entries := [], count := 511 })] }
           le := [(15, chan1 63 62 { Chan.reset with reserved := true })] }
def dbgArg (op param addr : Nat) : Bytes := padTo 64 (le 1 op ++ le 1 0 ++ le 2 1023 ++ le 4 param ++ le 8 addr ++ le 8 5)
def halted1 : Thread := { runner with st := 3 }

/-- Both paths. -/
def bothReady (a : Bytes) (op : Nat) (s : State) : Bool := dbgReady .jtag a op s && dbgReady (.dict mgr false) a op s

/-- States and operands that meet the hypotheses of `DebugCommandsRun`. -/
theorem met_debug :
    (bothReady (dbgArg 1 0 0) 1 (debugged runner) = true ∧ (threadAt (debugged runner) 1023).st = 1 ∧ dbgThread (dbgArg 1 0 0) = 1023) ∧
    ((threadAt (debugged halted1) 1023).st = 3 ∧ bothReady (dbgArg 2 0 0) 2 (debugged halted1) = true ∧
      bothReady (dbgArg 3 0 0) 3 (debugged halted1) = true ∧ doesNext 1023 4 (.put 5 0x1C9) (unhalt 1023 (debugged halted1)) = true) ∧
    (bothReady (dbgArg 4 32 0) 4 (debugged halted1) = true ∧ bothReady (dbgArg 5 31 0) 5 (debugged halted1) = true ∧
      dbgParam (dbgArg 4 32 0) = 32 ∧ dbgParam (dbgArg 5 31 0) = 31) ∧
    (bothReady (dbgArg 6 32 0x3FFE0) 6 (debugged runner) = true ∧ dbgSizeOk (dbgArg 6 32 0x3FFE0) = true ∧
      reachesSram (dbgArg 6 32 0x3FFE0) (canonAddr 1023 0x3FFE0) (debugged runner) = true ∧
      (sramRead (debugged runner).mem (canonAddr 1023 0x3FFE0) 32).isSome = true ∧ bothReady (dbgArg 7 32 0x3FFE0) 7 (debugged runner) = true ∧
      (debugged runner).io.oa.due = []) ∧
    (bothReady (dbgArg 8 255 0) 8 (debugged halted1) = true ∧ (chanAt (debugged halted1) 15 255).reserved = true ∧
      (chanAt (debugged halted1) 15 255).state = .open ∧ (chanAt (debugged halted1) 15 255).writer = 63) ∧
    (bothReady (dbgArg 9 1 0) 9 (debugged runner) = true ∧ bothReady (dbgArg 9 2 0) 9 (debugged runner) = true ∧
      bothReady (dbgArg 10 0 511) 10 (debugged runner) = true ∧ dbgAddr (dbgArg 10 0 511) = 511 ∧
      (mget (debugged runner).dbg.traces 127).isSome = true) := by decide +kernel

/-- A thread that runs untraced and unstepped. -/
theorem met_untouched :
    (coreWith 0x00108293 runner).dbg.stepping.contains 1023 = false ∧ mget (coreWith 0x00108293 runner).dbg.traces 127 = none ∧
    doesNext 1023 4 .fence (coreWith 0x0000000F runner) = true ∧ doesNext 1023 4 (.branch false 0x88) (coreWith 0x00001463 runner) = true ∧
    (let s := issuing 4096 0 (chan1 62 63 Chan.reset); xkIssues 1023 s = true ∧ (xreg (threadAt s 1023) 1).toNat = 4096) ∧
    (let s := issuing 255 0 (chan1 62 63 Chan.reset)
     xkIssues 1023 s = true ∧ (chanAt s 15 255).state ≠ .closed ∧ (chanAt s 15 255).writer ≠ 63) := by decide +kernel

/-- SRAM in canonical form in the states of the other witnesses. -/
theorem met_canonical :
    Memory.wf 0 (coreWith 0x0020A023 runner).mem.sram = true ∧ Memory.wf 0 (issuing 255 0x40 LeUnit.reset).mem.sram = true ∧
    Memory.wf 0 (dmaWith (moving (desc1 0 0xFF)) []).mem.sram = true ∧ Memory.wf 0 (debugged runner).mem.sram = true ∧
    (dSwap (desc1 0 0xFF) = 0 ∧ dSpace (desc1 0 0xFF) 1 = 0 ∧ dLen (desc1 0 0xFF) = 4) ∧
    (let s := dmaWith (moving (desc1 1 0xFF)) []
     spotAt s.mem (dAddr (desc1 1 0xFF) 1 1).toNat = .sram (blockBase 15 + 0x504) ∧ sramOff s (blockBase 15 + 0x504) = false) := by decide +kernel

/-- Two devices of `roster2`, each alone. -/
theorem met_quorum :
    (let s := domained DomPeer.reset []; let t := { s with dom := { s.dom with id := 0xFFFE } }
     roster s.io = roster t.io ∧ (reachable s).map (·.1) = [1] ∧ (reachable t).map (·.1) = [0xFFFE]) := by decide +kernel

/-- Fuses that meet the hypotheses of `FusedEpochIsHighestFuse`. -/
theorem met_fuses : (∀ k ∈ [0, 255, 7], k ≤ 255) ∧ [0, 255, 7] ≠ [] := by decide

end Sys2Proof.Tests
end

/-!
SUPPORT. Proofs of the statements about the time base (O21) and the commands of the host interface (O15).
-/

namespace Sys2Proof.Proofs
open Sys2Proof Sys2Proof.Machine

/-! ### What dictionary writes, answers and pulses leave as they were -/

/-- A counter that is set by a dictionary value leaves the time base. -/
theorem bump32_timeBase (obj sub : Nat) (io : Io) : (bump32 obj sub io).timeBase = io.timeBase :=
  (notes_dsetV (idx obj sub) _ io).timeBase

@[simp] theorem dget_answer (b : Issuer) (i st : Nat) (r : Bytes) (io : Io) (j d : Nat) :
    dget (answer b i st r io) j d = dget io j d := rfl

@[simp] theorem dget_advance (n : Nat) (io : Io) (i d : Nat) : dget (advance n io) i d = dget io i d := rfl

@[simp] theorem dmaPulse_net (r l : Nat) (s : State) : (dmaPulse r l s).net = s.net := by
  simp only [dmaPulse]; split <;> rfl

/-- A pulse moves the engine's own element of 0F:0002 and the count of lost notifications, no other number. -/
theorem dget_dmaPulse (r l : Nat) (s : State) (i d : Nat) (lost : i ≠ lostIdx) (own : i ≠ idx 0x0F0002 (r + 1)) :
    dget (dmaPulse r l s).io i d = dget s.io i d := by
  simp only [dmaPulse]
  split
  · rfl
  · exact dget_bumpBy_other 32 _ i 1 d _ lost own

/-- Pulses on a line of several engines leave what each leaves. -/
theorem dget_dmaPulses (l i d : Nat) (rs : List Nat) (s : State) (lost : i ≠ lostIdx)
    (own : ∀ r ∈ rs, i ≠ idx 0x0F0002 (r + 1)) :
    dget (rs.foldl (fun s r => dmaPulse r l s) s).io i d = dget s.io i d := by
  induction rs generalizing s with
  | nil => rfl
  | cons r rs ih =>
    rw [List.foldl_cons, ih _ fun q hq => own q (List.mem_cons_of_mem r hq),
      dget_dmaPulse r l s i d lost (own r List.mem_cons_self)]

/-- A pulse on every engine's line leaves the numbers of every object other than 0F:0002 and 01:0113. -/
theorem dget_pulseAll (l : Nat) (s : State) (i d : Nat) (lost : i ≠ lostIdx)
    (own : ∀ r ∈ List.range 4, i ≠ idx 0x0F0002 (r + 1)) : dget (pulseAll l s).io i d = dget s.io i d := by
  unfold pulseAll; exact dget_dmaPulses l i d (List.range 4) s lost own

@[simp] theorem pulseAll_net (l : Nat) (s : State) : (pulseAll l s).net = s.net :=
  List.foldlRecOn (motive := fun t => t.net = s.net) (List.range 4) _ rfl
    (fun t ih r _ => (dmaPulse_net r l t).trans ih)

/-! ### The commands of the time base (R223, R224) -/

/-- R223: a trim that the gate lets through and that lies in its range is held and answered 0. -/
theorem timeFreqAdj_runs (b : Issuer) (v : Word32) (s : State) (ok : s.allows b 0x070020)
    (lo : -500000000 ≤ toSigned 32 v.toNat) (hi : toSigned 32 v.toNat ≤ 500000000) :
    Runs (.timeFreqAdj b v) s fun t => t.num 0x070020 0 = v.toNat ∧ t.num 0x010003 0 = 1 ∧ told t b 0x070020 0 := by
  have inRange : (decide (toSigned 32 v.toNat < -500000000) || decide (500000000 < toSigned 32 v.toNat)) = false := by
    simp only [Bool.or_eq_false_iff, decide_eq_false_iff_not]; omega
  have io : (onWire (timeFreqAdj s.start.stage b v) s).io = answer b (idx 0x070020 0) 0 [] (trimWrite v.toNat s.io) := by
    simp only [State.allows] at ok
    simp only [onWire, timeFreqAdj, ok, inRange]; rfl
  refine ⟨_, rfl, ?_, ?_, [], ?_⟩
  · rw [State.num, io, dget_answer, trimWrite, dget_dset_other _ _ _ _ _ (by decide) (by decide), dget_dset_same _ _ _ _ (by decide)]
  · rw [State.num, io, dget_answer, trimWrite, dget_dset_same _ _ _ _ (by decide)]
  · rw [toldWith, io, answer_sent]; exact List.mem_cons_self

/-- R223: a step that the gate lets through moves the time base and is answered 0. -/
theorem timeStep_runs (b : Issuer) (v : Word64) (s : State) (ok : s.allows b 0x070021) :
    Runs (.timeStep b v) s fun t => t.io.timeBase = s.io.timeBase + v ∧ told t b 0x070021 0 := by
  have io : (on (timeStepIo s.start.stage b v) s).io = answer b (idx 0x070021 0) 0 [] (stepTime v s.io) := by
    simp only [State.allows] at ok
    simp only [on_io, timeStepIo, ok]
  refine ⟨_, rfl, ?_, [], ?_⟩
  · rw [io]; exact bump32_timeBase 0x070023 0 _
  · rw [toldWith, io, answer_sent]; exact List.mem_cons_self

/-- R223: the source of time goes from trimmed to holdover. -/
theorem holdoverExpiry_runs (s : State) (trimmed : s.num 0x010003 0 = 1) :
    Runs .holdoverExpiry s fun t => t.num 0x010003 0 = 2 := by
  refine ⟨_, rfl, ?_⟩
  simp only [State.num] at trimmed
  simp only [State.num, onWire, holdover, trimmed, if_true, Wire.on]
  exact dget_dset_same _ _ _ _ (by decide)

/-- R224: with a width and the pin low, the pin rises, no earlier than now. -/
theorem ppsOutRise_runs (s : State) (width : dget s.io (idx 0x070025 0) 100 ≠ 0) (low : s.net.ppsOut = false) :
    Runs .ppsOutRise s fun t => t.net.ppsOut = true ∧ s.io.now ≤ t.net.ppsAt := by
  refine ⟨_, rfl, ?_⟩
  simp only [on_io, on_net, dget_advance, width, low, decide_false, Bool.or_self, Bool.false_eq_true, if_false,
    pulseAll_net, advance_now, true_and]
  exact Nat.le_add_right _ _

/-- R224: a high pin falls, no earlier than its width after it rose. -/
theorem ppsOutFall_runs (s : State) (high : s.net.ppsOut = true) :
    Runs .ppsOutFall s fun t => t.net.ppsOut = false ∧
      s.net.ppsAt + ms (dget s.io (idx 0x070025 0) 100) ≤ t.io.now := by
  refine ⟨_, rfl, ?_⟩
  simp only [onWire, high, if_true, Wire.on, Wire.onNet, reach_now, true_and]
  exact Nat.le_max_right _ _

/-- R224: the edge's time is held, whatever the pulse on the engines' lines counts. -/
theorem ppsInEdge_runs (s : State) : Runs .ppsInEdge s fun t => t.num 0x070024 0 = time64 s.io := by
  refine ⟨_, rfl, ?_⟩
  simp only [State.num]
  rw [dget_pulseAll _ _ _ _ (by decide) (by decide), on_io, dget_dset_same _ _ _ _ (by decide)]

/-- Settles O21, command by command. -/
theorem timeBaseRuns : Obligations.TimeBaseRuns :=
  ⟨timeFreqAdj_runs, timeStep_runs, holdoverExpiry_runs, ppsOutRise_runs, ppsOutFall_runs, ppsInEdge_runs⟩

/-! ### An improper access counted twice (R146)

R146's violation is reported to PF0 as an event. Where PF0's completion ring is full, its control block is read again; a read
that waits for a tag is counted in the element of 04:0023 that its link's number names (R158). `idx` does not keep that number
below 256, so a link number large enough names an element of another object: here the very count of improper accesses.
The statement asks nothing of the link numbers of its state. -/

/-- The link number whose element of 04:0023 is indexed as element 3 of 12:0101 is. -/
def strayLink : Nat := idx 0x120101 3 - idx 0x040023 1

/-- The limit of 256 reads outstanding for VF 256, the first of PF 1. -/
def outstanding : List HostReq := List.replicate 256 { tag := 0, fn := 272, addr := 0, len := 8, got := 0, sentAt := 0 }

/-- A live journal; PF0's admin queue READY, its completion ring full and owned by VF 256; PF 1 placed on `strayLink`, which is
up and carries as many reads as it may. -/
def strayState : State :=
  { State.reset with io := { Io.reset with
      regs := mput [] (regKey .admStatus 0) 1
      journal := { Journal.reset with live := true }
      rings := { Rings.reset with
        adm := [(0, { Adm.reset with cq := some 0 })]
        rings := [(0, { Ring.blank 272 with isCq := true, log2n := 0, counter := 1 })] }
      host := { HostIf.reset with
        placement := 2
        pfPort := [0, strayLink, 0, 0]
        links := [(strayLink, { Link.reset with up := true, reqs := outstanding })] } } }

/-- One improper write: element 3 of 12:0101 goes from 0 to 2. -/
theorem improperAccess_counts_twice :
    strayState.num 0x120101 3 = 0 ∧
      Runs (.improperAccess 0 0 0 true) strayState fun t => t.num 0x120101 3 = 2 :=
  ⟨by decide +kernel, _, rfl, by decide +kernel⟩

/-- Refutes O15: from `strayState` an improper access adds 2 to its count, where the statement claims 1. -/
theorem not_hostCommandsRun : ¬ Obligations.HostCommandsRun := by
  unfold Obligations.HostCommandsRun
  rintro ⟨-, -, -, improper, -⟩
  obtain ⟨t, run, once, -⟩ := improper 0 0 0 true strayState
  obtain ⟨zero, u, run', twice⟩ := improperAccess_counts_twice
  obtain rfl : u = t := Host.Outcome.next.inj (run'.symm.trans run)
  rw [zero, twice] at once
  exact absurd once (by decide)

end Sys2Proof.Proofs

/-!
SUPPORT. Proof about the cell registers (O42).
-/

namespace Sys2Proof.Proofs
open Sys2Proof Sys2Proof.Machine

/-! ### A cell reset that moves its own reset vector (R452)

R452 loses what the threads of the cell held before it starts thread 0: an NVMe command of a lost thread ends with 0/21h
(R383). A completion that finds its queue without room, overflow slot or spill quota puts the queue into ERROR, which event
0x0C01 reports to the PF (R390). As in `strayState`, that event reads the control block of a full completion ring again, the
read waits for a tag, and the wait is counted in the element of 04:0023 that the link's number names (R158). Here that number
is so large that the element has the index of 0E:0011, the reset vector, which thread 0 is then started from. The statement
asks nothing of the link numbers of its state. -/

/-- The link number whose element of 04:0023 is indexed as 0E:0011 is. -/
def vectorLink : Nat := idx 0x0E0011 0 - idx 0x040023 1

/-- A submission queue bound to completion queue 1. -/
def boundSq : NvSq :=
  { base := 0, size := 2, cq := 1, prio := 0, head := 0, tail := 0, suspended := false, failed := false, leaving := none }

/-- A completion queue that has stopped at its overflow slots and has no spill quota; one entry leaves it no room. -/
def fullCq : NvCq :=
  { base := 0, size := 1, head := 0, tail := 0, phase := true, vector := 0, quota := 0, overflow := [], spill := [],
    stopped := true, error := false }

/-- A command of that submission queue in the hands of thread 0. -/
def heldCmd : NvCmd :=
  { sq := 1, cid := 0, entry := [], thread := some 0, pieces := [], out := 0, segs := [], ended := none, result := 0,
    discard := false }

/-- At stage 3, with reset vector 0x1000: `strayState` with PF 1 on `vectorLink`, and thread 0 at work on a command of
controller 0 whose completion queue is full. -/
def vectorState : State :=
  { strayState with
    start := { strayState.start with stage := 3 }
    io := { strayState.io with
      dic := mput strayState.io.dic (idx 0x0E0011 0) (.num 0x1000)
      host := { strayState.io.host with
        pfPort := [0, vectorLink, 0, 0]
        links := [(vectorLink, { Link.reset with up := true, reqs := outstanding })] } }
    nvme := { strayState.nvme with
      ctls := [(0, { NvCtl.reset with sqs := [(1, boundSq)], cqs := [(1, fullCq)], cmds := [heldCmd] })] } }

/-- The firmware of block 0 writes 0E:0020. -/
def firmwareIssuer : Issuer := { assoc := { binding := .fwPort, key := 0, session := none }, tag := 0 }

/-- The write passes the gate, and nothing that holds cell 0 is isolated. -/
theorem vectorState_admits_cellReset :
    vectorState.allows firmwareIssuer 0x0E0020 ∧ vectorState.cont.cells.contains 0 = false ∧
      vectorState.cont.blocks.contains 0 = false ∧ vectorState.cont.regions.contains 0 = false := by
  unfold State.allows; decide +kernel

/-- The vector is 0x1000 as the reset begins; thread 0 starts one byte past it. -/
theorem cellReset_starts_past_vector :
    resetVector vectorState = 0x1000 ∧
      Runs (.cellReset firmwareIssuer 0) vectorState fun u => (threadAt u 0).pc = 0x1001 :=
  ⟨by decide +kernel, _, rfl, by decide +kernel⟩

/-- Refutes O42: from `vectorState` a commanded cell reset starts thread 0 at 0x1001, where the statement claims the reset
vector, 0x1000. -/
theorem not_cellRegistersRun : ¬ Obligations.CellRegistersRun := by
  unfold Obligations.CellRegistersRun
  rintro ⟨-, -, -, -, -, -, reset⟩
  obtain ⟨allowed, cell, block, region⟩ := vectorState_admits_cellReset
  obtain ⟨u, run, -, -, -, start⟩ := reset firmwareIssuer 0 vectorState allowed (by decide) cell block region
  obtain ⟨vector, t, run', past⟩ := cellReset_starts_past_vector
  obtain rfl : t = u := Host.Outcome.next.inj (run'.symm.trans run)
  rw [vector] at start
  exact absurd (past.symm.trans start) (by decide)

end Sys2Proof.Proofs

/-!
SUPPORT. Proofs of the statements about clocks and crossings (O3) and about resets and host links (O4).
-/

namespace Sys2Proof.Proofs
open Sys2Proof Sys2Proof.Machine

/-- What every step of a fold leaves, the fold leaves. -/
theorem foldl_keeps {α β γ : Type} (p : α → γ) (f : α → β → α) (h : ∀ a b, p (f a b) = p a) (l : List β)
    (a : α) : p (l.foldl f a) = p a :=
  List.foldlRecOn (motive := fun b => p b = p a) l f rfl fun b ih x _ => (h b x).trans ih

/-- What either way of a choice leaves, the choice leaves. -/
theorem ite_keeps {α γ : Type} (p : α → γ) {q : Prop} [Decidable q] {a b : α} {z : γ} (h : p a = z) (g : p b = z) :
    p (if q then a else b) = z := by split <;> assumption

/-! ### What notifications, reads and rings leave: the host ports and which links are up -/

/-- The host ports, and for each link whether it is up. -/
def hostLevels (io : Io) : List (Nat × HostPort) × (Nat → Bool) := (io.host.ports, fun l => (linkAt io l).up)

theorem hostLevels_eq {a b : Io} (h : hostLevels b = hostLevels a) :
    b.host.ports = a.host.ports ∧ ∀ l, (linkAt b l).up = (linkAt a l).up :=
  ⟨congrArg Prod.fst h, congrFun (congrArg Prod.snd h)⟩

/-- A link stored as up or down as it was. -/
theorem hostLevels_linkPut (l : Nat) (k : Link) (io : Io) (h : k.up = (linkAt io l).up) :
    hostLevels (linkPut l k io) = hostLevels io := by
  refine Prod.ext rfl (funext fun m => ?_)
  by_cases e : m = l
  · subst e; simpa [hostLevels] using h
  · simp [hostLevels, linkAt_linkPut_other l m k io e]

@[simp] theorem hostLevels_regOff (r : RegName) (u k : Nat) (io : Io) : hostLevels (regOff r u k io) = hostLevels io := rfl
@[simp] theorem hostLevels_regPut (r : RegName) (u hi lo v : Nat) (io : Io) :
    hostLevels (regPut r u hi lo v io) = hostLevels io := rfl
@[simp] theorem hostLevels_regReset (ns : List RegName) (u : Nat) (io : Io) : hostLevels (regReset ns u io) = hostLevels io := rfl
@[simp] theorem hostLevels_fnPut (n : Nat) (c : FnCfg) (io : Io) : hostLevels (fnPut n c io) = hostLevels io := rfl
@[simp] theorem hostLevels_vfPut (n : Nat) (v : VfState) (io : Io) : hostLevels (vfPut n v io) = hostLevels io := rfl
@[simp] theorem hostLevels_assocsEnd (p : AssocKey → Bool) (io : Io) : hostLevels (assocsEnd p io) = hostLevels io := rfl

@[simp] theorem hostLevels_msix (fn v : Nat) (io : Io) : hostLevels (msix fn v io) = hostLevels io := by
  simp only [msix]; split <;> rfl

@[simp] theorem hostLevels_mboxIrq (n : Nat) (io : Io) : hostLevels (mboxIrq n io) = hostLevels io := by
  simp only [mboxIrq]
  split
  · rfl
  · split
    · exact hostLevels_msix _ _ io
    · rfl

@[simp] theorem hostLevels_noteOut (a : Assoc) (n : Note) (io : Io) : hostLevels (noteOut a n io) = hostLevels io := by
  simp only [noteOut]
  split
  · split <;> rfl
  · exact hostLevels_mboxIrq _ _

@[simp] theorem hostLevels_sendNote (k : AssocKey) (n : Note) (io : Io) : hostLevels (sendNote k n io) = hostLevels io := by
  simp only [sendNote]
  split
  · rfl
  · exact ite_keeps hostLevels (hostLevels_noteOut _ n io) (ite_keeps hostLevels rfl rfl)

theorem hostLevels_subNotify (l : List (Nat × Val)) (x : Sub) (io : Io) : hostLevels (subNotify l x io) = hostLevels io := by
  simp only [subNotify]
  split
  · split
    · rfl
    · exact hostLevels_sendNote _ _ _
  · exact hostLevels_sendNote _ _ _

@[simp] theorem hostLevels_dsetV (i : Nat) (v : Val) (io : Io) : hostLevels (dsetV i v io) = hostLevels io := by
  simp only [dsetV]
  split
  · rfl
  · exact foldl_keeps hostLevels _ (fun _ _ => hostLevels_subNotify _ _ _) _ _

@[simp] theorem hostLevels_dset (i n : Nat) (io : Io) : hostLevels (dset i n io) = hostLevels io := hostLevels_dsetV i _ io
@[simp] theorem hostLevels_dsetB (i : Nat) (b : Bytes) (io : Io) :
    hostLevels (dsetB i b io) = hostLevels io := hostLevels_dsetV i _ io
@[simp] theorem hostLevels_bump32 (obj sub : Nat) (io : Io) :
    hostLevels (bump32 obj sub io) = hostLevels io := hostLevels_dset _ _ io
@[simp] theorem hostLevels_bump64 (obj sub : Nat) (io : Io) :
    hostLevels (bump64 obj sub io) = hostLevels io := hostLevels_dset _ _ io

@[simp] theorem hostLevels_modeBump (old new : Nat) (io : Io) : hostLevels (modeBump old new io) = hostLevels io := by
  simp only [modeBump]; split <;> simp

@[simp] theorem hostLevels_endCmd (obj st : Nat) (r : Bytes) (io : Io) : hostLevels (endCmd obj st r io) = hostLevels io := by
  simp only [endCmd]
  split
  · rfl
  · exact hostLevels_sendNote _ _ _

@[simp] theorem hostLevels_sendReq (l fn addr len : Nat) (io : Io) : hostLevels (sendReq l fn addr len io) = hostLevels io := by
  simp only [sendReq]
  refine ite_keeps hostLevels ((hostLevels_bump32 _ _ _).trans (hostLevels_linkPut _ _ io rfl)) ?_
  split
  · exact (hostLevels_bump32 _ _ _).trans (hostLevels_linkPut _ _ io rfl)
  · rename_i picked
    obtain rfl := congrArg Prod.snd picked
    exact hostLevels_linkPut _ _ (freeNat io).2 rfl

@[simp] theorem hostLevels_hostRead (fn addr len : Nat) (io : Io) : hostLevels (hostRead fn addr len io) = hostLevels io := by
  simp only [hostRead]
  split
  · rfl
  · exact foldl_keeps hostLevels _ (fun _ _ => hostLevels_sendReq _ _ _ _ _) _ io

@[simp] theorem hostLevels_ringTotals (io : Io) : hostLevels (ringTotals io) = hostLevels io := by
  simp only [ringTotals, hostLevels_dset]

@[simp] theorem hostLevels_ringsDropFn (fn : Nat) (io : Io) : hostLevels (ringsDropFn fn io) = hostLevels io := by
  simp only [ringsDropFn, hostLevels_regReset, hostLevels_ringTotals]; rfl

@[simp] theorem hostLevels_tagsReport (l : Nat) (io : Io) : hostLevels (tagsReport l io) = hostLevels io := by
  simp only [tagsReport]; split <;> simp

@[simp] theorem hostLevels_readsAbandon (l : Nat) (p : Nat → Bool) (io : Io) :
    hostLevels (readsAbandon l p io) = hostLevels io := by
  simp only [readsAbandon, hostLevels_tagsReport]; exact hostLevels_linkPut _ _ io rfl

@[simp] theorem hostLevels_readsFail (l : Nat) (io : Io) : hostLevels (readsFail l io) = hostLevels io := by
  simp only [readsFail, hostLevels_tagsReport]; exact hostLevels_linkPut _ _ io rfl

@[simp] theorem hostLevels_mapRebuild (io : Io) : hostLevels (mapRebuild io) = hostLevels io := hostLevels_dset _ _ _

@[simp] theorem hostLevels_vfReport (p : Nat) (io : Io) : hostLevels (vfReport p io) = hostLevels io := hostLevels_dset _ _ io

@[simp] theorem hostLevels_txDropped (tx : Option (Nat × Nat)) (io : Io) : hostLevels (txDropped tx io) = hostLevels io := by
  simp only [txDropped]
  split
  · rfl
  · split <;> rfl

@[simp] theorem hostLevels_plateReport (p : Pipe) (io : Io) : hostLevels (plateReport p io) = hostLevels io := by
  simp only [plateReport]
  rw [foldl_keeps hostLevels]
  · simp
  · exact fun io r => ite_keeps hostLevels rfl (hostLevels_dset _ _ io)

@[simp] theorem hostLevels_peersReset (fn : Nat) (io : Io) : hostLevels (peersReset fn io) = hostLevels io := by
  have windows := foldl_keeps hostLevels
    (fun io w => regReset [.peerOffset, .peerTarget, .peerCtrl] (peerUnit fn w) io) (fun _ _ => rfl) (List.range 8) io
  simp only [peersReset, hostLevels_regReset]
  generalize (List.range 8).foldl _ io = io1 at windows ⊢
  exact windows

/-! ### Migration operations leave them too -/

@[simp] theorem hostLevels_hostWrite (fn a : Nat) (bs : Bytes) (io : Io) : hostLevels (hostWrite fn a bs io) = hostLevels io := by
  simp only [hostWrite]
  split
  · rfl
  · split <;> rfl

@[simp] theorem hostLevels_migOver (n res bytes : Nat) (v : VfState) (io : Io) :
    hostLevels (migOver n res bytes v io) = hostLevels io := by
  simp only [migOver]
  split
  · rfl
  · exact hostLevels_sendNote _ _ _

@[simp] theorem hostLevels_migBegin (n : Nat) (io : Io) : hostLevels (migBegin n io) = hostLevels io := by
  simp only [migBegin]
  split
  · rfl
  · split
    · split <;> simp
    · rfl

@[simp] theorem hostLevels_migEnd (n res bytes : Nat) (v : VfState) (io : Io) :
    hostLevels (migEnd n res bytes v io) = hostLevels io := by
  have report (io : Io) : hostLevels (migReport io) = hostLevels io := by
    simp only [migReport]; split <;> simp
  simp only [migEnd, migStart, report]
  rw [foldl_keeps hostLevels]
  · exact hostLevels_migOver n res bytes v io
  · exact fun io n => ite_keeps hostLevels (hostLevels_migBegin _ _) rfl

/-! ### The reset of a link's functions leaves the clocks, the host ports and the links (R54, R137) -/

/-- The clocks of a state: what runs, and from which references; not the points regions change to, nor the crossings. -/
def clocks (s : State) : Clk := { s.clk with target := [], crossings := [] }

theorem clkFreq_eq (s : State) (e : Nat) : clkFreq s e = mgetD (clocks s).freq e 0 := rfl

/-- The clocks, the host ports, and for each link whether it is up. -/
def levels (s : State) : Clk × List (Nat × HostPort) × (Nat → Bool) := (clocks s, hostLevels s.io)

theorem levels_eq {s t : State} (h : levels t = levels s) : clocks t = clocks s ∧ hostLevels t.io = hostLevels s.io :=
  ⟨congrArg Prod.fst h, congrArg Prod.snd h⟩

/-- A change of the reporting side that leaves the host ports and links. -/
theorem levels_on (f : Io → Io) (s : State) (h : hostLevels (f s.io) = hostLevels s.io) : levels (on f s) = levels s :=
  Prod.ext rfl h

/-- A change of what a packet meets that leaves them. -/
theorem levels_onWire (f : Wire → Wire) (s : State) (h : ∀ w, hostLevels (f w).io = hostLevels w.io) :
    levels (onWire f s) = levels s := Prod.ext rfl (h _)

@[simp] theorem levels_ctlPut (c : Nat) (x : NvCtl) (s : State) : levels (ctlPut c x s) = levels s := rfl
@[simp] theorem levels_onRdma (f : Rdma → Rdma) (s : State) : levels (onRdma f s) = levels s := rfl

@[simp] theorem levels_nvTotals (s : State) : levels (nvTotals s) = levels s := levels_on _ s (by simp)

@[simp] theorem levels_nvReserve (s : State) : levels (nvReserve s) = levels s := levels_on _ s (hostLevels_ringTotals _)

@[simp] theorem levels_ctlSettle (c : Nat) (s : State) : levels (ctlSettle c s) = levels s := by
  simp only [ctlSettle]
  split
  · rw [levels_nvTotals, levels_on _ _ (hostLevels_regOff _ _ _ _), levels_ctlPut]
  · rfl

@[simp] theorem levels_ctlFnReset (c : Nat) (s : State) : levels (ctlFnReset c s) = levels s := by
  simp only [ctlFnReset, ctlDown]
  split
  · rw [levels_on _ _ (hostLevels_regReset _ _ _), levels_nvReserve, levels_ctlSettle, levels_nvTotals, levels_on _ _ (by simp),
      levels_ctlPut]
  · rfl

@[simp] theorem levels_rdmaDropFn (fn : Nat) (s : State) : levels (rdmaDropFn fn s) = levels s := by
  simp only [rdmaDropFn, rdmaTotals]
  rw [levels_on, levels_onRdma]
  rw [foldl_keeps hostLevels]
  · exact hostLevels_dset _ _ _
  · intro io r; simp only [hostLevels_dset]

@[simp] theorem levels_fnWorkEnds (fn : Nat) (s : State) : levels (fnWorkEnds fn s) = levels s := by
  have window (w : Wire) : hostLevels (keyWinReset fn w).io = hostLevels w.io := rfl
  have translations (oa : Oa) (atc pf : List (Nat × Nat)) (io : Io) :
      hostLevels { io with oa := oa, host := { io.host with atc := atc, pageFaults := pf } } = hostLevels io := rfl
  simp only [fnWorkEnds]
  rw [levels_on, levels_onWire _ _ window, levels_rdmaDropFn, levels_on _ _ (hostLevels_ringsDropFn _ _)]
  rw [hostLevels_regReset, translations, hostLevels_assocsEnd]

@[simp] theorem levels_vfWipe (n res : Nat) (s : State) : levels (vfWipe n res s) = levels s := by
  simp only [vfWipe, vfWipeTo]
  rw [levels_on, levels_fnWorkEnds, levels_ctlFnReset]
  split <;> simp

@[simp] theorem levels_vfsGone (p res : Nat) (s : State) : levels (vfsGone p res s) = levels s := by
  have downs (ns : List Nat) (io : Io) :
      hostLevels (ns.foldl (fun io n => vfPut n { vfAt io n with up := false } io) io) = hostLevels io :=
    foldl_keeps hostLevels _ (fun io n => hostLevels_vfPut n _ io) ns io
  simp only [vfsGone]
  rw [levels_on]
  · exact foldl_keeps levels _ (fun s n => levels_vfWipe n res s) _ s
  · split <;> simp [downs]

theorem wireOn_io (f : Io → Io) (w : Wire) : (w.on f).io = f w.io := rfl

@[simp] theorem hostLevels_listFetch (w : Wire) : hostLevels (listFetch w).io = hostLevels w.io := by
  simp only [listFetch]
  split
  · rfl
  · split
    · exact hostLevels_hostRead _ _ _ _
    · rfl

@[simp] theorem hostLevels_tblLinkReset (fn : Nat) (w : Wire) : hostLevels (tblLinkReset fn w).io = hostLevels w.io := by
  simp only [tblLinkReset]; exact ite_keeps (fun w : Wire => hostLevels w.io) (hostLevels_listFetch _) rfl

@[simp] theorem hostLevels_plateLinkReset (fn : Nat) (w : Wire) : hostLevels (plateLinkReset fn w).io = hostLevels w.io := by
  simp only [plateLinkReset]
  split
  · rfl
  · split
    · rfl
    · split
      · rfl
      · dsimp only; rw [hostLevels_plateReport]; rfl

@[simp] theorem hostLevels_proofEnd (st : Nat) (w : Wire) : hostLevels (proofEnd st w).io = hostLevels w.io := by
  unfold proofEnd
  rw [wireOn_io, hostLevels_endCmd]
  exact hostLevels_dsetB _ _ _

theorem levels_adoptionVoid (s : State) : levels (adoptionVoid s) = levels s := by
  unfold adoptionVoid
  rw [foldl_keeps levels]
  · rfl
  · exact fun s o => levels_onWire _ s fun w => (hostLevels_txDropped _ _).trans (hostLevels_bump64 _ _ _)

theorem levels_pfReset (fn : Nat) (s : State) : levels (pfReset fn s) = levels s := by
  unfold pfReset
  extract_lets p active s1 s2 s3 s4 drives s5
  have h1 : levels s1 = levels s := ite_keeps levels ((levels_ctlFnReset _ _).trans (levels_vfsGone _ _ _)) rfl
  have h2 : levels s2 = levels s1 := levels_fnWorkEnds fn s1
  have h3 : levels s3 = levels s2 := ite_keeps levels (levels_onWire _ _ fun w => by
    exact ite_keeps (fun w : Wire => hostLevels w.io) (by simp) (by simp)) rfl
  have h4 : levels s4 = levels s3 := ite_keeps levels (levels_adoptionVoid s3) rfl
  have h5 : levels s5 = levels s4 := rfl
  rw [levels_on, h5, h4, h3, h2, h1]
  rw [hostLevels_fnPut, hostLevels_peersReset]

/-- R54, R137: the reset of the functions on a link. -/
@[simp] theorem levels_linkFnsReset (l : Nat) (s : State) : levels (linkFnsReset l s) = levels s :=
  (foldl_keeps levels _ (fun s p => levels_pfReset (4 * l + p) s) _ _).trans (levels_on _ s (hostLevels_readsFail l _))

/-! ### A link goes down (R54, R137) -/

/-- The functions on a link are reset and the link goes down: what PERST, a hot reset and DL_Down do to it. -/
def linkReset (l : Nat) (s : State) : State := on (linkDownSet l) (linkFnsReset l s)

@[simp] theorem hostLevels_linkReport (l : Nat) (io : Io) : hostLevels (linkReport l io) = hostLevels io := hostLevels_dset _ _ io

@[simp] theorem linkDownSet_ports (l : Nat) (io : Io) : (linkDownSet l io).host.ports = io.host.ports :=
  (hostLevels_eq (hostLevels_linkReport l _)).1

theorem linkDownSet_up (l m : Nat) (io : Io) :
    (linkAt (linkDownSet l io) m).up = if m = l then false else (linkAt io m).up := by
  rw [linkDownSet, (hostLevels_eq (hostLevels_linkReport l _)).2 m]
  split
  · subst_vars; rw [linkAt_linkPut_same]
  · rw [linkAt_linkPut_other _ _ _ _ ‹_›]

@[simp] theorem linkReset_clocks (l : Nat) (s : State) : clocks (linkReset l s) = clocks s :=
  (levels_eq (levels_linkFnsReset l s)).1

@[simp] theorem linkReset_ports (l : Nat) (s : State) : (linkReset l s).io.host.ports = s.io.host.ports :=
  (linkDownSet_ports l _).trans (hostLevels_eq (levels_eq (levels_linkFnsReset l s)).2).1

theorem linkReset_up (l m : Nat) (s : State) :
    (linkAt (linkReset l s).io m).up = if m = l then false else (linkAt s.io m).up := by
  rw [linkReset, on_io, linkDownSet_up, (hostLevels_eq (levels_eq (levels_linkFnsReset l s)).2).2 m]

/-- Links reset in turn are all down. -/
theorem linksReset_down (ls : List Nat) (s : State) (l : Nat) (h : l ∈ ls ∨ (linkAt s.io l).up = false) :
    (linkAt (ls.foldl (fun s l => linkReset l s) s).io l).up = false := by
  induction ls generalizing s with
  | nil => exact h.resolve_left (List.not_mem_nil)
  | cons k ks ih =>
    refine ih (linkReset k s) ?_
    rw [linkReset_up]
    by_cases e : l = k
    · simp [e]
    · simpa [e] using h

@[simp] theorem portReset_ports (p : Nat) (s : State) : (portReset p s).io.host.ports = s.io.host.ports :=
  foldl_keeps (fun s => s.io.host.ports) _ (fun s l => linkReset_ports l s) _ s

/-! ### The start sequence: what it leaves of the clocks and of the start state (R54 to R58) -/

/-- The clocks, and of the start state the stage, the chip warm resets counted, and whether power is good. -/
def startView (s : State) : Clk × Nat × Half × Bool := (clocks s, s.start.stage, s.start.count, s.start.pwrok)

theorem startView_eq {s : State} {c : Clk} {n : Nat} {k : Half} {p : Bool} (h : startView s = (c, n, k, p)) :
    s.start.stage = n ∧ s.start.count = k ∧ s.start.pwrok = p ∧ s.clk.holdAll = c.holdAll ∧ s.clk.refSys = c.refSys := by
  obtain ⟨rfl, rfl, rfl, rfl⟩ := h
  exact ⟨rfl, rfl, rfl, rfl, rfl⟩

@[simp] theorem startView_on (f : Io → Io) (s : State) : startView (on f s) = startView s := rfl
@[simp] theorem startView_onWire (f : Wire → Wire) (s : State) : startView (onWire f s) = startView s := rfl
@[simp] theorem startView_onMem (f : MemIo → MemIo) (s : State) : startView (onMem f s) = startView s := rfl
@[simp] theorem startView_besAbsent (s : State) : startView (besAbsent s) = startView s := rfl
@[simp] theorem startView_storeWarm (s : State) : startView (storeWarm s) = startView s := rfl
@[simp] theorem startView_settingsCold (s : State) : startView (settingsCold s) = startView s := rfl
@[simp] theorem startView_domWarm (s : State) : startView (domWarm s) = startView s := by
  simp only [startView, clocks, domWarm]

@[simp] theorem startView_netStart (s : State) : startView (netStart s) = startView s := by
  simp only [netStart, startView_onWire]; rfl

@[simp] theorem startView_reasonSet (code : Nat) (s : State) : startView (reasonSet code s) = startView s := by
  simp only [reasonSet, startView_on]; rfl

theorem startView_startPut (x : Start) (s : State) :
    startView (startPut x s) = (clocks s, x.stage, x.count, x.pwrok) := by
  simp only [startPut, startView_on]; rfl

@[simp] theorem startView_startHeld (code : Nat) (s : State) : startView (startHeld code s) = startView s := by
  simp only [startHeld, startView_startPut]
  exact startView_reasonSet code s

@[simp] theorem startView_holdCheck (s : State) : startView (holdCheck s) = startView s := by
  simp only [holdCheck]
  exact ite_keeps startView (startView_startHeld 1 s) rfl

@[simp] theorem startView_slotsPrecheck (s : State) : startView (slotsPrecheck s) = startView s := by
  unfold slotsPrecheck
  rw [foldl_keeps startView]
  exact fun s k => startView_on _ s

theorem startView_stageSet {n m : Nat} {c : Clk} {k : Half} {p : Bool} {s : State} (h : startView s = (c, m, k, p)) :
    startView (stageSet n s) = (c, n, k, p) := by
  obtain ⟨rfl, rfl, rfl, rfl⟩ := h
  simp only [stageSet]
  split <;> simp only [startView_on, startView_startPut]

/-- R56: stage 0 begins, perhaps held or in recovery. -/
theorem startView_stage0Enter {n : Nat} {c : Clk} {k : Half} {p : Bool} {s : State} (h : startView s = (c, n, k, p)) :
    startView (stage0Enter s) = (c, 0, k, p) := by
  have boot (b : Boot) (t : State) : startView { t with boot := b } = startView t := rfl
  have reason (t : State) : clocks (reasonSet 3 t) = clocks t := congrArg Prod.fst (startView_reasonSet 3 t)
  have checked : startView (stageSet 0 (on (dset (idx 0x020102 0) (fusedEpoch s.boot.blown)) (slotsPrecheck s))) = (c, 0, k, p) :=
    startView_stageSet (by rw [startView_on, startView_slotsPrecheck, h])
  simp only [stage0Enter]
  generalize stageSet 0 _ = s2 at checked ⊢
  split
  · rw [startView_on, boot, startView_startPut, reason]; exact checked
  · split
    · rw [startView_startHeld, checked]
    · rw [startView_holdCheck, checked]

@[simp] theorem startView_shepStart (s : State) : startView (shepStart s) = startView s := by
  have target (t : List (Nat × Nat)) (u : State) : startView { u with clk := { u.clk with target := t } } = startView u := rfl
  simp only [shepStart, target]
  unfold shepWarm
  rw [foldl_keeps startView]
  · rfl
  · intro s r
    simp only [decide_, startView_on]
    rfl

/-- The clocks run at frequencies of R43 and R44, and nothing is held in reset. -/
theorem startView_clocksStart {c : Clk} {v : Nat × Half × Bool} {s : State} (h : startView s = (c, v)) :
    startView (clocksStart s) = ({ c with freq := startFreqs s.clk, holdAll := false }, v) := by
  obtain ⟨rfl, rfl⟩ := h
  unfold clocksStart
  rw [foldl_keeps startView]
  · rfl
  · exact fun s x => ite_keeps startView rfl rfl

/-- Powered, with REFCLK_SYS, cool, and in no test mode, a cold start leaves stage 0 with the clocks running. -/
theorem coldStart_runs (cause : Nat) (f : FlashStart) (s : State) (power : s.start.pwrok = true) (sys : s.clk.refSys = true)
    (cool : s.mon.trip = false) (mission : s.dbg.testmode = false) (free : extestClass s.dbg.ir = false) :
    (coldStart cause f s).start.stage = 0 ∧ (coldStart cause f s).start.pwrok = true ∧
    (coldStart cause f s).clk.holdAll = false ∧ (coldStart cause f s).clk.refSys = true := by
  have base (m : Mon) : startView { coldBase s with mon := m } = (clocks (coldBase s), 0, 0, true) :=
    congrArg (fun p => (clocks (coldBase s), 0, 0, p)) power
  have view : ∃ q, startView (coldStart cause f s) =
      ({ clocks (coldBase s) with freq := q, holdAll := false }, 0, 0, true) := by
    unfold coldStart
    simp only [power, sys, cool, mission, free, Bool.not_true, Bool.or_self, Bool.false_eq_true, if_false]
    refine ⟨?freq, startView_stage0Enter (n := 0) ?view⟩
    case view =>
    rw [startView_shepStart, startView_besAbsent, startView_domWarm, startView_netStart, startView_on]
    refine startView_clocksStart ?_
    rw [startView_settingsCold, startView_on]
    exact base _
  obtain ⟨q, view⟩ := view
  obtain ⟨stage, -, good, running, ref⟩ := startView_eq view
  exact ⟨stage, good, running, ref.trans sys⟩

/-! ### The chip warm reset (R55) -/

@[simp] theorem startView_modeDiff (old new : State) : startView (modeDiff old new) = startView new := startView_on _ new

@[simp] theorem startView_linkGone (k : Nat) (s : State) : startView (linkGone k s) = startView s := by
  simp only [linkGone, setDllsc, slotEvent]
  exact ite_keeps startView (ite_keeps startView rfl rfl) rfl

@[simp] theorem startView_slotsWarm (s : State) : startView (slotsWarm s) = startView s := by
  simp only [slotsWarm, startView_besAbsent]
  rw [foldl_keeps startView]
  · rfl
  · exact fun s k => ite_keeps startView rfl (startView_linkGone k s)

/-- R55: the units restart with one warm reset more. -/
theorem startView_unitsWarm (f : FlashStart) (s : State) :
    startView (unitsWarm f s) = (clocks s, s.start.stage, s.start.count + 1, s.start.pwrok) := by
  simp only [startView, clocks, unitsWarm]

/-- R54, R55: a chip warm reset leaves stage 0, and one more is counted. -/
theorem chipWarm_runs (c : WarmCause) (f : FlashStart) (s : State) :
    (chipWarm c f s).start.stage = 0 ∧ (chipWarm c f s).start.count = s.start.count + 1 := by
  have recovery (v : Bool) (t : State) : startView { t with start := { t.start with recovery := v } } = startView t := rfl
  have counted (xs : List Nat) (t : State) : startView (xs.foldl (fun s x =>
      if xingAt s x = .run then on (bump32 0x010212 (x + 1)) s else s) t) = startView t := by
    rw [foldl_keeps startView]
    exact fun s x => ite_keeps startView (startView_on _ s) rfl
  unfold chipWarm
  extract_lets s1 s2 s3 s4 s5 s6 s7
  have h3 : startView s3 = ({ clocks s with freq := startFreqs s2.clk, holdAll := false }, _, s.start.count + 1, _) :=
    startView_clocksStart ((startView_on _ s1).trans (startView_unitsWarm f s))
  have h4 : startView s4 = startView s3 := counted _ s3
  have h5 : startView s5 = startView s4 := startView_netStart s4
  have h6 : startView s6 = startView s5 := by
    rw [startView_onMem, startView_domWarm, startView_slotsWarm, startView_storeWarm, startView_shepStart]
  have h7 : startView s7 = startView s6 := startView_on _ s6
  clear_value s3 s4 s5 s6 s7
  have view := startView_stage0Enter (((startView_modeDiff s _).trans (recovery false s7)).trans
    (h7.trans (h6.trans (h5.trans (h4.trans h3)))))
  obtain ⟨stage, count, -⟩ := startView_eq view
  exact ⟨stage, count⟩

/-! ### Units that leave the clocks: the storage front end, the slots, the crossings (R43, R51, R425) -/

theorem clocks_cqePost (c k : Nat) (e : NvCqe) (s : State) : clocks (cqePost c k e s) = clocks s := by
  simp only [cqePost]
  split
  · rfl
  · refine ite_keeps clocks rfl (ite_keeps clocks rfl (ite_keeps clocks ?_ ?_))
    · exact ite_keeps clocks rfl rfl
    · exact ite_keeps clocks rfl (ite_keeps clocks rfl rfl)

theorem clocks_nvAsync (c ty info page : Nat) (s : State) : clocks (nvAsync c ty info page s) = clocks s := by
  simp only [nvAsync]
  refine ite_keeps clocks rfl ?_
  split
  · exact ite_keeps clocks rfl rfl
  · exact clocks_cqePost c 0 _ _

theorem clocks_nvPost (c k : Nat) (e : NvCqe) (s : State) : clocks (nvPost c k e s) = clocks s :=
  ite_keeps clocks ((clocks_nvAsync c 0 3 1 _).trans (clocks_cqePost c k e s)) (clocks_cqePost c k e s)

theorem clocks_ctlSettle (c : Nat) (s : State) : clocks (ctlSettle c s) = clocks s := (levels_eq (levels_ctlSettle c s)).1

theorem clocks_nvFinish (c : Nat) (m : NvCmd) (st : Nat) (dnr : Bool) (s : State) :
    clocks (nvFinish c m st dnr s) = clocks s := by
  unfold nvFinish
  extract_lets x s1 _ s2 s3
  have h3 : clocks s3 = clocks s := ite_keeps clocks rfl rfl
  refine ite_keeps clocks (clocks_ctlSettle c s1) ?_
  split
  · exact h3
  · exact (clocks_nvPost _ _ _ s3).trans h3

theorem clocks_sqLeave (c k : Nat) (s : State) : clocks (sqLeave c k s) = clocks s := by
  simp only [sqLeave]
  split
  · rfl
  · split
    · rfl
    · refine ite_keeps clocks rfl ?_
      split
      · exact clocks_nvFinish _ _ _ _ _
      · rfl

theorem clocks_nvEndAt (c sq cid st : Nat) (dnr : Bool) (s : State) : clocks (nvEndAt c sq cid st dnr s) = clocks s := by
  simp only [nvEndAt]
  split
  · exact (clocks_sqLeave _ _ _).trans (clocks_nvFinish _ _ _ _ s)
  · rfl

theorem clocks_nsCmdsEnd (n : Nat) (p : Nat → NvCmd → Bool) (s : State) : clocks (nsCmdsEnd n p s) = clocks s := by
  refine foldl_keeps clocks _ (fun s x => ?_) _ s
  refine foldl_keeps clocks _ (fun s m => ?_) _ s
  exact ite_keeps clocks (clocks_nvEndAt x.1 m.sq m.cid 0x21 false s) rfl

theorem clocks_nsSet (n st : Nat) (s : State) : clocks (nsSet n st s) = clocks s := by
  simp only [nsSet]
  split
  · rfl
  · refine ite_keeps clocks rfl ?_
    refine foldl_keeps clocks _ (fun s c => ?_) _ _
    exact ite_keeps clocks (clocks_nvAsync c 2 0 4 _) rfl

theorem clocks_nsLoses (be n : Nat) (quiet : Bool) (s : State) : clocks (nsLoses be n quiet s) = clocks s := by
  have quietOr (t : State) (h : clocks t = clocks s) : clocks (nsSet n 2 (if quiet then s else t)) = clocks s :=
    (clocks_nsSet n 2 _).trans (ite_keeps clocks rfl h)
  unfold nsLoses
  split
  · rfl
  · exact ite_keeps clocks rfl (ite_keeps clocks (quietOr _ (clocks_nsCmdsEnd _ _ s))
      (ite_keeps clocks rfl (ite_keeps clocks rfl (quietOr _ (clocks_nsCmdsEnd _ _ s)))))

theorem clocks_beGone (be st : Nat) (s : State) : clocks (beGone be st s) = clocks s := by
  have verifier (s : State) : clocks (verLost be s) = clocks s := by
    simp only [verLost]
    split
    · exact ite_keeps clocks rfl rfl
    · rfl
  simp only [beGone]
  split
  · rfl
  · refine ite_keeps clocks rfl ((verifier _).trans ?_)
    exact foldl_keeps clocks _ (fun s n => clocks_nsLoses be n (st == 2) s) _ _

theorem clocks_linkGone (k : Nat) (s : State) : clocks (linkGone k s) = clocks s := congrArg Prod.fst (startView_linkGone k s)

theorem clocks_contain (k cause : Nat) (detail : Bytes) (s : State) : clocks (contain k cause detail s) = clocks s := by
  have requests (s : State) : clocks (requestsEnd k s) = clocks s :=
    foldl_keeps clocks _ (fun s r => by split <;> rfl) _ _
  unfold contain
  extract_lets s1 _ s2 s3
  have h3 : clocks s3 = clocks s := (requests s2).trans (clocks_linkGone k s)
  refine ite_keeps clocks rfl ?_
  split
  · exact (clocks_beGone _ _ s3).trans h3
  · exact h3

/-- R425: without DRV_REFCLK the root ports are contained; the clocks are left. -/
theorem clocks_slotsRefLost (s : State) : clocks (slotsRefLost s) = clocks s := by
  refine foldl_keeps clocks _ (fun s k => ?_) _ s
  exact ite_keeps clocks (clocks_contain k 3 _ _) rfl

theorem clocks_clkSet (e f : Nat) (s : State) : clocks (clkSet e f s) = { clocks s with freq := mput (clocks s).freq e f } := by
  simp only [clkSet]; split <;> rfl

theorem clocks_xingsHeld (xs : List Nat) (inner : Nat → Bool) (s : State) : clocks (xingsHeld xs inner s) = clocks s := by
  refine foldl_keeps clocks _ (fun s x => ?_) xs s
  exact ite_keeps clocks rfl rfl

theorem clocks_xingsRetry (xs : List Nat) (s : State) : clocks (xingsRetry xs s) = clocks s := by
  refine foldl_keeps clocks _ (fun s x => ?_) xs s
  exact ite_keeps clocks rfl rfl

/-! ### The commands of chapter 03 (R43, R49 to R52) -/

/-- A state whose clocks are those of another but for one frequency. -/
theorem clock_changed {s t : State} {e f : Nat} (h : clocks t = { clocks s with freq := mput (clocks s).freq e f }) :
    t.clk.refEth = s.clk.refEth ∧ t.clk.refPcie0 = s.clk.refPcie0 ∧ t.clk.refDrv = s.clk.refDrv ∧ clkFreq t e = f := by
  have eth := congrArg Clk.refEth h
  have pcie := congrArg Clk.refPcie0 h
  have drv := congrArg Clk.refDrv h
  refine ⟨eth, pcie, drv, ?_⟩
  rw [clkFreq_eq, h]; exact mgetD_mput_same _ _ _ _

theorem clocks_onWire (f : Wire → Wire) (s : State) : clocks (onWire f s) = clocks s := rfl

theorem crossingReset_runs (x : Fin 24) (inner : Bool) (l : List XTransfer) (s : State) :
    Runs (.crossingReset x inner l) s fun t => xingAt t x.val = .reset :=
  ⟨_, rfl, mgetD_mput_same _ _ _ _⟩

theorem crossingHeld_runs (x : Fin 24) (inner : Bool) (l : List XTransfer) (s : State) :
    Runs (.crossingHeld x inner l) s fun t => xingAt t x.val = .held :=
  ⟨_, rfl, mgetD_mput_same _ _ _ _⟩

/-- R50: with both sides running the crossing is in RUN, if it was not already. -/
theorem crossingResync_runs (x : Fin 24) (s : State) (ready : xingReady s x.val = true) :
    Runs (.crossingResync x) s fun t => xingAt t x.val = .run := by
  refine ⟨_, rfl, ?_⟩
  simp only [ready, if_true, xingResync]
  split
  · assumption
  · exact mgetD_mput_same _ _ _ _

/-- R43: the region's clock is at its target, and the target is gone, whichever way the rail follows. -/
theorem operatingPointSwitch_runs (r : RegionNo) (f : Nat) (s : State) (target : mget s.clk.target r.val = some f)
    (serves : s.cont.regions.contains r.val = false) (run : s.clk.holdAll = false) :
    Runs (.operatingPointSwitch r) s fun t => clkFreq t (r.val + 1) = f ∧ mget t.clk.target r.val = none := by
  have switched : (pointSwitch r.val f s).clk =
      { s.clk with freq := mput s.clk.freq (r.val + 1) f, target := mdel s.clk.target r.val } := by
    have changed (e f : Nat) (s : State) : (clkSet e f s).clk = { s.clk with freq := mput s.clk.freq e f } := by
      simp only [clkSet]; split <;> rfl
    simp only [pointSwitch]
    split <;> exact changed _ _ _
  refine ⟨_, rfl, ?_⟩
  simp only [target, serves, run, Bool.or_self, Bool.false_eq_true, if_false]
  rw [clkFreq, switched]
  exact ⟨mgetD_mput_same _ _ _ _, mget_mdel_same _ _⟩

theorem refclkSysLoss_runs (s : State) : Runs .refclkSysLoss s fun t => t.clk.refSys = false ∧ t.clk.holdAll = true :=
  ⟨_, rfl, rfl, rfl⟩

/-- R52, R54: the return of REFCLK_SYS is a cold start. -/
theorem refclkSysRestored_runs (f : FlashStart) (s : State) (away : s.clk.refSys = false) (power : s.start.pwrok = true)
    (cool : s.mon.trip = false) (mission : s.dbg.testmode = false) (free : extestClass s.dbg.ir = false) :
    Runs (.refclkSysRestored f) s fun t => t.clk.refSys = true ∧ t.clk.holdAll = false ∧ t.start.stage = 0 := by
  refine ⟨_, rfl, ?_⟩
  simp only [away, Bool.false_eq_true, if_false]
  obtain ⟨stage, -, running, ref⟩ :=
    coldStart_runs 5 f { s with clk := { s.clk with refSys := true } } power rfl cool mission free
  exact ⟨ref, running, stage⟩

/-- R51, R52: the clock of a domain stops, and the crossings it serves are held. -/
theorem clocks_stopped (e f : Nat) (xs : List Nat) (inner : Nat → Bool) (s : State) :
    clocks (xingsHeld xs inner (clkSet e f s)) = { clocks s with freq := mput (clocks s).freq e f } :=
  (clocks_xingsHeld xs inner _).trans (clocks_clkSet e f s)

/-- R51, R52: the clock of a domain returns, and the crossings it held start to resynchronise. -/
theorem clocks_returned (e f : Nat) (xs : List Nat) (s : State) :
    clocks (xingsRetry xs (clkSet e f s)) = { clocks s with freq := mput (clocks s).freq e f } :=
  (clocks_xingsRetry xs _).trans (clocks_clkSet e f s)

/-- R52, R242: CLK_MAC stops and the network tile freezes. -/
theorem refclkEthLoss_runs (s : State) (present : s.clk.refEth = true) (run : s.clk.holdAll = false) :
    Runs .refclkEthLoss s fun t => t.clk.refEth = false ∧ t.net.frozen = true ∧ clkFreq t 11 = 0 := by
  refine ⟨_, rfl, ?_⟩
  simp only [present, if_neg (Bool.eq_false_iff.mp run), Bool.not_true, Bool.false_eq_true, if_false]
  generalize held : xingsHeld macXings _ _ = t
  obtain ⟨eth, -, -, freq⟩ := clock_changed ((congrArg clocks held).symm.trans (clocks_stopped _ _ _ _ _))
  exact ⟨eth, rfl, freq⟩

/-- R52, R242: CLK_MAC returns. -/
theorem refclkEthRestored_runs (s : State) (away : s.clk.refEth = false) (run : s.clk.holdAll = false) :
    Runs .refclkEthRestored s fun t => t.clk.refEth = true ∧ clkFreq t 11 = 1250000 := by
  refine ⟨_, rfl, ?_⟩
  simp only [away, if_neg (Bool.eq_false_iff.mp run), Bool.false_eq_true, if_false]
  generalize freed : xingsRetry macXings _ = t
  obtain ⟨eth, -, -, freq⟩ := clock_changed ((congrArg clocks freed).symm.trans
    ((clocks_xingsRetry _ _).trans ((clocks_onWire _ _).trans (clocks_clkSet _ _ _))))
  exact ⟨eth, freq⟩

/-- The links of a list that are up are reset: no clock is touched. -/
theorem clocks_linksReset (ls : List Nat) (s : State) : clocks (ls.foldl (fun s l =>
    if (linkAt s.io l).up then on (linkDownSet l) (linkFnsReset l s) else s) s) = clocks s := by
  rw [foldl_keeps clocks]
  intro s l
  split
  · exact linkReset_clocks l s
  · rfl

/-- R52, R136: CLK_PCIE stops, with every host link down. -/
theorem pcie0RefclkLoss_runs (s : State) (present : s.clk.refPcie0 = true) (run : s.clk.holdAll = false) :
    Runs .pcie0RefclkLoss s fun t => t.clk.refPcie0 = false ∧ clkFreq t 12 = 0 := by
  refine ⟨_, rfl, ?_⟩
  simp only [present, if_neg (Bool.eq_false_iff.mp run), Bool.not_true, Bool.false_eq_true, if_false]
  have links := clocks_linksReset (List.range 4) { s with clk := { s.clk with refPcie0 := false } }
  generalize held : xingsHeld pcieXings _ _ = t
  obtain ⟨-, pcie, -, freq⟩ := clock_changed ((congrArg clocks held).symm.trans (clocks_stopped _ _ _ _ _))
  exact ⟨pcie.trans (congrArg Clk.refPcie0 links), freq⟩

/-- R52: CLK_PCIE returns. -/
theorem pcie0RefclkRestored_runs (s : State) (away : s.clk.refPcie0 = false) (run : s.clk.holdAll = false) :
    Runs .pcie0RefclkRestored s fun t => t.clk.refPcie0 = true ∧ clkFreq t 12 = 1000000 := by
  refine ⟨_, rfl, ?_⟩
  simp only [away, if_neg (Bool.eq_false_iff.mp run), Bool.false_eq_true, if_false]
  generalize freed : xingsRetry pcieXings _ = t
  obtain ⟨-, pcie, -, freq⟩ := clock_changed ((congrArg clocks freed).symm.trans (clocks_returned _ _ _ _))
  exact ⟨pcie, freq⟩

/-- R52: host port 1's links go down; CLK_PCIE continues. -/
theorem pcie1RefclkLoss_runs (s : State) (present : s.clk.refPcie1 = true) :
    Runs .pcie1RefclkLoss s fun t => t.clk.refPcie1 = false ∧ clkFreq t 12 = clkFreq s 12 := by
  refine ⟨_, rfl, ?_⟩
  simp only [present, Bool.not_true, Bool.false_eq_true, if_false]
  have links := clocks_linksReset (portLinks s.io 1) { s with clk := { s.clk with refPcie1 := false } }
  refine ⟨congrArg Clk.refPcie1 links, ?_⟩
  rw [clkFreq_eq, links]; rfl

theorem pcie1RefclkRestored_runs (s : State) : Runs .pcie1RefclkRestored s fun t => t.clk.refPcie1 = true := ⟨_, rfl, rfl⟩

/-- R52, R425: CLK_DRV stops, with every downstream link down. -/
theorem drvRefclkLoss_runs (s : State) (present : s.clk.refDrv = true) (run : s.clk.holdAll = false) :
    Runs .drvRefclkLoss s fun t => t.clk.refDrv = false ∧ clkFreq t 13 = 0 := by
  refine ⟨_, rfl, ?_⟩
  simp only [present, if_neg (Bool.eq_false_iff.mp run), Bool.not_true, Bool.false_eq_true, if_false]
  have slots := clocks_slotsRefLost { s with clk := { s.clk with refDrv := false } }
  generalize held : xingsHeld [14] _ _ = t
  obtain ⟨-, -, drv, freq⟩ := clock_changed ((congrArg clocks held).symm.trans (clocks_stopped _ _ _ _ _))
  exact ⟨drv.trans (congrArg Clk.refDrv slots), freq⟩

/-- R52: CLK_DRV returns. -/
theorem drvRefclkRestored_runs (s : State) (away : s.clk.refDrv = false) (run : s.clk.holdAll = false) :
    Runs .drvRefclkRestored s fun t => t.clk.refDrv = true ∧ clkFreq t 13 = 1000000 := by
  refine ⟨_, rfl, ?_⟩
  simp only [away, if_neg (Bool.eq_false_iff.mp run), Bool.false_eq_true, if_false]
  generalize freed : xingsRetry [14] _ = t
  obtain ⟨-, -, drv, freq⟩ := clock_changed ((congrArg clocks freed).symm.trans (clocks_returned _ _ _ _))
  exact ⟨drv, freq⟩

/-- Settles O3, command by command. -/
theorem crossingsFollowTheirClocks : Obligations.CrossingsFollowTheirClocks :=
  ⟨crossingReset_runs, crossingHeld_runs, crossingResync_runs, operatingPointSwitch_runs, refclkSysLoss_runs,
    refclkSysRestored_runs, refclkEthLoss_runs, refclkEthRestored_runs, pcie0RefclkLoss_runs, pcie0RefclkRestored_runs,
    pcie1RefclkLoss_runs, pcie1RefclkRestored_runs, drvRefclkLoss_runs, drvRefclkRestored_runs⟩

/-! ### The resets and the host links (R54 to R56, R134 to R137) -/

/-- R54, R58: PWROK rises. -/
theorem powerOnReset_runs (f : FlashStart) (s : State) (sys : s.clk.refSys = true) (cool : s.mon.trip = false) :
    Runs (.powerOnReset false f) s fun t => t.start.stage = 0 ∧ t.start.pwrok = true ∧ t.clk.holdAll = false := by
  obtain ⟨stage, good, running, -⟩ := coldStart_runs 1 f
    { s with start := { s.start with pwrok := true }, dbg := { s.dbg with testmode := false, ir := 1 } } rfl sys cool rfl rfl
  exact ⟨_, rfl, stage, good, running⟩

theorem pwrokFall_runs (s : State) : Runs .pwrokFall s fun t => t.start.pwrok = false ∧ t.clk.holdAll = true :=
  ⟨_, rfl, rfl, rfl⟩

theorem vddAonBrownout_runs (f : FlashStart) (s : State) (power : s.start.pwrok = true) (sys : s.clk.refSys = true)
    (cool : s.mon.trip = false) (mission : s.dbg.testmode = false) (free : extestClass s.dbg.ir = false) :
    Runs (.vddAonBrownout f) s fun t => t.start.stage = 0 ∧ t.clk.holdAll = false := by
  obtain ⟨stage, -, running, -⟩ := coldStart_runs 1 f s power sys cool mission free
  exact ⟨_, rfl, stage, running⟩

theorem chipWarmReset_runs (c : WarmCause) (f : FlashStart) (s : State) (run : s.clk.holdAll = false) :
    Runs (.chipWarmReset c f) s fun t => t.start.stage = 0 ∧ t.start.count = s.start.count + 1 := by
  refine ⟨_, rfl, ?_⟩
  simp only [run, Bool.false_eq_true, if_false]
  exact chipWarm_runs c f s

theorem perstAssert_runs (p : Fin 2) (s : State) : Runs (.perstAssert p) s fun t => (hostPort t.io p.val).perst = true := by
  refine ⟨_, rfl, ?_⟩
  show (hostPort (portReset p.val _).io p.val).perst = true
  rw [hostPort, portReset_ports]
  exact congrArg HostPort.perst (mgetD_mput_same _ _ _ _)

/-- R56: the 100 ms count from now. -/
theorem perstDeassert_runs (p : Fin 2) (s : State) :
    Runs (.perstDeassert p) s fun t => hostPort t.io p.val = { perst := false, released := s.io.now } := by
  refine ⟨_, rfl, ?_⟩
  simp only [on_io]
  have stored : hostPort (hostPortPut p.val { perst := false, released := s.io.now } s.io) p.val = _ := mgetD_mput_same _ _ _ _
  generalize hostPortPut p.val _ s.io = io at stored ⊢
  split
  · exact stored
  · rw [hostPort, (hostLevels_eq (hostLevels_dset _ _ io)).1]; exact stored

theorem hotReset_runs (p : Fin 2) (s : State) :
    Runs (.hotReset p) s fun t => ∀ l ∈ portLinks s.io p.val, (linkAt t.io l).up = false :=
  ⟨_, rfl, fun l h => linksReset_down _ s l (Or.inl h)⟩

/-- R54: the configuration of the twin is written last. -/
theorem flr_runs (l : LinkNo) (pf : Pf) (s : State) (presented : l.val ∈ pfLinks s.io pf.val) :
    Runs (.flr l pf) s fun t => fnCfg t.io (4 * l.val + pf.val) = FnCfg.reset := by
  refine ⟨_, rfl, ?_⟩
  simp only [List.contains_iff_mem.mpr presented, if_true, pfReset, on_io, fnCfg_fnPut_same]

/-- R135: partners that both offer a lane share a width. -/
theorem sharedWidth_ne_zero (full offered : Nat) (f : 1 ≤ full) (o : 1 ≤ offered) : sharedWidth full offered ≠ 0 := by
  simp only [sharedWidth]
  cases h : [16, 8, 4, 2, 1].find? (fun w => decide (w ≤ full) && decide (w ≤ offered)) with
  | none =>
    have one : (decide (1 ≤ full) && decide (1 ≤ offered)) = true := by simp only [f, o, decide_true, Bool.and_self]
    exact absurd one (List.find?_eq_none.mp h 1 (by decide))
  | some w =>
    have listed := List.mem_of_find?_eq_some h
    simp only [List.mem_cons, List.not_mem_nil, or_false] at listed
    rw [Option.getD_some]; omega

theorem hostLevels_pf0Ready (p : Nat) (io : Io) : hostLevels (pf0Ready p io) = hostLevels io := by
  simp only [pf0Ready]; exact ite_keeps hostLevels (hostLevels_dset _ _ io) rfl

/-- R134 to R136: the link comes up, whether it trains or trains again. -/
theorem hostLinkUp_runs (l : LinkNo) (r : Fin 7) (w : Fin 17) (flit : Bool) (s : State) (may : linkMayTrain s l.val = true)
    (rate : 0 < r.val) (ours : 0 < dget s.io (idx 0x040003 (l.val % 2 + 1)) 6) (lanes : 0 < w.val) :
    Runs (.hostLinkUp l r w flit) s fun t => (linkAt t.io l.val).up = true := by
  refine ⟨_, rfl, ?_⟩
  have trains : min r.val (dget s.io (idx 0x040003 (l.val % 2 + 1)) 6) ≠ 0 := by omega
  have wide : sharedWidth (if (s.io.host.split[l.val % 2]?).getD 0 = 1 then 8 else 16) w.val ≠ 0 :=
    sharedWidth_ne_zero _ _ (by split <;> omega) lanes
  simp only [may, if_true, on_io, linkUp, trains, wide, decide_false, Bool.or_self, Bool.false_eq_true, if_false]
  rw [(hostLevels_eq ((hostLevels_pf0Ready _ _).trans (hostLevels_linkReport _ _))).2, linkAt_linkPut_same]

theorem linkDown_runs (l : LinkNo) (s : State) (up : (linkAt s.io l.val).up = true) :
    Runs (.linkDown l) s fun t => (linkAt t.io l.val).up = false := by
  refine ⟨_, rfl, ?_⟩
  simp only [up, if_true]
  exact (linkReset_up l.val l.val s).trans (if_pos rfl)

/-- Settles O4, command by command. -/
theorem resetsRun : Obligations.ResetsRun :=
  ⟨powerOnReset_runs, pwrokFall_runs, vddAonBrownout_runs, chipWarmReset_runs, perstAssert_runs, perstDeassert_runs,
    hotReset_runs, flr_runs, hostLinkUp_runs, linkDown_runs⟩

end Sys2Proof.Proofs

/-!
SUPPORT. Proofs about the object-access server (O12, O13).
-/

namespace Sys2Proof.Proofs
open Sys2Proof Sys2Proof.Machine

/-! ### A write staged in a transaction of ID 0 (R105, R107)

A frame outside a transaction carries the transaction ID 0. The server looks for the transaction of a WRITE by that ID alone,
so where a transaction of ID 0 stands open, the WRITE is staged in it. TXN_BEGIN gives out no such ID; the statement asks
nothing of the IDs of the transactions open in its state. -/

/-- Endpoint 9 over I3C, outside a session. -/
def i3cKey : AssocKey := { binding := .mctpI3c, key := 9, session := none }

/-- An association that has settled on version 2. -/
def settledAssoc (k : AssocKey) : Assoc := { freshAssoc k Io.reset with version := 2, maxFrame := 4096 }

/-- At stage 3, with an empty transaction of ID 0 open. -/
def txnZeroState : State :=
  { State.reset with
    clk := { Clk.reset with holdAll := false }
    start := { Start.reset with stage := 3 }
    io := { Io.reset with oa := { Oa.reset with
      assocs := [settledAssoc i3cKey]
      txns := [{ id := 0, assoc := i3cKey, staged := [], last := 0 }] } } }

/-- The header of a WRITE of one item of 12 bytes, outside a transaction. -/
def writeHdr : OaHdr := { version := 2, flags := 0, status := 0, tag := 1, count := 1, len := 12, txn := 0 }

/-- 0E:0400 is to become 1. -/
def limitItem : OaItem := ⟨idx 0x0E0400 0, 3, le 2 1⟩

/-- The WRITE passes every check of its header, and its issuer may write 0E:0400. -/
theorem txnZeroState_admits_write :
    frameOk i3cKey writeHdr (.write [limitItem]) txnZeroState = true ∧
      ∃ o, itemAt (idx 0x0E0400 0) = some o ∧
        writerOk txnZeroState.start.stage i3cKey o 0x0E0400 txnZeroState.io = 0 := by
  refine ⟨by decide +kernel, ?_⟩
  have h : (itemAt (idx 0x0E0400 0)).any
      (fun o => writerOk txnZeroState.start.stage i3cKey o 0x0E0400 txnZeroState.io == 0) = true := by decide +kernel
  simpa only [Option.any_eq_true, beq_iff_eq] using h

/-- 0E:0400 stays without a value; the 1 stands in the transaction. -/
theorem write_staged_in_txn_zero :
    Runs (.write i3cKey writeHdr [limitItem] OaEnv.none) txnZeroState fun t => t.num 0x0E0400 0 = 0 ∧
      t.io.oa.txns.map (fun x => x.staged.map (fun p => (p.index, p.value))) = [[(idx 0x0E0400 0, .num 1)]] :=
  ⟨_, rfl, by decide +kernel⟩

/-- Refutes O12: from `txnZeroState` a WRITE of 1 to 0E:0400 outside a transaction leaves 0 there, where the statement claims
1. -/
theorem not_objectAccessWrites : ¬ Obligations.ObjectAccessWrites := by
  unfold Obligations.ObjectAccessWrites
  rintro ⟨write, -⟩
  obtain ⟨frame, o, item, writer⟩ := txnZeroState_admits_write
  obtain ⟨t, run, stored⟩ := write i3cKey writeHdr 1 OaEnv.none o txnZeroState rfl (by decide) rfl frame item writer
  obtain ⟨u, run', kept, -⟩ := write_staged_in_txn_zero
  obtain rfl : u = t := Host.Outcome.next.inj (run'.symm.trans run)
  rw [kept] at stored
  exact absurd stored (by decide)

/-! ### A notification buffer filled again as it is acknowledged (R112, R116)

The mailbox of an association is named by its binding and key; the association of a mailbox is looked up by its whole key, the
session included. An association of PF 0's mailbox inside a session is therefore not the one an acknowledgement looks up, but
its notifications enter PF 0's buffer. With the acknowledgement the additions to event counters that are on their way arrive
(R461): one that pulses a full request line counts in 0F:0002 (R487), and a subscription to that count of such an association
is notified. The server opens no such association; the statement rules out only the one it looks up. -/

/-- PF 0's mailbox inside session 1. -/
def sessionMboxKey : AssocKey := { mboxKey 0 with session := some 1 }

/-- An addition to counter 0 of block 0 is on its way; line 52 of region 0's engine watches that counter and is full. Element 1
of 0F:0002 has a subscriber inside a session of PF 0's mailbox, whose notification buffer is free. -/
def refillState : State :=
  { State.reset with
    dma := [(0, { DmaEng.reset with watches := [(0, 0x80000000)], lines := [(52, { count := 65535, overflow := false })] })]
    io := { Io.reset with
      evAdds := [(0, 0)]
      oa := { Oa.reset with
        assocs := [settledAssoc sessionMboxKey]
        subs := [{ id := 0, assoc := sessionMboxKey, index := idx 0x0F0002 1, mode := 1, interval := 0, sentAt := none,
                   seen := [], waiting := false }] } } }

/-- The acknowledgement finds mailbox 0 without an association. -/
theorem refillState_mailbox_unassociated :
    mboxExists 0 = true ∧ assocOf refillState.io (mboxKey 0) = none := by decide +kernel

/-- The buffer is free before the acknowledgement and holds a notification after it. -/
theorem mboxNotifyAck_refills :
    (mboxAt refillState.io 0).held = false ∧
      Runs (.mboxNotifyAck 0 true) refillState fun t => (mboxAt t.io 0).held = true :=
  ⟨by decide +kernel, _, rfl, by decide +kernel⟩

/-- Refutes O13: from `refillState` PF 0's notification buffer is held once it has been acknowledged, where the statement claims
it free. -/
theorem not_objectAccessExpiries : ¬ Obligations.ObjectAccessExpiries := by
  unfold Obligations.ObjectAccessExpiries
  rintro ⟨-, -, -, -, -, -, -, -, -, -, ack, -⟩
  obtain ⟨mailbox, unassociated⟩ := refillState_mailbox_unassociated
  obtain ⟨t, run, free⟩ := ack 0 refillState mailbox unassociated
  obtain ⟨-, u, run', held⟩ := mboxNotifyAck_refills
  obtain rfl : u = t := Host.Outcome.next.inj (run'.symm.trans run)
  exact absurd (held.symm.trans free) (by decide)

end Sys2Proof.Proofs

/-!
SUPPORT. Proofs about SR-IOV and the reset of a VF (O16).
-/

namespace Sys2Proof.Proofs
open Sys2Proof Sys2Proof.Machine

/-! ### Readings of the host interface that a notification leaves (R114 to R116, R148) -/

/-- A reading of the host interface alone that does not tell which messages are pending. -/
structure BlindToPending {γ : Type} (p : Io → γ) : Prop where
  hostOnly : ∀ a b : Io, b.host = a.host → p b = p a
  pending : ∀ fn l io, p (fnPut fn { fnCfg io fn with pending := l } io) = p io

namespace BlindToPending
variable {γ : Type} {p : Io → γ} (blind : BlindToPending p)
include blind

theorem msix (fn v : Nat) (io : Io) : p (Machine.msix fn v io) = p io := by
  simp only [Machine.msix]
  split
  · exact blind.hostOnly _ _ rfl
  · exact blind.pending _ _ _

theorem mboxIrq (n : Nat) (io : Io) : p (Machine.mboxIrq n io) = p io := by
  simp only [Machine.mboxIrq]
  exact ite_keeps p rfl (ite_keeps p (blind.msix _ _ io) (blind.hostOnly _ _ rfl))

theorem noteOut (a : Assoc) (n : Note) (io : Io) : p (Machine.noteOut a n io) = p io := by
  simp only [Machine.noteOut]
  split
  · exact blind.hostOnly _ _ (by split <;> rfl)
  · exact (blind.mboxIrq _ _).trans (blind.hostOnly _ _ rfl)

theorem sendNote (k : AssocKey) (n : Note) (io : Io) : p (Machine.sendNote k n io) = p io := by
  simp only [Machine.sendNote]
  split
  · rfl
  · exact ite_keeps p (blind.noteOut _ n io) (ite_keeps p (blind.hostOnly _ _ rfl) (blind.hostOnly _ _ rfl))

theorem subNotify (l : List (Nat × Val)) (x : Sub) (io : Io) : p (Machine.subNotify l x io) = p io :=
  ite_keeps p (blind.hostOnly _ _ rfl) ((blind.sendNote _ _ _).trans (blind.hostOnly _ _ rfl))

theorem dset (i n : Nat) (io : Io) : p (Machine.dset i n io) = p io := by
  simp only [Machine.dset, dsetV]
  exact ite_keeps p (blind.hostOnly _ _ rfl)
    ((foldl_keeps p _ (fun _ _ => blind.subNotify _ _ _) _ _).trans (blind.hostOnly _ _ rfl))

end BlindToPending

/-! ### VF Enable and the active twins (R139, R167) -/

/-- The active twin of each PF, and which functions have VF Enable set. -/
def sriov (io : Io) : (Nat → Nat) × (Nat → Bool) := (activeTwin io, fun fn => (fnCfg io fn).vfEnable)

theorem sriov_eq {a b : Io} (h : sriov b = sriov a) :
    (∀ p, activeTwin b p = activeTwin a p) ∧ ∀ fn, (fnCfg b fn).vfEnable = (fnCfg a fn).vfEnable :=
  ⟨congrFun (congrArg Prod.fst h), congrFun (congrArg Prod.snd h)⟩

theorem sriov_blind : BlindToPending sriov where
  hostOnly a b same := by
    have twins : activeTwin b = activeTwin a := funext fun p => by simp only [activeTwin, pfLinks, same]
    simp only [sriov, fnCfg, twins, same]
  pending fn l io := by
    refine Prod.ext rfl (funext fun m => ?_)
    by_cases e : m = fn
    · subst e; simp [sriov]
    · simp [sriov, fnCfg_fnPut_other fn m _ io e]

@[simp] theorem sriov_vfReport (p : Nat) (io : Io) : sriov (vfReport p io) = sriov io := sriov_blind.dset _ _ io
@[simp] theorem sriov_mapRebuild (io : Io) : sriov (mapRebuild io) = sriov io := sriov_blind.dset _ _ _

/-- VFs stored in turn leave them. -/
@[simp] theorem sriov_vfPuts (f : Io → Nat → VfState) (ns : List Nat) (io : Io) :
    sriov (ns.foldl (fun io n => vfPut n (f io n) io) io) = sriov io :=
  foldl_keeps sriov _ (fun io n => sriov_blind.hostOnly io (vfPut n (f io n) io) rfl) ns io

/-! ### The VFs after they were stored and reported (R152, R167) -/

/-- The VFs of two states with the same VF state are the same. -/
theorem vfAt_congr {a b : Io} (h : b.vf = a.vf) (n : Nat) : vfAt b n = vfAt a n := by simp only [vfAt, h]

@[simp] theorem vfAt_fnPut (fn n : Nat) (c : FnCfg) (io : Io) : vfAt (fnPut fn c io) n = vfAt io n := rfl
@[simp] theorem vfAt_dset (i k n : Nat) (io : Io) : vfAt (dset i k io) n = vfAt io n := vfAt_congr (notes_dsetV i _ io).vf n
@[simp] theorem vfAt_sendNote (k : AssocKey) (x : Note) (n : Nat) (io : Io) : vfAt (sendNote k x io) n = vfAt io n :=
  vfAt_congr (notes_sendNote k x io).vf n
@[simp] theorem vfAt_vfReport (p n : Nat) (io : Io) : vfAt (vfReport p io) n = vfAt io n := vfAt_dset _ _ n io
@[simp] theorem vfAt_mapRebuild (n : Nat) (io : Io) : vfAt (mapRebuild io) n = vfAt io n := vfAt_dset _ _ n _

/-- What holds of every VF as it is stored holds of each VF of the list once all are. -/
theorem vfAt_vfPuts (q : VfState → Prop) (f : Io → Nat → VfState) (stores : ∀ io n, q (f io n)) (ns : List Nat) (io : Io)
    (n : Nat) (h : n ∈ ns ∨ q (vfAt io n)) : q (vfAt (ns.foldl (fun io n => vfPut n (f io n) io) io) n) := by
  induction ns generalizing io with
  | nil => exact h.resolve_left List.not_mem_nil
  | cons k ks ih =>
    refine ih (vfPut k (f io k) io) ?_
    by_cases e : n = k
    · subst e; rw [vfAt_vfPut_same]; exact .inr (stores io n)
    · rw [vfAt_vfPut_other k n _ io e]
      exact h.imp_left fun m => (List.mem_cons.mp m).resolve_left e

/-! ### The commands on VF Enable and NumVFs (R166, R167) -/

/-- R167: VF Enable is set on the active twin, and the VFs that the runs cover come up. -/
theorem vfEnable_brings_up (p : Nat) (io : Io) :
    (fnCfg (vfEnable p io) (activeTwin io p)).vfEnable = true ∧
      ∀ n ∈ span (vfBase io p) (fnCfg io (activeTwin io p)).numVfs, vfCovered io n = true → (vfAt (vfEnable p io) n).up = true := by
  unfold vfEnable
  extract_lets fn c ns io1
  constructor
  · have view : sriov (mapRebuild (vfReport p (ns.foldl (fun io n => vfPut n { VfState.reset with up := true } io) io1))) =
        sriov io1 := by
      rw [sriov_mapRebuild, sriov_vfReport, sriov_vfPuts]
    rw [(sriov_eq view).2, fnCfg_fnPut_same]
  · intro n inRange covered
    rw [vfAt_mapRebuild, vfAt_vfReport]
    exact vfAt_vfPuts (·.up = true) _ (fun _ _ => rfl) ns io1 n (.inl (List.mem_filter.mpr ⟨inRange, covered⟩))

theorem vfEnableSet_runs (pf : Pf) (s : State) (stage : s.start.stage = 3)
    (clear : (fnCfg s.io (activeTwin s.io pf)).vfEnable = false) :
    Runs (.vfEnableSet pf) s fun t => (fnCfg t.io (activeTwin s.io pf)).vfEnable = true ∧
      ∀ n ∈ span (vfBase s.io pf) (fnCfg s.io (activeTwin s.io pf)).numVfs, vfCovered s.io n = true →
        (vfAt t.io n).up = true := by
  refine ⟨_, rfl, ?_⟩
  simp only [stage, clear, Nat.lt_irrefl, decide_false, Bool.or_self, Bool.false_eq_true, if_false, on_io]
  exact vfEnable_brings_up pf s.io

/-- What a PF's loss of its VFs stores once each VF of `ns` is reset: none of them up, VF Enable clear, and where there were any
the function map built anew. -/
def vfsDown (p : Nat) (ns : List Nat) (io : Io) : Io :=
  let fn := activeTwin io p
  let io1 := ns.foldl (fun io n => vfPut n { vfAt io n with up := false } io) io
  let io2 := fnPut fn { fnCfg io1 fn with vfEnable := false } io1
  if ns.isEmpty then io2 else mapRebuild (vfReport p io2)

theorem vfsGone_io (p res : Nat) (s : State) :
    (vfsGone p res s).io = vfsDown p (vfsUp s.io p) ((vfsUp s.io p).foldl (fun s n => vfWipe n res s) s).io := rfl

/-- R167: VF Enable reads 0 on the active twin, and none of the VFs is up. -/
theorem vfsDown_down (p : Nat) (ns : List Nat) (io : Io) :
    (fnCfg (vfsDown p ns io) (activeTwin (vfsDown p ns io) p)).vfEnable = false ∧
      ∀ n ∈ ns, (vfAt (vfsDown p ns io) n).up = false := by
  unfold vfsDown
  extract_lets fn io1 _ io2
  have down (n : Nat) (m : n ∈ ns) : (vfAt io2 n).up = false := by
    rw [vfAt_fnPut]
    exact vfAt_vfPuts (·.up = false) _ (fun _ _ => rfl) ns io n (.inl m)
  have twin : activeTwin io2 p = fn := (sriov_eq (sriov_vfPuts (fun io n => { vfAt io n with up := false }) ns io)).1 p
  have clear : (fnCfg io2 (activeTwin io2 p)).vfEnable = false := by rw [twin, fnCfg_fnPut_same]
  split
  · exact ⟨clear, down⟩
  · have view : sriov (mapRebuild (vfReport p io2)) = sriov io2 := by rw [sriov_mapRebuild, sriov_vfReport]
    obtain ⟨twins, enables⟩ := sriov_eq view
    refine ⟨by rw [twins, enables, clear], fun n m => ?_⟩
    rw [vfAt_mapRebuild, vfAt_vfReport, down n m]

theorem vfEnableClear_runs (pf : Pf) (s : State) (stage : s.start.stage = 3)
    (enabled : (fnCfg s.io (activeTwin s.io pf)).vfEnable = true) :
    Runs (.vfEnableClear pf) s fun t => (fnCfg t.io (activeTwin t.io pf)).vfEnable = false ∧
      ∀ n ∈ vfsUp s.io pf, (vfAt t.io n).up = false := by
  refine ⟨_, rfl, ?_⟩
  simp only [stage, enabled, Nat.lt_irrefl, decide_false, Bool.not_true, Bool.or_self, Bool.false_eq_true, if_false]
  rw [vfsGone_io]
  exact vfsDown_down pf _ _

theorem numvfsWrite_runs (pf : Pf) (n : Nat) (s : State) (clear : (fnCfg s.io (activeTwin s.io pf)).vfEnable = false)
    (within : n ≤ vfTotal s.io pf) :
    Runs (.numvfsWrite pf n) s fun t => (fnCfg t.io (activeTwin s.io pf)).numVfs = n := by
  refine ⟨_, rfl, ?_⟩
  simp only [clear, Nat.not_lt.mpr within, decide_false, Bool.or_self, Bool.false_eq_true, if_false, on_io, fnCfg_fnPut_same]

/-! ### FLR of a VF (R172) -/

theorem vfFlr_runs (vf : Vf) (s : State) (up : (vfAt s.io vf).up = true) (idle : (vfAt s.io vf).inFlr = false) :
    Runs (.vfFlr vf) s fun t => (vfAt t.io vf).inFlr = true := by
  refine ⟨_, rfl, ?_⟩
  simp only [up, idle, Bool.not_false, Bool.and_self, if_true, on_io, vfFlrBegin, vfAt_fnPut, vfAt_vfPut_same]

/-- Whether a VF is in FLR, and whether it is fresh. -/
def flrMarks (n : Nat) (io : Io) : Bool × Bool := ((vfAt io n).inFlr, (vfAt io n).fresh)

theorem flrMarks_congr {a b : Io} {n : Nat} (h : vfAt b n = vfAt a n) : flrMarks n b = flrMarks n a := by
  simp only [flrMarks, h]

/-- R183: a posted write moves no more of a VF than its tracked range. -/
theorem flrMarks_hostWrite (n fn a : Nat) (bs : Bytes) (io : Io) : flrMarks n (hostWrite fn a bs io) = flrMarks n io := by
  simp only [hostWrite]
  split
  · rfl
  · split
    · rfl
    · by_cases e : n = fn - 16
      · subst e; simp only [flrMarks, vfAt_vfPut_same]; rfl
      · exact flrMarks_congr (vfAt_vfPut_other _ n _ (emit _ io) e)

/-- R175: the end of another VF's operation. -/
theorem flrMarks_migOver_other (n m res bytes : Nat) (v : VfState) (io : Io) (h : n ≠ m) :
    flrMarks n (migOver m res bytes v io) = flrMarks n io := by
  simp only [migOver]
  split
  · rfl
  · exact flrMarks_congr ((vfAt_sendNote _ _ n _).trans (vfAt_vfPut_other m n _ _ h))

/-- R178, R182: the start of another VF's SAVE or RESTORE. -/
theorem flrMarks_migBegin_other (n m : Nat) (io : Io) (h : n ≠ m) : flrMarks n (migBegin m io) = flrMarks n io := by
  have stored (v : VfState) : flrMarks n (vfPut m v io) = flrMarks n io := flrMarks_congr (vfAt_vfPut_other m n v io h)
  simp only [migBegin]
  split
  · rfl
  · refine ite_keeps (flrMarks n) (ite_keeps (flrMarks n) ?_ ?_) (stored _)
    · exact flrMarks_migOver_other n m _ _ _ io h
    · exact (flrMarks_hostWrite n _ _ _ _).trans (stored _)

/-- R177: the operations that start are those of VFs in the queue. -/
theorem flrMarks_migStart (n : Nat) (io : Io) (h : n ∉ io.vf.queue) : flrMarks n (migStart io) = flrMarks n io := by
  have report (io : Io) : flrMarks n (migReport io) = flrMarks n io :=
    ite_keeps (flrMarks n) rfl (flrMarks_congr (vfAt_dset _ _ n io))
  unfold migStart
  rw [report]
  refine List.foldlRecOn (motive := fun b => flrMarks n b = flrMarks n io) io.vf.queue _ rfl fun b ih m listed => ?_
  have other : n ≠ m := fun e => h (e ▸ listed)
  exact ite_keeps (flrMarks n) ((flrMarks_migBegin_other n m _ other).trans ih) ih

/-- R175: a VF whose operation ends is left as its end stores it. -/
theorem flrMarks_migEnd (n res bytes : Nat) (v : VfState) (io : Io) (o : MigOp) (runs : (vfAt io n).op = some o) :
    flrMarks n (migEnd n res bytes v io) = (v.inFlr, v.fresh) := by
  have ended : flrMarks n (migOver n res bytes v io) = (v.inFlr, v.fresh) := by
    simp only [migOver, runs, flrMarks, vfAt_sendNote, vfAt_vfPut_same]
  have gone : n ∉ (migOver n res bytes v io).vf.queue := by
    simp [migOver, runs, (notes_sendNote _ _ _).vf, vfPut]
  exact (flrMarks_migStart n _ gone).trans ended

/-- R172 step 4: the reset of a VF leaves it out of FLR and fresh, whether or not an operation ended with it. -/
theorem vfWipe_fresh (n res : Nat) (s : State) : flrMarks n (vfWipe n res s).io = (false, true) := by
  simp only [vfWipe, vfWipeTo, on_io]
  split
  · simp only [flrMarks, vfAt_vfPut_same]; rfl
  · rename_i o runs
    exact flrMarks_migEnd n res 0 _ _ o runs

theorem vfFlrComplete_runs (vf : Vf) (s : State) (inFlr : (vfAt s.io vf).inFlr = true) :
    Runs (.vfFlrComplete vf) s fun t => (vfAt t.io vf).inFlr = false ∧ (vfAt t.io vf).fresh = true := by
  refine ⟨_, rfl, ?_⟩
  simp only [inFlr, if_true]
  exact Prod.mk.inj (vfWipe_fresh vf 0x0C s)

/-- Settles O16, command by command. -/
theorem vfCommandsRun : Obligations.VfCommandsRun :=
  ⟨vfEnableSet_runs, vfEnableClear_runs, numvfsWrite_runs, vfFlr_runs, vfFlrComplete_runs⟩

end Sys2Proof.Proofs

/-!
SUPPORT. Proof about mask randomness (O29).
-/

namespace Sys2Proof.Proofs
open Sys2Proof Sys2Proof.Machine

/-! ### A health failure whose report moves 0A:0004 (R322)

R322 stops the generator, shown by 2 in 0A:0004, and raises a containment record, which goes to PF0 as event 0x0E01 (R40). As
in `strayState`, that event reads the control block of a full completion ring again, the read waits for a tag, and the wait is
counted in the element of 04:0023 that the link's number names (R158). Here that number is so large that the element has the
index of 0A:0004, which the count moves from 2 to 3. The statement asks nothing of the link numbers of its state. -/

/-- The link number whose element of 04:0023 is indexed as 0A:0004 is. -/
def rngLink : Nat := idx 0x0A0004 0 - idx 0x040023 1

/-- `strayState` with PF 1 on `rngLink`. -/
def rngState : State :=
  { strayState with io := { strayState.io with
      host := { strayState.io.host with
        pfPort := [0, rngLink, 0, 0]
        links := [(rngLink, { Link.reset with up := true, reqs := outstanding })] } } }

/-- The generator stops, and 0A:0004 reads 3. -/
theorem trngHealthFail_counted_in_0A0004 :
    Runs .trngHealthFail rngState fun t => t.burin.rng = 2 ∧ t.num 0x0A0004 0 = 3 :=
  ⟨_, rfl, rfl, by decide +kernel⟩

/-- Refutes O29: from `rngState` a health failure leaves 3 in 0A:0004, where the statement claims 2. -/
theorem not_lookasideRuns : ¬ Obligations.LookasideRuns := by
  unfold Obligations.LookasideRuns
  rintro ⟨-, -, -, -, -, health, -⟩
  obtain ⟨t, run, -, two⟩ := health rngState
  obtain ⟨u, run', -, three⟩ := trngHealthFail_counted_in_0A0004
  obtain rfl : u = t := Host.Outcome.next.inj (run'.symm.trans run)
  exact absurd (three.symm.trans two) (by decide)

end Sys2Proof.Proofs

/-!
SUPPORT. Proofs of the statement about ports, frames and pauses (O20).
-/

namespace Sys2Proof.Proofs
open Sys2Proof Sys2Proof.Machine

/-! ### What reads back of the network side and of a port -/

@[simp] theorem onWire_net (f : Wire → Wire) (s : State) : (onWire f s).net = (f (wireOf s)).net := rfl
@[simp] theorem onWire_io (f : Wire → Wire) (s : State) : (onWire f s).io = (f (wireOf s)).io := rfl
@[simp] theorem wireOf_net (s : State) : (wireOf s).net = s.net := rfl
@[simp] theorem wireOf_io (s : State) : (wireOf s).io = s.io := rfl
@[simp] theorem wireOn_net (f : Io → Io) (w : Wire) : (w.on f).net = w.net := rfl
@[simp] theorem wireOnNet_net (f : Net → Net) (w : Wire) : (w.onNet f).net = f w.net := rfl
@[simp] theorem wireOnNet_io (f : Net → Net) (w : Wire) : (w.onNet f).io = w.io := rfl

@[simp] theorem portAt_portPut_same (p : Nat) (x : PortSt) (n : Net) : portAt (portPut p x n) p = x :=
  mgetD_mput_same _ _ _ _

@[simp] theorem portReport_net (p : Nat) (w : Wire) : (portReport p w).net = w.net := rfl

@[simp] theorem portReport_now (p : Nat) (w : Wire) : (portReport p w).io.now = w.io.now := (notes_dsetV _ _ w.io).now

/-- Dropping packets and counting each leaves the network side. -/
theorem countedDrops_net (obj sub : Nat) (ks : List Pkt) (w : Wire) :
    (ks.foldl (fun w k => dropPkt k (w.on (bump64 obj sub))) w).net = w.net :=
  foldl_keeps Wire.net (fun w k => dropPkt k (w.on (bump64 obj sub))) (fun _ _ => rfl) ks w

/-! ### Received frames (R219, R220, R241) -/

/-- A handle is taken with the ports as they stand. -/
@[simp] theorem newHandle_ports (w : Wire) : (newHandle w).2.net.ports = w.net.ports := by
  simp only [newHandle]; split <;> rfl

@[simp] theorem portAt_newHandle (w : Wire) (p : Nat) : portAt (newHandle w).2.net p = portAt w.net p := by
  simp only [portAt, newHandle_ports]

/-- A frame taken in is the last of its port's ingress queue. -/
theorem takeIn_frames (p prio head : Nat) (f : Bytes) (w : Wire) :
    (portAt (takeIn p prio f head w).net p).inQ.map (·.frame) = (portAt w.net p).inQ.map (·.frame) ++ [f] := by
  simp only [takeIn, wireOnNet_net, portAt_portPut_same, portAt_newHandle, List.map_append]
  rfl

/-- R240: a frame that its queue may take is taken in without headroom. -/
theorem ingress_fits (p prio : Nat) (f : Bytes) (w : Wire) (fits : mayTake w p (ingressUse w p prio) (unitsOf f) = true) :
    ingress p prio f w = takeIn p prio f 0 w := by
  simp only [ingress, fits, if_true]

/-- The port receives frames: the packet buffer runs, the mode defines the port, and its link is up. -/
structure Receives (w : Wire) (p : Nat) : Prop where
  running : w.net.frozen = false
  defined : portExists w.net p = true
  up : (portAt w.net p).up = true

/-- R220: the priority of a received frame. -/
def framePrio (io : Io) (p : Nat) (f : Bytes) : Nat :=
  if tagged f then fb f 14 2 / 2 ^ 13 else dget io (idx 0x070011 (p + 1)) 0

/-- R219: a frame over an uncorrectable codeword is counted in 07:0005 and dropped. -/
theorem macReceive_badFec (p : Nat) (f : Bytes) (fcsOk : Bool) (w : Wire) (rx : Receives w p) :
    macReceive p f false fcsOk w = w.on (bump64 0x070005 (p + 1)) := by
  obtain ⟨running, defined, up⟩ := rx
  simp [macReceive, running, defined, up]

/-- R219, R220: a good frame of a length in range that is no MAC control frame meets its ingress queue. -/
theorem macReceive_data (p : Nat) (f : Bytes) (w : Wire) (rx : Receives w p) (long : 60 ≤ f.length)
    (short : f.length + 4 ≤ dget w.io (idx 0x070002 (p + 1)) 9622) (data : fb f 12 2 ≠ 0x8808) :
    macReceive p f true true w = ingress p (framePrio w.io p f) f w := by
  obtain ⟨running, defined, up⟩ := rx
  have notRunt : ¬ f.length + 4 < 64 := by omega
  have notGiant : ¬ dget w.io (idx 0x070002 (p + 1)) 9622 < f.length + 4 := by omega
  simp [macReceive, framePrio, running, defined, up, notRunt, notGiant, data]

/-- R219, R220, R240: a good data frame that its queue may take enters that queue last. -/
theorem macFrameReceived_enters (p : PortNo) (f : Bytes) (s : State) (running : s.net.frozen = false)
    (defined : portExists s.net p = true) (up : (portAt s.net p).up = true) (long : 60 ≤ f.length)
    (short : f.length + 4 ≤ dget s.io (idx 0x070002 (p + 1)) 9622) (data : fb f 12 2 ≠ 0x8808)
    (fits : mayTake (wireOf s) p (ingressUse (wireOf s) p (framePrio s.io p f)) (unitsOf f) = true) :
    Runs (.macFrameReceived p f true true) s fun t =>
      (portAt t.net p).inQ.map (·.frame) = (portAt s.net p).inQ.map (·.frame) ++ [f] := by
  have enters : macReceive p f true true (wireOf s) = takeIn p (framePrio s.io p f) f 0 (wireOf s) :=
    (macReceive_data p f (wireOf s) ⟨running, defined, up⟩ long short data).trans (ingress_fits _ _ _ _ fits)
  refine ⟨_, rfl, ?_⟩
  simp only [onWire_net, enters]
  exact takeIn_frames _ _ _ f (wireOf s)

/-- R219: a frame whose FEC failed is counted in 07:0005. -/
theorem macFrameReceived_badFec_counted (p : PortNo) (f : Bytes) (ok : Bool) (s : State) (running : s.net.frozen = false)
    (defined : portExists s.net p = true) (up : (portAt s.net p).up = true) :
    Runs (.macFrameReceived p f false ok) s fun t => t.num 0x070005 (p + 1) = satAdd 64 (s.num 0x070005 (p + 1)) 1 := by
  have own : idx 0x070005 (p + 1) ≠ lostIdx := by simp only [idx, lostIdx]; omega
  refine ⟨_, rfl, ?_⟩
  simp only [State.num, onWire_io, macReceive_badFec p f ok (wireOf s) ⟨running, defined, up⟩]
  exact dget_bumpBy 64 _ 1 0 s.io own

/-! ### Pauses (R221) -/

/-- A pause holds until its quanta of 512 bit times have passed; one of no quanta ends. -/
theorem pauseQueue_paused (p q quanta : Nat) (w : Wire) :
    mget (portAt (pauseQueue p q quanta w).net p).paused q =
      if quanta = 0 then none else some (w.io.now + ceilDiv (quanta * 512) (modeSpeed w.net.mode)) := by
  simp only [pauseQueue, portReport_net, wireOnNet_net, portAt_portPut_same]
  split
  · exact mget_mdel_same _ _
  · exact mget_mput_same _ _ _

@[simp] theorem pauseQueue_now (p q quanta : Nat) (w : Wire) : (pauseQueue p q quanta w).io.now = w.io.now :=
  portReport_now p _

/-- R221: a PFC frame pauses the priority for its quanta; none of them resumes it. -/
theorem pfcFrame_pauses (p : PortNo) (q : Fin 8) (n : Half) (s : State) (running : s.net.frozen = false)
    (defined : portExists s.net p = true) (up : (portAt s.net p).up = true) :
    Runs (.pfcFrame p q n) s fun t => mget (portAt t.net p).paused q =
      if n = 0 then none else some (s.io.now + ceilDiv (n.toNat * 512) (modeSpeed s.net.mode)) := by
  refine ⟨_, rfl, ?_⟩
  have zero : n.toNat = 0 ↔ n = 0 := BitVec.toNat_eq (y := 0#16).symm
  simp only [onWire_net, wireOf_net, defined, up, running, Bool.not_false, Bool.and_self, if_true, pauseQueue_paused,
    wireOf_io, zero]

/-- R221: a pause that runs out is gone, no earlier than its end. -/
theorem pfcPauseExpiry_ends (p : PortNo) (q : Fin 8) (e : Nat) (s : State) (paused : mget (portAt s.net p).paused q = some e) :
    Runs (.pfcPauseExpiry p q) s fun t => mget (portAt t.net p).paused q = none ∧ e ≤ t.io.now := by
  refine ⟨_, rfl, ?_⟩
  simp only [onWire_net, onWire_io, pauseEnds, wireOf_net, paused, pauseQueue_paused, pauseQueue_now, wireOn_io, reach_now,
    if_true, true_and]
  exact Nat.le_max_right _ _

/-- An XOFF leaves the port and holds from the instant it left. -/
theorem sendPfc_xoff (p q quanta : Nat) (w : Wire) (off : quanta ≠ 0) :
    (sendPfc p q quanta w).io.sent = .pfc p q quanta :: w.io.sent ∧
      mget (portAt (sendPfc p q quanta w).net p).xoff q = some (sendPfc p q quanta w).io.now := by
  refine ⟨rfl, ?_⟩
  simp only [sendPfc, wireOnNet_net, portAt_portPut_same, off, if_false]
  exact mget_mput_same _ _ _

/-- R221: an XOFF that still holds is sent again, and holds from then. -/
theorem xoffRefresh_sends (p : PortNo) (q : Fin 8) (e : Nat) (s : State) (holds : mget (portAt s.net p).xoff q = some e) :
    Runs (.xoffRefresh p q) s fun t => t.last = some (.pfc p q 0xFFFF) ∧ mget (portAt t.net p).xoff q = some t.io.now := by
  refine ⟨_, rfl, ?_⟩
  simp only [State.last, onWire_net, onWire_io, refreshXoff, wireOf_net, holds]
  refine (sendPfc_xoff p q 0xFFFF _ (by decide)).imp_left fun sent => ?_
  rw [sent]; rfl

/-! ### Egress (R221, R222) -/

/-- A transmit entry learns when its frame left, and nothing is sent for it. -/
@[simp] theorem txLeft_sent (tx : Option (Nat × Nat)) (at_ : Nat) (io : Io) : (txLeft tx at_ io).sent = io.sent := by
  simp only [txLeft]
  split
  · rfl
  · split <;> rfl

/-- The head of the queue picked leaves as a frame, and the rest of the queue stays. -/
theorem egressSend_sends (p q : Nat) (k : Pkt) (r : List Pkt) (w : Wire) (running : w.net.frozen = false)
    (up : (portAt w.net p).up = true) (picked : egressPick (portAt w.net p) w.io.now = some q)
    (queue : mgetD (portAt w.net p).egress q [] = k :: r) (whole : w.net.damaged.contains k.handle = false) :
    (egressSend p w).io.sent = .frame p q k.frame :: w.io.sent ∧
      mgetD (portAt (egressSend p w).net p).egress q [] = r := by
  simp only [egressSend, running, up, picked, queue, whole, Bool.not_true, Bool.or_self, Bool.false_eq_true, if_false,
    wireOnNet_io, wireOn_io, txLeft_sent, emit_sent, wireOnNet_net, portAt_portPut_same, true_and]
  split
  next last => simpa [mgetD] using last.symm
  next => exact mgetD_mput_same _ _ _ _

/-- R221, R222: the head of the highest unpaused priority is transmitted. -/
theorem egressTransmit_sends (p : PortNo) (q : Nat) (k : Pkt) (r : List Pkt) (s : State) (running : s.net.frozen = false)
    (up : (portAt s.net p).up = true) (picked : egressPick (portAt s.net p) s.io.now = some q)
    (queue : mgetD (portAt s.net p).egress q [] = k :: r) (whole : s.net.damaged.contains k.handle = false) :
    Runs (.egressTransmit p) s fun t => t.last = some (.frame p q k.frame) ∧ mgetD (portAt t.net p).egress q [] = r := by
  refine ⟨_, rfl, ?_⟩
  refine (egressSend_sends p q k r (wireOf s) running up picked queue whole).imp_left fun sent => ?_
  rw [State.last, onWire_io, sent]; rfl

/-! ### Links of ports (R242, R243) -/

/-- The port as R243 leaves it, whatever the drops and the report count. -/
theorem portAt_linkDownPort (p : Nat) (w : Wire) :
    portAt (linkDownPort p w).net p =
      { portAt w.net p with up := false, training := true, paused := [], xoff := [], egress := [] } := by
  rw [linkDownPort, portReport_net, countedDrops_net, wireOnNet_net, portAt_portPut_same]

/-- R243: a link that goes down ends the port's pauses and empties its egress queues. -/
theorem portLinkDown_empties (p : PortNo) (s : State) (up : (portAt s.net p).up = true) :
    Runs (.portLinkDown p) s fun t =>
      (portAt t.net p).up = false ∧ (portAt t.net p).egress = [] ∧ (portAt t.net p).paused = [] := by
  refine ⟨_, rfl, ?_⟩
  simp only [onWire_net, wireOf_net, up, if_true, portAt_linkDownPort, and_self]

/-- R242: a port that may run, none of its lanes tested (R585), comes up. -/
theorem portLinkUp_comesUp (p : PortNo) (s : State) (may : portMayRun (wireOf s) s.start.stage p = true)
    (untested : lanesTested s.dbg (fun l => laneKind l == some 0 && laneEthPort s.net l == p.val) = false) :
    Runs (.portLinkUp p) s fun t => (portAt t.net p).up = true := by
  refine ⟨_, rfl, ?_⟩
  simp only [onWire_net, wireOf_net, may, untested, Bool.not_false, Bool.and_self, if_true, portReport_net, wireOnNet_net,
    portAt_portPut_same]

/-- Settles O20, command by command. -/
theorem portsRun : Obligations.PortsRun :=
  ⟨macFrameReceived_enters, macFrameReceived_badFec_counted, pfcFrame_pauses, pfcPauseExpiry_ends, xoffRefresh_sends,
    egressTransmit_sends, portLinkDown_empties, portLinkUp_comesUp⟩

end Sys2Proof.Proofs

/-!
SUPPORT. Proofs of the statement about plates, pinned rules and counters (O23).
-/

namespace Sys2Proof.Proofs
open Sys2Proof Sys2Proof.Machine

@[simp] theorem onWire_pipe (f : Wire → Wire) (s : State) : (onWire f s).pipe = (f (wireOf s)).pipe := rfl
@[simp] theorem wireOf_pipe (s : State) : (wireOf s).pipe = s.pipe := rfl
@[simp] theorem wireOn_pipe (f : Io → Io) (w : Wire) : (w.on f).pipe = w.pipe := rfl

/-! ### BUSY of a PF0's load engine (R270) -/

/-- Bit 0 of PIPE_LOAD_STATUS of the PF0 on each link. -/
def loadBusy (io : Io) (l : LinkNo) : Bool := regBit .pipeLoadStatus (4 * l.val) 0 io

theorem regBit_regOn_zero (r : RegName) (u : Nat) (io : Io) : regBit r u 0 (regOn r u 0 io) = true := by
  simp [regBit, regOn, mask]

/-- A mailbox that shows NOTIFY, whatever its number, sets bit 3 of one register. -/
theorem loadBusy_notify (m : Nat) (io : Io) : loadBusy (regOn .mboxStatus m 3 io) = loadBusy io := by
  funext l
  by_cases same : regKey .pipeLoadStatus (4 * l.val) = regKey .mboxStatus m
  · simp [loadBusy, regBit, regOn, regSet, regGet, same, regInit, mask]
  · simp only [loadBusy, regBit, regOn, regGet_regSet_other _ _ _ _ _ _ same]

theorem loadBusy_msix (fn v : Nat) (io : Io) : loadBusy (msix fn v io) = loadBusy io :=
  ite_keeps loadBusy rfl rfl

theorem loadBusy_mboxIrq (n : Nat) (io : Io) : loadBusy (mboxIrq n io) = loadBusy io :=
  ite_keeps loadBusy rfl (ite_keeps loadBusy (loadBusy_msix _ _ io) rfl)

theorem loadBusy_noteOut (a : Assoc) (n : Note) (io : Io) : loadBusy (noteOut a n io) = loadBusy io := by
  simp only [noteOut]
  split
  · split <;> rfl
  · exact (loadBusy_mboxIrq _ _).trans (loadBusy_notify _ _)

theorem loadBusy_sendNote (k : AssocKey) (n : Note) (io : Io) : loadBusy (sendNote k n io) = loadBusy io := by
  simp only [sendNote]
  split
  · rfl
  · exact ite_keeps loadBusy (loadBusy_noteOut _ n io) (ite_keeps loadBusy rfl rfl)

theorem loadBusy_subNotify (l : List (Nat × Val)) (x : Sub) (io : Io) : loadBusy (subNotify l x io) = loadBusy io :=
  ite_keeps loadBusy rfl (loadBusy_sendNote _ _ _)

theorem loadBusy_dset (i n : Nat) (io : Io) : loadBusy (dset i n io) = loadBusy io :=
  ite_keeps loadBusy rfl (foldl_keeps loadBusy _ (fun _ _ => loadBusy_subNotify _ _ _) _ _)

theorem loadBusy_sendReq (l fn addr len : Nat) (io : Io) : loadBusy (sendReq l fn addr len io) = loadBusy io := by
  simp only [sendReq]
  refine ite_keeps loadBusy (loadBusy_dset _ _ _) ?_
  split
  · exact loadBusy_dset _ _ _
  · rename_i picked
    obtain rfl := congrArg Prod.snd picked
    rfl

theorem loadBusy_hostRead (fn addr len : Nat) (io : Io) : loadBusy (hostRead fn addr len io) = loadBusy io :=
  ite_keeps loadBusy rfl (foldl_keeps loadBusy _ (fun _ _ => loadBusy_sendReq _ _ _ _ _) _ io)

/-! ### What the report of the slots leaves (R271) -/

/-- The object that shows the live slot (08:0000). -/
def liveIdx : Nat := idx 0x080000 0

/-- `b` is `a` after other values than 08:0000 were reported: what was sent stays sent, 08:0000 and BUSY stand. -/
structure Reports (a b : Io) : Prop where
  sent : a.sent <:+ b.sent
  busy : loadBusy b = loadBusy a
  live : dget b liveIdx 0 = dget a liveIdx 0

theorem Reports.refl (a : Io) : Reports a a := ⟨List.suffix_refl _, rfl, rfl⟩

theorem Reports.trans {a b c : Io} (h : Reports a b) (g : Reports b c) : Reports a c :=
  ⟨h.sent.trans g.sent, g.busy.trans h.busy, g.live.trans h.live⟩

theorem Reports.foldl {α : Type} (f : Io → α → Io) (h : ∀ io x, Reports io (f io x)) (l : List α) (io : Io) :
    Reports io (l.foldl f io) :=
  List.foldlRecOn (motive := Reports io) l f (Reports.refl io) fun b ih x _ => ih.trans (h b x)

theorem Reports.ite {p : Prop} [Decidable p] {a b c : Io} (h : Reports a b) (g : Reports a c) :
    Reports a (if p then b else c) := by split <;> assumption

theorem reports_dset (i n : Nat) (io : Io) (other : liveIdx ≠ i) : Reports io (dset i n io) :=
  ⟨(notes_dsetV i _ io).sent, loadBusy_dset i n io, dget_dset_other i liveIdx n 0 io (by decide) other⟩

theorem reports_bump32 (obj sub : Nat) (io : Io) (other : liveIdx ≠ idx obj sub) : Reports io (bump32 obj sub io) :=
  reports_dset _ _ io other

/-- Fields of other registers than PIPE_LOAD_STATUS are shown. -/
theorem Reports.regPut {a b : Io} (h : Reports a b) (r : RegName) (hi lo v : Nat)
    (other : ∀ l : LinkNo, regKey .pipeLoadStatus (4 * l.val) ≠ regKey r 0) : Reports a (regPut r 0 hi lo v b) := by
  refine h.trans ⟨List.suffix_refl _, funext fun l => ?_, rfl⟩
  simp only [loadBusy, regBit, Machine.regPut, regGet_regSet_other _ _ _ _ _ _ (other l)]

theorem reports_modeBump (old new : Nat) (io : Io) : Reports io (modeBump old new io) :=
  Reports.ite (Reports.refl io) (reports_bump32 0x140001 0 io (by decide))

theorem reports_plateReport (p : Pipe) (io : Io) : Reports io (plateReport p io) := by
  have states (io : Io) (k : Nat) : Reports io (if dget io (idx 0x080002 (k + 1)) (if k = 0 then 5 else 0) = slotState p k
      then io else dset (idx 0x080002 (k + 1)) (slotState p k) io) :=
    Reports.ite (Reports.refl io) (reports_dset _ _ io (by simp only [liveIdx, idx]; omega))
  simp only [plateReport]
  refine Reports.trans ?_ (Reports.foldl _ states _ _)
  exact (((reports_modeBump _ _ io).regPut _ _ _ _ (by decide)).regPut _ _ _ _ (by decide)).regPut _ _ _ _ (by decide)

/-! ### The states of slots (R266) -/

theorem slotState_of_set (p q : Pipe) (k n : Nat) (states : q.states = p.states.set k n) (known : k < p.states.length) :
    slotState q k = n := by
  simp [slotState, states, known]

theorem slotState_withOps (p : Pipe) (l : List LoadOp) (k : Nat) : slotState { p with ops := l } k = slotState p k := rfl

/-- A slot in a state other than FREE is one of the slots. -/
theorem slot_known {p : Pipe} {k : Nat} (used : slotState p k ≠ 0) : k < p.states.length := by
  refine Nat.lt_of_not_le fun beyond => used ?_
  rw [slotState, List.getElem?_eq_none beyond]; rfl

theorem slotState_freeSlot (k : Nat) (p : Pipe) : slotState (freeSlot k p) k = 0 := by
  by_cases known : k < p.states.length
  · exact slotState_of_set p _ k 0 rfl known
  · simp [slotState, freeSlot, clearMarks, known]

/-- R272: only a DRAINING slot becomes FREE. -/
theorem slotState_slotDrained (old k : Nat) (w : Wire) (notDraining : slotState w.pipe k ≠ 4) :
    slotState (slotDrained old w).pipe k = slotState w.pipe k := by
  simp only [slotDrained]
  split
  next drained =>
    have other : old ≠ k := by
      rintro rfl
      simp_all
    simp [slotState, List.getElem?_set_ne other]
  next => rfl

@[simp] theorem slotDrained_live (old : Nat) (w : Wire) : (slotDrained old w).pipe.live = w.pipe.live :=
  ite_keeps (fun w : Wire => w.pipe.live) rfl rfl

theorem reports_slotDrained (old : Nat) (w : Wire) : Reports w.io (slotDrained old w).io := by
  simp only [slotDrained]
  split
  · dsimp only; exact reports_plateReport _ _
  · exact Reports.refl _

/-! ### Records of a load list leave the engine's queue (R268) -/

theorem putEntry_ops (store k : Nat) (b : Bytes) (p : Pipe) : (putEntry store k b p).ops = p.ops := by
  simp only [putEntry]; split <;> rfl

theorem applyRec_ops (r body : Bytes) (p : Pipe) : (applyRec r body p).ops = p.ops := by
  simp only [applyRec]
  refine ite_keeps Pipe.ops ?_ (foldl_keeps Pipe.ops _ (fun p _ => putEntry_ops _ _ _ p) _ p)
  exact ite_keeps Pipe.ops rfl rfl

theorem loadFrom_ops (list : Bytes) (fuel o : Nat) (p : Pipe) : (loadFrom list fuel o p).2.ops = p.ops := by
  induction fuel generalizing o p with
  | zero => rfl
  | succ fuel ih =>
    simp only [loadFrom]
    split
    · rfl
    · split
      · rfl
      · exact (ih _ _).trans (applyRec_ops _ _ p)

/-! ### Operations of the load engine (R270) -/

theorem opTake_idle (o : LoadOp) (w : Wire) (idle : w.pipe.ops = []) :
    (opTake o w).pipe = { (opStart o w.pipe).2 with ops := [(opStart o w.pipe).1] } := by
  simp [opTake, idle]

/-- An accepted operation runs or waits. -/
theorem opTake_queues (o : LoadOp) (w : Wire) : (opTake o w).pipe.ops.length = w.pipe.ops.length + 1 := by
  simp only [opTake]
  split
  next idle => simp [List.isEmpty_iff.mp idle]
  next => simp

theorem reports_opTake (o : LoadOp) (w : Wire) : Reports w.io (opTake o w).io := by
  simp only [opTake]
  split
  · dsimp only; exact reports_plateReport _ _
  · exact Reports.refl _

/-- A LOAD that starts applies its list. -/
theorem opStart_load (o : LoadOp) (b : Bytes) (p : Pipe) (sound : o.res.cause = 0) (load : o.op = 1) (list : o.list = some b) :
    (opStart o p).2 = (loadList b p).2 := by
  simp [opStart, sound, load, list]

/-- A RELEASE that starts frees its slot. -/
theorem opStart_release (o : LoadOp) (p : Pipe) (sound : o.res.cause = 0) (release : o.op = 3) (ready : slotState p o.slot = 2) :
    (opStart o p).2 = freeSlot o.slot p := by
  simp [opStart, sound, release, ready]

/-- The operation a LOAD from the registers of PF0 on link `l` becomes. -/
def regsLoad (l : LinkNo) (slot : Fin 4) (b : Bytes) (io : Io) : LoadOp :=
  { origin := 0, op := 1, slot := slot, list := some (b.take (regField .pipeLoadLen (4 * l.val) 26 0 io)), fn := 4 * l.val
    res := ⟨0, 0, 0, 0⟩ }

/-- The registers as a LOAD begins: BUSY is set and the list is read. -/
def loadBegun (l : LinkNo) (io : Io) : Io :=
  hostRead (4 * l.val) (regField .pipeLoadAddr (4 * l.val) 63 6 io * 64) (regField .pipeLoadLen (4 * l.val) 26 0 io)
    (regOn .pipeLoadStatus (4 * l.val) 0 io)

theorem loadBusy_loadBegun (l : LinkNo) (io : Io) : loadBusy (loadBegun l io) l = true := by
  rw [loadBegun, loadBusy_hostRead]; exact regBit_regOn_zero _ _ io

theorem opRegs_load (l : LinkNo) (slot : Fin 4) (b : Bytes) (w : Wire) (idle : loadBusy w.io l = false)
    (short : regField .pipeLoadLen (4 * l.val) 26 0 w.io ≤ 2 ^ 26) :
    opRegs 3 1 (4 * l.val) slot (some b) w = opTake (regsLoad l slot b w.io) (w.on (loadBegun l)) := by
  have fits : decide (2 ^ 26 < regField .pipeLoadLen (4 * l.val) 26 0 w.io) = false := decide_eq_false (Nat.not_lt.mpr short)
  simp only [loadBusy] at idle
  simp only [opRegs, idle, fits, Bool.and_false, Bool.false_eq_true, if_false, Nat.lt_irrefl, decide_true, Bool.and_true, if_true]
  rfl

/-- R268, R270: a LOAD from the registers of PF0 while its engine is idle. -/
theorem plateLoad_regs (l : LinkNo) (slot : Fin 4) (b : Bytes) (s : State) (stage : s.start.stage = 3) (empty : s.pipe.ops = [])
    (idle : regBit .pipeLoadStatus (4 * l) 0 s.io = false) (short : regField .pipeLoadLen (4 * l) 26 0 s.io ≤ 2 ^ 26) :
    Runs (.plateLoad (.regs l slot) (some b)) s fun t => regBit .pipeLoadStatus (4 * l) 0 t.io = true ∧ t.pipe.ops.length = 1 ∧
      { t.pipe with ops := [] } = (loadList (b.take (regField .pipeLoadLen (4 * l) 26 0 s.io)) s.pipe).2 := by
  refine ⟨_, rfl, ?_⟩
  have taken := opRegs_load l slot b (wireOf s) idle short
  have applied := opStart_load (regsLoad l slot b s.io) _ s.pipe rfl rfl rfl
  have queue : (loadList (b.take (regField .pipeLoadLen (4 * l) 26 0 s.io)) s.pipe).2.ops = [] := (loadFrom_ops _ _ _ _).trans empty
  simp only [stage, opFrom, onWire_io, onWire_pipe, taken]
  refine ⟨?_, ?_, ?_⟩
  · exact (congrFun (reports_opTake _ _).busy l).trans (loadBusy_loadBegun l s.io)
  · rw [opTake_queues, wireOn_pipe, wireOf_pipe, empty]; rfl
  · rw [opTake_idle _ _ empty, wireOn_pipe, wireOf_pipe, wireOf_io, applied, ← queue]

/-! ### The load engine's commands (R269, R270) -/

/-- The operation a write of 08:0021 by another than the firmware becomes. -/
def cmdOp (op : Nat) (slot : Fin 4) (io : Io) : LoadOp :=
  { origin := 1, op := op, slot := slot, list := some (dgetB io (idx 0x080020 0)), fn := 0, res := ⟨0, 0, 0, 0⟩ }

/-- The argument of 08:0021 that names an operation and a slot. -/
def opArg (op : Nat) (slot : Fin 4) : Bytes := [BitVec.ofNat 8 op, BitVec.ofNat 8 slot, 0, 0]

theorem opArg_fields (op : Nat) (slot : Fin 4) (small : op ≤ 3) :
    field (opArg op slot) 0 1 = op ∧ field (opArg op slot) 1 1 = slot ∧ field (opArg op slot) 2 1 = 0 ∧
      field (opArg op slot) 3 1 = 0 := by
  have opByte : op % 256 = op := Nat.mod_eq_of_lt (by omega)
  have slotByte : slot.val % 256 = slot.val := Nat.mod_eq_of_lt (by omega)
  simp [opArg, field, slice, leVal, opByte, slotByte]

/-- An issuer may start an operation of the load engine: its write passes the gate, no other runs, and it is not the
firmware. -/
structure MayOperate (b : Issuer) (s : State) : Prop where
  allowed : s.allows b 0x080021
  free : cmdRuns s.io 0x080021 = false
  notFirmware : principalOf b.assoc.binding ≠ .f

theorem opCmd_accepted (op : Nat) (slot : Fin 4) (b : Issuer) (s : State) (named : 1 ≤ op) (small : op ≤ 3)
    (may : MayOperate b s) :
    opCmd s.start.stage b (opArg op slot) (wireOf s) = opTake (cmdOp op slot s.io) ((wireOf s).on (beginCmd b 0x080021)) := by
  obtain ⟨allowed, free, notFirmware⟩ := may
  obtain ⟨opField, slotField, listField, lastField⟩ := opArg_fields op slot small
  have length : (opArg op slot).length = 4 := rfl
  have notBelow : ¬ op < 1 := Nat.not_lt.mpr named
  have notAbove : ¬ 3 < op := Nat.not_lt.mpr small
  have known : ¬ 3 < slot.val := by omega
  simp only [State.allows] at allowed
  simp [opCmd, allowed, free, notFirmware, opField, slotField, listField, lastField, length, notBelow, notAbove, known, cmdOp]

/-- 08:0021 with a well-formed argument is answered IN_PROGRESS, and its operation is queued. -/
theorem opCmd_runs (op : Nat) (slot : Fin 4) (b : Issuer) (s : State) (named : 1 ≤ op) (small : op ≤ 3) (may : MayOperate b s) :
    told (onWire (opCmd s.start.stage b (opArg op slot)) s) b 0x080021 9 ∧
      (onWire (opCmd s.start.stage b (opArg op slot)) s).pipe.ops.length = s.pipe.ops.length + 1 := by
  have accepted := opCmd_accepted op slot b s named small may
  constructor
  · refine ⟨[], (?_ : _ ∈ (onWire _ s).io.sent)⟩
    rw [onWire_io, accepted]
    exact (reports_opTake _ _).sent.subset List.mem_cons_self
  · rw [onWire_pipe, accepted]; exact opTake_queues _ _

/-- R266: a RELEASE that starts at once frees its slot. -/
theorem opCmd_release_frees (slot : Fin 4) (b : Issuer) (s : State) (may : MayOperate b s) (empty : s.pipe.ops = [])
    (ready : slotState s.pipe slot = 2) : slotState (onWire (opCmd s.start.stage b (opArg 3 slot)) s).pipe slot = 0 := by
  have released := opStart_release (cmdOp 3 slot s.io) s.pipe rfl rfl ready
  rw [onWire_pipe, opCmd_accepted 3 slot b s (by decide) (by decide) may, opTake_idle _ _ empty]
  simp only [wireOn_pipe, wireOf_pipe, released]
  exact slotState_freeSlot slot s.pipe

/-- R270: LOAD, PREPARE and RELEASE by 08:0021. -/
theorem plateCommands_accepted (b : Issuer) (slot : Fin 4) (s : State) (allowed : s.allows b 0x080021)
    (free : cmdRuns s.io 0x080021 = false) (notFirmware : principalOf b.assoc.binding ≠ .f) :
    Runs (.plateLoad (.cmd b [1, BitVec.ofNat 8 slot, 0, 0]) none) s (fun t => told t b 0x080021 9 ∧
      t.pipe.ops.length = s.pipe.ops.length + 1) ∧
    Runs (.platePrepare (.cmd b [2, BitVec.ofNat 8 slot, 0, 0])) s (fun t => told t b 0x080021 9 ∧
      t.pipe.ops.length = s.pipe.ops.length + 1) ∧
    Runs (.plateRelease (.cmd b [3, BitVec.ofNat 8 slot, 0, 0])) s (fun t => told t b 0x080021 9 ∧
      (s.pipe.ops = [] → slotState s.pipe slot = 2 → slotState t.pipe slot = 0)) := by
  have may : MayOperate b s := ⟨allowed, free, notFirmware⟩
  refine ⟨⟨_, rfl, ?load⟩, ⟨_, rfl, ?prepare⟩, ⟨_, rfl, ?release⟩⟩
  case load => exact opCmd_runs 1 slot b s (by decide) (by decide) may
  case prepare => exact opCmd_runs 2 slot b s (by decide) (by decide) may
  case release => exact ⟨(opCmd_runs 3 slot b s (by decide) (by decide) may).1, opCmd_release_frees slot b s may⟩

/-- R269: PREPARE finds no failure, and its slot is READY. -/
theorem prepare_sound (k : Nat) (w : Wire) (sound : (plateOf w.net w.pipe k).fails = []) (known : k < w.pipe.states.length) :
    slotState (prepare k w).2.pipe k = 2 := by
  simp only [prepare, sound, List.isEmpty_nil, if_true]
  exact slotState_of_set w.pipe _ k 2 rfl known

/-- The end of a PREPARE that stands alone in the queue. -/
theorem opDone_prepare (o : LoadOp) (w : Wire) (alone : w.pipe.ops = [o]) (prepares : o.op = 2) (runs : o.res.cause = 0) :
    (opDone w).pipe = { (prepare o.slot w).2.pipe with ops := [] } := by
  simp [opDone, alone, prepares, runs]

theorem plateOpDone_ready (o : LoadOp) (s : State) (alone : s.pipe.ops = [o]) (prepares : o.op = 2) (runs : o.res.cause = 0)
    (sound : (plateOf s.net s.pipe o.slot).fails = []) (known : o.slot < s.pipe.states.length) :
    Runs .plateOpDone s fun t => slotState t.pipe o.slot = 2 ∧ t.pipe.ops = [] := by
  refine ⟨_, rfl, ?_⟩
  simp only [onWire_pipe, opDone_prepare o (wireOf s) alone prepares runs]
  exact ⟨(slotState_withOps _ _ _).trans (prepare_sound o.slot (wireOf s) sound known), trivial⟩

/-! ### The commit (R271) -/

/-- The wire once slot `k` is LIVE and the slot that was is DRAINING. -/
def committed (k : Nat) (w : Wire) : Wire :=
  let g : Half := if w.pipe.liveGen = 0xFFFF then 1 else w.pipe.liveGen + 1
  let p := { w.pipe with states := (w.pipe.states.set w.pipe.live 4).set k 3, live := k, liveGen := g }
  { w with io := bump32 0x080010 0 (dset liveIdx k (dset (idx 0x080001 0) g.toNat (plateReport p w.io))), pipe := p }

theorem commit_ready (k : Nat) (w : Wire) (ready : slotState w.pipe k = 2) :
    (commit 3 k w).2 =
      { slotDrained w.pipe.live (committed k w) with
        io := plateReport (slotDrained w.pipe.live (committed k w)).pipe (slotDrained w.pipe.live (committed k w)).io } := by
  simp only [commit, ready, Nat.lt_irrefl, if_false, if_true, ne_eq, not_true_eq_false]
  rfl

theorem committed_live (k : Nat) (w : Wire) : dget (committed k w).io liveIdx 0 = k := by
  simp only [committed]
  rw [(reports_bump32 0x080010 0 _ (by decide)).live, dget_dset_same liveIdx k 0 _ (by decide)]

theorem slotState_committed (k : Nat) (w : Wire) (ready : slotState w.pipe k = 2) : slotState (committed k w).pipe k = 3 := by
  have known : k < w.pipe.states.length := slot_known (by simp [ready])
  simp [slotState, committed, known]

/-- R271: a commit of a READY slot makes it LIVE. -/
theorem plateCommit_live (l : LinkNo) (slot : Fin 4) (s : State) (stage : s.start.stage = 3) (ready : slotState s.pipe slot = 2) :
    Runs (.plateCommit (.regs l slot)) s fun t => slotState t.pipe slot = 3 ∧ t.pipe.live = slot ∧ t.num 0x080000 0 = slot := by
  refine ⟨_, rfl, ?_⟩
  have made := slotState_committed slot (wireOf s) ready
  simp only [State.num, onWire_pipe, onWire_io, commitFrom, stage, commit_ready _ (wireOf s) ready]
  refine ⟨?_, ?_, ?_⟩
  · exact (slotState_slotDrained _ _ _ (by simp [made])).trans made
  · exact slotDrained_live _ _
  · exact ((reports_slotDrained _ _).trans (reports_plateReport _ _)).live.trans (committed_live slot (wireOf s))

/-! ### Pinned rules (R273 to R275) -/

/-- What every write establishes holds of each pinned slot written. -/
theorem pins_written (q : Pin → Prop) (f : Pin → Pin) (writes : ∀ p, q (f p)) (k : Nat) (rs : List Nat)
    (m : List (Nat × Pin)) (r : Nat) (h : r ∈ rs ∨ q (mgetD m (pinKey r k) Pin.reset)) :
    q (mgetD (rs.foldl (fun m r => mupd m (pinKey r k) Pin.reset f) m) (pinKey r k) Pin.reset) := by
  induction rs generalizing m with
  | nil => exact h.resolve_left List.not_mem_nil
  | cons j js ih =>
    refine ih _ ?_
    by_cases own : pinKey r k = pinKey j k
    · right; rw [own, mgetD_mupd_same]; exact writes _
    · rw [mgetD_mupd_other m _ _ f own]
      exact h.imp_left fun mem => (List.mem_cons.mp mem).resolve_left fun same => own (by rw [same])

/-- A control write leaves VALID as given for every pipeline of its mask. -/
theorem pinControl_valid (mask k : Nat) (v : Bool) (w : Wire) (r : Nat) (named : r ∈ bitsOf 4 mask) :
    (pinAcc (pinControl mask k v w).pipe r k).valid = v :=
  pins_written (fun p => p.valid = v) _ (fun _ => rfl) k _ _ r (.inl named)

/-- R274: a body write where no slot of the mask is VALID is accepted. -/
theorem pinnedWrite_body (l : LinkNo) (k : Fin 64) (off : Nat) (b : Bytes) (s : State) (body : off < 0x60)
    (invalid : (bitsOf 4 (regField .pipePinMask (4 * l) 3 0 s.io)).any (fun r => (pinAcc s.pipe r k).valid) = false) :
    Runs (.pinnedWrite l k off b) s fun t => t.pipe.pinQ.length = s.pipe.pinQ.length + 1 ∧
      regBit .pipePinStatus 0 0 t.io = true := by
  refine ⟨_, rfl, ?_⟩
  have inBody : ¬ 0x78 ≤ off := by omega
  simp only [onWire_pipe, onWire_io, pinnedWrite, inBody, wireOf_io, wireOf_pipe, invalid, if_false, Bool.false_eq_true, pinBody,
    pinAccept]
  exact ⟨List.length_append, regBit_regOn_zero _ _ _⟩

/-- R274: a control write of 0 takes VALID away. -/
theorem pinnedWrite_clears (l : LinkNo) (k : Fin 64) (b : Byte) (s : State) (zero : b.getLsbD 0 = false) :
    Runs (.pinnedWrite l k 0x78 [b]) s fun t =>
      ∀ r ∈ bitsOf 4 (regField .pipePinMask (4 * l) 3 0 s.io), (pinAcc t.pipe r k).valid = false := by
  refine ⟨_, rfl, fun r named => ?_⟩
  have bit : (field [b] 0 1).testBit 0 = false := by simpa [field, slice, leVal, BitVec.getLsbD] using zero
  have cleared : pinnedWrite (4 * l.val) k 0x78 [b] (wireOf s) =
      pinControl (regField .pipePinMask (4 * l.val) 3 0 s.io) k false (wireOf s) := by
    simp only [pinnedWrite, bit]; rfl
  rw [onWire_pipe, cleared]
  exact pinControl_valid _ _ _ _ r named

/-- R274: a region applies the oldest write it has not applied. -/
theorem pinnedApply_applies (r : RegionNo) (x : PinWrite) (s : State)
    (oldest : s.pipe.pinQ.find? (fun x => x.mask.testBit r) = some x) :
    Runs (.pinnedApply r) s fun t => pinAt t.pipe r x.slot =
      match x.valid with
      | some v => { pinAt s.pipe r x.slot with valid := v }
      | none => { pinAt s.pipe r x.slot with body := splice (pinAt s.pipe r x.slot).body x.off x.bytes } := by
  refine ⟨_, rfl, ?_⟩
  cases kind : x.valid <;> simp only [onWire_pipe, pinApply, wireOf_pipe, oldest, pinAt, mgetD_mupd_same, kind]

/-- R275: 08:0030 with a well-formed rule that asks for VALID is answered OK and leaves it VALID. -/
theorem pinWrite_valid (b : Issuer) (arg : Bytes) (s : State) (allowed : s.allows b 0x080030) (length : arg.length = 132)
    (known : field arg 0 1 ≤ 63) (region : 1 ≤ field arg 1 1) (four : field arg 1 1 ≤ 15) (reserved : field arg 2 2 = 0)
    (asked : field arg 0x7C 8 = 1) (formed : pinBad s.net (slice arg 4 0x78) = false) :
    Runs (.pinWrite b arg) s fun t => told t b 0x080030 0 ∧
      ∀ r ∈ bitsOf 4 (field arg 1 1), (pinAcc t.pipe r (field arg 0 1)).valid = true := by
  refine ⟨_, rfl, ?_⟩
  have written : pinCmd s.start.stage b arg (wireOf s) =
      (pinControl (field arg 1 1) (field arg 0 1) true (pinBody (field arg 1 1) (field arg 0 1) 0 (slice arg 4 0x78)
        (pinControl (field arg 1 1) (field arg 0 1) false (wireOf s)))).on (answer b (idx 0x080030 0) 0 []) := by
    have noSlot : ¬ 63 < field arg 0 1 := Nat.not_lt.mpr known
    have noMask : ¬ 15 < field arg 1 1 := Nat.not_lt.mpr four
    have someMask : field arg 1 1 ≠ 0 := Nat.one_le_iff_ne_zero.mp region
    simp only [State.allows] at allowed
    simp [pinCmd, allowed, length, noSlot, noMask, someMask, reserved, asked, formed]
  refine ⟨⟨[], (?_ : _ ∈ (onWire _ s).io.sent)⟩, fun r named => ?_⟩
  · rw [onWire_io, written]; exact List.mem_cons_self
  · rw [onWire_pipe, written]; exact pinControl_valid _ _ _ _ r named

/-! ### Counters (R278) -/

/-- Keys deleted in turn are absent. -/
theorem mget_mdels {α : Type} (key : Nat → Nat) (rs : List Nat) (m : List (Nat × α)) (r : Nat)
    (h : r ∈ rs ∨ mget m (key r) = none) : mget (rs.foldl (fun m r => mdel m (key r)) m) (key r) = none := by
  induction rs generalizing m with
  | nil => exact h.resolve_left List.not_mem_nil
  | cons j js ih =>
    refine ih _ ?_
    by_cases own : key r = key j
    · right; rw [own]; exact mget_mdel_same _ _
    · rw [mget_mdel_other m own]
      exact h.imp_left fun mem => (List.mem_cons.mp mem).resolve_left fun same => own (by rw [same])

/-- R278: a counter cleared holds nothing in any region. -/
theorem counterClear_clears (b : Issuer) (n : Half) (s : State) (allowed : s.allows b 0x080101) (known : n.toNat < 8192) :
    Runs (.counterClear b n) s fun t => told t b 0x080101 0 ∧ ∀ r < 4, mget t.pipe.counters (r * 8192 + n.toNat) = none := by
  refine ⟨_, rfl, ?_⟩
  have counted : ¬ 8192 ≤ n.toNat := Nat.not_le.mpr known
  simp only [State.allows] at allowed
  simp only [told, toldWith, onWire_io, onWire_pipe, counterClear, wireOf_io, allowed, counted, if_false]
  exact ⟨⟨[], List.mem_cons_self⟩, fun r region =>
    mget_mdels (fun r => r * 8192 + n.toNat) _ _ r (.inl (List.mem_range.mpr region))⟩

/-- Settles O23, command by command. -/
theorem platesRun : Obligations.PlatesRun :=
  ⟨plateLoad_regs, plateCommands_accepted, plateOpDone_ready, plateCommit_live, pinnedWrite_body, pinnedWrite_clears,
    pinnedApply_applies, pinWrite_valid, counterClear_clears⟩

end Sys2Proof.Proofs

/-!
SUPPORT. Proofs of the statements about learning (O25), table-command lists (O26) and the proof pass (O27).
-/

namespace Sys2Proof.Proofs
open Sys2Proof Sys2Proof.Machine

/-! ### A received learn message counted twice (R300)

A malformed learn message is counted in 09:0035.02 and journalled (R300), and the journal's first entry raises event 0x1201
(R568). As in `strayState`, that event reads the control block of a full completion ring again, the read waits for a tag, and
the wait is counted in the element of 04:0023 that the link's number names (R158). Here that number is so large that the
element has the index of 09:0035.02 itself. The statement asks nothing of the link numbers of its state. -/

/-- The link number whose element of 04:0023 is indexed as 09:0035.02 is. -/
def learnLink : Nat := idx 0x090035 2 - idx 0x040023 1

/-- A learn message cut off before its header. -/
def cutMessage : Pkt := newPkt 0 0 0 0 [] none 0

/-- `strayState` with PF 1 on `learnLink`, and a malformed learn message received. -/
def learnState : State :=
  { strayState with
    net := { strayState.net with learnRx := [cutMessage] }
    io := { strayState.io with
      host := { strayState.io.host with
        pfPort := [0, learnLink, 0, 0]
        links := [(learnLink, { Link.reset with up := true, reqs := outstanding })] } } }

/-- One message received: 09:0035.02 goes from 0 to 2. -/
theorem learnFrameReceived_counts_twice :
    learnState.num 0x090035 2 = 0 ∧ Runs .learnFrameReceived learnState fun t => t.num 0x090035 2 = 2 :=
  ⟨by decide +kernel, _, rfl, by decide +kernel⟩

/-- Refutes O25: from `learnState` one learn message received adds 2 to its count, where the statement claims 1. -/
theorem not_learningRuns : ¬ Obligations.LearningRuns := by
  unfold Obligations.LearningRuns
  rintro ⟨-, -, -, received, -⟩
  obtain ⟨t, run, -, once⟩ := received cutMessage [] learnState rfl
  obtain ⟨zero, u, run', twice⟩ := learnFrameReceived_counts_twice
  obtain rfl : u = t := Host.Outcome.next.inj (run'.symm.trans run)
  rw [zero, twice] at once
  exact absurd once (by decide)

/-! ### What reads back of the tables -/

@[simp] theorem onWire_tabs (f : Wire → Wire) (s : State) : (onWire f s).tabs = (f (wireOf s)).tabs := rfl
@[simp] theorem wireOf_tabs (s : State) : (wireOf s).tabs = s.tabs := rfl
@[simp] theorem wireOn_tabs (f : Io → Io) (w : Wire) : (w.on f).tabs = w.tabs := rfl

/-! ### Registers that a notification leaves (R112, R116, R148) -/

/-- A reading of the registers that does not tell whether a mailbox shows NOTIFY. -/
structure BlindToNotify {γ : Type} (p : Io → γ) : Prop where
  regsOnly : ∀ a b : Io, b.regs = a.regs → p b = p a
  notified : ∀ m io, p (regOn .mboxStatus m 3 io) = p io

namespace BlindToNotify
variable {γ : Type} {p : Io → γ} (blind : BlindToNotify p)
include blind

theorem mboxIrq (n : Nat) (io : Io) : p (Machine.mboxIrq n io) = p io :=
  ite_keeps p rfl (ite_keeps p (ite_keeps p (blind.regsOnly _ _ rfl) (blind.regsOnly _ _ rfl)) (blind.regsOnly _ _ rfl))

theorem noteOut (a : Assoc) (n : Note) (io : Io) : p (Machine.noteOut a n io) = p io := by
  simp only [Machine.noteOut]
  split
  · exact blind.regsOnly _ _ (by split <;> rfl)
  · exact ((blind.mboxIrq _ _).trans (blind.notified _ _)).trans (blind.regsOnly _ _ rfl)

theorem sendNote (k : AssocKey) (n : Note) (io : Io) : p (Machine.sendNote k n io) = p io := by
  simp only [Machine.sendNote]
  split
  · rfl
  · exact ite_keeps p (blind.noteOut _ n io) (ite_keeps p (blind.regsOnly _ _ rfl) (blind.regsOnly _ _ rfl))

theorem subNotify (l : List (Nat × Val)) (x : Sub) (io : Io) : p (Machine.subNotify l x io) = p io :=
  ite_keeps p (blind.regsOnly _ _ rfl) ((blind.sendNote _ _ _).trans (blind.regsOnly _ _ rfl))

theorem dset (i n : Nat) (io : Io) : p (Machine.dset i n io) = p io :=
  ite_keeps p (blind.regsOnly _ _ rfl)
    ((foldl_keeps p _ (fun _ _ => blind.subNotify _ _ _) _ _).trans (blind.regsOnly _ _ rfl))

theorem sendReq (l fn addr len : Nat) (io : Io) : p (Machine.sendReq l fn addr len io) = p io := by
  have wait (k : Link) : p (bump32 0x040023 (l + 1) (linkPut l k io)) = p io :=
    (blind.dset _ _ _).trans (blind.regsOnly _ _ rfl)
  simp only [Machine.sendReq]
  refine ite_keeps p (wait _) ?_
  split
  · exact wait _
  · rename_i picked
    obtain rfl := congrArg Prod.snd picked
    exact blind.regsOnly _ _ rfl

theorem hostRead (fn addr len : Nat) (io : Io) : p (Machine.hostRead fn addr len io) = p io :=
  ite_keeps p rfl (foldl_keeps p _ (fun _ _ => blind.sendReq _ _ _ _ _) _ io)

end BlindToNotify

/-! ### Reads of host memory (R154, R158) -/

/-- Bit 0 of TBL_CMD_STATUS of the PF0 on each link. -/
def listBusy (io : Io) (l : LinkNo) : Bool := regBit .tblCmdStatus (4 * l.val) 0 io

theorem listBusy_blind : BlindToNotify listBusy where
  regsOnly a b same := funext fun l => by simp only [listBusy, regBit, regGet, same]
  notified m io := by
    funext l
    by_cases same : regKey .tblCmdStatus (4 * l.val) = regKey .mboxStatus m
    · simp [listBusy, regBit, regOn, regSet, regGet, same, regInit, mask]
    · simp only [listBusy, regBit, regOn, regGet_regSet_other _ _ _ _ _ _ same]

/-- `b` is `a` after a unit asked for host memory: what was sent stays sent, and BUSY of the table-command lists stands. -/
structure Fetched (a b : Io) : Prop where
  sent : a.sent <:+ b.sent
  busy : listBusy b = listBusy a

theorem Fetched.refl (a : Io) : Fetched a a := ⟨List.suffix_refl _, rfl⟩

theorem sent_sendReq (l fn addr len : Nat) (io : Io) : io.sent <:+ (sendReq l fn addr len io).sent := by
  have wait (k : Link) : io.sent <:+ (bump32 0x040023 (l + 1) (linkPut l k io)).sent :=
    (notes_dsetV _ _ (linkPut l k io)).sent
  simp only [sendReq]
  split
  · exact wait _
  · split
    · exact wait _
    · rename_i picked
      obtain rfl := congrArg Prod.snd picked
      exact List.suffix_cons _ _

theorem sent_hostRead (fn addr len : Nat) (io : Io) : io.sent <:+ (hostRead fn addr len io).sent := by
  simp only [hostRead]
  split
  · exact List.suffix_refl _
  · exact List.foldlRecOn (motive := fun b => io.sent <:+ b.sent) _ _ (List.suffix_refl _)
      fun b ih x _ => ih.trans (sent_sendReq _ _ _ _ b)

theorem fetched_hostRead (fn addr len : Nat) (io : Io) : Fetched io (hostRead fn addr len io) :=
  ⟨sent_hostRead fn addr len io, listBusy_blind.hostRead fn addr len io⟩

/-! ### Bytes of a record (R302) -/

/-- A byte of a slice is read where it lies in the string, and is zero beyond its end. -/
theorem getElem?_slice (bs : Bytes) (o n i : Nat) :
    (slice bs o n)[i]? = if i < n then some ((bs[o + i]?).getD 0) else none := by
  simp only [slice, List.getElem?_append, List.getElem?_take, List.getElem?_drop, List.getElem?_replicate, List.length_take,
    List.length_drop]
  by_cases listed : i < min n (bs.length - o)
  · have inside : i < n := by omega
    have within : o + i < bs.length := by omega
    simp only [listed, inside, if_true, List.getElem?_eq_getElem within, Option.getD_some]
  · have padded : i - min n (bs.length - o) < n - min n (bs.length - o) ↔ i < n := by omega
    simp only [listed, padded, if_false]
    split
    next inside =>
      have beyond : bs.length ≤ o + i := by omega
      rw [List.getElem?_eq_none beyond]; rfl
    next => rfl

/-- A slice of a slice that lies within it. -/
theorem slice_slice (bs : Bytes) (o n a m : Nat) (within : a + m ≤ n) : slice (slice bs o n) a m = slice bs (o + a) m := by
  refine List.ext_getElem? fun i => ?_
  simp only [getElem?_slice]
  by_cases inside : i < m
  · have : a + i < n := by omega
    simp [inside, this, Nat.add_assoc]
  · simp [inside]

theorem field_slice (bs : Bytes) (o n a m : Nat) (within : a + m ≤ n) : field (slice bs o n) a m = field bs (o + a) m := by
  simp only [field, slice_slice bs o n a m within]

theorem take_slice (bs : Bytes) (o n m : Nat) (within : m ≤ n) : (slice bs o n).take m = slice bs o m := by
  refine List.ext_getElem? fun i => ?_
  simp only [List.getElem?_take, getElem?_slice]
  by_cases inside : i < m
  · have : i < n := by omega
    simp [inside, this]
  · simp [inside]

/-- A string of its full length is left as it is. -/
theorem padTo_of_length (n : Nat) (bs : Bytes) (full : bs.length = n) : padTo n bs = bs := by
  subst full; simp [padTo, slice]

theorem length_splice (bs : Bytes) (o : Nat) (x : Bytes) (within : o + x.length ≤ bs.length) :
    (splice bs o x).length = bs.length := by
  simp only [splice, List.length_append, length_slice, List.length_drop]; omega

/-! ### The tables and the engine's queue of lists (R279, R287, R304) -/

@[simp] theorem listFetch_tabs (w : Wire) : (listFetch w).tabs = w.tabs := by
  simp only [listFetch]
  split
  · rfl
  · exact ite_keeps Wire.tabs rfl rfl

theorem fetched_listFetch (w : Wire) : Fetched w.io (listFetch w).io := by
  simp only [listFetch]
  split
  · exact Fetched.refl _
  · split
    · exact fetched_hostRead _ _ _ _
    · exact Fetched.refl _

/-- The bridge table and the connection table. -/
def entries (t : Tabs) : List (Nat × BrEntry) × List (Nat × Bytes) := (t.br, t.conn)

theorem entries_listEnd (cause : Nat) (w : Wire) : entries (listEnd cause w).tabs = entries w.tabs := by
  simp only [listEnd]
  split
  · rfl
  · simp only [listFetch_tabs]; rfl

theorem entries_recDone (l : TblList) (r : Bytes) (x : RecRes) (w : Wire) : entries (recDone l r x w).tabs = entries w.tabs := by
  unfold recDone
  extract_lets res o w1 lists t w2
  have kept : entries w2.tabs = entries w.tabs := rfl
  exact (ite_keeps (fun w : Wire => entries w.tabs) (entries_listEnd 0 w2) (congrArg entries (listFetch_tabs w2))).trans kept

@[simp] theorem learnStat_tabs (v more : Nat) (w : Wire) : (learnStat v more w).tabs = w.tabs := by
  simp only [learnStat]
  split
  · rfl
  · exact ite_keeps Wire.tabs rfl rfl

@[simp] theorem brReport_tabs (v : Nat) (w : Wire) : (brReport v w).tabs = w.tabs := learnStat_tabs _ _ _

theorem brWrite_br (i : Nat) (e : BrEntry) (w : Wire) : (brWrite i e w).tabs.br = mput w.tabs.br i e := by
  simp only [brWrite]; split <;> simp

theorem brRemove_br (i : Nat) (e : BrEntry) (w : Wire) : (brRemove i e w).tabs.br = mdel w.tabs.br i := by
  simp only [brRemove, brReport_tabs]

@[simp] theorem learnQueue_br (d : Dom) (op bd : Nat) (mac : Bytes) (time : Nat) (refresh : Bool) (w : Wire) :
    (learnQueue d op bd mac time refresh w).tabs.br = w.tabs.br := ite_keeps (fun w : Wire => w.tabs.br) rfl rfl

@[simp] theorem withdraw_br (d : Dom) (e : BrEntry) (w : Wire) : (withdraw d e w).tabs.br = w.tabs.br :=
  ite_keeps (fun w : Wire => w.tabs.br) (learnQueue_br _ _ _ _ _ _ w) rfl

theorem install_br (d : Dom) (i : Nat) (e : BrEntry) (w : Wire) : (install d i e w).tabs.br = mput w.tabs.br i e :=
  ite_keeps (fun w : Wire => w.tabs.br) ((learnQueue_br _ _ _ _ _ _ _).trans (brWrite_br i e _)) (brWrite_br i e _)

/-! ### A list starts (R304, R305) -/

/-- The engine's queue once a list has joined it. -/
def listQueued (l : TblList) (w : Wire) : Wire := { w with tabs := { w.tabs with lists := w.tabs.lists ++ [l] } }

/-- A list with records that is accepted joins the queue, and the engine asks for its first record where none runs. -/
theorem listTake_queues (l : TblList) (w : Wire) (records : l.records ≠ 0) :
    listTake l w = if !w.tabs.lists.isEmpty then listQueued l w else listFetch (listQueued l w) := by
  simp only [listTake, records, if_false]; rfl

theorem listTake_lists (l : TblList) (w : Wire) (records : l.records ≠ 0) : (listTake l w).tabs.lists = w.tabs.lists ++ [l] := by
  rw [listTake_queues l w records]
  exact ite_keeps (fun w : Wire => w.tabs.lists) rfl (congrArg Tabs.lists (listFetch_tabs _))

theorem fetched_listTake (l : TblList) (w : Wire) (records : l.records ≠ 0) : Fetched w.io (listTake l w).io := by
  rw [listTake_queues l w records]
  split
  · exact Fetched.refl _
  · exact fetched_listFetch (listQueued l w)

/-- Whole records that fill some bytes are at least one. -/
theorem records_ne_zero (n : Nat) (whole : n % 128 = 0) (filled : n ≠ 0) : n / 128 ≠ 0 := by omega

/-- The list that the registers of PF0 on link `l` give. -/
def regsList (l : LinkNo) (io : Io) : TblList :=
  { origin := 0, fn := 4 * l.val, addr := regField .tblCmdAddr (4 * l.val) 63 7 io * 128
    records := regField .tblCmdLen (4 * l.val) 24 0 io / 128, done := 0 }

/-- The registers as a list of PF0 on link `l` begins: its progress is 0 and BUSY is set. -/
def listBegun (l : LinkNo) (io : Io) : Io :=
  regOn .tblCmdStatus (4 * l.val) 0 (regPut .tblCmdProgress (4 * l.val) 31 0 0 io)

theorem listRegs_takes (l : LinkNo) (w : Wire) (idle : listBusy w.io l = false)
    (whole : regField .tblCmdLen (4 * l.val) 24 0 w.io % 128 = 0) (short : regField .tblCmdLen (4 * l.val) 24 0 w.io ≤ 2 ^ 24) :
    listRegs 3 (4 * l.val) w = listTake (regsList l w.io) (w.on (listBegun l)) := by
  have fits : decide (2 ^ 24 < regField .tblCmdLen (4 * l.val) 24 0 w.io) = false := decide_eq_false (Nat.not_lt.mpr short)
  simp only [listBusy] at idle
  simp only [listRegs, idle, whole, fits, Nat.lt_irrefl, ne_eq, not_true_eq_false, decide_false, Bool.or_self, Bool.false_eq_true,
    if_false]
  rfl

/-- R304: a list from the registers of PF0 while they are not busy. -/
theorem tblListStart_regs (l : LinkNo) (s : State) (stage : s.start.stage = 3)
    (idle : regBit .tblCmdStatus (4 * l) 0 s.io = false) (whole : regField .tblCmdLen (4 * l) 24 0 s.io % 128 = 0)
    (short : regField .tblCmdLen (4 * l) 24 0 s.io ≤ 2 ^ 24) (filled : regField .tblCmdLen (4 * l) 24 0 s.io ≠ 0) :
    Runs (.tblListStart (.regs l true)) s fun t => regBit .tblCmdStatus (4 * l) 0 t.io = true ∧
      ∃ x, t.tabs.lists = s.tabs.lists ++ [x] ∧ x.records = regField .tblCmdLen (4 * l) 24 0 s.io / 128 ∧ x.done = 0 := by
  refine ⟨_, rfl, ?_⟩
  have taken := listRegs_takes l (wireOf s) idle whole short
  have records := records_ne_zero _ whole filled
  simp only [if_true, stage, onWire_io, onWire_tabs, taken]
  refine ⟨?_, regsList l s.io, listTake_lists _ _ records, rfl, rfl⟩
  exact (congrFun (fetched_listTake _ _ records).busy l).trans (regBit_regOn_zero _ _ _)

/-- The list that 09:0200 holds for another issuer than the firmware. -/
def cmdList (io : Io) : TblList :=
  { origin := 1, fn := 0, addr := 0, records := (dgetB io (idx 0x090200 0)).length / 128, done := 0 }

theorem listCmd_takes (stage : Nat) (b : Issuer) (w : Wire) (allowed : gate stage b 0x090201 w.io = none)
    (free : cmdRuns w.io 0x090201 = false) (notFirmware : principalOf b.assoc.binding ≠ .f)
    (whole : (dgetB w.io (idx 0x090200 0)).length % 128 = 0) :
    listCmd stage b [0, 0, 0, 0] w = listTake (cmdList w.io) (w.on (beginCmd b 0x090201)) := by
  have other : (principalOf b.assoc.binding == .f) = false := beq_eq_false_iff_ne.mpr notFirmware
  have length : ([0, 0, 0, 0] : Bytes).length = 4 := rfl
  have fields : field [0, 0, 0, 0] 0 1 = 0 ∧ field [0, 0, 0, 0] 1 3 = 0 := by decide
  have notSecond : ((0 : Nat) == 1) = false := rfl
  have object : listObj 1 = 0x090200 := rfl
  simp only [listCmd, allowed, free, other, length, fields, notSecond, object, whole, ne_eq, not_true_eq_false, Nat.not_lt_zero,
    decide_false, Bool.or_self, bne_self_eq_false, Bool.false_eq_true, if_false]
  rfl

/-- R305: a list by 09:0201 of another issuer than the firmware. -/
theorem tblListStart_cmd (b : Issuer) (s : State) (allowed : s.allows b 0x090201) (free : cmdRuns s.io 0x090201 = false)
    (notFirmware : principalOf b.assoc.binding ≠ .f) (whole : (s.blob 0x090200 0).length % 128 = 0)
    (filled : s.blob 0x090200 0 ≠ []) :
    Runs (.tblListStart (.cmd b [0, 0, 0, 0])) s fun t => told t b 0x090201 9 ∧
      ∃ x, t.tabs.lists = s.tabs.lists ++ [x] ∧ x.records = (s.blob 0x090200 0).length / 128 ∧ x.done = 0 := by
  refine ⟨_, rfl, ?_⟩
  have taken := listCmd_takes s.start.stage b (wireOf s) allowed free notFirmware whole
  have records : (cmdList s.io).records ≠ 0 := records_ne_zero _ whole fun none => filled (List.length_eq_zero_iff.mp none)
  refine ⟨⟨[], (?_ : _ ∈ (onWire _ s).io.sent)⟩, cmdList s.io, ?_, rfl, rfl⟩
  · rw [onWire_io, taken]; exact (fetched_listTake _ _ records).sent.subset List.mem_cons_self
  · rw [onWire_tabs, taken]; exact listTake_lists _ _ records

/-! ### Records (R302, R303) -/

/-- The next record of the running list lies in host memory, and `r` is well formed. -/
structure NextRecord (r : Bytes) (w : Wire) : Prop where
  running : ∃ l ls, w.tabs.lists = l :: ls ∧ l.origin = 0
  length : r.length = 128
  formed : recordOk r = true

/-- A record that is carried out leaves the tables as its operation leaves them. -/
theorem entries_tblStep {op : Nat} {r : Bytes} {w : Wire} (run : Bytes → Wire → RecRes × Wire) (next : NextRecord r w)
    (named : field r 0 1 = op) : entries (tblStep op run (some r) w).tabs = entries (run r w).2.tabs := by
  obtain ⟨⟨l, ls, lists, host⟩, length, formed⟩ := next
  have carried : tblStep op run (some r) w = recDone l r (run r w).1 (run r w).2 := by
    simp [tblStep, lists, host, padTo_of_length 128 r length, named, formed]
  rw [carried, entries_recDone]

theorem br_tblStep {op : Nat} {r : Bytes} {s : State} (run : Bytes → Wire → RecRes × Wire) (next : NextRecord r (wireOf s))
    (named : field r 0 1 = op) : (onWire (tblStep op run (some r)) s).tabs.br = (run r (wireOf s)).2.tabs.br :=
  congrArg Prod.fst (entries_tblStep run next named)

theorem conn_tblStep {op : Nat} {r : Bytes} {s : State} (run : Bytes → Wire → RecRes × Wire) (next : NextRecord r (wireOf s))
    (named : field r 0 1 = op) : (onWire (tblStep op run (some r)) s).tabs.conn = (run r (wireOf s)).2.tabs.conn :=
  congrArg Prod.snd (entries_tblStep run next named)

/-! ### Connection records (R289, R303) -/

/-- The entry that a connection record writes: its own, VALID. -/
def recEntry (r : Bytes) : Bytes := splice (slice r 0x10 64) 0x28 (le 1 1)

/-- A connection record whose action index and key kind are in range. -/
structure ConnRecord (r : Bytes) : Prop where
  action : field r 0x3A 3 < 16384
  kind : field r 0x35 1 = 1 ∨ field r 0x35 1 = 2

/-- The checks of CONN_INSERT and CONN_MODIFY pass. -/
theorem ConnRecord.passes {r : Bytes} (ok : ConnRecord r) :
    (decide (16384 ≤ field (slice r 0x10 64) 0x2A 3) ||
      !(field (slice r 0x10 64) 0x25 1 == 1 || field (slice r 0x10 64) 0x25 1 == 2)) = false := by
  obtain ⟨action, kind⟩ := ok
  have index : field (slice r 0x10 64) 0x2A 3 = field r 0x3A 3 := field_slice r 0x10 64 0x2A 3 (by decide)
  have key : field (slice r 0x10 64) 0x25 1 = field r 0x35 1 := field_slice r 0x10 64 0x25 1 (by decide)
  have inRange : decide (16384 ≤ field r 0x3A 3) = false := decide_eq_false (Nat.not_le.mpr action)
  have known : (field r 0x35 1 == 1 || field r 0x35 1 == 2) = true := by
    simpa only [Bool.or_eq_true, beq_iff_eq] using kind
  rw [index, key, inRange, known]; rfl

theorem recKey (r : Bytes) : (slice r 0x10 64).take 40 = slice r 0x10 40 := take_slice r 0x10 64 40 (by decide)

theorem recConnInsert_conn {r : Bytes} {w : Wire} {i : Nat} (ok : ConnRecord r) (new : connFind w.tabs (slice r 0x10 40) = none)
    (free : (connSlots (slice r 0x10 40)).find? (fun i => !connValid w.tabs i) = some i) :
    (recConnInsert r w).2.tabs.conn = mput w.tabs.conn i (recEntry r) := by
  simp only [recConnInsert, ok.passes, connInsert, recKey, new, free, Option.isSome_none, Bool.false_eq_true, if_false]
  rfl

theorem recConnModify_conn {r : Bytes} {w : Wire} {i : Nat} (ok : ConnRecord r)
    (held : connFind w.tabs (slice r 0x10 40) = some i) :
    (recConnModify r w).2.tabs.conn = mput w.tabs.conn i (recEntry r) := by
  simp only [recConnModify, ok.passes, recKey, held, Bool.false_eq_true, if_false]
  rfl

theorem recConnDelete_conn {r : Bytes} {w : Wire} {i : Nat} (ok : ConnRecord r)
    (held : connFind w.tabs (slice r 0x10 40) = some i) :
    (recConnDelete r w).2.tabs.conn = mdel w.tabs.conn i := by
  have kind := (Bool.or_eq_false_iff.mp ok.passes).2
  simp only [recConnDelete, kind, recKey, held, Bool.false_eq_true, if_false]
  rfl

/-- An entry written reads back whole. -/
theorem connAt_recEntry {t : Tabs} {c : List (Nat × Bytes)} {i : Nat} {r : Bytes} (written : t.conn = mput c i (recEntry r)) :
    connAt t i = recEntry r := by
  have length : (recEntry r).length = 64 := by
    rw [recEntry, length_splice _ _ _ (by simp), length_slice]
  rw [connAt, written, mgetD_mput_same, padTo_of_length 64 _ length]

/-- R289, R303: connection records do their work. -/
theorem connRecords_run (l : TblList) (ls : List TblList) (r : Bytes) (i : Nat) (s : State) (lists : s.tabs.lists = l :: ls)
    (host : l.origin = 0) (length : r.length = 128) (formed : recordOk r = true) (action : field r 0x3A 3 < 16384)
    (kind : field r 0x35 1 = 1 ∨ field r 0x35 1 = 2) :
    (field r 0 1 = 1 → connFind s.tabs (slice r 0x10 40) = none →
      (connSlots (slice r 0x10 40)).find? (fun i => !connValid s.tabs i) = some i →
      Runs (.connInsert (some r)) s fun t => connAt t.tabs i = recEntry r) ∧
    (field r 0 1 = 2 → connFind s.tabs (slice r 0x10 40) = some i →
      Runs (.connModify (some r)) s fun t => connAt t.tabs i = recEntry r) ∧
    (field r 0 1 = 3 → connFind s.tabs (slice r 0x10 40) = some i →
      Runs (.connDelete (some r)) s fun t => mget t.tabs.conn i = none) := by
  have next : NextRecord r (wireOf s) := ⟨⟨l, ls, lists, host⟩, length, formed⟩
  have ok : ConnRecord r := ⟨action, kind⟩
  refine ⟨fun named new free => ⟨_, rfl, ?insert⟩, fun named held => ⟨_, rfl, ?modify⟩,
    fun named held => ⟨_, rfl, ?delete⟩⟩
  case insert => exact connAt_recEntry ((conn_tblStep recConnInsert next named).trans (recConnInsert_conn ok new free))
  case modify => exact connAt_recEntry ((conn_tblStep recConnModify next named).trans (recConnModify_conn ok held))
  case delete =>
    simp only [conn_tblStep recConnDelete next named, recConnDelete_conn (w := wireOf s) ok held, mget_mdel_same]

/-! ### Bridge records (R295, R303, R549) -/

/-- The entry that a BR_INSERT record writes at an instant. -/
def recBridge (r : Bytes) (time : Nat) : BrEntry :=
  { mac := slice r 0x10 6, bd := field r 0x16 2, dest := field r 0x18 2, owner := field r 0x1A 2
    static := (field r 0x1C 1).testBit 1, remote := (field r 0x1C 1).testBit 2, hit := [], time := time, idle := 0
    stale := false }

/-- The key of a bridge record. -/
theorem recBrKey (r : Bytes) : slice (slice r 0x10 16) 0 6 = slice r 0x10 6 ∧ field (slice r 0x10 16) 6 2 = field r 0x16 2 :=
  ⟨slice_slice r 0x10 16 0 6 (by decide), field_slice r 0x10 16 6 2 (by decide)⟩

theorem recBrInsert_br {d : Dom} {r : Bytes} {w : Wire} {i : Nat} (known : field r 0x18 2 ≠ 0xFFFF)
    (new : brFind w.tabs (slice r 0x10 6) (field r 0x16 2) = none)
    (free : brPlace w.tabs (slice r 0x10 6) (field r 0x16 2) = some i) :
    (recBrInsert d r w).2.tabs.br = mput w.tabs.br i (recBridge r (time64 w.io)) := by
  have rest : field (slice r 0x10 16) 8 2 = field r 0x18 2 ∧ field (slice r 0x10 16) 0x0A 2 = field r 0x1A 2 ∧
      field (slice r 0x10 16) 0x0C 1 = field r 0x1C 1 :=
    ⟨field_slice r 0x10 16 8 2 (by decide), field_slice r 0x10 16 0x0A 2 (by decide),
      field_slice r 0x10 16 0x0C 1 (by decide)⟩
  simp only [recBrInsert, recBrKey, rest, known, new, free, decide_false, Bool.false_and, Bool.false_eq_true, if_false]
  exact install_br d i (recBridge r (time64 w.io)) w

theorem recBrDelete_br {c : Cont} {d : Dom} {r : Bytes} {w : Wire} {i : Nat} {e : BrEntry} (together : d.state ≠ 2)
    (held : brFind w.tabs (slice r 0x10 6) (field r 0x16 2) = some (i, e))
    (quiet : e.hit.any (fun x => (inService c).contains x) = false) :
    (recBrDelete c d r w).2.tabs.br = mdel w.tabs.br i := by
  simp only [recBrDelete, recBrKey, held, together, quiet, decide_false, Bool.false_and, Bool.and_false, Bool.false_eq_true,
    if_false, withdraw_br, brRemove_br]

/-- Entries removed in turn: each entry left was there, and none of those removed stands at its place. -/
theorem br_removed (d : Dom) (m : List (Nat × BrEntry)) (w : Wire) (e : Nat × BrEntry)
    (left : e ∈ (m.foldl (fun w e => withdraw d e.2 (brRemove e.1 e.2 w)) w).tabs.br) : e ∈ w.tabs.br ∧ ∀ x ∈ m, e.1 ≠ x.1 := by
  induction m generalizing w with
  | nil => exact ⟨left, List.forall_mem_nil _⟩
  | cons y m ih =>
    obtain ⟨stood, others⟩ := ih _ left
    simp only [withdraw_br, brRemove_br, mdel, List.mem_filter, bne_iff_ne] at stood
    exact ⟨stood.1, List.forall_mem_cons.mpr ⟨stood.2, others⟩⟩

theorem recBrFlush_br {d : Dom} {r : Bytes} {w : Wire} (together : d.state ≠ 2) :
    (recBrFlush d r w).2.tabs.br.all (fun e => !flushMatch r e.2) = true := by
  simp only [recBrFlush, together, decide_false, Bool.false_and, Bool.false_eq_true, if_false, List.all_eq_true, Bool.not_eq_true']
  intro e left
  obtain ⟨stood, others⟩ := br_removed d _ w e left
  refine Bool.eq_false_iff.mpr fun matched => ?_
  exact others e (List.mem_filter.mpr ⟨stood, matched⟩) rfl

/-- R295, R303: bridge records do their work where the device is not isolated. -/
theorem bridgeRecords_run (l : TblList) (ls : List TblList) (r : Bytes) (i : Nat) (s : State) (lists : s.tabs.lists = l :: ls)
    (host : l.origin = 0) (length : r.length = 128) (formed : recordOk r = true) (together : s.dom.state ≠ 2) :
    (field r 0 1 = 0x11 → field r 0x18 2 ≠ 0xFFFF → brFind s.tabs (slice r 0x10 6) (field r 0x16 2) = none →
      brPlace s.tabs (slice r 0x10 6) (field r 0x16 2) = some i →
      Runs (.brInsert (some r)) s fun t => ∃ e, mget t.tabs.br i = some e ∧ e.mac = slice r 0x10 6 ∧ e.bd = field r 0x16 2 ∧
        e.dest = field r 0x18 2 ∧ e.owner = field r 0x1A 2 ∧ e.static = (field r 0x1C 1).testBit 1) ∧
    (∀ (e : BrEntry), field r 0 1 = 0x12 → brFind s.tabs (slice r 0x10 6) (field r 0x16 2) = some (i, e) →
      e.hit.any (fun x => (inService s.cont).contains x) = false →
      Runs (.brDelete (some r)) s fun t => mget t.tabs.br i = none) ∧
    (field r 0 1 = 0x13 → Runs (.brFlush (some r)) s fun t => t.tabs.br.all (fun e => !flushMatch r e.2) = true) := by
  have next : NextRecord r (wireOf s) := ⟨⟨l, ls, lists, host⟩, length, formed⟩
  refine ⟨fun named known new free => ⟨_, rfl, recBridge r (time64 s.io), ?insert, rfl, rfl, rfl, rfl, rfl⟩,
    fun e named held quiet => ⟨_, rfl, ?delete⟩, fun named => ⟨_, rfl, ?flush⟩⟩
  case insert => rw [br_tblStep _ next named, recBrInsert_br known new free, mget_mput_same]; rfl
  case delete =>
    simp only [br_tblStep _ next named, recBrDelete_br (w := wireOf s) together held quiet, mget_mdel_same]
  case flush => simp only [br_tblStep _ next named, recBrFlush_br together]

/-- Settles O26, command by command. -/
theorem tableCommandsRun : Obligations.TableCommandsRun :=
  ⟨tblListStart_regs, tblListStart_cmd, connRecords_run, bridgeRecords_run⟩

/-! ### The proof pass (R306 to R309) -/

@[simp] theorem shadowFetch_tabs (w : Wire) : (shadowFetch w).tabs = w.tabs := ite_keeps Wire.tabs rfl rfl

theorem sent_shadowFetch (w : Wire) : w.io.sent <:+ (shadowFetch w).io.sent := by
  simp only [shadowFetch]
  split
  · exact sent_hostRead _ _ _ _
  · exact List.suffix_refl _

@[simp] theorem proofPut_proof (p : Proof) (w : Wire) : (proofPut p w).tabs.proof = p := rfl

theorem sent_proofPut (p : Proof) (w : Wire) : w.io.sent <:+ (proofPut p w).io.sent := (notes_dsetV _ _ w.io).sent

theorem sent_endCmd (obj st : Nat) (r : Bytes) (io : Io) : io.sent <:+ (endCmd obj st r io).sent := by
  simp only [endCmd]
  split
  · exact List.suffix_refl _
  · rename_i b _
    exact (notes_sendNote b.assoc _ { io with oa := { io.oa with running := mdel io.oa.running obj } }).sent

theorem proofEnd_state (st : Nat) (w : Wire) : (proofEnd st w).tabs.proof.state = st := rfl

theorem sent_proofEnd (st : Nat) (w : Wire) : w.io.sent <:+ (proofEnd st w).io.sent :=
  (sent_proofPut _ w).trans (sent_endCmd _ _ _ _)

/-- The pass that START, or RESUME of the pass `o`, begins at an instant. -/
def passBegun (resume : Bool) (a : Bytes) (time : Nat) (o : Proof) : Proof :=
  { state := 1, table := field a 1 1, staticOnly := field a 2 1 == 1, first := field a 4 4, last := field a 8 4
    cursor := if resume then max o.cursor (field a 4 4) else field a 4 4, shadow := field a 0x10 8, ring := field a 0x18 8
    log2n := field a 0x0C 1, ctlblk := field a 0x20 8, counter := BitVec.ofNat 32 (field a 0x28 4)
    seen := BitVec.ofNat 32 (field a 0x28 4), compared := if resume then o.compared else 0
    mismatches := if resume then o.mismatches else 0, firstMis := if resume then o.firstMis else 0
    lastMis := if resume then o.lastMis else 0, began := time, ended := 0, waiting := [] }

/-- R306: with no pass running, an argument in range begins one and is answered IN_PROGRESS. -/
theorem proofBegin_runs (resume : Bool) (b : Issuer) (a : Bytes) (s : State) (passes : proofGate s.start.stage b a s.io = none)
    (idle : proofRuns s.tabs.proof = false) (range : proofArgOk a = true) :
    told (onWire (proofBegin resume s.start.stage b a) s) b 0x090300 9 ∧
      (onWire (proofBegin resume s.start.stage b a) s).tabs.proof = passBegun resume a (time64 s.io) s.tabs.proof := by
  have begun : proofBegin resume s.start.stage b a (wireOf s) =
      shadowFetch (proofPut (passBegun resume a (time64 s.io) s.tabs.proof) ((wireOf s).on (beginCmd b 0x090300))) := by
    simp only [proofBegin, wireOf_io, wireOf_tabs, passes, idle, range, Bool.not_true, Bool.false_eq_true, if_false]
    rfl
  refine ⟨⟨[], (?_ : _ ∈ (onWire _ s).io.sent)⟩, ?_⟩
  · rw [onWire_io, begun]
    exact ((sent_proofPut _ _).trans (sent_shadowFetch _)).subset List.mem_cons_self
  · rw [onWire_tabs, begun, shadowFetch_tabs, proofPut_proof]

theorem proofCommands_begin (b : Issuer) (a : Bytes) (s : State) (passes : proofGate s.start.stage b a s.io = none)
    (idle : proofRuns s.tabs.proof = false) (range : proofArgOk a = true) :
    Runs (.proofStart b a) s (fun t => told t b 0x090300 9 ∧ t.tabs.proof.state = 1 ∧ t.tabs.proof.cursor = field a 4 4 ∧
      t.tabs.proof.last = field a 8 4 ∧ t.tabs.proof.compared = 0) ∧
    Runs (.proofResume b a) s (fun t => told t b 0x090300 9 ∧ t.tabs.proof.state = 1 ∧
      t.tabs.proof.cursor = max s.tabs.proof.cursor (field a 4 4) ∧ t.tabs.proof.compared = s.tabs.proof.compared) := by
  refine ⟨⟨_, rfl, ?start⟩, ⟨_, rfl, ?resume⟩⟩
  case start =>
    obtain ⟨answered, pass⟩ := proofBegin_runs false b a s passes idle range
    rw [pass]; exact ⟨answered, rfl, rfl, rfl, rfl⟩
  case resume =>
    obtain ⟨answered, pass⟩ := proofBegin_runs true b a s passes idle range
    rw [pass]; exact ⟨answered, rfl, rfl, rfl⟩

/-- R306: a running pass aborts. -/
theorem proofAbort_runs (b : Issuer) (a : Bytes) (s : State) (passes : proofGate s.start.stage b a s.io = none)
    (running : proofRuns s.tabs.proof = true) :
    Runs (.proofAbort b a) s fun t => told t b 0x090300 0 ∧ t.tabs.proof.state = 4 := by
  refine ⟨_, rfl, ?_⟩
  have aborted : proofAbort s.start.stage b a (wireOf s) = proofEnd 4 ((wireOf s).on (answer b (idx 0x090300 0) 0 [])) := by
    simp only [proofAbort, wireOf_io, wireOf_tabs, passes, running, if_true]
  refine ⟨⟨[], (?_ : _ ∈ (onWire _ s).io.sent)⟩, ?_⟩
  · rw [onWire_io, aborted]; exact (sent_proofEnd 4 _).subset List.mem_cons_self
  · rw [onWire_tabs, aborted, proofEnd_state]

/-- R308: a mismatch record written moves the ring's counter alone. -/
theorem proofWrite_proof (body : Bytes) (w : Wire) :
    (proofWrite body w).tabs.proof = { w.tabs.proof with counter := w.tabs.proof.counter + 1 } := rfl

/-- R307: a comparison with a shadow that was read moves the cursor on by one, whatever it finds. -/
theorem proofCompare_cursor (sh : Bytes) (w : Wire) (running : w.tabs.proof.state = 1) (within : w.tabs.proof.cursor ≤ w.tabs.proof.last) :
    (proofCompare (some sh) w).tabs.proof.cursor = w.tabs.proof.cursor + 1 := by
  have goesOn : ¬ w.tabs.proof.last < w.tabs.proof.cursor := Nat.not_lt.mpr within
  simp only [proofCompare, running, goesOn, ne_eq, not_true_eq_false, decide_false, Bool.or_self, Bool.false_eq_true, if_false]
  refine ite_keeps (fun w : Wire => w.tabs.proof.cursor) ?_ (ite_keeps (fun w : Wire => w.tabs.proof.cursor) rfl ?_) <;>
    simp only [shadowFetch_tabs, proofPut_proof, proofWrite_proof]

theorem proofCompare_runs (sh : Option Bytes) (s : State) (running : s.tabs.proof.state = 1)
    (within : s.tabs.proof.cursor ≤ s.tabs.proof.last) :
    Runs (.proofCompare sh) s fun t =>
      if sh.isSome then t.tabs.proof.cursor = s.tabs.proof.cursor + 1 else t.tabs.proof.state = 6 := by
  refine ⟨_, rfl, ?_⟩
  cases sh with
  | some b => exact proofCompare_cursor b (wireOf s) running within
  | none =>
    have failed : proofCompare none (wireOf s) = proofEnd 6 (wireOf s) := by
      simp [proofCompare, running, Nat.not_lt.mpr within]
    simp only [onWire_tabs, failed]; rfl

/-- Mismatch records written in turn leave the state of the pass and the consumer counter it has seen. -/
theorem proofWrites_proof (l : List (Nat × Bytes)) (w : Wire) :
    let q := (l.foldl (fun w x => proofWrite x.2 w) w).tabs.proof
    q.state = w.tabs.proof.state ∧ q.seen = w.tabs.proof.seen :=
  Prod.mk.inj (foldl_keeps (fun w : Wire => (w.tabs.proof.state, w.tabs.proof.seen))
    (fun w (x : Nat × Bytes) => proofWrite x.2 w) (fun _ _ => rfl) l w)

/-- R308: a paused pass whose ring has room again runs. -/
theorem proofRingPoll_runs (c : Word32) (s : State) (paused : s.tabs.proof.state = 2)
    (room : (s.tabs.proof.counter - c).toNat < 2 ^ s.tabs.proof.log2n) :
    Runs (.proofRingPoll (some c)) s fun t => t.tabs.proof.state = 1 ∧ t.tabs.proof.seen = c := by
  refine ⟨_, rfl, ?_⟩
  have known : (s.tabs.proof.counter - c).toNat ≤ 2 ^ s.tabs.proof.log2n := Nat.le_of_lt room
  have notFull : ¬ 2 ^ s.tabs.proof.log2n ≤ (s.tabs.proof.counter - c).toNat := Nat.not_le.mpr room
  simp only [onWire_tabs, proofPoll, wireOf_tabs, paused, known, proofFull, notFull, ne_eq, not_true_eq_false, if_false, if_true,
    decide_false, Bool.false_eq_true, shadowFetch_tabs, proofPut_proof]
  exact proofWrites_proof _ _

/-- R306: a pass past its last index is complete. -/
theorem proofPassEnd_runs (s : State) (running : s.tabs.proof.state = 1) (past : s.tabs.proof.last < s.tabs.proof.cursor) :
    Runs .proofPassEnd s fun t => t.tabs.proof.state = 3 := by
  refine ⟨_, rfl, ?_⟩
  simp only [onWire_tabs, wireOf_tabs, running, past, decide_true, Bool.and_self, if_true, proofEnd_state]

/-- Settles O27, command by command. -/
theorem proofPassRuns : Obligations.ProofPassRuns :=
  ⟨proofCommands_begin, proofAbort_runs, proofCompare_runs, proofRingPoll_runs, proofPassEnd_runs⟩

end Sys2Proof.Proofs
